-- ==== Sys2Proof/Word.lean ====
section
/-! DEFINITION. The words the Kamostair K4 computes with: 64-bit registers, bytes, FP32 words and the 1024-bit
vector register, and the numbering of cores, threads and dies. -/

namespace Sys2Proof

/-- A 64-bit register or control word (R35, R581). -/
abbrev Word := BitVec 64

/-- One byte of memory. -/
abbrev Byte := BitVec 8

/-- The bits of one FP32 number (R114). -/
abbrev F32 := BitVec 32

/-- A vector register (R35, R165). -/
abbrev Vec := BitVec 1024

/-- A core inside its module: bits 9:8 die, 7:4 row, 3:0 logical column (R13). -/
abbrev CoreIx := BitVec 10

/-- A die of the module (R15). -/
abbrev DieIx := BitVec 2

/-- A hardware thread of a core (R35). -/
abbrev ThrIx := BitVec 2

end Sys2Proof
end

