-- ==== Sys2Proof/Syntax.lean ====
section
/-! DEFINITION. The commands of the Kamostair K4: one constructor per row of the opcode table. An instruction command
carries its issuing thread and the raw fields of its encoding; an event command carries what the environment decides
(an arriving packet, a measured value, an ECC outcome). -/

namespace Sys2Proof

/-- A hardware thread of the module (R35). -/
structure Who where
  core : CoreIx
  thr  : ThrIx
  deriving DecidableEq, Repr

/-- What the core's own checks find as it runs an instruction: nothing, a register parity error (R56), a residue or sign-and-exponent
mismatch (R438), a parity error of the data-cache line it reads or of the instruction-cache line it is fetched from (R76), a corrected or an
uncorrectable word of the core's own local store that it reads as it runs (R186): the word an atomic reads, the message it takes or the slot image
it fills; or a corrected or an uncorrectable word of the instruction itself as its line is fetched (R57). -/
inductive Found where
  | clean | parity | residue | cacheParity | corrected | uncorrectable | fetchParity | fetchCorrected | fetchUncorrectable
  deriving DecidableEq, Repr

/-- Who issues an instruction, the opcode (bits 31:26) of an encoding that is reserved, be it for its opcode, its FUNC or a field that must be 0
(R60), and what the core's checks find. -/
structure Iss where
  who   : Who
  rsv   : Option (BitVec 6)
  found : Found
  deriving DecidableEq, Repr

/-- How an access to a control word reaches it (R578): a thread of some core by `csr.w` or its own space-3 address (it has core-window
rights only outside its own core), any access from outside the core, or the debug path (R558). -/
inductive Via where
  | thread (w : Who)
  | window
  | debug
  deriving DecidableEq, Repr

/-- How a dictionary access arrives (R473, R496): PCI Express, a field node with its MAC address, or an entry of a write set. -/
inductive Path where
  | host
  | node (n : BitVec 8) (mac : BitVec 48)
  | writeSet
  deriving DecidableEq, Repr

/-- What the ECC logic finds in a word as it is read (R186, R196, R247). -/
inductive Upset where
  | none
  | corrected
  | uncorrectable
  deriving DecidableEq, Repr

/-- AUX of OPC 0x01 (R61). -/
structure FxAux where
  sat  : Bool
  rnd  : BitVec 2
  wide : Bool
  ga   : Bool
  deriving DecidableEq, Repr

/-- The addressing fields of format M (R61, R62). -/
structure MemF where
  mode : BitVec 2
  g    : Bool
  nc   : Bool
  disp : BitVec 12
  deriving DecidableEq, Repr

/-- The fields of the tile memory encoding (R85). -/
structure TileF where
  td   : BitVec 3
  rb   : BitVec 5
  rs   : BitVec 5
  g    : Bool
  src  : Bool
  strm : BitVec 3
  rows : BitVec 5
  kf   : BitVec 5
  fmt  : BitVec 4
  deriving DecidableEq, Repr

/-- The fields of the matrix encoding (R98). -/
structure MatF where
  ta   : BitVec 3
  tb   : BitVec 3
  acc  : BitVec 4
  ovw  : Bool
  tra  : Bool
  scs  : Bool
  mf   : BitVec 5
  nf   : BitVec 5
  kf   : BitVec 5
  fmta : BitVec 4
  fmtb : BitVec 4
  deriving DecidableEq, Repr

/-- The fields of the vector encoding (R167). -/
structure VecF where
  pred : BitVec 3
  zm   : Bool
  fmt  : BitVec 4
  sat  : Bool
  rnd  : BitVec 2
  gs   : BitVec 5
  imm  : BitVec 16
  vd   : BitVec 5
  vs1  : BitVec 5
  vs2  : BitVec 5
  vs3  : BitVec 5
  deriving DecidableEq, Repr

/-- A transient or permanent fault of the adder tree: the bit it flips in the result of element (row, col) (R157, R161). -/
structure Flip where
  row : BitVec 5
  col : BitVec 5
  bit : BitVec 5
  deriving DecidableEq, Repr

/-- A Thaex packet: the header fields of R399 and the payload. -/
structure Packet where
  kind   : BitVec 4
  tc     : BitVec 2
  hop    : BitVec 3
  dmod   : BitVec 12
  smod   : BitVec 12
  sdie   : DieIx
  sepoch : BitVec 8
  seq    : BitVec 24
  skind  : BitVec 2
  sid    : BitVec 22
  thr    : ThrIx
  len    : BitVec 13
  oparg  : BitVec 16
  addr   : Word
  aux    : BitVec 32
  payload : List Byte
  e2e    : BitVec 32
  deriving DecidableEq, Repr

/-- A flit group as it is received (R394, R395): the symbols that were damaged on the way, by logical lane and place on the lane since the first of
the codewords that carry the group began; its 63 units, the fields of its trailer and its CRC as they were sent. -/
structure GroupIn where
  bad    : List (BitVec 4 × Nat)
  units  : List (BitVec 256)
  cred   : List (BitVec 5)
  crc    : BitVec 32
  gseq   : BitVec 16
  ackseq : BitVec 16
  nak    : Bool
  rest   : BitVec 5
  rchg   : Bool
  gdis   : BitVec 4
  deriving DecidableEq, Repr

/-- One module as the discovery packets describe it (R412): serial number, requested ID, the ID its serial number holds already,
and its sub-port links as (own port, own sub-port, peer serial number). -/
structure DiscNode where
  serial : BitVec 64
  idReq  : BitVec 16
  held   : Option (BitVec 12)
  links  : List (BitVec 4 × BitVec 2 × BitVec 64)
  deriving DecidableEq, Repr

/-- What an SPD hub reports of a DIMM (R244). `cap`: 1, 2, 3 for 64, 128, 256 GiB, 0 for any other size. `width`: 1 x4, 2 x8, 0 other. -/
structure Dimm where
  rdimm : Bool
  mts   : Nat
  ecc   : Bool
  width : BitVec 2
  cap   : BitVec 4
  deriving DecidableEq, Repr

/-- A firmware image (R527): its header fields, public key, signature and body. -/
structure Image where
  magic    : BitVec 32
  version  : BitVec 32
  svn      : BitVec 16
  advance  : Bool
  zeros    : Bool
  bodyLen  : Nat
  bodyHash : BitVec 256
  header   : List Byte
  pubKey   : List Byte
  sig      : List Byte
  body     : List Byte
  deriving DecidableEq, Repr

/-- A memory unit of the Farrier (R417): HBM4 channel of a stack, or DDR5 subchannel of a channel. -/
inductive MemUnit where
  | hbm (stack : BitVec 4) (chan : BitVec 5)
  | ddr (chan : BitVec 4) (sub : BitVec 1)
  deriving DecidableEq, Repr

/-- What a checker guards (R442). -/
inductive Checker where
  | core (c : CoreIx)
  | die (d : DieIx)
  | thaex (p : BitVec 4)
  | lockstep (d : DieIx)
  deriving DecidableEq, Repr

/-- The scope of a voltage or clock monitor event (R443): one die, or the input and the rails the dies share. -/
inductive MonScope where
  | die (d : DieIx)
  | shared
  deriving DecidableEq, Repr

/-- What a `REGISTER_WRITE` names (R11): a control word of a core, a word of BAR0 (R489), or a dictionary entry. -/
inductive RegTarget where
  | control (v : Via) (core : CoreIx) (off : BitVec 16)
  | bar0 (off : BitVec 16)
  | entry (p : Path) (index : BitVec 16) (sub : BitVec 8) (type : BitVec 4) (bytes : List Byte)
  deriving DecidableEq, Repr

/-- What tret finds as it reads the instruction at THR_EPC again (R93): the doubleword, and what ECC finds in it. -/
structure Refetch where
  word  : BitVec 64
  upset : Upset
  deriving DecidableEq, Repr

/-- The prediction of a branch: its direction, and the addresses of the loads that were sent on the predicted path (R47, R49). -/
structure Predicted where
  taken : Bool
  wrong : List Word
  deriving DecidableEq, Repr

/-- What ECC and parity find as a line fills a cache (R76, R186). -/
structure FillFound where
  upset  : Upset
  parity : Bool
  deriving DecidableEq, Repr

/-- What befalls a retry (R154, R156): a flip of the recomputation, whether ECC cannot correct the shadow, and what it finds in operands read again. -/
structure RetryFound where
  flip   : Option Flip
  shadow : Bool
  upset  : Upset
  deriving DecidableEq, Repr

/-- A packet at its destination, with what ECC finds in the words it reads. -/
structure PacketIn where
  pkt   : Packet
  upset : Upset
  deriving DecidableEq, Repr

/-- An atomic at its slice, with what ECC finds in its word. -/
structure AtomicIn where
  seq   : Nat
  upset : Upset
  deriving DecidableEq, Repr

/-- The end of a row's drain (R25, R448): whether the limit has come, and the words, by column and offset, that ECC could not correct as local stores
were copied. -/
structure DrainEnd where
  limit : Bool
  lost  : List (BitVec 4 × Nat)
  deriving DecidableEq, Repr

/-- The commands, in the order of the opcode table; each line cites its row and rule. -/
inductive Instr where
  | coreStart (v : Via) (c : CoreIx) (addr : Word) -- CORE_START, R38
  | fork (i : Iss) (rd rs1 rs2 : BitVec 5) -- FORK, R39
  | join (i : Iss) (rd rs1 : BitVec 5) -- JOIN, R43
  | endThread (i : Iss) (rs1 : BitVec 5) -- END, R41
  | nop (i : Iss) -- NOP, R579
  | tret (i : Iss) (found : Refetch) -- TRET, R55
  | brk (i : Iss) -- BRK, R57
  | syncE (i : Iss) (mask : BitVec 5) -- SYNC_E, R269
  | fenceT (i : Iss) -- FENCE_T, R276
  | fenceR (i : Iss) -- FENCE_R, R276
  | fenceD (i : Iss) -- FENCE_D, R276
  | fenceM (i : Iss) -- FENCE_M, R276
  | fenceS (i : Iss) -- FENCE_S, R276
  | cacheInv (i : Iss) (rs1 rs2 : BitVec 5) -- CACHE_INV, R74
  | cacheInvall (i : Iss) -- CACHE_INVALL, R74
  | cacheIinv (i : Iss) -- CACHE_IINV, R74
  | addR (i : Iss) (rd rs1 rs2 : BitVec 5) -- ADD, R580
  | subR (i : Iss) (rd rs1 rs2 : BitVec 5) -- SUB, R580
  | andR (i : Iss) (rd rs1 rs2 : BitVec 5) -- AND, R580
  | orR (i : Iss) (rd rs1 rs2 : BitVec 5) -- OR, R580
  | xorR (i : Iss) (rd rs1 rs2 : BitVec 5) -- XOR, R580
  | shl (i : Iss) (rd rs1 rs2 : BitVec 5) -- SHL, R580
  | shr (i : Iss) (rd rs1 rs2 : BitVec 5) -- SHR, R580
  | sra (i : Iss) (rd rs1 rs2 : BitVec 5) -- SRA, R580
  | mulR (i : Iss) (rd rs1 rs2 : BitVec 5) -- MUL, R580
  | mulh (i : Iss) (rd rs1 rs2 : BitVec 5) -- MULH, R580
  | mulhu (i : Iss) (rd rs1 rs2 : BitVec 5) -- MULHU, R580
  | divR (i : Iss) (rd rs1 rs2 : BitVec 5) -- DIV, R580
  | divu (i : Iss) (rd rs1 rs2 : BitVec 5) -- DIVU, R580
  | remR (i : Iss) (rd rs1 rs2 : BitVec 5) -- REM, R580
  | remu (i : Iss) (rd rs1 rs2 : BitVec 5) -- REMU, R580
  | minR (i : Iss) (rd rs1 rs2 : BitVec 5) -- MIN, R580
  | maxR (i : Iss) (rd rs1 rs2 : BitVec 5) -- MAX, R580
  | qadd (i : Iss) (rd rs1 rs2 : BitVec 5) (a : FxAux) -- QADD, R71
  | qsub (i : Iss) (rd rs1 rs2 : BitVec 5) (a : FxAux) -- QSUB, R71
  | qmul (i : Iss) (rd rs1 rs2 : BitVec 5) (a : FxAux) -- QMUL, R71
  | qmac (i : Iss) (rs1 rs2 : BitVec 5) (a : FxAux) -- QMAC, R71
  | qext (i : Iss) (rd : BitVec 5) (a : FxAux) -- QEXT, R71
  | qclr (i : Iss) (a : FxAux) -- QCLR, R71
  | gaLo (i : Iss) (rd : BitVec 5) (a : FxAux) -- GA_LO, R71
  | gaHi (i : Iss) (rd : BitVec 5) (a : FxAux) -- GA_HI, R71
  | gaWr (i : Iss) (rs1 rs2 : BitVec 5) (a : FxAux) -- GA_WR, R71
  | cmpEq (i : Iss) (rd rs1 rs2 : BitVec 5) -- CMP_EQ, R580
  | cmpNe (i : Iss) (rd rs1 rs2 : BitVec 5) -- CMP_NE, R580
  | cmpLt (i : Iss) (rd rs1 rs2 : BitVec 5) -- CMP_LT, R580
  | cmpLtu (i : Iss) (rd rs1 rs2 : BitVec 5) -- CMP_LTU, R580
  | cmpGe (i : Iss) (rd rs1 rs2 : BitVec 5) -- CMP_GE, R580
  | cmpGeu (i : Iss) (rd rs1 rs2 : BitVec 5) -- CMP_GEU, R580
  | pand (i : Iss) (rd : BitVec 5) (ps1 ps2 : BitVec 3) -- PAND, R580
  | por (i : Iss) (rd : BitVec 5) (ps1 ps2 : BitVec 3) -- POR, R580
  | pnot (i : Iss) (rd : BitVec 5) (ps1 : BitVec 3) -- PNOT, R580
  | csrR (i : Iss) (rd : BitVec 5) (off : BitVec 16) -- CSR_R, R61
  | csrW (i : Iss) (rs1 : BitVec 5) (off : BitVec 16) -- CSR_W, R61
  | addi (i : Iss) (rd rs1 : BitVec 5) (imm : BitVec 16) -- ADDI, R61
  | andi (i : Iss) (rd rs1 : BitVec 5) (imm : BitVec 16) -- ANDI, R61
  | ori (i : Iss) (rd rs1 : BitVec 5) (imm : BitVec 16) -- ORI, R61
  | xori (i : Iss) (rd rs1 : BitVec 5) (imm : BitVec 16) -- XORI, R61
  | shli (i : Iss) (rd rs1 : BitVec 5) (imm : BitVec 16) -- SHLI, R580
  | lui (i : Iss) (rd : BitVec 5) (imm : BitVec 16) -- LUI, R61
  | ldB (i : Iss) (rd rb : BitVec 5) (m : MemF) -- LD_B, R62
  | ldBU (i : Iss) (rd rb : BitVec 5) (m : MemF) -- LD_BU, R62
  | ldH (i : Iss) (rd rb : BitVec 5) (m : MemF) -- LD_H, R62
  | ldHU (i : Iss) (rd rb : BitVec 5) (m : MemF) -- LD_HU, R62
  | ldW (i : Iss) (rd rb : BitVec 5) (m : MemF) -- LD_W, R62
  | ldWU (i : Iss) (rd rb : BitVec 5) (m : MemF) -- LD_WU, R62
  | ldD (i : Iss) (rd rb : BitVec 5) (m : MemF) -- LD_D, R62
  | stB (i : Iss) (rd rb : BitVec 5) (m : MemF) -- ST_B, R62
  | stH (i : Iss) (rd rb : BitVec 5) (m : MemF) -- ST_H, R62
  | stW (i : Iss) (rd rb : BitVec 5) (m : MemF) -- ST_W, R62
  | stD (i : Iss) (rd rb : BitVec 5) (m : MemF) -- ST_D, R62
  | tas (i : Iss) (rd ra rs2 : BitVec 5) -- TAS, R64
  | lrW (i : Iss) (rd ra rs2 : BitVec 5) -- LR_W, R64
  | lrD (i : Iss) (rd ra rs2 : BitVec 5) -- LR_D, R64
  | scW (i : Iss) (rd ra rs2 : BitVec 5) -- SC_W, R64
  | scD (i : Iss) (rd ra rs2 : BitVec 5) -- SC_D, R64
  | casD (i : Iss) (rd ra rs2 : BitVec 5) -- CAS_D, R64
  | faddL (i : Iss) (rd ra rs2 : BitVec 5) -- FADD_L, R64
  | reservationTimeout (w : Who) -- RESERVATION_TIMEOUT, R65
  | bp (i : Iss) (pred : BitVec 3) (sense : Bool) (off : BitVec 22) (predicted : Predicted) -- BP, R47
  | jal (i : Iss) (rd : BitVec 5) (off : BitVec 21) -- JAL, R61
  | jalr (i : Iss) (rd rs1 : BitVec 5) -- JALR, R579
  | cacheFillReturn (seq : Nat) (found : FillFound) -- CACHE_FILL_RETURN, R75
  | tld (i : Iss) (f : TileF) -- TLD, R87
  | tldSc (i : Iss) (f : TileF) -- TLD_SC, R86
  | tst (i : Iss) (f : TileF) -- TST, R89
  | tstSc (i : Iss) (f : TileF) -- TST_SC, R89
  | trel (i : Iss) (td : BitVec 3) -- TREL, R90
  | tldDrop (i : Iss) -- TLD_DROP, R96
  | tldRowReturn (seq : Nat) (u : Upset) -- TLD_ROW_RETURN, R92
  | mm (i : Iss) (f : MatF) -- MM, R101
  | mmX2 (i : Iss) (f : MatF) -- MM_X2, R131
  | mmX3 (i : Iss) (f : MatF) -- MM_X3, R131
  | matrixQueueIssue (c : CoreIx) (flip : Option Flip) -- MATRIX_QUEUE_ISSUE, R100
  | checkpoint (c : CoreIx) -- CHECKPOINT, R150
  | accSpill (i : Iss) (acc : BitVec 4) (rx : BitVec 5) (keep : Bool) -- ACC_SPILL, R111
  | accFill (i : Iss) (acc : BitVec 4) (rx : BitVec 5) -- ACC_FILL, R111
  | accSend (i : Iss) (acc : BitVec 4) (rx : BitVec 5) -- ACC_SEND, R111
  | accChk (i : Iss) (acc : BitVec 4) -- ACC_CHK, R111
  | accRow (i : Iss) (acc : BitVec 4) (vd : BitVec 5) (row : BitVec 5) -- ACC_ROW, R111
  | accRmax (i : Iss) (acc : BitVec 4) (vd : BitVec 5) -- ACC_RMAX, R111
  | checkRetry (c : CoreIx) (found : RetryFound) -- CHECK_RETRY, R154
  | accSplitWrite (v : Via) (c : CoreIx) (val : Word) -- ACC_SPLIT_WRITE, R107
  | vadd (i : Iss) (f : VecF) -- VADD, R172
  | vsub (i : Iss) (f : VecF) -- VSUB, R172
  | vmul (i : Iss) (f : VecF) -- VMUL, R172
  | vfma (i : Iss) (f : VecF) -- VFMA, R172
  | vmax (i : Iss) (f : VecF) -- VMAX, R135
  | vmin (i : Iss) (f : VecF) -- VMIN, R135
  | vabs (i : Iss) (f : VecF) -- VABS, R168
  | vneg (i : Iss) (f : VecF) -- VNEG, R168
  | vcmpEq (i : Iss) (f : VecF) -- VCMP_EQ, R168
  | vcmpLt (i : Iss) (f : VecF) -- VCMP_LT, R168
  | vcmpLe (i : Iss) (f : VecF) -- VCMP_LE, R168
  | vbcast (i : Iss) (f : VecF) -- VBCAST, R168
  | vext (i : Iss) (f : VecF) -- VEXT, R168
  | vqAdd (i : Iss) (f : VecF) -- VQ_ADD, R168
  | vqSub (i : Iss) (f : VecF) -- VQ_SUB, R168
  | vqMul (i : Iss) (f : VecF) -- VQ_MUL, R168
  | vqMac (i : Iss) (f : VecF) -- VQ_MAC, R175
  | vqExt (i : Iss) (f : VecF) -- VQ_EXT, R175
  | vqClr (i : Iss) (f : VecF) -- VQ_CLR, R175
  | vredSum (i : Iss) (f : VecF) -- VRED_SUM, R178
  | vredMax (i : Iss) (f : VecF) -- VRED_MAX, R178
  | vredMin (i : Iss) (f : VecF) -- VRED_MIN, R178
  | vsmx (i : Iss) (f : VecF) -- VSMX, R180
  | vld (i : Iss) (f : VecF) -- VLD, R173
  | vst (i : Iss) (f : VecF) -- VST, R173
  | vexp2 (i : Iss) (f : VecF) -- VEXP2, R177
  | vlog2 (i : Iss) (f : VecF) -- VLOG2, R177
  | vrcp (i : Iss) (f : VecF) -- VRCP, R177
  | vrsqrt (i : Iss) (f : VecF) -- VRSQRT, R177
  | vtanh (i : Iss) (f : VecF) -- VTANH, R177
  | vsigm (i : Iss) (f : VecF) -- VSIGM, R177
  | vcvt (i : Iss) (f : VecF) -- VCVT, R174
  | vquant (i : Iss) (f : VecF) -- VQUANT, R174
  | sndQ (i : Iss) (tmo : BitVec 16) (lenm1 : BitVec 8) (gd vr gs : BitVec 5) -- SND_Q, R308
  | selQ (i : Iss) (tmo mask : BitVec 16) (rot : Bool) (gd vr : BitVec 5) -- SEL_Q, R313
  | pollQ (i : Iss) (q : BitVec 4) (gd vr : BitVec 5) -- POLL_Q, R316
  | messageCommit (seq : Nat) -- MESSAGE_COMMIT, R295
  | sendAnswer (seq : Nat) -- SEND_ANSWER, R308
  | sendRetry (seq : Nat) -- SEND_RETRY, R308
  | sndTimeout (w : Who) -- SND_TIMEOUT, R309
  | selWakeTake (w : Who) (u : Upset) -- SEL_WAKE_TAKE, R314
  | selTimeout (w : Who) -- SEL_TIMEOUT, R314
  | queOpen (v : Via) (c : CoreIx) (q : BitVec 4) -- QUE_OPEN, R291
  | queClose (v : Via) (c : CoreIx) (q : BitVec 4) -- QUE_CLOSE, R291
  | queReset (v : Via) (c : CoreIx) (q : BitVec 4) -- QUE_RESET, R291
  | queConfigWrite (v : Via) (c : CoreIx) (q : BitVec 4) (ctl : Bool) (val : Word) -- QUE_CONFIG_WRITE, R290
  | queDropRead (v : Via) (c : CoreIx) (q : BitVec 4) -- QUE_DROP_READ, R320
  | stnEntryWrite (v : Via) (c : CoreIx) (s : BitVec 8) (val : Word) -- STN_ENTRY_WRITE, R301
  | stnLaneWrite (v : Via) (c : CoreIx) (n : BitVec 8) (val : Word) -- STN_LANE_WRITE, R301
  | lsWindowWrite (v : Via) (c : CoreIx) (bound : Bool) (val : Word) -- LS_WINDOW_WRITE, R189
  | feedEnable (v : Via) (c : CoreIx) (t : ThrIx) (s : BitVec 3) (val : Word) -- FEED_ENABLE, R207
  | feedDisable (v : Via) (c : CoreIx) (t : ThrIx) (s : BitVec 3) -- FEED_DISABLE, R214
  | outriderFill (c : CoreIx) (t : ThrIx) (s : BitVec 3) -- OUTRIDER_FILL, R209
  | outriderFillReturn (c : CoreIx) (t : ThrIx) (s : BitVec 3) (u : Upset) -- OUTRIDER_FILL_RETURN, R209
  | feedRelayWrite (v : Via) (c : CoreIx) (t : ThrIx) (s : BitVec 3) (val : Word) -- FEED_RELAY_WRITE, R376
  | relaySend (c : CoreIx) (t : ThrIx) (s : BitVec 3) -- RELAY_SEND, R377
  | relayTileArrival (seq : Nat) -- RELAY_TILE_ARRIVAL, R378
  | lsPatrolScrub (c : CoreIx) (u : Upset) -- LS_PATROL_SCRUB, R187
  | loftPatrolScrub (d : DieIx) (slice : BitVec 2) (u : Upset) -- LOFT_PATROL_SCRUB, R196
  | memPatrolScrub (d : DieIx) (ddr : Bool) (u : Upset) -- MEM_PATROL_SCRUB, R249
  | loftReadArrival (seq : Nat) -- LOFT_READ_ARRIVAL, R197
  | mergeEntryClose (d : DieIx) (line : Nat) -- MERGE_ENTRY_CLOSE, R197
  | writeArrival (seq : Nat) -- WRITE_ARRIVAL, R266
  | writeAckArrival (seq : Nat) -- WRITE_ACK_ARRIVAL, R278
  | dmaGo (v : Via) (c : CoreIx) (ch : BitVec 3) (val : Word) -- DMA_GO, R227
  | dmaChannelStart (team : BitVec 8) (granules : Nat) -- DMA_CHANNEL_START, R229
  | dmaChannelDone (team : BitVec 8) -- DMA_CHANNEL_DONE, R229
  | dmaBusError (team : BitVec 8) (u : Upset) -- DMA_BUS_ERROR, R231
  | dmaResume (v : Via) (c : CoreIx) -- DMA_RESUME, R232
  | dmaSkip (v : Via) (c : CoreIx) -- DMA_SKIP, R232
  | dmaAbort (v : Via) (c : CoreIx) -- DMA_ABORT, R232
  | xlInvTeam (v : Via) (c : CoreIx) (val : Word) -- XL_INV_TEAM, R255
  | xlInvModule (v : Via) (c : CoreIx) (val : Word) -- XL_INV_MODULE, R255
  | xlInvComplete (c : CoreIx) -- XL_INV_COMPLETE, R256
  | xlPtRootWrite (p : Path) (val : Word) -- XL_PT_ROOT_WRITE, R251
  | translationWalk (w : Who) -- TRANSLATION_WALK, R253
  | walkComplete (w : Who) -- WALK_COMPLETE, R258
  | busyRewalk (w : Who) -- BUSY_REWALK, R260
  | busyLimit (w : Who) -- BUSY_LIMIT, R260
  | hbArrive (i : Iss) (rd rs1 : BitVec 5) -- HB_ARRIVE, R329
  | hbWait (i : Iss) (rd rs1 rs2 : BitVec 5) -- HB_WAIT, R331
  | hbReport (d : DieIx) (b : BitVec 8) (remote : Option (BitVec 12)) -- HB_REPORT, R332
  | hbRelease (d : DieIx) (b : BitVec 8) -- HB_RELEASE, R332
  | hbTimeout (d : DieIx) (b : BitVec 8) -- HB_TIMEOUT, R335
  | hbCfgWrite (v : Via) (c : CoreIx) (b : BitVec 8) (val : Word) -- HB_CFG_WRITE, R326
  | hbSysWrite (v : Via) (c : CoreIx) (b : BitVec 8) (val : Word) -- HB_SYS_WRITE, R326
  | quiescent (d : DieIx) (b : BitVec 8) -- QUIESCENT, R341
  | redArm (v : Via) (c : CoreIx) (x : BitVec 4) (gen : BitVec 8) -- RED_ARM, R348
  | redDisarm (v : Via) (c : CoreIx) (x : BitVec 4) -- RED_DISARM, R348
  | redTileArrival (seq : Nat) -- RED_TILE_ARRIVAL, R356
  | redCreditGrant (seq : Nat) -- RED_CREDIT_GRANT, R352
  | redAdd (c : CoreIx) (x : BitVec 4) -- RED_ADD, R354
  | redForward (c : CoreIx) (x : BitVec 4) -- RED_FORWARD, R361
  | redDone (c : CoreIx) (x : BitVec 4) -- RED_DONE, R361
  | redDeadline (c : CoreIx) (x : BitVec 4) -- RED_DEADLINE, R358
  | redLimitExpire (c : CoreIx) (x : BitVec 4) -- RED_LIMIT_EXPIRE, R358
  | redCreditTimeout (seq : Nat) -- RED_CREDIT_TIMEOUT, R357
  | groupReceive (p : BitVec 4) (j : BitVec 2) (g : GroupIn) -- GROUP_RECEIVE, R396
  | portDown (p : BitVec 4) (j : BitVec 2) -- PORT_DOWN, R397
  | portRetrain (p : BitVec 4) (up : BitVec 4) (mismatch : Bool) -- PORT_RETRAIN, R397
  | packetForward (d : DieIx) (k : Packet) -- PACKET_FORWARD, R402
  | packetDeliver (k : PacketIn) -- PACKET_DELIVER, R404
  | thaexAckArrival (d : DieIx) (m : BitVec 12) (epoch : BitVec 8) (upTo : BitVec 24) (errors : List (BitVec 24 × BitVec 16)) -- THAEX_ACK_ARRIVAL, R405
  | readResponse (seq : Nat) (trap : Option (BitVec 8 × BitVec 16)) (data : List Byte) -- READ_RESPONSE, R407
  | probeSend (d : DieIx) (m : BitVec 12) -- PROBE_SEND, R408
  | probeReply (d : DieIx) (m : BitVec 12) (last : BitVec 24) -- PROBE_REPLY, R408
  | peerUnreach (m : BitVec 12) -- PEER_UNREACH, R409
  | unreachNotice (m : BitVec 12) -- UNREACH_NOTICE, R408
  | timeSync (upstream : BitVec 4) -- TIME_SYNC, R411
  | timeSyncReply (t1 t2 t3 t4 : Word) -- TIME_SYNC_REPLY, R411
  | fabricDiscovery (nodes : List DiscNode) -- FABRIC_DISCOVERY, R412
  | restRotate (p : BitVec 4) -- REST_ROTATE, R421
  | laneCalibrate (p : BitVec 4) (tx : Bool) (lane : BitVec 5) (margin : BitVec 16) (temp : BitVec 16) (vals : BitVec 128) -- LANE_CALIBRATE, R423
  | recalLimitExpire (p : BitVec 4) (lane : BitVec 5) -- RECAL_LIMIT_EXPIRE, R423
  | laneLoss (p : BitVec 4) (lane : BitVec 5) -- LANE_LOSS, R424
  | heaterTrack (p : BitVec 4) (tx : Bool) (lane : BitVec 5) (code : BitVec 16) -- HEATER_TRACK, R420
  | eyeSample (p : BitVec 4) (lane : BitVec 5) (margin : BitVec 6) -- EYE_SAMPLE, R425
  | powerBandSample (watts : BitVec 32) -- POWER_BAND_SAMPLE, R416
  | recordReselect (d : DieIx) (temp : BitVec 16) -- RECORD_RESELECT, R417
  | memPhyTrack (u : MemUnit) (margin : BitVec 16) (delays : BitVec 128) -- MEM_PHY_TRACK, R428
  | droopStretch (d : DieIx) (dom : BitVec 3) -- DROOP_STRETCH, R430
  | deepcalDone (recs : List (BitVec 16 × BitVec 8 × BitVec 256)) (restored : List (BitVec 4 × BitVec 5)) -- DEEPCAL_DONE, R431
  | recordFlashSave -- RECORD_FLASH_SAVE, R418
  | checkerSelftest (d : DieIx) (failed : Option Checker) -- CHECKER_SELFTEST, R441
  | monitorEvent (m : MonScope) -- MONITOR_EVENT, R443
  | doneHoldEnd (r : BitVec 6) (slot : BitVec 10) -- DONE_HOLD_END, R439
  | lockstepMismatch (d : DieIx) -- LOCKSTEP_MISMATCH, R447
  | rowQuiesce (p : Path) (val : BitVec 16) -- ROW_QUIESCE, R448
  | quiesceDrainEnd (d : DieIx) (drain : DrainEnd) -- QUIESCE_DRAIN_END, R448
  | itmRingCfgWrite (p : Path) (r : BitVec 6) (val : BitVec 256) -- ITM_RING_CFG_WRITE, R450
  | itmDbTail (r : BitVec 6) (slot : BitVec 10) (area : List (BitVec 10 × BitVec 512)) -- ITM_DB_TAIL, R452
  | itmDbAbort (r : BitVec 6) (slot : BitVec 10) -- ITM_DB_ABORT, R452
  | itemDeliver (r : BitVec 6) (slot : BitVec 10) -- ITEM_DELIVER, R454
  | itemSubmissionArrival (m : BitVec 12) (r : BitVec 6) (slot : BitVec 10) (e : BitVec 512) -- ITEM_SUBMISSION_ARRIVAL, R450
  | itemRecordArrival (m : BitVec 12) (r : BitVec 6) (rec : BitVec 256) -- ITEM_RECORD_ARRIVAL, R459
  | itmBind (w : Who) (handle : BitVec 16) -- ITM_BIND, R455
  | itmDone (w : Who) (handle : BitVec 16) -- ITM_DONE, R456
  | itmFail (w : Who) (handle : BitVec 16) (cause : BitVec 12) -- ITM_FAIL, R456
  | ledgerAudit -- LEDGER_AUDIT, R457
  | itemDeadline (r : BitVec 6) (slot : BitVec 10) -- ITEM_DEADLINE, R462
  | windowRead (off : BitVec 24) -- WINDOW_READ, R490
  | windowWrite (off : BitVec 24) (eight : Bool) (val : Word) -- WINDOW_WRITE, R490
  | dictCmdRead (index : BitVec 16) (sub : BitVec 8) -- DICT_CMD_READ, R491
  | dictCmdWrite (type : BitVec 4) (index : BitVec 16) (sub : BitVec 8) (len : BitVec 32) -- DICT_CMD_WRITE, R491
  | dictCmdAbort -- DICT_CMD_ABORT, R492
  | dictCmdComplete -- DICT_CMD_COMPLETE, R492
  | evtPop (v : Via) -- EVT_POP, R489
  | cfgSave (p : Path) (val : Byte) -- CFG_SAVE, R477
  | cfgDefaults (p : Path) (val : Byte) -- CFG_DEFAULTS, R477
  | ovlRequest (p : Path) (code : BitVec 8) -- OVL_REQUEST, R483
  | ovlDrainEnd -- OVL_DRAIN_END, R483
  | ovlDrainTimeout -- OVL_DRAIN_TIMEOUT, R483
  | safeholdEntered -- SAFEHOLD_ENTERED, R484
  | zeroize (p : Path) (val : Byte) -- ZEROIZE, R203
  | zeroizeDone -- ZEROIZE_DONE, R203
  | ownWriteset (bytes : List Byte) -- OWN_WRITESET, R502
  | ownKeyClaim (p : Path) (key : List Byte) -- OWN_KEY_CLAIM, R500
  | fornitiRead (n : BitVec 8) (mac : BitVec 48) (tid : BitVec 16) (index : BitVec 16) (sub : BitVec 8) -- FORNITI_READ, R495
  | fornitiWrite (n : BitVec 8) (mac : BitVec 48) (tid : BitVec 16) (index : BitVec 16) (sub : BitVec 8) (type : BitVec 4) (bytes : List Byte) -- FORNITI_WRITE, R496
  | blockInit (n : BitVec 8) (mac : BitVec 48) (tid : BitVec 16) (write : Bool) (index : BitVec 16) (sub : BitVec 8) (type : BitVec 4) (total : BitVec 32) -- BLOCK_INIT, R497
  | blockSeg (n : BitVec 8) (mac : BitVec 48) (tid : BitVec 16) (num : BitVec 16) (bytes : List Byte) -- BLOCK_SEG, R497
  | blockTransferTimeout (n : BitVec 8) -- BLOCK_TRANSFER_TIMEOUT, R497
  | heartbeat -- HEARTBEAT, R498
  | emergencyResend -- EMERGENCY_RESEND, R499
  | standbyStart -- STANDBY_START, R508
  | firmwareVerify (imgA imgB : Option Image) -- FIRMWARE_VERIFY, R528
  | pwrEnAssert -- PWR_EN_ASSERT, R509
  | railsGood -- RAILS_GOOD, R509
  | railFault (rail : BitVec 16) -- RAIL_FAULT, R511
  | pwrEnDeassert -- PWR_EN_DEASSERT, R511
  | coldReset -- COLD_RESET, R521
  | resetNAssert -- RESET_N_ASSERT, R507
  | memoryTrained (dimms : List (Option Dimm)) -- MEMORY_TRAINED, R509
  | ready -- READY, R510
  | inputUndervolt -- INPUT_UNDERVOLT, R506
  | warmReset (p : Path) -- WARM_RESET, R523
  | pcieHotReset -- PCIE_HOT_RESET, R521
  | dieReset (p : Path) (d : DieIx) -- DIE_RESET, R524
  | opChangeRequest (op : BitVec 2) (t : Word) -- OP_CHANGE_REQUEST, R514
  | opSwitch (d : DieIx) -- OP_SWITCH, R514
  | powerSampleGate (d : DieIx) (watts : BitVec 32) -- POWER_SAMPLE_GATE, R517
  | thermalSample (dies : Vector (BitVec 16) 4) (stk : Vector (BitVec 16) 16) -- THERMAL_SAMPLE, R518
  | thermTrip (dies : BitVec 4) -- THERM_TRIP, R519
  | fwUpdate (p : Path) (img : Image) -- FW_UPDATE, R531
  | fwActivate (p : Path) (bank : BitVec 8) -- FW_ACTIVATE, R531
  | attNonce (p : Path) (nonce : BitVec 256) -- ATT_NONCE, R533
  | pmcClear (v : Via) (c : CoreIx) (val : Word) -- PMC_CLEAR, R541
  | pmcClearShared (p : Path) (val : Byte) -- PMC_CLEAR_SHARED, R540
  | pmcSnapTime (p : Path) (t : Word) -- PMC_SNAP_TIME, R546
  | pmcSnapshot (d : DieIx) -- PMC_SNAPSHOT, R546
  | pmcAggregateUpdate -- PMC_AGGREGATE_UPDATE, R548
  | dbgHalt (v : Via) (c : CoreIx) (t : ThrIx) -- DBG_HALT, R550
  | dbgResume (v : Via) (c : CoreIx) (t : ThrIx) -- DBG_RESUME, R551
  | dbgStep (v : Via) (c : CoreIx) (t : ThrIx) -- DBG_STEP, R551
  | debugAccess (tap : Bool) (write : Bool) (addr data : Word) -- DEBUG_ACCESS, R558
  | registerWindowWrite (v : Via) (c : CoreIx) (off : BitVec 16) (val : Word) -- REGISTER_WINDOW_WRITE, R557
  | dbgEnableWrite (p : Path) (val : Byte) -- DBG_ENABLE_WRITE, R561
  | registerWrite (target : RegTarget) (val : Word) -- REGISTER_WRITE, R11
  | loadDataReturn (seq : Nat) (u : Upset) -- LOAD_DATA_RETURN, R268
  | atomicArrival (a : AtomicIn) -- ATOMIC_ARRIVAL, R68
  | probeArrival (d : DieIx) (m : BitVec 12) (sdie : DieIx) -- PROBE_ARRIVAL, R408
  | timeSyncRequestArrival (m : BitVec 12) (t1 t2 t3 : Word) -- TIME_SYNC_REQUEST_ARRIVAL, R411
  | level2Request (p : BitVec 4) (lane : BitVec 5) -- LEVEL_2_REQUEST, R425
  | droopRelease (d : DieIx) (dom : BitVec 3) -- DROOP_RELEASE, R430
  | thermTripRelease -- THERM_TRIP_RELEASE, R519
  | referenceClockPresent -- REFERENCE_CLOCK_PRESENT, R508
  | monitorEventEnd (m : MonScope) -- MONITOR_EVENT_END, R485
  | alwaysOnPowerLoss -- ALWAYS_ON_POWER_LOSS, R506
  deriving DecidableEq, Repr

end Sys2Proof
end

