-- ==== Sys2Proof/Decode.lean ====
section
/-! DEFINITION. Decoding: the instruction command that an encoded instruction spells (R60, R61, R579 and the encoding tables of the other
chapters). Bits 31:0 are the first word and bits 63:32 the second (R85). An encoding with a reserved opcode, a reserved FUNC or a field that must
be 0 and is not carries its opcode in `rsv`, which makes the instruction raise 0x01 (R60); where no instruction has its opcode or FUNC it is held by
a `nop`. What an instruction itself says of its fields (an odd register of a pair, a stream without SRC, a `csr` offset) its meaning tests. -/

namespace Sys2Proof

/-- The thread of an instruction whose encoding is decoded, and the encoding's reserved opcode if it is reserved. -/
def issOf (w : Who) (x : BitVec 64) (reserved : Bool) : Iss :=
  { who := w, rsv := if reserved then some (x.extractLsb' 26 6) else Option.none, found := .clean }

/-- A reserved encoding, which raises 0x01 before it does anything (R60). -/
def reservedInsn (w : Who) (x : BitVec 64) : Instr := .nop (issOf w x true)

/-- The register field RD, RS1 or RS2 of the 32-bit formats (R61). -/
def fieldRd (x : BitVec 64) : BitVec 5 := x.extractLsb' 21 5

@[inherit_doc fieldRd] def fieldRs1 (x : BitVec 64) : BitVec 5 := x.extractLsb' 16 5

@[inherit_doc fieldRd] def fieldRs2 (x : BitVec 64) : BitVec 5 := x.extractLsb' 11 5

/-- AUX of format R (R61). -/
def fieldAux (x : BitVec 64) : BitVec 5 := x.extractLsb' 6 5

/-- FUNC of format R (R61). -/
def fieldFunc (x : BitVec 64) : Nat := (x.extractLsb' 0 6).toNat

/-- AUX of OPC 0x01 (R61). -/
def fieldFx (x : BitVec 64) : FxAux :=
  { sat := x.getLsbD 10, rnd := x.extractLsb' 8 2, wide := x.getLsbD 7, ga := x.getLsbD 6 }

/-- The addressing fields of format M (R61). -/
def fieldMem (x : BitVec 64) : MemF :=
  { mode := x.extractLsb' 14 2, g := x.getLsbD 13, nc := x.getLsbD 12, disp := x.extractLsb' 0 12 }

/-- The integer operations, OPC 0x00 (R579). -/
def decodeInt (w : Who) (x : BitVec 64) : Instr :=
  let i := issOf w x (decide (fieldAux x ≠ 0))
  let d := fieldRd x
  let a := fieldRs1 x
  let b := fieldRs2 x
  match fieldFunc x with
  | 0 => .addR i d a b
  | 1 => .subR i d a b
  | 2 => .andR i d a b
  | 3 => .orR i d a b
  | 4 => .xorR i d a b
  | 5 => .shl i d a b
  | 6 => .shr i d a b
  | 7 => .sra i d a b
  | 8 => .mulR i d a b
  | 9 => .mulh i d a b
  | 10 => .mulhu i d a b
  | 11 => .divR i d a b
  | 12 => .divu i d a b
  | 13 => .remR i d a b
  | 14 => .remu i d a b
  | 15 => .minR i d a b
  | 16 => .maxR i d a b
  | _ => reservedInsn w x

/-- The fixed-point operations, OPC 0x01 (R579). -/
def decodeFixed (w : Who) (x : BitVec 64) : Instr :=
  let i := issOf w x false
  let d := fieldRd x
  let a := fieldRs1 x
  let b := fieldRs2 x
  let q := fieldFx x
  match fieldFunc x with
  | 0 => .qadd i d a b q
  | 1 => .qsub i d a b q
  | 2 => .qmul i d a b q
  | 3 => .qmac i a b q
  | 4 => .qext i d q
  | 5 => .qclr i q
  | 6 => .gaLo i d q
  | 7 => .gaHi i d q
  | 8 => .gaWr i a b q
  | _ => reservedInsn w x

/-- The comparisons and predicate operations, OPC 0x02 (R579). DEDUCED (log 67): a source predicate stands in the low three bits of its source
field, as the destination predicate does by R61, and the two bits above it are ignored. -/
def decodeCmp (w : Who) (x : BitVec 64) : Instr :=
  let i := issOf w x (decide (fieldAux x ≠ 0))
  let d := fieldRd x
  let a := fieldRs1 x
  let b := fieldRs2 x
  let p := x.extractLsb' 16 3
  let q := x.extractLsb' 11 3
  match fieldFunc x with
  | 0 => .cmpEq i d a b
  | 1 => .cmpNe i d a b
  | 2 => .cmpLt i d a b
  | 3 => .cmpLtu i d a b
  | 4 => .cmpGe i d a b
  | 5 => .cmpGeu i d a b
  | 6 => .pand i d p q
  | 7 => .por i d p q
  | 8 => .pnot i d p
  | _ => reservedInsn w x

/-- The fence of a level, AUX bits 8:6 (R61, R276). -/
def decodeFence (w : Who) (x : BitVec 64) : Instr :=
  let i := issOf w x (decide (x.extractLsb' 9 2 ≠ 0))
  match (x.extractLsb' 6 3).toNat with
  | 0 => .fenceT i
  | 1 => .fenceR i
  | 2 => .fenceD i
  | 3 => .fenceM i
  | 4 => .fenceS i
  | _ => reservedInsn w x

/-- The system operations, OPC 0x26 (R579). -/
def decodeSystem (w : Who) (x : BitVec 64) : Instr :=
  let i := issOf w x (decide (fieldAux x ≠ 0))
  match fieldFunc x with
  | 0 => .nop i
  | 2 => .tret i ⟨0, .none⟩
  | 3 => .brk i
  | 4 => .syncE i (fieldRs2 x)
  | 5 => decodeFence w x
  | 6 => .cacheInv i (fieldRs1 x) (fieldRs2 x)
  | 7 => .cacheInvall i
  | 8 => .cacheIinv i
  | _ => reservedInsn w x

/-- The atomics, OPC 0x1C in format A (R64). -/
def decodeAtomic (w : Who) (x : BitVec 64) : Instr :=
  let i := issOf w x (decide (x.extractLsb' 8 3 ≠ 0))
  let d := fieldRd x
  let a := fieldRs1 x
  let b := fieldRs2 x
  match (x.extractLsb' 0 8).toNat with
  | 0 => .tas i d a b
  | 1 => .lrW i d a b
  | 2 => .lrD i d a b
  | 3 => .scW i d a b
  | 4 => .scD i d a b
  | 5 => .casD i d a b
  | 6 => .faddL i d a b
  | _ => reservedInsn w x

/-- The vector arithmetic, OPC 0x38, and the vector memory and special functions, OPC 0x39 (R167, R168). -/
def decodeVector (w : Who) (x : BitVec 64) : Instr :=
  let i := issOf w x false
  let f : VecF := { pred := x.extractLsb' 61 3, zm := x.getLsbD 60, fmt := x.extractLsb' 56 4, sat := x.getLsbD 55, rnd := x.extractLsb' 53 2,
                    gs := x.extractLsb' 48 5, imm := x.extractLsb' 32 16, vd := x.extractLsb' 15 5, vs1 := x.extractLsb' 10 5,
                    vs2 := x.extractLsb' 5 5, vs3 := x.extractLsb' 0 5 }
  match (x.extractLsb' 26 6).toNat, (x.extractLsb' 20 6).toNat with
  | 0x38, 0x00 => .vadd i f
  | 0x38, 0x01 => .vsub i f
  | 0x38, 0x02 => .vmul i f
  | 0x38, 0x03 => .vfma i f
  | 0x38, 0x04 => .vmax i f
  | 0x38, 0x05 => .vmin i f
  | 0x38, 0x06 => .vabs i f
  | 0x38, 0x07 => .vneg i f
  | 0x38, 0x08 => .vcmpEq i f
  | 0x38, 0x09 => .vcmpLt i f
  | 0x38, 0x0A => .vcmpLe i f
  | 0x38, 0x0C => .vbcast i f
  | 0x38, 0x0D => .vext i f
  | 0x38, 0x10 => .vqAdd i f
  | 0x38, 0x11 => .vqSub i f
  | 0x38, 0x12 => .vqMul i f
  | 0x38, 0x13 => .vqMac i f
  | 0x38, 0x14 => .vqExt i f
  | 0x38, 0x15 => .vqClr i f
  | 0x38, 0x20 => .vredSum i f
  | 0x38, 0x21 => .vredMax i f
  | 0x38, 0x22 => .vredMin i f
  | 0x38, 0x28 => .vsmx i f
  | 0x39, 0x00 => .vld i f
  | 0x39, 0x01 => .vst i f
  | 0x39, 0x08 => .vexp2 i f
  | 0x39, 0x09 => .vlog2 i f
  | 0x39, 0x0A => .vrcp i f
  | 0x39, 0x0B => .vrsqrt i f
  | 0x39, 0x0C => .vtanh i f
  | 0x39, 0x0D => .vsigm i f
  | 0x39, 0x10 => .vcvt i f
  | 0x39, 0x11 => .vquant i f
  | _, _ => reservedInsn w x

/-- The matrix and accumulator instructions, OPC 0x3A (R98, R110). -/
def decodeMatrix (w : Who) (x : BitVec 64) : Instr :=
  let i := issOf w x (decide (x.extractLsb' 32 9 ≠ 0 ∨ x.extractLsb' 0 9 ≠ 0))
  let f : MatF := { ta := x.extractLsb' 19 3, tb := x.extractLsb' 16 3, acc := x.extractLsb' 12 4, ovw := x.getLsbD 11, tra := x.getLsbD 10,
                    scs := x.getLsbD 9, mf := x.extractLsb' 59 5, nf := x.extractLsb' 54 5, kf := x.extractLsb' 49 5,
                    fmta := x.extractLsb' 45 4, fmtb := x.extractLsb' 41 4 }
  let zeros := decide (x.extractLsb' 32 27 ≠ 0 ∨ x.extractLsb' 0 11 ≠ 0) || x.getLsbD 16
  let noRow := decide (x.extractLsb' 59 5 ≠ 0)
  let keep := x.getLsbD 11
  let acc := x.extractLsb' 12 4
  let rx := x.extractLsb' 17 5
  match (x.extractLsb' 22 4).toNat with
  | 0x0 => .mm i f
  | 0x1 => .mmX2 i f
  | 0x2 => .mmX3 i f
  | 0x4 => .accSpill (issOf w x (zeros || noRow)) acc rx keep
  | 0x5 => .accFill (issOf w x (zeros || noRow || keep)) acc rx
  | 0x6 => .accSend (issOf w x (zeros || noRow || keep)) acc rx
  | 0x7 => .accChk (issOf w x (zeros || noRow || keep || decide (rx ≠ 0))) acc
  | 0x8 => .accRow (issOf w x (zeros || keep)) acc rx (x.extractLsb' 59 5)
  | 0x9 => .accRmax (issOf w x (zeros || noRow || keep)) acc rx
  | _ => reservedInsn w x

/-- The tile memory instructions, OPC 0x3B (R85). -/
def decodeTile (w : Who) (x : BitVec 64) : Instr :=
  let i := issOf w x (decide (x.extractLsb' 32 18 ≠ 0 ∨ x.extractLsb' 0 5 ≠ 0))
  let f : TileF := { td := x.extractLsb' 20 3, rb := x.extractLsb' 15 5, rs := x.extractLsb' 10 5, g := x.getLsbD 9, src := x.getLsbD 8,
                     strm := x.extractLsb' 5 3, rows := x.extractLsb' 59 5, kf := x.extractLsb' 54 5, fmt := x.extractLsb' 50 4 }
  match (x.extractLsb' 23 3).toNat with
  | 0 => .tld i f
  | 1 => .tldSc i f
  | 2 => .tst i f
  | 3 => .tstSc i f
  | 4 => .trel (issOf w x (decide (x.extractLsb' 32 32 ≠ 0 ∨ x.extractLsb' 0 20 ≠ 0))) f.td
  | 5 => .tldDrop (issOf w x (decide (x.extractLsb' 32 32 ≠ 0 ∨ x.extractLsb' 0 23 ≠ 0)))
  | _ => reservedInsn w x

/-- The queue instructions, OPC 0x3C (R306). -/
def decodeQueue (w : Who) (x : BitVec 64) : Instr :=
  let low := decide (x.extractLsb' 0 8 ≠ 0)
  let gs := x.extractLsb' 9 5
  let rot := x.getLsbD 8
  let gd := x.extractLsb' 19 5
  let vr := x.extractLsb' 14 5
  let tmo := x.extractLsb' 48 16
  match (x.extractLsb' 24 2).toNat with
  | 0 => .sndQ (issOf w x (low || rot || decide (x.extractLsb' 32 8 ≠ 0))) tmo (x.extractLsb' 40 8) gd vr gs
  | 1 => .selQ (issOf w x (low || decide (gs ≠ 0))) tmo (x.extractLsb' 32 16) rot gd vr
  | 2 => .pollQ (issOf w x (low || rot || decide (gs ≠ 0 ∨ tmo ≠ 0 ∨ x.extractLsb' 36 12 ≠ 0))) (x.extractLsb' 32 4) gd vr
  | _ => reservedInsn w x

/-- The instruction that an encoding spells for a thread: bits 31:26 choose its format and class (Table: Opcode map, R60). What only its issue
decides is left empty: a branch is predicted not taken and issues nothing past itself, and a `tret` meets no pending load. -/
def decodeInsn (w : Who) (x : BitVec 64) : Instr :=
  let i := issOf w x false
  let d := fieldRd x
  let a := fieldRs1 x
  let b := fieldRs2 x
  let imm := x.extractLsb' 0 16
  let m := fieldMem x
  let r := issOf w x (decide (fieldAux x ≠ 0))
  match (x.extractLsb' 26 6).toNat with
  | 0x00 => decodeInt w x
  | 0x01 => decodeFixed w x
  | 0x02 => decodeCmp w x
  | 0x03 => .csrR (issOf w x (decide (a ≠ 0))) d imm
  | 0x04 => .addi i d a imm
  | 0x05 => .andi i d a imm
  | 0x06 => .ori i d a imm
  | 0x07 => .xori i d a imm
  | 0x08 => .shli i d a imm
  | 0x09 => .lui (issOf w x (decide (a ≠ 0))) d imm
  | 0x0C => .csrW (issOf w x (decide (d ≠ 0))) a imm
  | 0x10 => .ldB i d a m
  | 0x11 => .ldBU i d a m
  | 0x12 => .ldH i d a m
  | 0x13 => .ldHU i d a m
  | 0x14 => .ldW i d a m
  | 0x15 => .ldWU i d a m
  | 0x16 => .ldD i d a m
  | 0x18 => .stB i d a m
  | 0x19 => .stH i d a m
  | 0x1A => .stW i d a m
  | 0x1B => .stD i d a m
  | 0x1C => decodeAtomic w x
  | 0x20 => .bp i (x.extractLsb' 23 3) (x.getLsbD 22) (x.extractLsb' 0 22) ⟨false, []⟩
  | 0x21 => .jal i d (x.extractLsb' 0 21)
  | 0x22 => if fieldFunc x = 0 then .jalr r d a else reservedInsn w x
  | 0x24 => (match fieldFunc x with
    | 0 => .fork r d a b
    | 1 => .join r d a
    | 2 => .endThread r a
    | _ => reservedInsn w x)
  | 0x26 => decodeSystem w x
  | 0x27 => (match fieldFunc x with
    | 0 => .hbArrive (issOf w x (decide (fieldAux x ≠ 0 ∨ b ≠ 0))) d a
    | 1 => .hbWait r d a b
    | _ => reservedInsn w x)
  | 0x38 => decodeVector w x
  | 0x39 => decodeVector w x
  | 0x3A => decodeMatrix w x
  | 0x3B => decodeTile w x
  | 0x3C => decodeQueue w x
  | _ => reservedInsn w x

/-- The command a word spells for thread 0 of core 0: an instruction's encoding of 32 bits, or of 64 where bits 31:29 of its first word are 0b111
(R60). The opcode table gives its rows no bits of its own, so every other length spells no command. -/
def decodeTableWord (nbits w : Nat) : Option Instr :=
  let x := BitVec.ofNat 64 w
  let long := decide (x.extractLsb' 29 3 = 7)
  if (nbits = 32 ∧ ¬ long) ∨ (nbits = 64 ∧ long) then some (decodeInsn { core := 0, thr := 0 } x) else Option.none

end Sys2Proof
end

