-- ==== Sys2Proof/Config.lean ====
section
/-! DEFINITION. What the spec leaves open, as constants without a body: nothing in Lean can evaluate them, so a
statement about them holds for every value. Each is named in the assumption log. -/

namespace Sys2Proof

/-- A free choice among alternatives the spec does not rank (a replacement victim, a round-robin place): log 5. -/
opaque Config.freeNat : Nat → Nat

/-- A free 64-bit value the spec does not state: log 5. -/
opaque Config.freeWord : Nat → Word

/-- A free byte the spec does not state (R225: the overlap of a DMA channel's two sides): log 6. -/
opaque Config.freeByte : Nat → Byte

/-- The error, in units in the last place, of a special function on one FP32 input; the meaning clamps it to the bound of
R177: log 7. First argument: the function's FUNC code. -/
opaque Config.sfuError : Nat → F32 → Int

/-- Whether a calibration record fails its flash check when it is loaded at a given time (R418): log 66. First argument: the record's key. -/
opaque Config.flashFails : Nat → Nat → Bool

/-- HSS verification of RFC 8554 (R502, R528): public key, message, signature. The standard lies outside the spec: log 8. -/
opaque Config.hssVerify : List Byte → List Byte → List Byte → Bool

/-- HSS signing of RFC 8554 with the fused attestation key (R532, R533): counter value and message: log 8. -/
opaque Config.hssSign : Nat → List Byte → List Byte

/-- Whether a queue of another module is of control class (R297): the spec does not say how the sending core's port learns it: log 53. -/
opaque Config.remoteClass : BitVec 22 → BitVec 4 → Bool

/-- SHA-256 (R527, R528, R533): log 8. -/
opaque Config.sha256 : List Byte → BitVec 256

/-- Fuses and identity of this module (R1, R3, R20, R479, R535): log 9. `orderO16` is the order code KM4-1024-O16. -/
opaque Config.serial : BitVec 64
opaque Config.hwRev : BitVec 16
/-- The manufacturer code in the TAP's IDCODE (R560): log 9. -/
opaque Config.jep106 : BitVec 11
opaque Config.keyHash : BitVec 256
opaque Config.fusedSvn : BitVec 16
/-- What a factory calibration record holds beyond the fields its place fixes (R419): log 9. -/
opaque Config.factoryRecord : Nat → BitVec 256
opaque Config.attKey : List Byte
opaque Config.attCert : List Byte

end Sys2Proof
end

