-- ==== Sys2Proof/Machine/State.lean ====
section
/-! DEFINITION. The state of one Kamostair K4 module as plain data: cores, teams, dies, the module's control side, what is in
flight, and the commands that wait. Reset values stand as field defaults; the log names those the spec does not give. -/

namespace Sys2Proof.Machine

/-- A sparse table: keys strictly rising, no entry equal to the default its reader names. -/
abbrev Sparse (α : Type) := List (Nat × α)

/-- Why a step could stop with a fault. No meaning raises one: every stop the spec describes is a trap, a halt or an error
code, which are next states. -/
inductive Fault where
  /-- Raised by no meaning (safe): the type is inhabited for the host's interface only. -/
  | none
  deriving DecidableEq, Repr

/-- Why a step could have no meaning. -/
inductive Refusal where
  /-- Raised by an arm of `exec` for a command that has no meaning yet (safe). -/
  | notModelled (mnemonic : String)
  deriving DecidableEq, Repr

/-- THR_STATE.STATE (R37). -/
inductive ThrState where
  | free | run | wait | done | halt | fenced
  deriving DecidableEq, Repr

/-- Tile states, in the coding order of TILE_STATE (R78). -/
inductive TileState where
  | empty | full | partial_ | loading
  deriving DecidableEq, Repr

/-- Where a resolved access goes (R31, R33, R266). Offsets are those of the space; a remote address keeps its 64 bits with the
target module in bits 63:52. -/
inductive Loc where
  | ls (c : CoreIx) (off : Nat)
  | ctl (c : CoreIx) (off : Nat)
  | loft (d : DieIx) (off : Nat)
  | hbm (d : DieIx) (off : Nat)
  | ddr (d : DieIx) (off : Nat)
  | remote (m : BitVec 12) (addr : Word)
  deriving DecidableEq, Repr

/-- A trap as it is raised: code, DETAIL and the faulting address (R53, R57). -/
structure Trap where
  code   : BitVec 8
  detail : BitVec 16 := 0
  tval   : Word := 0
  deriving DecidableEq, Repr

/-- The load that filled a tile, as the check log records it (R153). -/
structure TileSource where
  addr   : Word := 0
  stride : Word := 0
  rows   : Nat := 0
  rowBytes : Nat := 0
  base   : Option (Word × Nat) := Option.none
  sc     : Bool := false
  g      : Bool := false
  deriving DecidableEq, Repr

/-- Rows and side-file of a tile as its last load wrote them; their CRC-32C is the digest of R153. -/
structure TileImage where
  rows : Sparse (BitVec 512) := []
  side : Sparse (BitVec 32) := []
  deriving DecidableEq, Repr

/-- A tile register (R77): rows of 64 bytes, side-file rows of 4 bytes. `version` is the tag of R153. -/
structure Tile where
  state   : TileState := .empty
  rows    : Sparse (BitVec 512) := []
  side    : Sparse (BitVec 32) := []
  version : Nat := 0
  image   : TileImage := {}
  source  : TileSource := {}
  sideSource : TileSource := {}
  deriving DecidableEq, Repr

/-- TLD_CURSOR (R91). -/
structure Cursor where
  sc    : Bool := false
  tile  : BitVec 3 := 0
  src   : Bool := false
  strm  : BitVec 3 := 0
  prior : BitVec 2 := 0
  row   : BitVec 5 := 0
  deriving DecidableEq, Repr

/-- One read of an outstanding load: still in flight, returned, ended by a fault or by a watchpoint that halts, or rows not yet asked for. `lost`
names the unreachable module of a fault under R583. -/
inductive LoadPart where
  | wait (seq : Nat)
  | data (bytes : List Byte)
  | fault (t : Trap) (lost : Option (BitVec 12))
  | halted
  | more
  deriving DecidableEq, Repr

/-- What an outstanding load writes when it retires. `mask` has the bits of the active lanes, and the others are zeroed or kept (R166). `stream` is present for a load that consumes a tile of a stream, and true if that tile's
filled data was discarded (R211). `pass` is no load: an mm or a sync.e that went past outstanding loads and retires behind them, by its number. -/
inductive LoadKind where
  | scalar (rd : BitVec 5) (size : Nat) (signed : Bool)
  | vector (vd : BitVec 5) (mask : Vec) (zero : Bool)
  | atomic (rd : BitVec 5)
  | tile (f : TileF) (sc : Bool) (next : Nat) (prior : BitVec 2) (stream : Option Bool)
  | pass (seq : Nat)
  deriving DecidableEq, Repr

/-- A load past M1 whose data has not all returned (R268, R269). `upd` is the base register it updates when it retires (R52, R62), `tag` the version and
the source that a tile load gives its tile once the loads before it have retired (R52, R153). -/
structure LoadOp where
  pc    : Word
  long  : Bool
  kind  : LoadKind
  parts : List LoadPart
  upd   : Option (BitVec 5 × Word) := Option.none
  tag   : Option (Nat × TileSource) := Option.none
  deriving DecidableEq, Repr

/-- An access that waits for its translation (R253, R258). `walked`: the walk as it returned, with the Loft place of its level-2 entry; `stale` marks a
walk that met an invalidation of its page (R254). -/
structure Xlate where
  page   : Nat
  write  : Bool := false
  fetch  : Bool := false
  atomic : Bool := false
  tval   : Word := 0
  long   : Bool := false
  tileRow : Option (TileF × Bool × Nat × BitVec 2) := Option.none
  walked : Option (Option Word × Option Word × DieIx × Nat) := Option.none
  busy   : Bool := false
  stale  : Bool := false
  deriving DecidableEq, Repr

/-- What holds a thread at one instruction (R37). `due` is a trap of that instruction that waits for the thread's older work (R52, R104); `got` is the queue whose commit a waiting sel.q has been given (R314, R315). -/
inductive Hold where
  | none
  | join (child : ThrIx) (rd : BitVec 5)
  | syncDma (mask : BitVec 5)
  | snd (seq : Nat) (gd : BitVec 5) (tmo : BitVec 16) (expired : Bool)
  | sel (mask : BitVec 16) (rot : Bool) (gd vr : BitVec 5) (tmo : BitVec 16) (since : Nat) (got : Option (BitVec 4))
  | hbWait (b : BitVec 8) (g : BitVec 16) (rd : BitVec 5)
  | xlate (x : Xlate)
  | due (t : Trap)
  deriving DecidableEq, Repr

/-- What holds only the younger memory, queue, harness and control-word accesses of a thread (R269, R276); `upTo` is the number the next
thing to leave had when the hold began, so that it waits only for older ones. -/
inductive MemHold where
  | none
  | syncE (mask : BitVec 5) (upTo : Nat)
  | fence (level : BitVec 3) (upTo : Nat)
  deriving DecidableEq, Repr

/-- A tile in the Outrider fill buffer, in flight or complete (R204, R209, R216, R377); `defer` is the row it is deferred from, `since` the time from which
it has waited to be sent (R379). -/
structure FillTile where
  id       : Nat := 0
  pos      : Nat := 0
  ready    : Bool := false
  rows     : List (List Byte) := []
  defer    : Option Nat := Option.none
  consumed : Bool := false
  sent     : Bool := false
  since    : Nat := 0
  origin   : TileSource := {}
  deriving DecidableEq, Repr

/-- A stream descriptor with its relay word and fill buffer (R205, R375); `claim`: a tld that waits at M1 has claimed the next tile (R210). -/
structure Stream where
  base   : Word := 0
  en     : Bool := false
  loc    : Bool := false
  sc     : Bool := false
  fmt    : BitVec 4 := 0
  rowsf  : BitVec 5 := 0
  kf     : BitVec 5 := 0
  ahead  : BitVec 4 := 0
  size   : BitVec 5 := 0
  tstep  : BitVec 32 := 0
  rstride : BitVec 32 := 0
  pos    : BitVec 23 := 0
  count  : BitVec 32 := 0
  cerr   : Bool := false
  werr   : Bool := false
  tiles  : List FillTile := []
  lost   : Bool := false
  mode   : BitVec 2 := 0
  dir    : Bool := false
  cons   : Bool := false
  tthr   : ThrIx := 0
  tstrm  : BitVec 3 := 0
  claim  : Bool := false
  deriving DecidableEq, Repr

/-- A hardware thread: its registers and its control block (R35, R37). `given` is a translation a walk has delivered for one access without installing
it (R253, R254). -/
structure Thread where
  state   : ThrState := .free
  exit    : BitVec 32 := 0
  parent  : ThrIx := 0
  orphan  : Bool := false
  joined  : Bool := false
  tldPend : Bool := false
  inTrap  : Bool := false
  tvec    : Word := 0
  epc     : Word := 0
  cause   : BitVec 32 := 0
  tval    : Word := 0
  fxstat  : BitVec 2 := 0
  pitch   : Word := 64
  scratch : Word := 0
  cursor  : Cursor := {}
  fpstat  : BitVec 9 := 0
  xlf     : Word := 0
  xpte    : Word := 0
  lost    : Bool := false
  pend    : Nat := 0
  redRej  : Bool := false
  redReason : BitVec 3 := 0
  bound   : List (BitVec 16) := []
  taken   : List (BitVec 16) := []
  itmRes  : BitVec 3 := 0
  pc      : Word := 0
  g       : Sparse Word := []
  p       : Sparse Word := []
  v       : Sparse Vec := []
  ga0     : BitVec 72 := 0
  ga1     : BitVec 72 := 0
  tiles   : Sparse Tile := []
  resv    : Option (Loc) := Option.none
  hold    : Hold := .none
  memHold : MemHold := .none
  loads   : List LoadOp := []
  rot     : BitVec 4 := 15
  streams : Sparse Stream := []
  pmc     : Sparse (BitVec 48) := []
  snap    : Sparse (BitVec 48) := []
  xtrig   : Bool := false
  diex    : Bool := false
  reason  : BitVec 4 := 0
  stepping : Bool := false
  haltReq : Option (BitVec 4) := Option.none
  given   : Option (Nat × Word) := Option.none
  deriving DecidableEq, Repr

/-- A number of the check format: sign, significand and exponent, value ±sig × 2^exp (R144). -/
structure CkNum where
  neg : Bool := false
  sig : Nat := 0
  exp : Int := 0
  deriving DecidableEq, Repr

/-- One entry of the check log (R153). -/
structure LogEntry where
  f    : MatF
  func : BitVec 2
  thr  : ThrIx
  verA : Nat
  verB : Nat
  imgA : TileImage
  imgB : TileImage
  srcA : TileSource
  srcB : TileSource
  sideA : TileSource
  sideB : TileSource
  deriving DecidableEq, Repr

/-- A flush that met a first mismatch and waits for its retry (R154). -/
inductive Flush where
  | spill (rx : BitVec 5) (keep : Bool)
  | send (handle : Word) (target : BitVec 22) (ctx : BitVec 4) (epoch : BitVec 16)
  | chk
  | row (vd row : BitVec 5)
  | rmax (vd : BitVec 5)
  | checkpoint
  deriving DecidableEq, Repr

/-- An accumulator slot with its check state (R109, R145). Keys of `el`: 32 × row + column; of line tables: the line. -/
structure Slot where
  live   : Bool := false
  unchk  : Bool := false
  el     : Sparse F32 := []
  cr     : Sparse CkNum := []
  cc     : Sparse CkNum := []
  lr     : Sparse F32 := []
  ur     : Sparse F32 := []
  lc     : Sparse F32 := []
  uc     : Sparse F32 := []
  qr     : Sparse CkNum := []
  qc     : Sparse CkNum := []
  sp     : List Nat := []
  either : List Nat := []
  exr    : List Nat := []
  exc    : List Nat := []
  log    : List LogEntry := []
  shadow : Sparse F32 := []
  sending : Nat := 0
  deriving DecidableEq, Repr

/-- A matrix instruction in the queue (R100). -/
structure MatOp where
  seq  : Nat
  thr  : ThrIx
  func : BitVec 2
  f    : MatF
  deriving DecidableEq, Repr

/-- The retry under way on a core (R154, R158): the thread that owns the slot, the physical slot, what the comparison was for, and the first
failing line. -/
structure Retry where
  thr   : ThrIx
  slot  : Nat
  flush : Flush
  line  : BitVec 5
  col   : Bool
  deriving DecidableEq, Repr

/-- A receive queue (R288 to R292). -/
structure Queue where
  base   : BitVec 15 := 0
  epoch  : BitVec 16 := 0
  cls    : Bool := false
  slots  : BitVec 4 := 0
  err    : Bool := false
  opn    : Bool := false
  head   : Nat := 0
  tail   : Nat := 0
  occ    : Nat := 0
  full   : BitVec 16 := 0
  stale  : BitVec 16 := 0
  closed : BitVec 16 := 0
  deriving DecidableEq, Repr

/-- A reduction contribution on its way or waiting for credit (R350, R352). `away` is a target core of another module, `from_` a sending core of
another module; `sum` is absent for an exempt tile (R162); `req` is the SEQ of the packet that asked another module for credit. -/
structure Contrib where
  seq    : Nat
  sender : Who
  target : CoreIx
  away   : Option (BitVec 22)
  from_  : Option (BitVec 22 × BitVec 24)
  ctx    : BitVec 4
  epoch  : BitVec 16
  gen    : BitVec 8
  thinm1 : BitVec 6
  block  : BitVec 16
  rank   : BitVec 12
  q      : BitVec 2
  data   : List F32
  sum    : Option F32
  count  : Nat
  credit : Bool
  slot   : BitVec 4
  req    : Option (BitVec 24) := Option.none
  deriving DecidableEq, Repr

/-- A reduction context (R347) with its collector's working state (R352 to R360): `unit` and `rank` name the head of the window; a staged tile
names its place in the staging area, unless it was the head when it came; `wild` marks a unit with a carried sum that is not finite; `run` counts
the armings. -/
structure RedCtx where
  ntf    : Bool := false
  err    : Bool := false
  fwd    : Bool := false
  mean   : Bool := false
  thinm1 : BitVec 6 := 0
  blocks : BitVec 16 := 0
  ranks  : BitVec 12 := 0
  gen    : BitVec 8 := 0
  stage  : BitVec 13 := 0
  result : BitVec 13 := 0
  deadline : Word := 0
  limit  : Word := 0
  notify : BitVec 32 := 0
  fwdDest : BitVec 13 := 0
  fwdStn : BitVec 8 := 0
  used   : BitVec 13 := 0
  miss   : BitVec 12 := 0
  nstat  : BitVec 3 := 0
  nfail  : Bool := false
  late   : BitVec 16 := 0
  rej    : BitVec 8 := 0
  outcome : BitVec 4 := 0
  state  : BitVec 4 := 0
  owner  : Option ThrIx := Option.none
  excluded : List Nat := []
  arrived : List Nat := []
  staged : List (Contrib × Option Nat) := []
  unit   : Nat := 0
  rank   : Nat := 0
  partial_ : List F32 := []
  carried : CkNum := {}
  budget : CkNum := {}
  mags   : CkNum := {}
  exempt : Bool := false
  wild   : Bool := false
  count  : Nat := 0
  nextFwd : Nat := 0
  fwdUnacked : Nat := 0
  run    : Nat := 0
  deriving DecidableEq, Repr

/-- A core; `icache` holds the tags of the lines in the instruction cache, the last installed last (R13, R35, R72, R106, R188, R288, R301, R347, R541, R554). -/
structure Core where
  threads : Sparse Thread := []
  fenced  : Bool := false
  mode    : BitVec 2 := 0
  splitErr : Bool := false
  slots   : Sparse Slot := []
  mq      : List MatOp := []
  retry   : Option Retry := Option.none
  chkstat : BitVec 17 := 0
  opc     : List (ThrIx × BitVec 3) := []
  lsBase  : BitVec 11 := 0
  lsLimit : BitVec 12 := 0x800
  lsErr   : Bool := false
  ls      : Sparse Byte := []
  lsPoison : Sparse Bool := []
  lsScrub : Nat := 0
  dcache  : Sparse (BitVec 512) := []
  icache  : List Nat := []
  queues  : Sparse Queue := []
  stnEntry : Sparse Word := []
  stnLane : Sparse Word := []
  stnErr  : Bool := false
  red     : Sparse RedCtx := []
  xlInv   : Option Word := Option.none
  xlErr   : Bool := false
  pmcView : Bool := false
  pmcHfrz : Bool := false
  pmcFreeze : Bool := false
  pmcErr  : Bool := false
  pmcDeny : Bool := false
  pmcSat  : Bool := false
  pmc     : Sparse (BitVec 48) := []
  snap    : Sparse (BitVec 48) := []
  bpa     : Sparse Word := []
  bpc     : Sparse (BitVec 16) := []
  wpa     : Sparse Word := []
  wpc     : Sparse (BitVec 16) := []
  rsel    : BitVec 16 := 0
  deriving DecidableEq, Repr

/-- A DMA channel's six shape words (R221). -/
structure DmaDesc where
  src : Word := 0
  srcStride : Word := 0
  srcShape : Word := 0
  dst : Word := 0
  dstStride : Word := 0
  dstShape : Word := 0
  deriving DecidableEq, Repr

/-- A DMA channel (R221). `act` is the descriptor as it stood at activation with the local-store windows resolved, `by_` the thread that activated it;
`moved` counts the granules issued since, `unacked` those whose acknowledgement is to come, `run` the activations and resumptions. `ending` is the
terminal state that waits for the issued writes (R232, R236), `bad` a write-side error that waits for the writes before it (R231), `kept` the
source granules the channel itself has overwritten before it read them (R225). -/
structure Chan where
  desc   : DmaDesc := {}
  notify : BitVec 32 := 0
  tag    : BitVec 8 := 0
  ntf    : Bool := false
  lines  : BitVec 16 := 0
  win    : Bool := false
  core   : BitVec 2 := 0
  thr    : ThrIx := 0
  statTag : BitVec 8 := 0
  nstat  : BitVec 3 := 0
  nfail  : Bool := false
  werr   : Bool := false
  code   : BitVec 4 := 0
  state  : BitVec 4 := 0
  act    : DmaDesc := {}
  lsBase : Nat := 0
  moved  : Nat := 0
  unacked : Nat := 0
  run    : Nat := 0
  ending : Option (BitVec 4) := Option.none
  bad    : Option (Bool × Nat × Nat) := Option.none
  by_    : Option Who := Option.none
  kept   : Sparse (List Byte) := []
  deriving DecidableEq, Repr

/-- What a logical team owns (R24): its DMA engine, its translation cache, its counters. -/
structure Team where
  ch     : Sparse Chan := []
  order  : List (BitVec 3) := []
  cerr   : Bool := false
  fault  : Word := 0
  faultAddr : Word := 0
  xl     : List (Nat × Word) := []
  pmc    : Sparse (BitVec 48) := []
  snap   : Sparse (BitVec 48) := []
  deriving DecidableEq, Repr

/-- A harness barrier on one die (R325), with the cores counted in the current and the early generation, the reports its module and system
counters hold, the releases that descend to it, and whether its unit has been reported quiet (R342). -/
structure Barrier where
  en     : Bool := false
  err    : Bool := false
  level  : BitVec 3 := 0
  unit   : BitVec 8 := 0
  local_ : BitVec 11 := 0
  tmo    : BitVec 16 := 0
  dies   : BitVec 4 := 0
  root   : BitVec 12 := 0
  modules : BitVec 13 := 0
  gen    : BitVec 16 := 0
  count  : Nat := 0
  early  : Nat := 0
  missmod : BitVec 13 := 0
  missdie : BitVec 4 := 0
  misslvl : BitVec 3 := 0
  timedout : Bool := false
  miss   : List CoreIx := []
  came   : List CoreIx := []
  cameEarly : List CoreIx := []
  reported : Bool := false
  upDies : BitVec 4 := 0
  upMods : List (BitVec 12) := []
  relPend : Nat := 0
  quietReported : Bool := false
  deriving DecidableEq, Repr

/-- A Loft merge entry: its line, its requesters, and the line with its poisoned words as the bank read it (R197). -/
structure Merge where
  line   : Nat
  joined : Nat
  data   : List Byte
  poison : List Nat
  deriving DecidableEq, Repr

/-- A row quiesce under way (R448). -/
structure Quiesce where
  row : BitVec 4
  deriving DecidableEq, Repr

/-- A die (R15, R191, R239, R322, R443 to R448, R513). -/
structure Die where
  loft   : Sparse Byte := []
  loftPoison : Sparse Bool := []
  loftScrub : Sparse Nat := []
  merges : List Merge := []
  hbm    : Sparse Byte := []
  hbmPoison : Sparse Bool := []
  hbmScrub : Nat := 0
  ddr    : Sparse Byte := []
  ddrPoison : Sparse Bool := []
  ddrScrub : Nat := 0
  ddrBytes : Nat := 0
  ceLog  : Sparse (List Word) := []
  walkL1 : List (Nat × Word) := []
  barriers : Sparse Barrier := []
  errlog : List (BitVec 128) := []
  safehold : Bool := false
  monitor : Bool := false
  quiesce : Option Quiesce := Option.none
  op     : BitVec 2 := 0
  halfDuty : Bool := false
  stretch : BitVec 5 := 0
  resetWait : Bool := false
  pmc    : Sparse (BitVec 48) := []
  snap   : Sparse (BitVec 48) := []
  snapDone : Bool := true
  deriving DecidableEq, Repr

/-- A source (R267): the outbound port of a core, a team DMA engine, a Groom of this module, or a stream of another module. -/
inductive Source where
  | port (c : CoreIx)
  | dma (team : BitVec 8)
  | groom
  | peer (m : BitVec 12) (d : DieIx)
  deriving DecidableEq, Repr

/-- A write on its way to its destination (R266, R272), of a thread or of a granule of a DMA channel. `page` is the tiered page it was
translated from; `src` the thread whose write it is, unless its number has started anew since. -/
structure WFlight where
  seq   : Nat
  source : Source
  src   : Option Who
  dma   : Option (BitVec 8 × BitVec 3 × Nat × Nat)
  loc   : Loc
  bytes : List (Option Byte)
  page  : Option Nat
  red   : Option (CoreIx × BitVec 4 × Nat)
  deriving DecidableEq, Repr

/-- An acknowledgement on its way back to the writer (R278). In `red`: the forwarding context and its arming. -/
structure AckFlight where
  seq : Nat
  src : Option Who
  loc : Loc
  red : Option (CoreIx × BitVec 4 × Nat)
  deriving DecidableEq, Repr

/-- The atomics of R64 that travel. -/
inductive AtomKind where
  | tas | lrw | lrd | scw | scd | cas | fadd
  deriving DecidableEq, Repr

/-- What the destination of a read answered. -/
inductive Got where
  | no
  | bytes (b : List Byte)
  | trap (t : Trap)
  deriving DecidableEq, Repr

/-- A read an engine makes in another module (R224, R252, R154): the granule of a DMA channel, a piece of a row of a stream's tile, or a piece
of an operand a replay reads again. -/
inductive EngineRead where
  | dma (team : BitVec 8) (ch : BitVec 3) (granule run : Nat)
  | fill (strm : BitVec 3) (tile row piece : Nat)
  | replay (slot entry operand piece : Nat)
  deriving DecidableEq, Repr

/-- A read or an atomic on its way (R268). The destination reads `len` bytes at `loc`, of which the thread takes `take` from `skip`;
`fill` names the data-cache line the read fetches and whether it may still be installed (R75). `slice` marks a Loft read that has
reached its slice; `got` is what the destination answered. -/
structure RFlight where
  seq  : Nat
  who  : Who
  loc  : Loc
  len  : Nat
  addr : Word
  page : Option Nat
  fill : Option (Nat × Bool)
  skip : Nat
  take : Nat
  atom : Option (AtomKind × Word × Word)
  got  : Got
  engine : Option EngineRead := Option.none
  deriving DecidableEq, Repr

/-- Who sent a message and how its answer is used (R293, R308, R234, R361, R454); `lost` is a sender that has started anew since. -/
inductive MsgFrom where
  | thread (w : Who)
  | dma (team : BitVec 8) (ch : BitVec 3)
  | red (c : CoreIx) (x : BitVec 4)
  | item (r : BitVec 6) (slot : BitVec 10)
  | peer (m : BitVec 12) (d : DieIx) (seq : BitVec 24)
  | lost
  deriving DecidableEq, Repr

/-- Where a message stands (R297, R308). -/
inductive MsgPhase where
  | flight | answer (st : BitVec 3) | backoff | held
  deriving DecidableEq, Repr

/-- A message (R293, R295). `oneShot` is a send without waiting, `limit` the time in ns after which a refused send of an engine is given up
(R234), `left` the number of its last attempt in the order in which things left (R272, R296). -/
structure Msg where
  seq     : Nat
  left    : Nat
  source  : Source
  origin  : MsgFrom
  kind    : BitVec 2
  thr     : ThrIx
  sender  : BitVec 22
  target  : BitVec 22
  queue   : BitVec 4
  epoch   : BitVec 16
  payload : List Byte
  oneShot : Bool
  limit   : Option Nat
  phase   : MsgPhase
  refusals : Nat
  deriving DecidableEq, Repr

/-- A tile on the trace from a core toward a receiving stream (R377, R378); `ends` marks the last tile of an upstream that has ended (R381). -/
structure RelayFlight where
  seq  : Nat
  from_ : CoreIx
  core : CoreIx
  thr  : ThrIx
  strm : BitVec 3
  tile : FillTile
  ends : Bool
  deriving DecidableEq, Repr

/-- A request-class packet of this module that is not yet acknowledged (R406). `flight` names the write, read, message, contribution
or item it carries; `waits`: it has not left, because its stream or its die's send store is full. -/
structure OutPkt where
  die    : DieIx
  flight : Nat
  pkt    : Packet
  ring   : Option (BitVec 6 × BitVec 10)
  waits  : Bool := false
  deriving DecidableEq, Repr

/-- A flit group in the replay buffer: its units and what its own trailer says of the rest lane and of credits (R395, R396, R422). -/
structure SentGroup where
  gseq  : BitVec 16
  units : List (BitVec 256)
  rest  : BitVec 5
  rchg  : Bool
  cred  : List (BitVec 5)
  deriving DecidableEq, Repr

/-- One direction pair of a port or sub-port (R395, R396). `wait` holds the packets that have not left in full, each with the units still to go,
`sent` the replay buffer, `queue` the packets whose groups the peer has not yet acknowledged, each with its last group; `acked` is the last
acknowledged group, `announce` a rest lane that the next group is to announce. On the receive side `part` holds the units of a packet that has not
arrived in full, `owed` the credits to return, in units of 32 bytes for each traffic class and hop class, `fails` how often the awaited group
arrived bad; `nakSeen` is the ACKSEQ of the NAK that the last trailer held. -/
structure Link where
  rxNext  : BitVec 16 := 0
  nak     : Bool := false
  txNext  : BitVec 16 := 0
  acked   : BitVec 16 := 0xFFFF
  fails   : Nat := 0
  nakSeen : Option (BitVec 16) := Option.none
  queue   : List (BitVec 16 × DieIx × Packet) := []
  wait    : List (DieIx × Packet × List (BitVec 256)) := []
  sent    : List SentGroup := []
  part    : List (BitVec 256) := []
  owed    : Sparse Nat := []
  announce : Option (BitVec 5) := Option.none
  deriving DecidableEq, Repr

/-- A Thaex port (R390 to R398, R414) with its Farrier state (R420 to R426, R432). `gdis` holds the lane groups this end disabled and `gpeer`
those the peer's trailers disable; `recal` and `recal3` the lanes under level-2 and level-3 recalibration; `calibrated` and `rxCal` whether the lane
that rests in each direction has been calibrated; `lastBelow` the time of the last margin below FAR_EYE_WARN. Lane tables are keyed by physical
lane, heaters and selected records by 32 × transmit + lane. -/
structure Port where
  mode   : BitVec 2 := 0
  up     : BitVec 4 := 0
  rest   : BitVec 5 := 0
  rxRest : BitVec 5 := 0
  perm   : Bool := false
  lost   : BitVec 17 := 0
  gdis   : BitVec 4 := 0
  gpeer  : BitVec 4 := 0
  mismatch : Bool := false
  unsync : Bool := false
  retry  : BitVec 24 := 0
  links  : Sparse Link := []
  trained : Bool := false
  recal  : Option (BitVec 5) := Option.none
  recal3 : Option (BitVec 5) := Option.none
  group  : BitVec 2 := 0
  down   : Bool := false
  hold   : Bool := false
  calibrated : Bool := true
  rxCal  : Bool := true
  stale  : BitVec 17 := 0
  staleTx : BitVec 17 := 0
  below  : BitVec 17 := 0
  lastBelow : Option Nat := Option.none
  margins : Sparse (BitVec 6) := []
  heaters : Sparse (BitVec 16) := []
  selected : Sparse (BitVec 256) := []
  deriving DecidableEq, Repr

/-- Tracking state of a memory unit (R417, R428, R429); its margin reads all ones before the first sample. -/
structure MemTrack where
  selected : BitVec 256 := 0
  stale  : Bool := false
  below  : Bool := false
  fast   : Bool := false
  delays : BitVec 128 := 0
  margin : BitVec 16 := 0xFFFF
  deriving DecidableEq, Repr

/-- The fabric side of the module (R390 to R415). Streams are keyed by 4096 × die + module. -/
structure Fabric where
  ports   : Sparse Port := []
  store   : List OutPkt := []
  txSeq   : Sparse (BitVec 24) := []
  txEpoch : Sparse (BitVec 8) := []
  rxNext  : Sparse (BitVec 24) := []
  rxEpoch : Sparse (BitVec 8) := []
  reorder : List Packet := []
  probes  : List (DieIx × BitVec 12) := []
  dropped : List (BitVec 12) := []
  reach   : List (BitVec 12) := [0]
  unreach : List (BitVec 12) := []
  holders : List (BitVec 64 × BitVec 12) := []
  routes  : Sparse (BitVec 128) := []
  rotPtrs : Sparse Nat := []
  diameter : BitVec 8 := 0
  peers   : Sparse Word := []
  offset  : Int := 0
  slew    : Int := 0
  upstream : Option (BitVec 4) := Option.none
  deriving DecidableEq, Repr

/-- The Farriers' records and selections (R416 to R432). Records are keyed by 256 × index + sub-index. -/
structure Farrier where
  band    : BitVec 8 := 0
  recs    : Sparse (BitVec 256) := []
  flash   : Sparse (BitVec 256) := []
  mem     : Sparse MemTrack := []
  droopStale : BitVec 20 := 0
  droopSel : Sparse (BitVec 256) := []
  calibrating : Bool := false
  deriving DecidableEq, Repr

/-- A ledger entry (R464) with the entry it was taken from, the time its DONE hold ends, and whether a row quiesce held its delivery (R448). -/
structure Ledger where
  state  : BitVec 4 := 0
  id     : Word := 0
  submit : Word := 0
  deadline : Word := 0
  epoch  : BitVec 16 := 0
  slot   : BitVec 12 := 0
  queue  : BitVec 4 := 0
  thr    : ThrIx := 0
  core   : BitVec 22 := 0
  holdEnd : Nat := 0
  entry  : BitVec 512 := 0
  unacked : Bool := false
  held   : Bool := false
  deriving DecidableEq, Repr

/-- An item ring (R450 to R452). -/
structure Ring where
  en     : Bool := false
  kind   : BitVec 2 := 0
  depth  : BitVec 4 := 0
  msix   : BitVec 6 := 0
  peer   : BitVec 12 := 0
  peerRing : BitVec 6 := 0
  sq     : Word := 0
  cq     : Word := 0
  next   : Nat := 0
  records : Nat := 0
  entries : Sparse (BitVec 512) := []
  ledger : Sparse Ledger := []
  deriving DecidableEq, Repr

/-- A running Forniti block transfer (R497). -/
structure Transfer where
  write : Bool
  index : BitVec 16
  sub   : BitVec 8
  type  : BitVec 4
  total : Nat
  seg   : Nat
  buf   : List Byte
  deriving DecidableEq, Repr

/-- A DICT_CMD operation under way (R491, R492). -/
inductive BlockOp where
  | read (index : BitVec 16) (sub : BitVec 8)
  | write (type : BitVec 4) (index : BitVec 16) (sub : BitVec 8) (len : Nat)
  deriving DecidableEq, Repr

/-- The object dictionary and the control paths (R471 to R505). `vals` and `flash` hold entry values keyed by 256 × index + sub-index;
an absent key reads as the entry's default. -/
structure Dict where
  vals    : Sparse (List Byte) := []
  flash   : Sparse (List Byte) := []
  ownSeq  : Word := 0
  flashSeq : Word := 0
  ovlActive : BitVec 8 := 0
  ovlState : BitVec 2 := 0
  ovlTarget : BitVec 8 := 0
  ovlResult : BitVec 8 := 0
  ovlEpoch : BitVec 32 := 0
  page    : BitVec 4 := 0
  busy    : Option BlockOp := Option.none
  done    : Bool := false
  werr    : Bool := false
  code    : BitVec 8 := 0
  len     : BitVec 32 := 0
  buf     : Sparse Byte := []
  rdata   : Word := 0
  evtLog  : List (BitVec 256) := []
  evtSeq  : BitVec 32 := 0
  evtRead : BitVec 32 := 0
  evtOvf  : Bool := false
  emerg   : List (BitVec 256 × Nat) := []
  answers : Sparse (List (BitVec 16 × List Byte)) := []
  transfers : Sparse Transfer := []
  txSeq   : BitVec 32 := 0
  pauseUntil : Nat := 0
  zeroizing : Bool := false
  deriving DecidableEq, Repr

/-- A firmware bank in flash (R526, R531). -/
structure Bank where
  version : BitVec 32
  svn     : BitVec 16
  advance : Bool
  deriving DecidableEq, Repr

/-- An operating-point change under way (R514, R515). -/
structure OpChange where
  op   : BitVec 2
  at_  : Nat
  left : List DieIx
  deriving DecidableEq, Repr

/-- Power, clocks, boot, identity (R506 to R535, R566 to R568). -/
structure Boot where
  aon     : Bool := true
  refClk  : Bool := false
  pwrEn   : Bool := false
  resetN  : Bool := false
  mainOn  : Bool := false
  rails   : Bool := false
  clocks  : Bool := false
  tripped : Bool := false
  thermTrip : Bool := false
  headStopped : Bool := false
  hostUp  : Bool := false
  warming : Bool := false
  stage   : BitVec 8 := 1
  fail    : BitVec 32 := 0
  modSafe : Bool := false
  monShared : Bool := false
  change  : Option OpChange := Option.none
  nextChange : Option OpChange := Option.none
  powerPt : Nat := 0
  thermPt : Nat := 0
  above   : Nat := 0
  below   : Nat := 0
  hot     : Nat := 0
  hotAt2  : Nat := 0
  cool    : Nat := 0
  thermHalf : Bool := false
  pwrIn   : BitVec 32 := 0
  pwrVin  : BitVec 32 := 0
  tempDie : Sparse (BitVec 16) := []
  tempHbm : Sparse (BitVec 16) := []
  bankA   : Option Bank := Option.none
  bankB   : Option Bank := Option.none
  pointer : BitVec 1 := 0
  attempts : Nat := 0
  booted  : BitVec 1 := 0
  minSvn  : BitVec 16 := 0
  attCount : Nat := 0
  attFuses : Nat := 0
  attStored : Option Nat := some 0
  attLast : Option Nat := Option.none
  report  : List Byte := []
  deriving DecidableEq, Repr

/-- What leaves the module: MSI-X vectors, writes to the host's memory, field-network frames (to a node, 0xFF for all) and flit groups on a sub-port;
and the packets that a die hands to the ports, which PACKET_FORWARD takes on. -/
inductive Out where
  | msix (v : Nat)
  | busWrite (addr : Word) (bytes : List Byte)
  | frame (dest : BitVec 8) (bytes : List Byte)
  | packet (d : DieIx) (k : Packet)
  | group (p : BitVec 4) (j : BitVec 2) (units : List (BitVec 256)) (trailer : BitVec 256)
  deriving DecidableEq, Repr

/-- The module's own registers: identity, remap, size table, safety records, counters, debug port (R14, R16, R20, R343, R442, R548, R560). -/
structure Module where
  o16     : Bool := true
  id      : BitVec 12 := 0
  provisional : Bool := false
  everJoined : Bool := false
  modules : BitVec 16 := 1
  szGen   : BitVec 32 := 0
  badFuse : List Nat := []
  badRun  : List Nat := []
  rowMap  : Sparse (List Nat) := []
  rowCols : Sparse (BitVec 16) := []
  dimm    : Sparse (BitVec 32) := []
  quietLast : List Byte := []
  selftest : BitVec 128 := 0
  snapT   : Word := 0
  snapReq : Option Nat := Option.none
  pmc     : Sparse Nat := []
  agg     : Sparse Nat := []
  aggShown : Sparse Nat := []
  dbgStatus : BitVec 2 := 0
  dbgData : Word := 0
  dbgAddr : Word := 0
  dbgOp   : BitVec 2 := 0
  deriving DecidableEq, Repr

/-- The state of the module. `time` counts 2^-16 ns (R513); `nextSeq` numbers what is in flight in the order it left; `free` is the
model's own counter of free values (log 5); `pending` the commands that wait, first in first out. -/
structure State where
  cores   : Sparse Core := []
  teams   : Sparse Team := []
  dies    : Sparse Die := []
  writes  : List WFlight := []
  acks    : List AckFlight := []
  reads   : List RFlight := []
  msgs    : List Msg := []
  contribs : List Contrib := []
  relays  : List RelayFlight := []
  fab     : Fabric := {}
  far     : Farrier := {}
  rings   : Sparse Ring := []
  dict    : Dict := {}
  boot    : Boot := {}
  mod     : Module := {}
  outbox  : List Out := []
  time    : Nat := 0
  nextSeq : Nat := 0
  free    : Nat := 0
  pending : List Instr := []
  deriving DecidableEq, Repr

/-- The module right after reset (R522, and the resets of the field maps): every word at its reset value, every thread FREE, every tile and
slot EMPTY, memory with nothing listed, the always-on domain powered and BOOT_STAGE at its default, ROM. -/
def State.reset : State := {}

end Sys2Proof.Machine
end

