-- ==== Sys2Proof/Machine/Sparse.lean ====
section
/-! DEFINITION. Sparse tables in canonical form: reading with a default, writing, and updating every entry. -/

namespace Sys2Proof.Machine

variable {α : Type}

/-- The entry at a key; an absent key reads as the default. -/
def Sparse.get (d : α) : Sparse α → Nat → α
  | [], _ => d
  | (k', v) :: m, k => if k' = k then v else Sparse.get d m k

/-- Places an entry before the first greater key. -/
def Sparse.ins : Sparse α → Nat → α → Sparse α
  | [], k, v => [(k, v)]
  | (k', v') :: m, k, v => if k < k' then (k, v) :: (k', v') :: m else (k', v') :: Sparse.ins m k v

/-- Drops every entry at a key. -/
def Sparse.drop : Sparse α → Nat → Sparse α
  | [], _ => []
  | (k', v') :: m, k => if k' = k then Sparse.drop m k else (k', v') :: Sparse.drop m k

/-- Writes an entry; writing the default removes it. -/
def Sparse.put [DecidableEq α] (d : α) (m : Sparse α) (k : Nat) (v : α) : Sparse α :=
  if v = d then Sparse.drop m k else Sparse.ins (Sparse.drop m k) k v

/-- Applies a function to the entry at a key. -/
def Sparse.upd [DecidableEq α] (d : α) (m : Sparse α) (k : Nat) (f : α → α) : Sparse α :=
  Sparse.put d m k (f (Sparse.get d m k))

/-- Applies a function to every listed entry, dropping those that become the default. -/
def Sparse.mapVals [DecidableEq α] (d : α) (f : Nat → α → α) : Sparse α → Sparse α
  | [] => []
  | (k, v) :: m => if f k v = d then Sparse.mapVals d f m else (k, f k v) :: Sparse.mapVals d f m

/-- The canonical form: keys strictly rising from a bound, no entry equal to the default. -/
def Sparse.wfFrom [DecidableEq α] (d : α) : Nat → Sparse α → Bool
  | _, [] => true
  | b, (k, v) :: m => decide (b ≤ k) && decide (v ≠ d) && Sparse.wfFrom d (k + 1) m

/-- The canonical form of a sparse table. -/
abbrev Sparse.wf [DecidableEq α] (d : α) (m : Sparse α) : Bool := Sparse.wfFrom d 0 m

/-- The entry at a key of a table in which presence counts. -/
def Sparse.find : Sparse α → Nat → Option α
  | [], _ => Option.none
  | (k', v) :: m, k => if k' = k then some v else Sparse.find m k

/-- Sets the entry at a key of a table in which presence counts. -/
def Sparse.set (m : Sparse α) (k : Nat) (v : α) : Sparse α := Sparse.ins (Sparse.drop m k) k v

/-- `len` consecutive entries of a byte memory; unlisted bytes read as zero (R202). -/
def readMem (m : Sparse Byte) (a : Nat) : Nat → List Byte
  | 0 => []
  | n + 1 => Sparse.get 0 m a :: readMem m (a + 1) n

/-- Writes bytes upward from an address; an absent byte leaves its place alone. -/
def writeMem (m : Sparse Byte) (a : Nat) : List (Option Byte) → Sparse Byte
  | [] => m
  | Option.none :: bs => writeMem m (a + 1) bs
  | some b :: bs => writeMem (Sparse.put 0 m a b) (a + 1) bs

/-- The little-endian number of a byte string (R472). -/
def leNat : List Byte → Nat
  | [] => 0
  | b :: bs => b.toNat + 256 * leNat bs

/-- The low `n` bytes of a number, little-endian. -/
def toBytes (x : Nat) : Nat → List Byte
  | 0 => []
  | n + 1 => BitVec.ofNat 8 x :: toBytes (x / 256) n

/-- A byte string padded with zeros, or cut, to a length. -/
def fitBytes (bs : List Byte) (n : Nat) : List Byte := (bs ++ List.replicate n 0).take n

/-- A 64-bit word from (value, lowest bit) fields. -/
def packW (fs : List (Nat × Nat)) : Word := BitVec.ofNat 64 (fs.foldl (fun a f => a + f.1 * 2 ^ f.2) 0)

/-- Bits `hi:lo` of a number. -/
def bitsN (x hi lo : Nat) : Nat := x / 2 ^ lo % 2 ^ (hi + 1 - lo)

/-- A Bool as a number. -/
def b2n (b : Bool) : Nat := if b then 1 else 0

/-- Replaces the first element with the key a test names. -/
def replaceFirst {β : Type} (p : β → Bool) (f : β → β) : List β → List β
  | [] => []
  | x :: xs => if p x then f x :: xs else x :: replaceFirst p f xs

end Sys2Proof.Machine
end

