-- ==== Sys2Proof/Machine/Wire.lean ====
section
/-! DEFINITION. What travels on a Thaex link: CRCs, the packet header and its units, flit groups and their trailers, codewords and lanes (R390 to
R400). -/

namespace Sys2Proof

open Sys2Proof.Machine

/-! ### CRCs (R153, R395, R399) -/

/-- Eight bits of a reflected CRC with a given polynomial. -/
def crcBits (poly : BitVec 32) : Nat → BitVec 32 → BitVec 32
  | 0, c => c
  | n + 1, c => crcBits poly n (if c.getLsbD 0 then (c >>> 1) ^^^ poly else c >>> 1)

/-- A reflected CRC of a byte string, with all ones at its start and inverted at its end. -/
def crcOf (poly : BitVec 32) (bs : List Byte) : BitVec 32 := ~~~(bs.foldl (fun c b => crcBits poly 8 (c ^^^ b.zeroExtend 32)) 0xFFFFFFFF)

/-- CRC-32C. -/
def crc32c (bs : List Byte) : BitVec 32 := crcOf 0x82F63B78 bs

/-- The CRC-32 of IEEE 802.3. -/
def crc32 (bs : List Byte) : BitVec 32 := crcOf 0xEDB88320 bs

/-! ### Packets as units (R395, R399) -/

/-- The bytes of a unit, the highest bits first: the first four bits of a packet are its KIND (R395, R399). -/
def unitBytes (u : BitVec 256) : List Byte := (toBytes u.toNat 32).reverse

/-- A unit from up to 32 bytes. -/
def unitOf (bs : List Byte) : BitVec 256 := BitVec.ofNat 256 (leNat (fitBytes bs 32).reverse)

/-- The header of a packet with E2E at a given value (Table Packet header). -/
def Packet.headerWith (k : Packet) (e2e : BitVec 32) : BitVec 256 :=
  BitVec.ofNat 256 (k.kind.toNat * 2 ^ 252 + k.tc.toNat * 2 ^ 250 + k.hop.toNat * 2 ^ 247 + k.dmod.toNat * 2 ^ 232 + k.smod.toNat * 2 ^ 220 +
    k.sdie.toNat * 2 ^ 218 + k.sepoch.toNat * 2 ^ 210 + k.seq.toNat * 2 ^ 186 + k.skind.toNat * 2 ^ 184 + k.sid.toNat * 2 ^ 162 +
    k.thr.toNat * 2 ^ 160 + k.len.toNat * 2 ^ 147 + k.oparg.toNat * 2 ^ 128 + k.addr.toNat * 2 ^ 64 + k.aux.toNat * 2 ^ 32 + e2e.toNat)

def Packet.header (k : Packet) : BitVec 256 := k.headerWith k.e2e

/-- The check of a packet: CRC-32C over header and payload, with E2E taken as zero. -/
def Packet.crc (k : Packet) : BitVec 32 := crc32c (unitBytes (k.headerWith 0) ++ k.payload)

/-- Whether the E2E check holds at the destination (R400). -/
def Packet.e2eOk (k : Packet) : Bool := decide (k.e2e = k.crc)

/-- A packet with its LEN and E2E as its source sets them. -/
def Packet.seal (k : Packet) : Packet :=
  let k := { k with len := if k.kind = 2 then k.len else BitVec.ofNat 13 k.payload.length }
  { k with e2e := k.crc }

/-- A packet one hop further on: E2E follows the change of HOP, so that it stays as right or as wrong as it was (log 51). -/
def Packet.nextHop (k : Packet) : Packet :=
  let n := { k with hop := k.hop + 1 }
  { n with e2e := k.e2e ^^^ k.crc ^^^ n.crc }

/-- Payload bytes as units, the last padded with zeros. -/
def payloadUnits : Nat → List Byte → List (BitVec 256)
  | 0, _ => []
  | n + 1, bs => if bs.isEmpty then [] else unitOf (bs.take 32) :: payloadUnits n (bs.drop 32)

/-- A packet as units: its header and its payload padded to whole units. -/
def Packet.units (k : Packet) : List (BitVec 256) := k.header :: payloadUnits 128 k.payload

/-- Bytes of a packet on a link. -/
def linkBytes (k : Packet) : Nat := 32 + (k.payload.length + 31) / 32 * 32

/-- Payload bytes a header announces: a remote read carries none. -/
def headerPayload (h : BitVec 256) : Nat := if h.extractLsb' 252 4 = (2 : BitVec 4) then 0 else (h.extractLsb' 147 13).toNat

/-- The packet of a header unit and the units of its payload. -/
def packetOf (h : BitVec 256) (us : List (BitVec 256)) : Packet :=
  { kind := h.extractLsb' 252 4, tc := h.extractLsb' 250 2, hop := h.extractLsb' 247 3, dmod := h.extractLsb' 232 12,
    smod := h.extractLsb' 220 12, sdie := h.extractLsb' 218 2, sepoch := h.extractLsb' 210 8, seq := h.extractLsb' 186 24,
    skind := h.extractLsb' 184 2, sid := h.extractLsb' 162 22, thr := h.extractLsb' 160 2, len := h.extractLsb' 147 13,
    oparg := h.extractLsb' 128 16, addr := h.extractLsb' 64 64, aux := h.extractLsb' 32 32, e2e := h.extractLsb' 0 32,
    payload := (us.flatMap unitBytes).take (headerPayload h) }

/-! ### Flit groups (R395, R396) -/

/-- A unit of idle fill. -/
def idleUnit : BitVec 256 := 0xF <<< 252

def isIdle (u : BitVec 256) : Bool := decide (u.extractLsb' 252 4 = (0xF : BitVec 4))

/-- Units cut into groups of 63, the last filled up with idle units. -/
def cutGroups : Nat → List (BitVec 256) → List (List (BitVec 256))
  | 0, _ => []
  | n + 1, us => if us.isEmpty then [] else (us.take 63 ++ List.replicate (63 - us.length) idleUnit) :: cutGroups n (us.drop 63)

/-- The packets that units complete, after the units of a packet left from earlier groups, and what is left: a packet starts on a unit boundary and
may span groups; a unit of idle fill between packets is skipped. -/
def parseUnits : List (BitVec 256) → List (BitVec 256) → List Packet × List (BitVec 256)
  | part, [] => ([], part)
  | [], u :: us =>
    if isIdle u then parseUnits [] us
    else if headerPayload u = 0 then
      let r := parseUnits [] us
      (packetOf u [] :: r.1, r.2)
    else parseUnits [u] us
  | h :: ps, u :: us =>
    let have_ := ps ++ [u]
    if (headerPayload h + 31) / 32 ≤ have_.length then
      let r := parseUnits [] us
      (packetOf h have_ :: r.1, r.2)
    else parseUnits (h :: have_) us

/-- The trailer of a group (Table Flit-group trailer) with a given CRC. -/
def trailerBits (gseq ackseq : BitVec 16) (nak : Bool) (rest : BitVec 5) (rchg : Bool) (gdis : BitVec 4) (cred : List (BitVec 5))
    (crc : BitVec 32) : BitVec 256 :=
  BitVec.ofNat 256 (gseq.toNat * 2 ^ 240 + ackseq.toNat * 2 ^ 224 + b2n nak * 2 ^ 223 + rest.toNat * 2 ^ 218 + b2n rchg * 2 ^ 217 +
    gdis.toNat * 2 ^ 213 + ((List.range 24).foldl (fun a k => a + (cred.getD k 0).toNat * 2 ^ (32 + 5 * k)) 0) + crc.toNat)

/-- The CRC of a group: over its units and its trailer, with the CRC field taken as zero. -/
def groupCrc (units : List (BitVec 256)) (trailer0 : BitVec 256) : BitVec 32 :=
  crc32 (units.flatMap unitBytes ++ unitBytes trailer0)

/-- The CRC a received group should hold. -/
def GroupIn.crcDue (g : GroupIn) : BitVec 32 :=
  groupCrc g.units (trailerBits g.gseq g.ackseq g.nak g.rest g.rchg g.gdis g.cred 0)

/-! ### Codewords and lanes (R391, R392, R394) -/

/-- The codeword a symbol belongs to: four consecutive codewords of 544 symbols are interleaved symbol by symbol, and groups of four symbols, one of
each codeword, are dealt to the `w` logical lanes in turn. `k` counts the symbols of a lane. -/
def codewordOf (w : Nat) (lane k : Nat) : Nat := 4 * ((k / 4 * w + lane) / 544) + k % 4

/-- Whether RS(544,514) corrects what was damaged: no codeword holds more than 15 bad symbols. -/
def fecCorrects (w : Nat) (bad : List (BitVec 4 × Nat)) : Bool :=
  let words := (bad.dedup).map (fun b => codewordOf w (b.1.toNat % w) b.2)
  words.all (fun c => decide ((words.filter (· = c)).length ≤ 15))

/-- Whether a received group is good: every codeword can be corrected, and the CRC is right (R396). -/
def GroupIn.good (g : GroupIn) (w : Nat) : Bool := fecCorrects w g.bad && decide (g.crc = g.crcDue)

/-- The physical lane that carries a logical lane while `r` carries no data (R391). -/
def laneOf (r l : Nat) : Nat := if l < r then l else l + 1

/-- The logical lane on a physical lane, `r` excepted. -/
def logicalOf (r p : Nat) : Nat := if p < r then p else p - 1

/-- The fibre of a physical lane in its direction, and whether it uses the second wavelength (R392). -/
def laneFibre (p : Nat) : Nat × Bool := (p / 2, decide (p % 2 = 1))

end Sys2Proof
end

