-- ==== Sys2Proof/Machine/Ops.lean ====
section
/-! DEFINITION. The named operations over the state that the meanings share: cores, threads, counters, events, item records, packets,
messages, DMA channel ends, thread end, core fence and trap entry. -/

namespace Sys2Proof.Machine

/-! ### Cores, threads, teams, dies -/

/-- The core at an index. -/
def State.core (s : State) (c : CoreIx) : Core := Sparse.get {} s.cores c.toNat

def State.setCore (s : State) (c : CoreIx) (x : Core) : State := { s with cores := Sparse.put {} s.cores c.toNat x }

def State.modCore (s : State) (c : CoreIx) (f : Core → Core) : State := s.setCore c (f (s.core c))

/-- The thread of a core at a number. -/
def Core.thread (x : Core) (t : ThrIx) : Thread := Sparse.get {} x.threads t.toNat

def Core.setThread (x : Core) (t : ThrIx) (h : Thread) : Core := { x with threads := Sparse.put {} x.threads t.toNat h }

def State.thread (s : State) (w : Who) : Thread := (s.core w.core).thread w.thr

def State.setThread (s : State) (w : Who) (h : Thread) : State := s.modCore w.core (fun x => x.setThread w.thr h)

def State.modThread (s : State) (w : Who) (f : Thread → Thread) : State := s.setThread w (f (s.thread w))

def State.team (s : State) (t : BitVec 8) : Team := Sparse.get {} s.teams t.toNat

def State.modTeam (s : State) (t : BitVec 8) (f : Team → Team) : State :=
  { s with teams := Sparse.upd {} s.teams t.toNat f }

def State.die (s : State) (d : DieIx) : Die := Sparse.get {} s.dies d.toNat

def State.modDie (s : State) (d : DieIx) (f : Die → Die) : State := { s with dies := Sparse.upd {} s.dies d.toNat f }

def coreDie (c : CoreIx) : DieIx := c.extractLsb' 8 2
def coreRow (c : CoreIx) : BitVec 4 := c.extractLsb' 4 4
def coreCol (c : CoreIx) : BitVec 4 := c.extractLsb' 0 4
def coreRegion (c : CoreIx) : BitVec 2 := c.extractLsb' 6 2

/-- The logical team of a core: die, row, column ÷ 4 (R13). -/
def coreTeam (c : CoreIx) : BitVec 8 := c.extractLsb' 2 8

/-- The 22-bit core ID (R13). -/
def State.coreId (s : State) (c : CoreIx) : BitVec 22 := s.mod.id ++ c

/-- Whether a logical core is present (R27, R28). -/
def State.present (s : State) (c : CoreIx) : Bool :=
  (Sparse.get 0xFFFF s.mod.rowCols (c.toNat / 16)).getLsbD (coreCol c).toNat

/-- The physical column a logical core runs on (R22): the row map of the last remap, or the identity. -/
def State.physCol (s : State) (c : CoreIx) : Nat :=
  ((Sparse.get (List.range 16) s.mod.rowMap (c.toNat / 16)).getD (coreCol c).toNat 16)

/-- System time in ns (R513). -/
def State.now (s : State) : Nat := s.time / 65536

def allThreads : List ThrIx := [0, 1, 2, 3]

/-- The threads of a core. -/
def whos (c : CoreIx) : List Who := allThreads.map (fun t => ⟨c, t⟩)

/-- Every core of a die. -/
def dieCores (d : DieIx) : List CoreIx := (List.range 256).map (fun k => d ++ BitVec.ofNat 8 k)

/-- The cores of a die that the state lists: every other core holds its reset state, in which no thread runs. -/
def State.listedCores (s : State) : List CoreIx := s.cores.map (fun e => BitVec.ofNat 10 e.1)

/-- A present address for `seq`, taken from the counter of what leaves. -/
def State.bumpSeq (s : State) : State := { s with nextSeq := s.nextSeq + 1 }

/-- A free value (log 5) and the state after it is taken. -/
def State.freeNat (s : State) : Nat × State := (Config.freeNat s.free, { s with free := s.free + 1 })

/-- The thread of core `c` itself that makes an access, if it is not one through the core window (R578). -/
def ownThread (v : Via) (c : CoreIx) : Option ThrIx :=
  match v with
  | .thread w => if w.core = c then some w.thr else Option.none
  | _ => Option.none

/-! ### Counters (R536 to R543) -/

def pmcMax : Nat := 0xFFFFFFFFFFFF

/-- A counter word after `n` more events; it holds at its largest value (R538). -/
def pmcAdd (x : BitVec 48) (n : Nat) : BitVec 48 := BitVec.ofNat 48 (min (x.toNat + n) pmcMax)

def pmcSats (x : BitVec 48) (n : Nat) : Bool := decide (pmcMax ≤ x.toNat + n)

/-- Feeds the aggregates of an event (R548): die sub-index `d`, or 4 for the module total. -/
def State.feedAgg (s : State) (e : Nat) (die : Option DieIx) (n : Nat) : State :=
  let a := Sparse.upd 0 s.mod.agg (8 * e + 4) (· + n)
  let a := match die with
    | some d => Sparse.upd 0 a (8 * e + d.toNat) (· + n)
    | Option.none => a
  { s with mod := { s.mod with agg := a } }

/-- Thread and core counters do not count while FREEZE is set, or HFRZ with a thread in HALT (R541). -/
def Core.frozen (x : Core) : Bool :=
  x.pmcFreeze || (x.pmcHfrz && allThreads.any (fun t => (x.thread t).state = .halt))

def State.countThread (s : State) (w : Who) (e n : Nat) : State :=
  let s := s.feedAgg e (some (coreDie w.core)) n
  let x := s.core w.core
  if x.frozen then s
  else
    let h := s.thread w
    let v := Sparse.get 0 h.pmc e
    let x := x.setThread w.thr { h with pmc := Sparse.put 0 h.pmc e (pmcAdd v n) }
    s.setCore w.core (if pmcSats v n then { x with pmcSat := true } else x)

def State.countCore (s : State) (c : CoreIx) (e n : Nat) : State :=
  let s := s.feedAgg e (some (coreDie c)) n
  let x := s.core c
  if x.frozen then s
  else
    let v := Sparse.get 0 x.pmc e
    let x := { x with pmc := Sparse.put 0 x.pmc e (pmcAdd v n) }
    s.setCore c (if pmcSats v n then { x with pmcSat := true } else x)

/-- An instruction of a thread retires: it counts in PMC_T_RETIRED, and its issue slot in PMC_SLOT_RET (R537, R544). -/
def State.countRetired (s : State) (w : Who) : State := (s.countThread w 0x010 1).countCore w.core 0x101 1

/-- Issue slots of instructions that were squashed, removed or left without effect by their own trap count in PMC_SLOT_WASTE (R544). -/
def State.countWasted (s : State) (c : CoreIx) (n : Nat) : State := if n = 0 then s else s.countCore c 0x102 n

/-- Sets PMC_STAT.SAT in each core of a list (R538). -/
def State.satCores (s : State) (cs : List CoreIx) : State :=
  cs.foldl (fun s c => s.modCore c (fun x => { x with pmcSat := true })) s

def teamCores (t : BitVec 8) : List CoreIx := (List.range 4).map (fun k => t ++ BitVec.ofNat 2 k)

def State.countTeam (s : State) (t : BitVec 8) (e n : Nat) : State :=
  let s := s.feedAgg e (some (t.extractLsb' 6 2)) n
  let v := Sparse.get 0 (s.team t).pmc e
  let s := s.modTeam t (fun x => { x with pmc := Sparse.put 0 x.pmc e (pmcAdd v n) })
  if pmcSats v n then s.satCores (teamCores t) else s

def State.countDie (s : State) (d : DieIx) (e n : Nat) : State :=
  let s := s.feedAgg e (some d) n
  let v := Sparse.get 0 (s.die d).pmc e
  let s := s.modDie d (fun x => { x with pmc := Sparse.put 0 x.pmc e (pmcAdd v n) })
  if pmcSats v n then s.satCores (dieCores d) else s

def State.countMod (s : State) (e n : Nat) : State := s.feedAgg e Option.none n

/-! ### Units of the harness (R325, R341, R342) -/

/-- Whether the unit of a barrier holds a core of its die. -/
def Barrier.covers (x : Barrier) (c : CoreIx) : Bool :=
  if x.level = 0 then decide (c.toNat % 256 / 4 = x.unit.toNat)
  else if x.level = 1 then decide ((coreRegion c).toNat = x.unit.toNat)
  else true

/-- A movement at a core ends the quiet period of every unit that holds it (R341, R342). -/
def State.movement (s : State) (c : CoreIx) : State :=
  s.modDie (coreDie c) (fun x =>
    { x with barriers := Sparse.mapVals {} (fun _ b => if b.covers c then { b with quietReported := false } else b) x.barriers })

/-- A thread that leaves WAIT is a movement (R341). -/
def State.leftWait (s : State) (w : Who) : State := if (s.thread w).state = .wait then s.movement w.core else s

/-- What a thread waits for at one instruction is given up: it stands at that instruction again. -/
def State.unwait (s : State) (w : Who) : State := (s.leftWait w).modThread w (fun h => { h with state := .run, hold := .none })

/-! ### What leaves the module: interrupts, frames, events (R493, R499) -/

def State.emit (s : State) (o : Out) : State := { s with outbox := s.outbox ++ [o] }

/-- A Forniti frame: its 16-byte header and its payload (R495). -/
def State.frameBytes (s : State) (type : Nat) (response : Bool) (tid : BitVec 16) (seq : BitVec 32) (payload : List Byte) : List Byte :=
  let node := leNat ((Sparse.find s.dict.vals (256 * 0x9000)).getD [0xFF])
  toBytes (seq.toNat * 2 ^ 96 + payload.length * 2 ^ 80 + tid.toNat * 2 ^ 64 + b2n response * 2 ^ 24 + node * 2 ^ 16 + type * 2 ^ 8 + 1) 16 ++
    payload

/-- Writes an event or emergency to EVT_LOG, raises its vector and sends its frame (R499). A stopped head groom sends nothing (R447). -/
def State.event (s : State) (code : Nat) (die : DieIx) (arg : Nat) (vector : Nat) : State :=
  if s.boot.headStopped then s
  else
    let seq := s.dict.evtSeq + 1
    let e : BitVec 256 := BitVec.ofNat 256
      (s.now * 2 ^ 192 + code * 2 ^ 176 + die.toNat * 2 ^ 174 + seq.toNat * 2 ^ 128 + arg % 2 ^ 128)
    let log := s.dict.evtLog ++ [e]
    let full := decide (256 < log.length)
    let lostUnread := full && decide (s.dict.evtRead.toNat + 256 < seq.toNat)
    let emerg := decide (0x8000 ≤ code)
    let d := { s.dict with evtSeq := seq, evtLog := if full then log.drop 1 else log,
                           evtOvf := s.dict.evtOvf || lostUnread,
                           emerg := if emerg then s.dict.emerg ++ [(e, 2)] else s.dict.emerg }
    ({ s with dict := d }.emit (.msix vector)).emit
      (.frame 0xFF (s.frameBytes (if emerg then 0x12 else 0x10) false 0 seq (toBytes e.toNat 32)))

/-- SIZE_CHANGED after a change of the size table (R19): SZ_GENERATION increments, then the event. -/
def State.sizeChanged (s : State) : State :=
  let s := { s with mod := { s.mod with szGen := s.mod.szGen + 1 } }
  s.event 0x0001 0 s.mod.szGen.toNat 0

/-! ### Packets toward other modules (R399, R404, R406) -/

def streamKey (d : DieIx) (m : BitVec 12) : Nat := 4096 * d.toNat + m.toNat

/-- A packet header with everything but the fields of its kind at zero. -/
def Packet.base (kind : BitVec 4) (tc : BitVec 2) (dmod smod : BitVec 12) (d : DieIx) : Packet :=
  { kind, tc, hop := 0, dmod, smod, sdie := d, sepoch := 0, seq := 0, skind := 0, sid := 0, thr := 0, len := 0,
    oparg := 0, addr := 0, aux := 0, payload := [], e2e := 0 }

/-- Bytes of the packets in the send store that have left and that a test names. -/
def State.storeBytes (s : State) (p : OutPkt → Bool) : Nat :=
  (s.fab.store.filter (fun x => !x.waits && p x)).foldl (fun n x => n + linkBytes x.pkt) 0

/-- Whether a packet stays within the 256 KiB of its stream and the 8 MiB of its die (R406). -/
def State.storeFits (s : State) (d : DieIx) (k : Packet) : Bool :=
  decide (s.storeBytes (fun x => decide (x.die = d ∧ x.pkt.dmod = k.dmod)) + linkBytes k ≤ 0x40000 ∧
    s.storeBytes (fun x => decide (x.die = d)) + linkBytes k ≤ 0x800000)

/-- Sends a request-class packet: it takes the stream's next SEQ and stays in the send store until acknowledged. One that exceeds a limit waits, and
the stream behind it too (R406). -/
def State.sendReq (s : State) (d : DieIx) (k : Packet) (flight : Nat) (ring : Option (BitVec 6 × BitVec 10)) : State :=
  let key := streamKey d k.dmod
  let seq := Sparse.get 0 s.fab.txSeq key
  let k := Packet.seal { k with tc := 1, sdie := d, smod := s.mod.id, seq := seq, sepoch := Sparse.get 0 s.fab.txEpoch key }
  let waits := !(s.storeFits d k) || s.fab.store.any (fun x => x.waits && decide (x.die = d ∧ x.pkt.dmod = k.dmod))
  let s := { s with fab := { s.fab with txSeq := Sparse.put 0 s.fab.txSeq key (seq + 1)
                                        store := s.fab.store ++ [({ die := d, flight := flight, pkt := k, ring := ring, waits := waits } : OutPkt)] } }
  if waits then s else s.emit (.packet d k)

/-- The acknowledgement of a packet of stream (`d`, `m`) that this module received, with its status: a queue status, a reason or a trap code
(R405; layout: log 15). -/
def State.sendAck (s : State) (m : BitVec 12) (d : DieIx) (seq : BitVec 24) (status : Nat) : State :=
  let k := Packet.base 11 2 m s.mod.id d
  s.emit (.packet d (Packet.seal { k with seq := seq, aux := BitVec.ofNat 32 status }))

/-! ### Performing a write (R65, R196, R199, R248, R266) -/

/-- Offset of a place in its unit. -/
def Loc.off : Loc → Nat
  | .ls _ o => o
  | .ctl _ o => o
  | .loft _ o => o
  | .hbm _ o => o
  | .ddr _ o => o
  | .remote _ a => a.toNat

/-- Whether two places lie in the same unit. -/
def Loc.sameUnit : Loc → Loc → Bool
  | .ls c _, .ls c' _ => decide (c = c')
  | .ctl c _, .ctl c' _ => decide (c = c')
  | .loft d _, .loft d' _ => decide (d = d')
  | .hbm d _, .hbm d' _ => decide (d = d')
  | .ddr d _, .ddr d' _ => decide (d = d')
  | .remote m _, .remote m' _ => decide (m = m')
  | _, _ => false

/-- The poison table of a unit, one entry for each 64-bit word. -/
def State.poisonOf (s : State) (l : Loc) : Sparse Bool :=
  match l with
  | .ls c _ => (s.core c).lsPoison
  | .loft d _ => (s.die d).loftPoison
  | .hbm d _ => (s.die d).hbmPoison
  | .ddr d _ => (s.die d).ddrPoison
  | _ => []

def State.setPoisonOf (s : State) (l : Loc) (m : Sparse Bool) : State :=
  match l with
  | .ls c _ => s.modCore c (fun x => { x with lsPoison := m })
  | .loft d _ => s.modDie d (fun x => { x with loftPoison := m })
  | .hbm d _ => s.modDie d (fun x => { x with hbmPoison := m })
  | .ddr d _ => s.modDie d (fun x => { x with ddrPoison := m })
  | _ => s

/-- The words an access touches. -/
def wordsOf (off n : Nat) : List Nat := (List.range ((off + n + 7) / 8 - off / 8)).map (fun k => off / 8 + k)

/-- The byte a write puts at an offset, if it writes there. -/
def byteFor (off : Nat) (bs : List (Option Byte)) (p : Nat) : Option Byte :=
  if off ≤ p then ((bs[p - off]?).getD Option.none) else Option.none

/-- A word written in full is no longer poisoned (R196, R248). -/
def clearPoison (m : Sparse Bool) (off : Nat) (bs : List (Option Byte)) : Sparse Bool :=
  (wordsOf off bs.length).foldl (fun m k =>
    if (List.range 8).all (fun j => (byteFor off bs (8 * k + j)).isSome) then Sparse.put false m k false else m) m

/-- Whether a write touches a 64-byte line of its unit. -/
def touches (off : Nat) (bs : List (Option Byte)) (line : Nat) : Bool :=
  (List.range 64).any (fun j => (byteFor off bs (64 * line + j)).isSome)

/-- Clears every reservation a test names (R65). -/
def State.clearResv (s : State) (p : Loc → Bool) : State :=
  { s with cores := Sparse.mapVals {} (fun _ x => { x with threads := Sparse.mapVals {} (fun _ h =>
      if (match h.resv with | some l => p l | Option.none => false) then { h with resv := Option.none } else h) x.threads }) s.cores }

/-- Puts bytes at a place of this module, with nothing else. -/
def State.putLoc (s : State) (l : Loc) (bs : List (Option Byte)) : State :=
  match l with
  | .ls c o => s.modCore c (fun x => { x with ls := writeMem x.ls o bs })
  | .loft d o => s.modDie d (fun x => { x with loft := writeMem x.loft o bs })
  | .hbm d o => s.modDie d (fun x => { x with hbm := writeMem x.hbm o bs })
  | .ddr d o => s.modDie d (fun x => { x with ddr := writeMem x.ddr o bs })
  | .ctl _ _ => s
  | .remote _ _ => s

/-- Closes the merge entries of the lines a write touches (R199). -/
def State.closeMerges (s : State) (l : Loc) (bs : List (Option Byte)) : State :=
  match l with
  | .loft d o => s.modDie d (fun x => { x with merges := x.merges.filter (fun m => !(touches o bs m.line)) })
  | _ => s

/-- Performs a write to memory of this module (R266): the bytes, the poison it ends, the reservations it clears, the merge entries it
closes. -/
def State.perform (s : State) (l : Loc) (bs : List (Option Byte)) : State :=
  let s := s.putLoc l bs
  let s := s.setPoisonOf l (clearPoison (s.poisonOf l) l.off bs)
  let s := s.clearResv (fun r => r.sameUnit l && touches l.off bs (r.off / 64))
  s.closeMerges l bs

/-! ### Stations and messages (R293 to R303, R584) -/

def State.queue (s : State) (c : CoreIx) (q : BitVec 4) : Queue := Sparse.get {} (s.core c).queues q.toNat

def State.modQueue (s : State) (c : CoreIx) (q : BitVec 4) (f : Queue → Queue) : State :=
  s.modCore c (fun x => { x with queues := Sparse.upd {} x.queues q.toNat f })

/-- The station and lane tables resolve to a core ID, a queue and an epoch (R302). -/
def Core.resolve (x : Core) (station lane : BitVec 8) : Option (BitVec 22 × BitVec 4 × BitVec 16) :=
  let e : Word := Sparse.get 0 x.stnEntry station.toNat
  if e.extractLsb' 62 2 = 1 then
    if lane = 0 then some (e.extractLsb' 38 22, e.extractLsb' 32 4, e.extractLsb' 16 16) else Option.none
  else if e.extractLsb' 62 2 = 2 then
    if lane.toNat ≤ (e.extractLsb' 8 8).toNat then
      let l : Word := Sparse.get 0 x.stnLane ((e.extractLsb' 0 8) + lane).toNat
      if l.getLsbD 63 then some (l.extractLsb' 38 22, l.extractLsb' 32 4, l.extractLsb' 16 16) else Option.none
    else Option.none
  else Option.none

def idModule (i : BitVec 22) : BitVec 12 := i.extractLsb' 10 12
def idCore (i : BitVec 22) : CoreIx := i.extractLsb' 0 10

/-- Whether a core ID names a core of this module. -/
def State.mine (s : State) (i : BitVec 22) : Bool := idModule i = s.mod.id

/-! ### DMA channels (R221) -/

def State.chan (s : State) (t : BitVec 8) (c : BitVec 3) : Chan := Sparse.get {} (s.team t).ch c.toNat

def State.modChan (s : State) (t : BitVec 8) (c : BitVec 3) (f : Chan → Chan) : State :=
  s.modTeam t (fun x => { x with ch := Sparse.upd {} x.ch c.toNat f })

/-- DMA_STAT as one word (R221). -/
def Chan.stat (x : Chan) : Word :=
  packW [(x.lines.toNat, 48), (b2n x.win, 31), (x.core.toNat, 26), (x.thr.toNat, 24), (x.statTag.toNat, 16),
         (x.nstat.toNat, 13), (b2n x.nfail, 12), (b2n x.werr, 9), (x.code.toNat, 4), (x.state.toNat, 0)]

/-- Whether a channel is in a terminal state (R221). -/
def Chan.terminal (x : Chan) : Bool := decide (4 ≤ x.state.toNat ∧ x.state.toNat ≤ 7)

/-- Whether a channel is queued, active or halted. -/
def Chan.open_ (x : Chan) : Bool := decide (x.state = 1 ∨ x.state = 2 ∨ x.state = 3)

/-- The core that activated a channel. -/
def chanCore (t : BitVec 8) (x : Chan) : CoreIx := t ++ x.core

/-! ### Messages on their way (R272, R279, R296, R297, R308, R584) -/

/-- The source a message leaves (R267). -/
def MsgFrom.source : MsgFrom → Source
  | .thread w => .port w.core
  | .dma t _ => .dma t
  | .red c _ => .port c
  | .item _ _ => .groom
  | .peer m d _ => .peer m d
  | .lost => .groom

/-- The station-message packet of a message to another module (R399). -/
def State.sendMsgPacket (s : State) (m : Msg) : State :=
  let pk := Packet.base 4 1 (idModule m.target) s.mod.id 0
  let word := packW [(m.kind.toNat, 62), (m.thr.toNat, 60), (m.sender.toNat, 38), (m.epoch.toNat, 16), (m.payload.length - 1, 8)]
  let src : BitVec 2 := match m.origin with
    | .dma _ _ => 1
    | .item _ _ => 2
    | _ => 0
  s.sendReq (coreDie (idCore m.sender))
    { pk with skind := src, sid := m.sender, thr := m.thr, oparg := BitVec.ofNat 16 m.queue.toNat,
              addr := BitVec.ofNat 64 m.target.toNat, aux := BitVec.ofNat 32 m.epoch.toNat,
              payload := toBytes word.toNat 8 ++ m.payload } m.seq Option.none

/-- Whether no core answers at a target: its column is absent, or its module is not in reach (R584). -/
def State.noCore (s : State) (target : BitVec 22) : Bool :=
  if s.mine target then !(s.present (idCore target))
  else s.fab.unreach.contains (idModule target) || !(s.fab.reach.contains (idModule target))

/-- Whether a message is one of a channel: a sending core and a receiving queue (R297). -/
def Msg.onChannel (m : Msg) (sender target : BitVec 22) (q : BitVec 4) : Bool :=
  decide (m.sender = sender ∧ m.target = target ∧ m.queue = q)

/-- Whether a queue is of control class. For a queue of another module the answer is a free choice (log 53). -/
def State.controlQueue (s : State) (target : BitVec 22) (q : BitVec 4) : Bool :=
  if s.mine target then (s.queue (idCore target) q).cls else Config.remoteClass target q

/-- Whether a new message is held back: an earlier one of its control-class channel is neither accepted nor withdrawn (R297, log 53). -/
def State.channelHeld (s : State) (sender target : BitVec 22) (q : BitVec 4) : Bool :=
  s.controlQueue target q && s.msgs.any (fun m => m.onChannel sender target q)

/-- PEND of a thread whose message leaves the outbound port, or whose attempt is acknowledged (R279). A message to a queue of its own core does not
use the port (R312). -/
def State.pendMsg (s : State) (m : Msg) (leaves : Bool) : State :=
  match m.origin with
  | .thread w =>
    if m.target = m.sender then s
    else s.modThread w (fun h => { h with pend := if leaves then h.pend + 1 else h.pend - 1 })
  | _ => s

/-- What the notification of an engine came to (R234, R361). -/
def State.notified (s : State) (o : MsgFrom) (code : BitVec 3) : State :=
  match o with
  | .dma t c =>
    let s := s.modChan t c (fun x => { x with nstat := code, nfail := decide (code ≠ 0) })
    if code = 0 then s else s.countTeam t 0x403 1
  | .red c x => s.modCore c (fun k => { k with red := Sparse.upd {} k.red x.toNat (fun r =>
      { r with nstat := code, nfail := decide (code ≠ 0) }) })
  | _ => s

def State.dropMsg (s : State) (seq : Nat) : State := { s with msgs := s.msgs.filter (fun m => m.seq ≠ seq) }

/-- Whether the timeout of an engine's message has run out. -/
def Msg.late (m : Msg) (now : Nat) : Bool :=
  match m.limit with
  | some l => decide (l ≤ now)
  | Option.none => false

/-- An attempt of a message leaves, unless its engine has given it up by now (R234, R309): inside the module as flits, to another module as a
station-message packet; a target where no core answers gives CLOSED (R295, R311, R584). -/
def State.leaveMsg (s : State) (m : Msg) : State :=
  if m.late s.now ∧ ¬ m.oneShot then (s.dropMsg m.seq).notified m.origin 3
  else
    let closed := s.noCore m.target
    let phase : MsgPhase := if closed then .answer 4 else .flight
    let s := { s with msgs := s.msgs.map (fun (n : Msg) => if n.seq = m.seq then { n with phase := phase, left := s.nextSeq } else n) }.bumpSeq
    let s := s.pendMsg m true
    if closed || s.mine m.target then s else s.sendMsgPacket m

/-- A new message: it leaves at once, or waits behind an earlier one of its channel (R297). -/
def State.sendMsg (s : State) (origin : MsgFrom) (kind : BitVec 2) (thr : ThrIx) (sender target : BitVec 22) (q : BitVec 4)
    (epoch : BitVec 16) (payload : List Byte) (oneShot : Bool) (limit : Option Nat) : State :=
  let seq := s.nextSeq
  let held := s.channelHeld sender target q
  let m : Msg := { seq, left := seq, source := MsgFrom.source origin, origin, kind, thr, sender, target, queue := q, epoch, payload, oneShot, limit,
                   phase := .held, refusals := 0 }
  let s := { s with msgs := s.msgs ++ [m] }.bumpSeq
  if held then s else s.leaveMsg m

/-- Releases the messages a channel held back, once the one before them is accepted or withdrawn (R297): the next one leaves. -/
def State.releaseChannel (s : State) (sender target : BitVec 22) (q : BitVec 4) : State :=
  (s.msgs.filter (fun m => m.onChannel sender target q && decide (m.phase = .held))).foldl
    (fun s m => if s.msgs.any (fun n => n.onChannel sender target q && decide (n.phase ≠ .held)) then s else s.leaveMsg m) s

/-- A message is accepted, dropped or withdrawn; the next of its channel may go (R297). -/
def State.endMsg (s : State) (m : Msg) : State := (s.dropMsg m.seq).releaseChannel m.sender m.target m.queue

/-! ### Items (R450 to R467) -/

def handleOf (r : BitVec 6) (slot : BitVec 10) : BitVec 16 := r ++ slot

def State.ring (s : State) (r : BitVec 6) : Ring := Sparse.get {} s.rings r.toNat

def State.modRing (s : State) (r : BitVec 6) (f : Ring → Ring) : State :=
  { s with rings := Sparse.upd {} s.rings r.toNat f }

def Ring.led (x : Ring) (slot : BitVec 10) : Ledger := Sparse.get {} x.ledger slot.toNat

def State.modLed (s : State) (r : BitVec 6) (slot : BitVec 10) (f : Ledger → Ledger) : State :=
  s.modRing r (fun x => { x with ledger := Sparse.upd {} x.ledger slot.toNat f })

/-- LOC of a terminal record (R459). -/
def locOf (level : Nat) (thr : Option ThrIx) (coreId : BitVec 22) : BitVec 32 :=
  BitVec.ofNat 32 (level * 2 ^ 29 +
    (match thr with | some t => 2 ^ 24 + t.toNat * 2 ^ 22 | Option.none => 0) + coreId.toNat)

def locThread (s : State) (w : Who) : BitVec 32 := locOf 0 (some w.thr) (s.coreId w.core)

def stDone : Nat := 0x0000
def stCheck : Nat := 0x0101
def stFault : Nat := 0x0102
def stLink : Nat := 0x0103
def stDeadline : Nat := 0x0104
def stAbort : Nat := 0x0105

/-- CAUSE of FAILED_FAULT: SOURCE in bits 15:12, detail in bits 11:0 (R460). -/
def faultCause (source detail : Nat) : Nat := source * 4096 + detail % 4096

/-- A Loft address of this module as die and offset (R33). -/
def loftOf (a : Word) : DieIx × Nat := (a.extractLsb' 50 2, (a.extractLsb' 0 31).toNat)

def State.pokeLoft (s : State) (a : Word) (bs : List Byte) : State :=
  s.perform (.loft (loftOf a).1 (loftOf a).2) (bs.map some)

/-- Where the record of a ring goes (R459): host memory with MSIX, the submitting module, or the ring's own record area. -/
def State.putRecord (s : State) (r : BitVec 6) (slot : BitVec 10) (rc : Nat) : State :=
  let x := s.ring r
  let idx := x.records % 2 ^ x.depth.toNat
  let bs := toBytes rc 32
  let s := s.modRing r (fun x => { x with records := x.records + 1 })
  let pk := Packet.base 9 1 x.peer s.mod.id 0
  if x.kind = 1 then
    s.sendReq 0 { pk with oparg := BitVec.ofNat 16 x.peerRing.toNat, payload := bs } 0 (some (r, slot))
  else if x.kind = 2 then s.pokeLoft (x.cq + BitVec.ofNat 64 (32 * idx)) bs
  else (s.emit (.busWrite (x.cq + BitVec.ofNat 64 (32 * idx)) bs)).emit (.msix x.msix.toNat)

/-- Removes a handle from the thread its ledger entry names. -/
def State.unbind (s : State) (l : Ledger) (h : BitVec 16) : State :=
  if l.state = 3 ∨ l.state = 4 ∨ l.state = 5 then
    s.modThread ⟨l.core.extractLsb' 0 10, l.thr⟩
      (fun t => { t with bound := t.bound.filter (· ≠ h), taken := t.taken.filter (· ≠ h) })
  else s

/-- The delivery of an item that has ended: a refused message is withdrawn, one under way is no longer the item's (R454). -/
def State.forgetDelivery (s : State) (r : BitVec 6) (slot : BitVec 10) : State :=
  let out := s.msgs.filter (fun m => decide (m.origin = .item r slot ∧ (m.phase = .backoff ∨ m.phase = .held)))
  let s := out.foldl State.endMsg s
  { s with msgs := s.msgs.map (fun m => if m.origin = .item r slot then { m with origin := .lost } else m) }

/-- Closes an item with its one terminal record (R461). A later ending event is discarded and counted in PMC_ITM_LATE. Without the host
domain, or after a head-groom stop, nothing is written (R447, R507). -/
def State.closeItem (s : State) (r : BitVec 6) (slot : BitVec 10) (status cause : Nat) (loc : BitVec 32) : State :=
  let x := s.ring r
  let l := x.led slot
  if ¬ s.boot.hostUp ∨ s.boot.headStopped then s
  else if l.state = 0 ∨ l.unacked then s.countMod 0x802 1
  else
    let phase := if x.records / 2 ^ x.depth.toNat % 2 = 0 then 1 else 0
    let rc := phase * 2 ^ 255 + s.now % 2 ^ 64 * 2 ^ 128 + loc.toNat * 2 ^ 96 + cause % 2 ^ 16 * 2 ^ 80
                + status * 2 ^ 64 + l.id.toNat
    let s := (s.unbind l (handleOf r slot)).forgetDelivery r slot
    let s := s.modLed r slot (fun l => { l with state := if x.kind = 1 then l.state else 0, unacked := decide (x.kind = 1) })
    let s := s.countMod (if status = stDone then 0x800 else 0x801) 1
    s.putRecord r slot rc

/-- Whether a thread could write its command word now (R48). -/
def State.atCommand (s : State) (w : Who) : Bool :=
  let h := s.thread w
  decide (h.state = .run ∧ h.hold = .none ∧ h.memHold = .none) && h.loads.isEmpty

/-- Whether the thread has nothing of its own under way that a DONE waits for (R276, R456). -/
def State.threadQuiet (s : State) (w : Who) : Bool :=
  !((s.core w.core).mq.any (fun m => decide (m.thr = w.thr))) && !(s.writes.any (fun x => decide (x.src = some w))) &&
    !(s.acks.any (fun x => decide (x.src = some w))) && !(s.msgs.any (fun m => decide (m.origin = .thread w)))

/-- The DONE or FAIL with which a bound thread ends its item in the same C-cycle: one that waits in the queue behind the event that is being
handled, since system time stands still while commands wait (R463; log 63). A DONE is absent CAUSE. -/
def State.endsFirst (s : State) (r : BitVec 6) (slot : BitVec 10) : Option (Who × Option (BitVec 12)) :=
  let l := (s.ring r).led slot
  let mine (w : Who) (h : BitVec 16) : Bool :=
    decide (h = handleOf r slot ∧ l.state = 3 ∧ l.core = s.coreId w.core ∧ l.thr = w.thr) && s.atCommand w
  s.pending.findSome? (fun c =>
    match c with
    | .itmDone w h => if mine w h && s.threadQuiet w then some (w, Option.none) else Option.none
    | .itmFail w h cause => if mine w h then some (w, some cause) else Option.none
    | _ => Option.none)

/-- DONE of a bound thread: the hold of R439 starts and the item is unbound (R456). -/
def State.startHold (s : State) (w : Who) (r : BitVec 6) (slot : BitVec 10) : State :=
  (s.modLed r slot (fun l => { l with state := 4, holdEnd := s.now + 2000 })).modThread w
    (fun h => { h with bound := h.bound.filter (· ≠ handleOf r slot) })

/-- FAIL of a bound thread (R456). -/
def State.closeFailed (s : State) (w : Who) (r : BitVec 6) (slot : BitVec 10) (cause : BitVec 12) : State :=
  s.closeItem r slot stFault (faultCause 1 cause.toNat) (locThread s w)

/-- An ending event that is no command of the bound thread: a DONE or FAIL of the same C-cycle outranks it, and it is discarded as late (R461,
R463). -/
def State.endItem (s : State) (r : BitVec 6) (slot : BitVec 10) (status cause : Nat) (loc : BitVec 32) : State :=
  match s.endsFirst r slot with
  | some (w, Option.none) => (s.startHold w r slot).countMod 0x802 1
  | some (w, some c) => (s.closeFailed w r slot c).countMod 0x802 1
  | Option.none => s.closeItem r slot status cause loc

/-- Ends the item of a handle. -/
def State.endHandle (s : State) (h : BitVec 16) (status cause : Nat) (loc : BitVec 32) : State :=
  s.endItem (h.extractLsb' 10 6) (h.extractLsb' 0 10) status cause loc

/-- Ends every item bound to a thread or taken by it (R457, R458). -/
def State.failItems (s : State) (w : Who) (status cause : Nat) (loc : BitVec 32) : State :=
  let h := s.thread w
  let s := (h.bound ++ h.taken).foldl (fun s i => s.endHandle i status cause loc) s
  s.modThread w (fun t => { t with bound := [], taken := [] })

/-! ### Notifications and ends of DMA channels (R229 to R237) -/

/-- The notification of a channel that halted or ended (R234). -/
def State.dmaNotify (s : State) (t : BitVec 8) (c : BitVec 3) : State :=
  let x := s.chan t c
  if ¬ x.ntf then s
  else
    let core := chanCore t x
    match (s.core core).resolve (x.notify.extractLsb' 0 8) (x.notify.extractLsb' 8 8) with
    | Option.none => (s.modChan t c (fun x => { x with nstat := 7, nfail := true })).countTeam t 0x403 1
    | some (target, q, epoch) =>
      let info := packW [((s.coreId core).toNat, 0), (c.toNat, 24)]
      s.sendMsg (.dma t c) 1 0 (s.coreId core) target q epoch (toBytes x.stat.toNat 8 ++ toBytes info.toNat 8)
        (decide (x.notify.extractLsb' 16 16 = 0))
        (some (s.now + 1000 * (x.notify.extractLsb' 16 16).toNat))

/-- Drops the reads that engines have under way and a test names. -/
def State.dropEngine (s : State) (p : EngineRead → Bool) : State :=
  { s with reads := s.reads.filter (fun f => !(match f.engine with | some e => p e | Option.none => false)) }

/-- Whether an engine's read belongs to a channel. -/
def EngineRead.ofChan (e : EngineRead) (t : BitVec 8) (c : BitVec 3) : Bool :=
  match e with
  | .dma t' c' _ _ => decide (t' = t ∧ c' = c)
  | _ => false

/-- A channel reaches a terminal state (R229, R232): it leaves the queue, and its message goes out. -/
def State.dmaEnd (s : State) (t : BitVec 8) (c : BitVec 3) (code : BitVec 4) : State :=
  let s := s.modChan t c (fun x => { x with state := code, ending := Option.none, bad := Option.none })
  let s := s.modTeam t (fun x => { x with order := x.order.filter (· ≠ c) })
  (s.dropEngine (fun e => e.ofChan t c)).dmaNotify t c

/-- A channel is to end: one that is active, or has issued writes that are not performed, ends once they are (R232 to R234, R236, R237). -/
def State.dmaStop (s : State) (t : BitVec 8) (c : BitVec 3) (code : BitVec 4) : State :=
  let x := s.chan t c
  if x.state = 2 ∨ x.unacked ≠ 0 then
    s.modChan t c (fun x => { x with state := 2, bad := Option.none, ending := some (x.ending.getD code) })
  else s.dmaEnd t c code

/-- Whether a thread's channels have all reached a terminal state (R235). -/
def State.dmaQuiet (s : State) (w : Who) : Bool :=
  (List.range 8).all (fun c =>
    let x := s.chan (coreTeam w.core) (BitVec.ofNat 3 c)
    !(x.open_ && decide (x.by_ = some w)))

/-! ### Streams and relay (R214, R381) -/

def State.stream (s : State) (w : Who) (k : BitVec 3) : Stream := Sparse.get {} (s.thread w).streams k.toNat

def State.modStream (s : State) (w : Who) (k : BitVec 3) (f : Stream → Stream) : State :=
  s.modThread w (fun h => { h with streams := Sparse.upd {} h.streams k.toNat f })

/-- The nearest present column in a direction of the row (R376). -/
def State.neighbour (s : State) (c : CoreIx) (lower : Bool) : Option CoreIx :=
  let col := (coreCol c).toNat
  let cand := if lower then (List.range col).reverse else (List.range (15 - col)).map (· + col + 1)
  (cand.map (fun k => c.extractLsb' 4 6 ++ BitVec.ofNat 4 k)).find? s.present

/-- The stream a sending stream feeds (R375). -/
def State.relayTarget (s : State) (c : CoreIx) (x : Stream) : Option (Who × BitVec 3) :=
  if x.mode = 1 ∨ x.mode = 3 then (s.neighbour c x.dir).map (fun n => (⟨n, x.tthr⟩, x.tstrm)) else Option.none

/-- Whether a tile is on the trace toward a stream. -/
def State.relayComing (s : State) (w : Who) (k : BitVec 3) : Bool :=
  s.relays.any (fun r => decide (r.core = w.core ∧ r.thr = w.thr ∧ r.strm = k))

/-- Sets LOST in a receiving stream whose upstream ended: after the tiles that it has sent have arrived, or at once where its core is fenced. A MODE 3
stream with nothing left to pass on does the same downstream, at most once along the row (R381). -/
def State.relayLost : Nat → State → CoreIx → Stream → Bool → State
  | 0, s, _, _, _ => s
  | n + 1, s, c, x, atOnce =>
    match s.relayTarget c x with
    | Option.none => s
    | some (w, k) =>
      let y := s.stream w k
      let mine (r : RelayFlight) : Bool := decide (r.from_ = c ∧ r.core = w.core ∧ r.thr = w.thr ∧ r.strm = k)
      if y.mode ≠ 2 ∧ y.mode ≠ 3 then s
      else if s.relays.any mine ∧ ¬ atOnce then
        { s with relays := (replaceFirst mine (fun r => { r with ends := true }) s.relays.reverse).reverse }
      else
        let s := s.modStream w k (fun y => { y with lost := true })
        if y.mode = 3 ∧ y.tiles.all (fun t => t.sent) ∧ ¬ s.relayComing w k then State.relayLost n s w.core y false else s

/-- Stops a stream: its filled tiles and in-flight reads are discarded (R214), and its target loses its upstream, at once where the core is fenced. -/
def State.stopStream (s : State) (w : Who) (k : BitVec 3) (fenced : Bool) : State :=
  let x := s.stream w k
  let s := s.modStream w k (fun x => { x with en := false, tiles := [], claim := false })
  let s := { s with reads := s.reads.filter (fun f =>
    !(decide (f.who = w) && (match f.engine with | some (.fill j _ _ _) => decide (j = k) | _ => false))) }
  if x.en then State.relayLost 16 s w.core x fenced else s

def allStreams : List (BitVec 3) := [0, 1, 2, 3, 4, 5, 6, 7]

def State.stopStreams (s : State) (w : Who) (fenced : Bool) : State := allStreams.foldl (fun s k => s.stopStream w k fenced) s

/-- A squashed tld withdraws its claim (R213). -/
def Thread.unclaim (h : Thread) : Thread := { h with streams := Sparse.mapVals {} (fun _ x => { x with claim := false }) h.streams }

/-! ### Slots (R106, R109) -/

/-- Base and size of a thread's share of the slots under ACC_SPLIT.MODE (R106). -/
def slotShare (mode : BitVec 2) (t : ThrIx) : Nat × Nat :=
  if mode = 0 then (if t = 0 then (0, 16) else (0, 0))
  else if mode = 1 then (if t = 0 then (0, 8) else if t = 1 then (8, 8) else (0, 0))
  else (4 * t.toNat, 4)

def Core.slot (x : Core) (k : Nat) : Slot := Sparse.get {} x.slots k

def State.modSlot (s : State) (c : CoreIx) (k : Nat) (f : Slot → Slot) : State :=
  s.modCore c (fun x => { x with slots := Sparse.upd {} x.slots k f })

/-- The slots of a thread's share become EMPTY, a slot that an acc.send still streams excepted (R109). -/
def Core.emptyShare (x : Core) (t : ThrIx) : Core :=
  let sh := slotShare x.mode t
  { x with slots := x.slots.filter (fun e => !(decide (sh.1 ≤ e.1 ∧ e.1 < sh.1 + sh.2) && decide (e.2.sending = 0))) }

/-! ### Threads: registers, end, fence, trap -/

def Thread.reg (h : Thread) (r : BitVec 5) : Word := if r = 0 then 0 else Sparse.get 0 h.g r.toNat

/-- Writes a general register; g0 discards (R35). -/
def Thread.setReg (h : Thread) (r : BitVec 5) (v : Word) : Thread :=
  if r = 0 then h else { h with g := Sparse.put 0 h.g r.toNat v }

def Thread.pred (h : Thread) (p : BitVec 3) : Word := if p = 0 then BitVec.allOnes 64 else Sparse.get 0 h.p p.toNat

/-- Writes a predicate; p0 discards (R35). -/
def Thread.setPred (h : Thread) (p : BitVec 3) (v : Word) : Thread :=
  if p = 0 then h else { h with p := Sparse.put 0 h.p p.toNat v }

def Thread.vec (h : Thread) (r : BitVec 5) : Vec := Sparse.get 0 h.v r.toNat

def Thread.setVec (h : Thread) (r : BitVec 5) (v : Vec) : Thread := { h with v := Sparse.put 0 h.v r.toNat v }

def Thread.tile (h : Thread) (t : BitVec 3) : Tile := Sparse.get {} h.tiles t.toNat

def Thread.setTile (h : Thread) (t : BitVec 3) (x : Tile) : Thread := { h with tiles := Sparse.put {} h.tiles t.toNat x }

/-- EXIT as join returns it: sign-extended (R43). -/
def Thread.exitWord (h : Thread) : Word := h.exit.signExtend 64

/-- Moves a thread past an instruction of `len` bytes; a translation delivered for that instruction alone is used up. -/
def Thread.advance (h : Thread) (len : Nat) : Thread := { h with pc := h.pc + BitVec.ofNat 64 len, given := Option.none }

/-! ### Halts and instruction boundaries (R550 to R553) -/

/-- Whether a thread has matrix instructions in the queue of its core (R104). -/
def State.mmQueued (s : State) (w : Who) : Bool := (s.core w.core).mq.any (fun m => decide (m.thr = w.thr))

/-- Whether a thread stands at an instruction boundary with nothing under way (R97, R158, R271, R550). -/
def State.atBoundary (s : State) (w : Who) : Bool :=
  let h := s.thread w
  h.loads.isEmpty && !(s.mmQueued w) && decide (h.hold = .none ∧ h.memHold = .none) &&
    (match (s.core w.core).retry with | some r => !(decide (r.thr = w.thr)) | Option.none => true)

/-- A thread enters HALT. -/
def State.haltOne (s : State) (w : Who) (reason : BitVec 4) : State :=
  (s.leftWait w).modThread w (fun h => { h.unclaim with state := .halt, reason := reason, stepping := false, haltReq := Option.none, hold := .none })

/-- A halt is asked of a thread: one that waits in join, sel.q, hb.wait or for a translation is squashed at its instruction, a snd.q with no attempt
in flight is withdrawn (R318, R338, R550), and every other wait ends first (R97, R271). -/
def State.askHalt (s : State) (w : Who) (reason : BitVec 4) : State :=
  let h := s.thread w
  if h.state = .run ∨ h.state = .wait then
    let s := s.modThread w (fun h => { h with haltReq := some (h.haltReq.getD reason) })
    match h.hold with
    | .none => s
    | .syncDma _ => s
    | .due _ => s
    | .xlate x => if x.tileRow.isSome then s else s.unwait w
    | .snd seq _ _ _ =>
      match s.msgs.find? (fun m => m.seq = seq) with
      | some m => if m.phase = .backoff ∨ m.phase = .held then (s.endMsg m).unwait w else s
      | Option.none => s.unwait w
    | _ => s.unwait w
  else s

/-- A thread that another one's halt reaches: it halts now if it stands at a boundary, and triggers no further halts (R553). -/
def State.crossHalt (s : State) (w : Who) : State :=
  let s := s.askHalt w 5
  match (s.thread w).haltReq with
  | some r => if (s.thread w).state = .run ∧ s.atBoundary w then s.haltOne w r else s
  | Option.none => s

/-- A thread halts (R550, R551, R553): its cross-triggers send HALT to the others. -/
def State.haltThread (s : State) (w : Who) (reason : BitVec 4) : State :=
  let s := s.haltOne w reason
  let h := s.thread w
  if reason = 5 then s
  else
    let s := if h.xtrig then ((whos w.core).filter (fun v => decide (v ≠ w) && (s.thread v).xtrig)).foldl State.crossHalt s else s
    if h.diex then
      (((s.listedCores.filter (fun c => coreDie c = coreDie w.core)).flatMap whos).filter
        (fun v => decide (v ≠ w) && (s.thread v).diex)).foldl State.crossHalt s
    else s

/-- Takes a requested halt once the thread stands at a boundary. -/
def State.haltIfAsked (s : State) (w : Who) : State :=
  let h := s.thread w
  if h.state = .run ∧ s.atBoundary w then
    match h.haltReq with
    | some r => s.haltThread w r
    | Option.none => s
  else s

/-- The halt that ends a single step (R551). -/
def State.stepEnd (s : State) (w : Who) : State :=
  let h := s.thread w
  if h.stepping ∧ h.state = .run ∧ s.atBoundary w then s.haltThread w 2 else s.haltIfAsked w

/-- A waiting parent whose child is DONE takes its EXIT and sets it FREE (R43). -/
def State.wakeJoin (s : State) (c : CoreIx) (child : ThrIx) : State :=
  let x := s.thread ⟨c, child⟩
  let p : Who := ⟨c, x.parent⟩
  match (s.thread p).hold with
  | .join k rd =>
    if k = child ∧ x.state = .done then
      let s := s.modThread p (fun h => { (h.setReg rd x.exitWord).advance 4 with hold := .none, state := .run })
      let s := s.modThread ⟨c, child⟩ (fun h => { h with state := .free, joined := true })
      ((s.movement c).countRetired p).stepEnd p
    else s
  | _ => s

/-- What the end of a thread does to the threads it forked (R41). -/
def State.orphanChildren (s : State) (w : Who) : State :=
  allThreads.foldl (fun s t =>
    let c := s.thread ⟨w.core, t⟩
    if t ≠ w.thr ∧ c.parent = w.thr ∧ ¬ c.orphan then
      if c.state = .done then s.modThread ⟨w.core, t⟩ (fun h => { h with state := .free })
      else if c.state = .free ∨ c.state = .fenced then s
      else s.modThread ⟨w.core, t⟩ (fun h => { h with orphan := true })
    else s) s

/-- Ends a thread with an exit value (R41, R109, R214, R457): its bound items end FAILED_FAULT with the given cause. -/
def State.endThreadOp (s : State) (w : Who) (exit : BitVec 32) (cause : Nat) : State :=
  let s := (s.leftWait w).failItems w stFault cause (locThread s w)
  let s := s.stopStreams w false
  let s := s.orphanChildren w
  let s := s.modCore w.core (fun x => { x.emptyShare w.thr with mq := x.mq.filter (fun m => m.thr ≠ w.thr) })
  let s := s.modThread w (fun h =>
    { h with exit := exit, state := if h.orphan then .free else .done, tiles := [], resv := Option.none,
             tldPend := false, cursor := {}, hold := .none, memHold := .none, loads := [], stepping := false })
  s.wakeJoin w.core w.thr

/-- Marks the physical core of a logical core bad (R20). -/
def State.markBad (s : State) (c : CoreIx) : State :=
  let k := 272 * (coreDie c).toNat + 17 * (coreRow c).toNat + s.physCol c
  if s.mod.badRun.contains k then s else { s with mod := { s.mod with badRun := s.mod.badRun ++ [k] } }

/-- The queues of a core close and their epochs increment (R305). -/
def State.closeQueues (s : State) (c : CoreIx) (bump : Bool) : State :=
  (List.range 16).foldl (fun s q =>
    s.modQueue c (BitVec.ofNat 4 q) (fun x => { x with opn := false, epoch := if bump then x.epoch + 1 else x.epoch })) s

/-- Stops the threads of a core: every one enters FENCED (R58). -/
def State.fenceThreads (s : State) (c : CoreIx) : State :=
  (whos c).foldl (fun s w => ((s.leftWait w).stopStreams w true).modThread w (fun h =>
    { h with state := .fenced, hold := .none, memHold := .none, loads := [], stepping := false })) s

/-- The DMA channels a core activated end ABORTED (R237). -/
def State.abortCoreDma (s : State) (c : CoreIx) : State :=
  let t := coreTeam c
  (List.range 8).foldl (fun s k =>
    let x := s.chan t (BitVec.ofNat 3 k)
    if x.open_ ∧ x.core = c.extractLsb' 0 2 then s.dmaStop t (BitVec.ofNat 3 k) 7 else s) s

/-- Fences a core (R58, R157, R237, R305, R445): its threads' items end, FAILED_CHECK for the owner of a failed slot, else FAILED_FAULT
with SOURCE 2 and the trap code; the core is marked bad, also if something else has fenced it already (R20). -/
def State.fenceCore (s : State) (c : CoreIx) (code : Nat) (owner : Option (ThrIx × Nat)) : State :=
  if (s.core c).fenced then s.markBad c
  else
    let s := (whos c).foldl (fun s w =>
      match owner with
      | some (t, det) =>
        if w.thr = t then s.failItems w stCheck det (locThread s w)
        else s.failItems w stFault (faultCause 2 code) (locThread s w)
      | Option.none => s.failItems w stFault (faultCause 2 code) (locThread s w)) s
    let s := s.fenceThreads c
    let s := s.closeQueues c true
    let s := s.abortCoreDma c
    let s := s.modCore c (fun x => { x with fenced := true, mq := [], retry := Option.none })
    (s.markBad c).countMod 0x805 1

/-- THR_CAUSE of a trap (R37). -/
def causeWord (t : Trap) (long : Bool) : BitVec 32 :=
  BitVec.ofNat 32 (t.detail.toNat * 65536 + b2n long * 256 + t.code.toNat)

/-- Whether a trap is not delivered to a handler but fences the core (R58). -/
def Trap.fences (t : Trap) : Bool := decide (t.code = 0x08 ∨ (t.code = 0x0A ∧ t.detail = 1))

/-- Trap entry (R53, R54, R58, R104): the thread saves the address, cause and faulting address of the instruction at `pc`, sets INTRAP, clears its
reservation and continues at THR_TVEC, or ends with exit value -1 if that is 0 or the trap is a double trap. DESIGN CHOICE (log 54): with THR_TVEC = 0
the saved registers are written before the thread ends. -/
def State.takeTrap (s : State) (w : Who) (pc : Word) (long : Bool) (t : Trap) : State :=
  let s := s.countWasted w.core 1
  let h := s.thread w
  if t.fences then
    let s := s.modThread w (fun h => { h with cause := causeWord t long })
    s.fenceCore w.core t.code.toNat Option.none
  else if h.inTrap then
    let s := s.modThread w (fun h => { h with cause := causeWord t long })
    s.endThreadOp w 0xFFFFFFFF (faultCause 0 t.code.toNat)
  else
    let s := (s.leftWait w).modThread w (fun h =>
      { h.unclaim with epc := pc, cause := causeWord t long, tval := t.tval, inTrap := true, resv := Option.none,
                       hold := .none, memHold := .none, loads := [], pc := h.tvec, state := .run, given := Option.none })
    if h.tvec = 0 then s.endThreadOp w 0xFFFFFFFF (faultCause 0 t.code.toNat) else s

/-- The return from a trap (R55): INTRAP clears and the thread continues at THR_EPC. -/
def Thread.trapReturn (h : Thread) : Thread := { h with inTrap := false, pc := h.epc }

end Sys2Proof.Machine
end

