-- ==== Sys2Proof/Machine/Entries.lean ====
section
/-! DEFINITION. The object dictionary as a catalogue: types, access classes and defaults (R471 to R479), the effective value of an entry (R480
to R487), what each entry reads, and the tests a write meets before its own rule. -/

namespace Sys2Proof.Machine

/-! ### The catalogue -/

/-- Access classes (R473). -/
inductive EClass where
  | const | ro | rw | rwm | wo | own
  deriving DecidableEq, Repr

/-- An entry: type code (R472), class, size in bytes (the limit of a STR or BLOB), default of a stored scalar. -/
structure Entry where
  type : Nat
  cls  : EClass
  size : Nat
  dflt : Nat := 0
  deriving DecidableEq, Repr

/-- A row of the entry tables: first and last index, number of sub-indices, entry. -/
abbrev EntryRow := Nat × Nat × Nat × Entry

/-- Identity, size table, population (R16, R246, R413, R479). -/
def entriesLow : List EntryRow := [
  (0x1000, 0x1000, 1, ⟨11, .const, 256, 0⟩), (0x1001, 0x1001, 1, ⟨11, .const, 256, 0⟩), (0x1002, 0x1002, 1, ⟨11, .const, 256, 0⟩),
  (0x1003, 0x1003, 1, ⟨5, .const, 8, 0⟩), (0x1004, 0x1004, 1, ⟨3, .const, 2, 0⟩), (0x1010, 0x1010, 1, ⟨4, .ro, 4, 0⟩),
  (0x1011, 0x1011, 2, ⟨4, .ro, 4, 0⟩), (0x1020, 0x1020, 1, ⟨3, .const, 2, 0x0100⟩),
  (0x1100, 0x1104, 1, ⟨2, .const, 1, 4⟩), (0x1105, 0x1106, 1, ⟨3, .ro, 2, 0⟩), (0x1107, 0x1107, 1, ⟨5, .const, 8, 0x800000⟩),
  (0x1108, 0x1108, 1, ⟨5, .const, 8, 0x80000000⟩), (0x1110, 0x1110, 4, ⟨5, .ro, 8, 0x4000000000⟩), (0x1111, 0x1111, 4, ⟨5, .ro, 8, 0⟩),
  (0x1112, 0x1112, 1, ⟨3, .ro, 2, 0⟩), (0x1120, 0x1123, 16, ⟨3, .ro, 2, 0⟩), (0x1130, 0x1130, 1, ⟨2, .ro, 1, 0⟩),
  (0x1131, 0x1131, 16, ⟨5, .ro, 8, 0⟩), (0x1132, 0x1132, 1, ⟨12, .ro, 512, 0⟩), (0x11F0, 0x11F0, 1, ⟨4, .ro, 4, 0⟩),
  (0x1200, 0x1200, 1, ⟨2, .const, 1, 0⟩), (0x1210, 0x1210, 16, ⟨4, .ro, 4, 0⟩)]

/-- Base configuration and overlays (R251, R260, R357, R414, R432, R479, R482, R535). -/
def entriesBase : List EntryRow := [
  (0x2000, 0x2001, 1, ⟨1, .wo, 1, 0⟩), (0x2210, 0x2210, 1, ⟨2, .rw, 1, 0⟩), (0x2300, 0x2300, 1, ⟨5, .rw, 8, 0⟩),
  (0x2301, 0x2301, 1, ⟨4, .rw, 4, 10000⟩), (0x2400, 0x2400, 1, ⟨4, .rw, 4, 10000⟩), (0x2500, 0x2500, 1, ⟨3, .rwm, 2, 0xFFFF⟩),
  (0x2501, 0x2501, 16, ⟨2, .rwm, 1, 0⟩), (0x2502, 0x2502, 1, ⟨4, .rw, 4, 3000⟩), (0x2503, 0x2503, 1, ⟨4, .rw, 4, 3500⟩),
  (0x2504, 0x2504, 1, ⟨2, .rw, 1, 8⟩), (0x2505, 0x2505, 1, ⟨4, .rw, 4, 2048⟩), (0x2510, 0x2510, 1, ⟨12, .ro, 65536, 0⟩),
  (0x2520, 0x2520, 1, ⟨1, .rw, 1, 0⟩), (0x2600, 0x2600, 1, ⟨4, .rw, 4, 1000⟩), (0x2601, 0x2601, 1, ⟨2, .rw, 1, 20⟩),
  (0x2602, 0x2602, 1, ⟨2, .rw, 1, 12⟩), (0x2603, 0x2603, 1, ⟨4, .rw, 4, 50000⟩), (0x2700, 0x2700, 1, ⟨2, .rw, 1, 0⟩),
  (0x2701, 0x2701, 1, ⟨4, .rw, 4, 4800⟩), (0x2800, 0x2800, 1, ⟨2, .rw, 1, 0x0F⟩),
  (0x3000, 0x3000, 1, ⟨2, .ro, 1, 0⟩), (0x3001, 0x3001, 1, ⟨2, .wo, 1, 0⟩), (0x3002, 0x3002, 1, ⟨4, .ro, 4, 0⟩),
  (0x3003, 0x3003, 1, ⟨4, .rw, 4, 10000⟩), (0x3004, 0x3004, 1, ⟨4, .ro, 4, 0⟩), (0x3100, 0x3105, 64, ⟨13, .own, 16, 0⟩)]

/-- Safety, items, telemetry, records, counters, security, field network, diagnostics (R419, R432, R450, R479, R535, R546, R548, R561). -/
def entriesHigh : List EntryRow := [
  (0x4100, 0x413F, 1, ⟨13, .rw, 32, 0⟩), (0x4140, 0x417F, 1, ⟨12, .ro, 32768, 0⟩), (0x4180, 0x4180, 1, ⟨4, .rw, 4, 0⟩),
  (0x4200, 0x4200, 1, ⟨2, .ro, 1, 0⟩), (0x4201, 0x4201, 1, ⟨2, .ro, 1, 0⟩), (0x4202, 0x4202, 1, ⟨3, .wo, 2, 0⟩),
  (0x4203, 0x4203, 1, ⟨4, .ro, 4, 0⟩), (0x4210, 0x4210, 1, ⟨12, .ro, 136, 0⟩), (0x4220, 0x4220, 1, ⟨3, .wo, 2, 0⟩),
  (0x4221, 0x4221, 1, ⟨4, .rw, 4, 1000⟩), (0x4230, 0x4230, 1, ⟨13, .ro, 16, 0⟩), (0x4300, 0x4300, 1, ⟨12, .ro, 16416, 0⟩),
  (0x4310, 0x4310, 1, ⟨12, .ro, 8192, 0⟩), (0x4311, 0x4311, 1, ⟨4, .ro, 4, 0⟩), (0x4400, 0x4403, 1, ⟨12, .ro, 1024, 0⟩),
  (0x5000, 0x5000, 1, ⟨2, .ro, 1, 0⟩), (0x5001, 0x5002, 1, ⟨4, .ro, 4, 0⟩), (0x5003, 0x5003, 1, ⟨2, .ro, 1, 0⟩),
  (0x5010, 0x5010, 4, ⟨7, .ro, 2, 0⟩), (0x5011, 0x5011, 16, ⟨7, .ro, 2, 0⟩), (0x5100, 0x5100, 16, ⟨5, .ro, 8, 0⟩),
  (0x5200, 0x5200, 16, ⟨5, .ro, 8, 0⟩), (0x5201, 0x5201, 1, ⟨2, .ro, 1, 0⟩), (0x6100, 0x610F, 256, ⟨13, .ro, 32, 0⟩),
  (0x6200, 0x620F, 256, ⟨13, .ro, 32, 0⟩), (0x6210, 0x621F, 256, ⟨13, .ro, 32, 0⟩), (0x6300, 0x6303, 256, ⟨13, .ro, 32, 0⟩),
  (0x7000, 0x703F, 5, ⟨5, .ro, 8, 0⟩), (0x7100, 0x717F, 5, ⟨5, .ro, 8, 0⟩), (0x7400, 0x743F, 5, ⟨5, .ro, 8, 0⟩),
  (0x7600, 0x767F, 5, ⟨5, .ro, 8, 0⟩), (0x7800, 0x78FF, 5, ⟨5, .ro, 8, 0⟩), (0x7F00, 0x7F00, 1, ⟨5, .rw, 8, 0⟩),
  (0x7F01, 0x7F01, 1, ⟨1, .wo, 1, 0⟩), (0x8000, 0x8000, 1, ⟨12, .const, 32, 0⟩), (0x8001, 0x8001, 1, ⟨3, .ro, 2, 0⟩),
  (0x8010, 0x8010, 1, ⟨12, .own, 60, 0⟩), (0x8011, 0x8011, 1, ⟨5, .ro, 8, 0⟩), (0x8020, 0x8020, 1, ⟨1, .own, 1, 0⟩),
  (0x8030, 0x8030, 1, ⟨12, .wo, 65536, 0⟩), (0x8040, 0x8040, 1, ⟨12, .wo, 12582912, 0⟩), (0x8041, 0x8041, 1, ⟨2, .wo, 1, 0⟩),
  (0x8050, 0x8050, 1, ⟨13, .wo, 32, 0⟩), (0x8051, 0x8051, 1, ⟨12, .ro, 8388608, 0⟩), (0x8052, 0x8052, 1, ⟨12, .const, 60, 0⟩),
  (0x8053, 0x8053, 1, ⟨12, .const, 8192, 0⟩), (0x8054, 0x8054, 1, ⟨5, .ro, 8, 0⟩), (0x8060, 0x8060, 1, ⟨1, .own, 1, 0⟩),
  (0x9000, 0x9000, 1, ⟨2, .rwm, 1, 0xFF⟩), (0x9001, 0x9001, 1, ⟨2, .rwm, 1, 8⟩), (0x9010, 0x9010, 32, ⟨5, .own, 8, 0⟩),
  (0xF100, 0xF100, 1, ⟨13, .rw, 24, 0⟩)]

/-- Sub-indices that a record index or an aggregate does not use (R419, R548). -/
def subAbsent (index sub : Nat) : Bool :=
  (decide (0x6100 ≤ index ∧ index ≤ 0x610F) && decide (16 < sub % 32)) ||
  (decide (0x6200 ≤ index ∧ index ≤ 0x620F) && decide (32 ≤ sub % 64)) ||
  (decide (0x6210 ≤ index ∧ index ≤ 0x621F) && decide (2 ≤ sub % 64)) ||
  (decide (0x6300 ≤ index ∧ index ≤ 0x6303) && decide (5 ≤ sub % 64)) ||
  (decide (0x7800 ≤ index ∧ index ≤ 0x78FF) && decide (sub ≠ 4))

/-- The entry at index.sub, or code 1 or 2 (R475, R478). -/
def entryAt (index sub : Nat) : Nat ⊕ Entry :=
  match (entriesLow ++ entriesBase ++ entriesHigh).find? (fun r => decide (r.1 ≤ index ∧ index ≤ r.2.1)) with
  | Option.none => .inl 1
  | some r => if r.2.2.1 ≤ sub ∨ subAbsent index sub then .inl 2 else .inr r.2.2.2

def Entry.scalar (e : Entry) : Bool := decide (e.type ≤ 10)

/-- Signed types (R472). -/
def Entry.signed (e : Entry) : Bool := decide (6 ≤ e.type ∧ e.type ≤ 9)

/-- Whether an entry is persistent (R477). -/
def persistent (index : Nat) (e : Entry) : Bool :=
  decide (e.cls = .rw ∨ e.cls = .rwm ∨ e.cls = .own) &&
    (decide ((0x2000 ≤ index ∧ index ≤ 0x2FFF) ∨ (0x3100 ≤ index ∧ index ≤ 0x3FFF) ∨ (0x8000 ≤ index ∧ index ≤ 0x9FFF) ∨ index = 0x3003))

/-! ### Stored and effective values (R479 to R487) -/

def State.dictRaw (s : State) (index sub : Nat) : Option (List Byte) := Sparse.find s.dict.vals (256 * index + sub)

/-- The body entry the factory gives TUNE and LOAD (R481). -/
def factoryBody (index sub : Nat) : Nat :=
  if index = 0x3101 ∧ sub = 0 then 2 ^ 127 + 0x2400 * 2 ^ 104 + 50000
  else if index = 0x3102 ∧ sub = 0 then 2 ^ 127 + 0x2520 * 2 ^ 104 + 1
  else 0

/-- The default of a stored entry. -/
def dictDefault (index sub : Nat) : List Byte :=
  match entryAt index sub with
  | .inr e => if 0x3100 ≤ index ∧ index ≤ 0x3105 then toBytes (factoryBody index sub) 16
              else if e.scalar then toBytes e.dflt e.size else []
  | .inl _ => []

/-- The base value of a stored entry, in a given store. -/
def storedIn (vals : Sparse (List Byte)) (index sub : Nat) : List Byte :=
  (Sparse.find vals (256 * index + sub)).getD (dictDefault index sub)

/-- The value an overlay's body lists for an entry, if it does (R481). -/
def bodyValue (vals : Sparse (List Byte)) (overlay index sub : Nat) : Option Nat :=
  (List.range 64).findSome? (fun k =>
    let b := leNat (storedIn vals (0x3100 + overlay) k)
    if bitsN b 127 127 = 1 ∧ bitsN b 119 104 = index ∧ bitsN b 103 96 = sub then some (b % 2 ^ 64) else Option.none)

/-- The bits of a scalar that are not reserved (R251, R479). -/
def valueMask (index v : Nat) : Nat :=
  if index = 0x2300 then v &&& 0x80000001FFFF0000
  else if index = 0x9010 then v &&& 0x8000FFFFFFFFFFFF
  else v

/-- The value of an entry of 0x2000 to 0x2FFF while an overlay is active; its reserved bits read zero whichever way they were written (R11). -/
def effectiveIn (vals : Sparse (List Byte)) (overlay index sub : Nat) : Nat :=
  match bodyValue vals overlay index sub with
  | some v => valueMask index (match entryAt index sub with | .inr e => v % 2 ^ (8 * e.size) | .inl _ => v)
  | Option.none => leNat (storedIn vals index sub)

def State.effective (s : State) (index sub : Nat) : Nat := effectiveIn s.dict.vals s.dict.ovlActive.toNat index sub

/-- Maintenance: DIAG, DEEPCAL or SAFEHOLD is active (R473). -/
def State.maintenance (s : State) : Bool := decide (3 ≤ s.dict.ovlActive.toNat)

/-! ### Registers that entries show -/

/-- TH_PORT_STAT (R414). -/
def State.portStat (s : State) (p : Nat) : Nat :=
  let x : Port := Sparse.get {} s.fab.ports p
  if ¬ s.mod.o16 ∧ 8 ≤ p then 3 * 2 ^ 62
  else (packW [(x.mode.toNat, 62), (x.up.toNat, 58), (x.rest.toNat, 53), (b2n x.perm, 52), (x.lost.toNat, 35), ((x.gdis ||| x.gpeer).toNat, 31),
               (b2n x.mismatch, 30), (b2n x.unsync, 29), (x.retry.toNat, 0)]).toNat

/-- The lowest receive margin and its lane: the lowest lane of equal ones. -/
def Port.worst (x : Port) : Nat × Nat :=
  (List.range 17).foldl (fun (a : Nat × Nat) k =>
    let m := (Sparse.get (0 : BitVec 6) x.margins k).toNat
    if m < a.1 then (m, k) else a) ((Sparse.get (0 : BitVec 6) x.margins 0).toNat, 0)

/-- The fallback ladder's level, of both directions (R425, R432): level 1 is left once no lane is stale-context and every margin has been at or above
FAR_EYE_WARN for 10 ms. -/
def Port.level (x : Port) (now : Nat) : Nat :=
  if x.recal3.isSome then 3
  else if x.recal.isSome ∨ x.hold then 2
  else
    let recent : Bool := match x.lastBelow with | some t => decide (now < t + 10000000) | Option.none => false
    if x.stale ≠ 0 ∨ x.staleTx ≠ 0 ∨ x.below ≠ 0 ∨ recent then 1 else 0

/-- FAR_PORT_STAT (R432). -/
def State.farStat (s : State) (p : Nat) : Nat :=
  let x : Port := Sparse.get {} s.fab.ports p
  let recal : Nat := match x.recal3, x.recal with
    | some k, _ => k.toNat
    | _, some k => k.toNat
    | _, _ => if x.trained then 31 else 0
  if ¬ s.mod.o16 ∧ 8 ≤ p then 0
  else (packW [(x.level s.now, 61), (recal, 56), (b2n x.recal3.isSome, 55), (x.group.toNat, 53), (b2n x.down, 52), (b2n x.hold, 51),
          (x.stale.toNat, 34), (x.below.toNat, 17), (x.worst.1, 11), (x.worst.2, 6)]).toNat

/-- KIND and RATE of the records at an index and sub-index (R418, R419); a droop domain has no rate (log 18). -/
def recordKind (index sub : Nat) : Nat × Nat :=
  if index < 0x6200 then (if sub / 32 % 2 = 0 then 1 else 2, 1)
  else if index < 0x6210 then (3, 2)
  else if index < 0x6300 then (4, 3)
  else (5, 0)

/-- VALUES of a record with its reserved bits at zero (R11, Table Record values). -/
def recordValues (kind v : Nat) : Nat :=
  if kind = 1 ∨ kind = 2 then bitsN v 127 80 * 2 ^ 80
  else if kind = 4 then bitsN v 127 48 * 2 ^ 48
  else if kind = 5 then bitsN v 127 96 * 2 ^ 96
  else bitsN v 127 0

/-- The fields of a record that its place does not fix: TEMP, MARGIN, TIME and VALUES. -/
def recordFree (kind r : Nat) : Nat := bitsN r 239 208 * 2 ^ 208 + bitsN r 191 128 * 2 ^ 128 + recordValues kind r

/-- The factory record: in the band-1 slot, VALID = 0 in the others (R419). -/
def factoryRecord (index sub : Nat) : BitVec 256 :=
  if sub / 64 = 1 then
    let r := (Config.factoryRecord (256 * index + sub)).toNat
    BitVec.ofNat 256 (2 ^ 255 + 2 ^ 251 + (recordKind index sub).1 * 2 ^ 248 + (recordKind index sub).2 * 2 ^ 240 +
      recordFree (recordKind index sub).1 r)
  else 0

/-- A calibration record. -/
def State.recordAt (s : State) (index sub : Nat) : BitVec 256 :=
  (Sparse.find s.far.recs (256 * index + sub)).getD (factoryRecord index sub)

/-- SAFE_STATE (R479). -/
def State.safeState (s : State) : Nat :=
  (List.range 4).foldl (fun a d => a + b2n (Sparse.get {} s.dies d : Die).safehold * 2 ^ d) 0 + b2n s.boot.modSafe * 16

/-- OVL_STATUS (R482). -/
def Dict.ovlStatus (x : Dict) : Nat := x.ovlResult.toNat * 65536 + x.ovlTarget.toNat * 256 + x.ovlState.toNat

/-- DEV_STAT (R489). -/
def State.devStat (s : State) : Word :=
  packW [(s.dict.ovlActive.toNat, 56), (s.dict.ovlState.toNat, 48), (s.safeState, 32), (s.dict.evtSeq.toNat, 0)]

/-- A ledger entry (R464). -/
def Ledger.bits (l : Ledger) : Nat :=
  l.submit.toNat * 2 ^ 192 + l.deadline.toNat * 2 ^ 128 + l.epoch.toNat * 2 ^ 112 + l.slot.toNat * 2 ^ 100 + l.queue.toNat * 2 ^ 96 +
    l.thr.toNat * 2 ^ 94 + l.core.toNat * 2 ^ 72 + l.state.toNat * 2 ^ 64 + l.id.toNat

/-- ITM_RING_CFG (R450). -/
def Ring.cfgBits (x : Ring) : Nat :=
  b2n x.en * 2 ^ 255 + x.kind.toNat * 2 ^ 253 + x.depth.toNat * 2 ^ 249 + x.msix.toNat * 2 ^ 243 + x.peer.toNat * 2 ^ 231 +
    x.peerRing.toNat * 2 ^ 225 + x.sq.toNat * 2 ^ 128 + x.cq.toNat * 2 ^ 64

def Bank.word (b : Option Bank) : Nat := match b with | some x => x.version.toNat % 2 ^ 31 | Option.none => 0

/-- SB_MIN_SVN: the fused value as raised since (R530). -/
def State.minSvn (s : State) : Nat := max Config.fusedSvn.toNat s.boot.minSvn.toNat

/-- ID_FW_ACTIVE (R479). -/
def State.fwActive (s : State) : Nat :=
  s.boot.booted.toNat * 2 ^ 31 + Bank.word (if s.boot.booted = 0 then s.boot.bankA else s.boot.bankB)

/-- The operating point PWR_OP shows: that of the head groom's die. -/
def State.opPoint (s : State) : Nat := (s.die 0).op.toNat

/-- PWR_THROTTLE: the bounds that stand at the lowest point, where that is not the highest one (R516, R535). -/
def State.throttle (s : State) : Nat :=
  let a := s.effective 0x2700 0
  let m := max a (max s.boot.powerPt s.boot.thermPt)
  b2n (decide (m ≠ 0 ∧ a = m)) + 2 * b2n (decide (m ≠ 0 ∧ s.boot.powerPt = m)) + 4 * b2n (decide (m ≠ 0 ∧ s.boot.thermPt = m)) +
    8 * b2n (s.boot.thermHalf || s.dies.any (fun d => d.2.halfDuty))

/-- A set of numbers as a bit string of `n` bytes. -/
def bitString (xs : List Nat) (n : Nat) : List Byte :=
  (List.range n).map (fun k => BitVec.ofNat 8 ((List.range 8).foldl (fun a j => if xs.contains (8 * k + j) then a + 2 ^ j else a) 0))

/-- TH_ROUTE: the route mask of each module as discovery wrote it. -/
def Fabric.routeBytes (x : Fabric) : List Byte :=
  if x.routes.isEmpty then [] else (List.range 4096).flatMap (fun m => toBytes (Sparse.get (0 : BitVec 128) x.routes m).toNat 16)

def ascii (t : String) : List Byte := t.toList.map (fun c => BitVec.ofNat 8 c.toNat)

/-- What an entry reads that is not simply stored. -/
def State.liveEntry (s : State) (index sub : Nat) : Option (List Byte) :=
  let n (v k : Nat) : Option (List Byte) := some (toBytes v k)
  if index = 0x1000 then some (ascii "Birenel")
  else if index = 0x1001 then some (ascii "Kamostair K4")
  else if index = 0x1002 then some (ascii (if s.mod.o16 then "KM4-1024-O16" else "KM4-1024-O08"))
  else if index = 0x1003 then n Config.serial.toNat 8
  else if index = 0x1004 then n Config.hwRev.toNat 2
  else if index = 0x1010 then n s.fwActive 4
  else if index = 0x1011 then n (Bank.word (if sub = 0 then s.boot.bankA else s.boot.bankB)) 4
  else if index = 0x1105 then n s.mod.modules.toNat 2
  else if index = 0x1106 then n s.mod.id.toNat 2
  else if index = 0x1111 then n (s.die (BitVec.ofNat 2 sub)).ddrBytes 8
  else if index = 0x1112 then n (if s.mod.o16 then 0xFFFF else 0x00FF) 2
  else if 0x1120 ≤ index ∧ index ≤ 0x1123 then n (Sparse.get 0xFFFF s.mod.rowCols (16 * (index - 0x1120) + sub)).toNat 2
  else if index = 0x1130 then n s.fab.diameter.toNat 1
  else if index = 0x1131 then n (Sparse.get (0 : Word) s.fab.peers sub).toNat 8
  else if index = 0x1132 then some (bitString (s.fab.reach.map BitVec.toNat) 512)
  else if index = 0x11F0 then n s.mod.szGen.toNat 4
  else if index = 0x1200 then n (if s.mod.o16 then 16 else 8) 1
  else if index = 0x1210 then n (Sparse.get (0 : BitVec 32) s.mod.dimm sub).toNat 4
  else if index = 0x2510 then some s.fab.routeBytes
  else if index = 0x3000 then n s.dict.ovlActive.toNat 1
  else if index = 0x3002 then n s.dict.ovlStatus 4
  else if index = 0x3004 then n s.dict.ovlEpoch.toNat 4
  else if 0x4100 ≤ index ∧ index ≤ 0x413F then n (s.ring (BitVec.ofNat 6 (index - 0x4100))).cfgBits 32
  else if 0x4140 ≤ index ∧ index ≤ 0x417F then
    let x := s.ring (BitVec.ofNat 6 (index - 0x4140))
    some ((List.range (2 ^ x.depth.toNat)).flatMap (fun k => toBytes (x.led (BitVec.ofNat 10 k)).bits 32))
  else if index = 0x4200 then n s.safeState 1
  else if index = 0x4201 then n s.boot.stage.toNat 1
  else if index = 0x4203 then n s.boot.fail.toNat 4
  else if index = 0x4210 then some (bitString (s.mod.badFuse ++ s.mod.badRun) 136)
  else if index = 0x4230 then n s.mod.selftest.toNat 16
  else if index = 0x4300 then some s.mod.quietLast
  else if index = 0x4310 then some (s.dict.evtLog.flatMap (fun e => toBytes e.toNat 32))
  else if index = 0x4311 then n s.dict.evtSeq.toNat 4
  else if 0x4400 ≤ index ∧ index ≤ 0x4403 then some ((s.die (BitVec.ofNat 2 (index - 0x4400))).errlog.flatMap (fun e => toBytes e.toNat 16))
  else if index = 0x5000 then n s.opPoint 1
  else if index = 0x5001 then n s.boot.pwrIn.toNat 4
  else if index = 0x5002 then n s.boot.pwrVin.toNat 4
  else if index = 0x5003 then n s.throttle 1
  else if index = 0x5010 then n (Sparse.get (0 : BitVec 16) s.boot.tempDie sub).toNat 2
  else if index = 0x5011 then n (Sparse.get (0 : BitVec 16) s.boot.tempHbm sub).toNat 2
  else if index = 0x5100 then n (s.portStat sub) 8
  else if index = 0x5200 then n (s.farStat sub) 8
  else if index = 0x5201 then n s.far.band.toNat 1
  else if 0x6100 ≤ index ∧ index ≤ 0x63FF then n (s.recordAt index sub).toNat 32
  else if 0x7000 ≤ index ∧ index ≤ 0x78FF then n (Sparse.get 0 s.mod.aggShown (8 * (index - 0x7000) + sub) % 2 ^ 64) 8
  else if index = 0x8000 then n Config.keyHash.toNat 32
  else if index = 0x8001 then n s.minSvn 2
  else if index = 0x8011 then n s.dict.ownSeq.toNat 8
  else if index = 0x8020 then n (b2n s.dict.zeroizing) 1
  else if index = 0x8051 then some s.boot.report
  else if index = 0x8052 then some Config.attKey
  else if index = 0x8053 then some Config.attCert
  else if index = 0x8054 then n s.boot.attCount 8
  else if index = 0xF100 then
    n (s.mod.dbgData.toNat * 2 ^ 72 + s.mod.dbgAddr.toNat * 2 ^ 8 + s.mod.dbgStatus.toNat * 4 + s.mod.dbgOp.toNat) 24
  else Option.none

/-- The value of an entry. -/
def State.dictValue (s : State) (index sub : Nat) : List Byte :=
  if 0x2000 ≤ index ∧ index ≤ 0x2FFF ∧ (s.liveEntry index sub).isNone then
    match entryAt index sub with
    | .inr e => toBytes (s.effective index sub) e.size
    | .inl _ => []
  else (s.liveEntry index sub).getD (storedIn s.dict.vals index sub)

/-- Whether the dictionary answers on a path at all: the head groom runs its firmware, or the ROM in RECOVERY, and the host domain is out of reset
(R447, R507, R508, R529). -/
def State.dictUp (s : State) (p : Path) : Bool :=
  s.boot.aon && !s.boot.headStopped && decide (s.boot.stage ≠ 1) && (s.boot.hostUp || decide (p ≠ .host))

/-- Whether RECOVERY serves an index (R529): identity, FW_UPDATE and FW_ACTIVATE. -/
def recoveryServes (index : Nat) : Bool := decide ((0x1000 ≤ index ∧ index ≤ 0x10FF) ∨ index = 0x8040 ∨ index = 0x8041)

/-- A read of an entry: result code, type and value (R473 to R478). -/
def State.dictRead (s : State) (index sub : Nat) : Nat × Nat × List Byte :=
  if s.boot.stage = 7 ∧ ¬ recoveryServes index then (1, 0, [])
  else
    match entryAt index sub with
    | .inl c => (c, 0, [])
    | .inr e =>
      if 0xF000 ≤ index ∧ ¬ s.maintenance then (5, e.type, [])
      else if e.cls = .wo then (3, e.type, if e.scalar then List.replicate e.size 0 else [])
      else (0, e.type, s.dictValue index sub)

/-! ### The tests of a write (R472 to R475, R496) -/

/-- Whether a field node may write (R496). -/
def State.nodeAllowed (s : State) (n : BitVec 8) (mac : BitVec 48) : Bool :=
  let v : Word := BitVec.ofNat 64 (leNat (storedIn s.dict.vals 0x9010 n.toNat))
  decide (n.toNat < 32) && v.getLsbD 63 && decide (v.extractLsb' 0 48 = mac)

/-- The code with which a path may not write at all (R474, R496). -/
def State.pathCode (s : State) (p : Path) (index : Nat) (block : Bool) : Nat :=
  match p with
  | .host => 0
  | .node n mac => if s.nodeAllowed n mac ∨ (block ∧ index = 0x8030) then 0 else if 0xF000 ≤ index then 5 else 7
  | .writeSet => if 0xF000 ≤ index then 5 else 0

/-- The result of the class, type and length tests: 0 where the entry's own rule decides. OWN_KEY may be claimed while it is empty (R500). -/
def State.writeCode (s : State) (p : Path) (index sub type len : Nat) (block : Bool) : Nat :=
  if !s.dictUp p then 10
  else if s.boot.stage = 7 ∧ ¬ recoveryServes index then 1
  else if s.pathCode p index block ≠ 0 then s.pathCode p index block
  else
    match entryAt index sub with
    | .inl c => c
    | .inr e =>
      let claim := decide (index = 0x8010 ∧ p = .host) && s.maintenance && (storedIn s.dict.vals 0x8010 0).isEmpty && block
      if 0xF000 ≤ index ∧ ¬ s.maintenance then 5
      else if e.cls = .const ∨ e.cls = .ro then 4
      else if e.cls = .own ∧ p ≠ .writeSet ∧ ¬ claim then 6
      else if e.cls = .rwm ∧ ¬ s.maintenance then 5
      else if type ≠ e.type then 8
      else if e.type = 11 ∨ e.type = 12 then (if e.size < len then 8 else 0)
      else if len ≠ e.size then 8
      else 0

/-- Reports the result of a write by a direct path, if the dictionary answers: the host reads it in DICT_STAT, a node in its response (R475, R490). -/
def State.report (s : State) (p : Path) (code : Nat) : State :=
  match p with
  | .host => if !s.dictUp p then s else { s with dict := { s.dict with code := BitVec.ofNat 8 code, werr := s.dict.werr || decide (code ≠ 0) } }
  | _ => s

/-- Stores an entry's value. -/
def State.dictStore (s : State) (index sub : Nat) (bs : List Byte) : State :=
  { s with dict := { s.dict with vals := Sparse.set s.dict.vals (256 * index + sub) bs } }

end Sys2Proof.Machine
end

