-- ==== Sys2Proof/Machine/Memory.lean ====
section
/-! DEFINITION. Memory: resolving a global address, translation, what ECC finds, performing a write, and the reads and writes a
thread sends. -/

namespace Sys2Proof.Machine

/-! ### The address map (R31, R33) -/

def adModule (a : Word) : BitVec 12 := a.extractLsb' 52 12
def adDie (a : Word) : DieIx := a.extractLsb' 50 2
def adSpace (a : Word) : Nat := (a.extractLsb' 48 2).toNat
def adOff (a : Word) : Nat := (a.extractLsb' 0 48).toNat

def lsSize : Nat := 0x800000
def loftSize : Nat := 0x80000000
def hbmSize : Nat := 0x4000000000
def ddrBase : Nat := 0x100000000000
def pageSize : Nat := 0x200000

/-- Whether a module field names this module (R32). -/
def State.ownModule (s : State) (m : BitVec 12) : Bool := decide (m = 0xFFF ∨ m = s.mod.id)

/-- Whether an access toward a module is refused at M1: it is declared unreachable (R583). -/
def State.unreachable (s : State) (m : BitVec 12) : Bool := s.fab.unreach.contains m

/-- What an access does at its place. -/
inductive Access where
  | read | write | fetch | atomic
  deriving DecidableEq, Repr

/-- Where an access goes, why it traps, or which page it misses. -/
inductive Place where
  | at_ (l : Loc) (page : Option Nat)
  | bad (t : Trap)
  | miss (page : Nat)
  deriving DecidableEq, Repr

def violation (d : Nat) (a : Word) : Trap := { code := 0x07, detail := BitVec.ofNat 16 d, tval := a }

/-- A place of this module named by space 1 to 3, die and offset (R30, R33, R243, R581); `ctl` says whether the access may name a control
word. While ZEROIZE runs, Loft and core windows are refused (R203). -/
def State.ownPlace (s : State) (space : Nat) (d : DieIx) (off size : Nat) (ctl : Bool) (a : Word) : Trap ⊕ Loc :=
  if space = 1 then
    if off + size ≤ hbmSize then .inr (.hbm d off)
    else if ddrBase ≤ off ∧ off + size ≤ ddrBase + (s.die d).ddrBytes then .inr (.ddr d (off - ddrBase))
    else .inl (violation 1 a)
  else if s.dict.zeroizing then .inl (violation 1 a)
  else if space = 2 then
    if off + size ≤ loftSize then .inr (.loft d off) else .inl (violation 1 a)
  else
    let c : CoreIx := d ++ BitVec.ofNat 8 (bitsN off 39 32)
    let o := off % 2 ^ 32
    if off / 2 ^ 40 ≠ 0 then .inl (violation 1 a)
    else if o + size ≤ lsSize then
      if s.present c then .inr (.ls c o) else .inl (violation 3 a)
    else if 0x80000000 ≤ o ∧ o + size ≤ 0x80010000 ∧ ctl then
      if s.present c then .inr (.ctl c (o - 0x80000000)) else .inl (violation 3 a)
    else .inl (violation 1 a)

/-- Whether a translation entry allows an access (R252). -/
def pteAllows (e : Word) (k : Access) : Bool :=
  match k with
  | .read => e.getLsbD 60
  | .write => e.getLsbD 59
  | .fetch => e.getLsbD 58
  | .atomic => e.getLsbD 60 && e.getLsbD 59

/-- The place a RESIDENT or DIRECT entry gives a byte of its page (R252, R32). -/
def State.ptePlace (s : State) (e : Word) (low size : Nat) (a : Word) : Trap ⊕ Loc :=
  let m : BitVec 12 := e.extractLsb' 44 12
  let d : DieIx := e.extractLsb' 42 2
  let space := if e.extractLsb' 40 2 = 0 then 1 else (e.extractLsb' 40 2).toNat
  let off := (e.extractLsb' 0 27).toNat * pageSize + low
  if m = s.mod.id then s.ownPlace space d off size false a
  else .inr (.remote m (packW [(m.toNat, 52), (d.toNat, 50), (space, 48), (off, 0)]))

/-- The translation a team's cache holds for a page (R253). -/
def Team.lookup (x : Team) (page : Nat) : Option Word := (x.xl.find? (fun e => e.1 = page)).map (fun e => e.2)

/-- The translation of a page that an access of a core finds: in its team's cache, or delivered for one access. -/
def State.lookup (s : State) (c : CoreIx) (page : Nat) : Option Word :=
  match (s.team (coreTeam c)).lookup page with
  | some e => some e
  | Option.none =>
    allThreads.findSome? (fun t =>
      match ((s.core c).thread t).given with
      | some (p, e) => if p = page then some e else Option.none
      | Option.none => Option.none)

/-- Resolves a global address for an access of a core (R31 to R34, R250, R258). -/
def State.resolve (s : State) (c : CoreIx) (k : Access) (ctl : Bool) (a : Word) (size : Nat) : Place :=
  let space := adSpace a
  let off := adOff a
  if space = 0 then
    if !(s.ownModule (adModule a)) || decide (adDie a ≠ 0) then .bad (violation 1 a)
    else
      match s.lookup c (off / pageSize) with
      | Option.none => .miss (off / pageSize)
      | some e =>
        if !(pteAllows e k) then .bad (violation 2 a)
        else
          match s.ptePlace e (off % pageSize) size a with
          | .inl t => .bad t
          | .inr l => .at_ l (some (off / pageSize))
  else if !(s.ownModule (adModule a)) then
    if space = 3 ∧ ¬ ctl ∧ off / 2 ^ 31 % 2 = 1 then .bad (violation 1 a) else .at_ (.remote (adModule a) a) Option.none
  else
    match s.ownPlace space (adDie a) off size ctl a with
    | .inl t => .bad t
    | .inr l => .at_ l Option.none

/-- A local-store offset through LS_BASE and LS_BOUND (R188, R190). -/
def State.resolveLs (s : State) (c : CoreIx) (off : Word) (size : Nat) : Place :=
  let x := s.core c
  if off.toNat + size ≤ x.lsLimit.toNat * 4096 then .at_ (.ls c (x.lsBase.toNat * 4096 + off.toNat)) Option.none
  else .bad { code := 0x04, detail := 0, tval := off }

/-- Cuts an access at 64-byte lines. -/
def linePieces : Nat → Word → Nat → List (Word × Nat)
  | 0, _, _ => []
  | fuel + 1, a, n =>
    if n = 0 then []
    else
      let k := min n (64 - a.toNat % 64)
      (a, k) :: linePieces fuel (a + BitVec.ofNat 64 k) (n - k)

/-! ### Destinations (R266) -/

/-- The number of populated DDR channels of a die (R242, R245). -/
def State.ddrChannels (s : State) (d : DieIx) : Nat :=
  ((List.range 4).filter (fun k => decide (bitsN (Sparse.get 0 s.mod.dimm (4 * d.toNat + k)).toNat 11 8 = 1))).length

/-- The destination a place belongs to: kind, unit and number. -/
def Loc.dest (s : State) : Loc → Nat × Nat × Nat
  | .ls c _ => (0, 0, c.toNat)
  | .ctl c _ => (1, 0, c.toNat)
  | .loft d o => (2, d.toNat, bitsN o 30 29)
  | .hbm d o => (3, d.toNat, bitsN o 9 8)
  | .ddr d o => (4, d.toNat, if s.ddrChannels d = 2 then bitsN o 8 8 else bitsN o 9 8)
  | .remote m _ => (5, 0, m.toNat)

/-- Whether two ranges of one unit overlap. -/
def overlap (l : Loc) (n : Nat) (l' : Loc) (n' : Nat) : Bool :=
  l.sameUnit l' && decide (l.off < l'.off + n' ∧ l'.off < l.off + n)

/-! ### Reading and writing the bytes of a unit -/

/-- The bytes at a place of this module. Control words and other modules have none here. -/
def State.readLoc (s : State) (l : Loc) (n : Nat) : List Byte :=
  match l with
  | .ls c o => readMem (s.core c).ls o n
  | .loft d o => readMem (s.die d).loft o n
  | .hbm d o => readMem (s.die d).hbm o n
  | .ddr d o => readMem (s.die d).ddr o n
  | .ctl _ _ => List.replicate n 0
  | .remote _ _ => List.replicate n 0

def State.poisoned (s : State) (l : Loc) (n : Nat) : Bool :=
  (wordsOf l.off n).any (fun k => Sparse.get false (s.poisonOf l) k)

/-! ### Merge entries of a Loft slice (R197 to R200) -/

/-- The poisoned words of a line of a Loft. -/
def Die.poisonedIn (x : Die) (line : Nat) : List Nat := (List.range 8).filter (fun k => Sparse.get false x.loftPoison (8 * line + k))

/-- A line read of a core of this module: it joins the line's merge entry, or opens one. -/
def State.mergeRead (s : State) (d : DieIx) (line : Nat) : Merge × State :=
  match (s.die d).merges.find? (fun m => m.line = line ∧ m.joined < 32) with
  | some m =>
    let s := s.modDie d (fun x =>
      { x with merges := replaceFirst (fun k => decide (k = m)) (fun k => { k with joined := k.joined + 1 }) x.merges })
    (m, s.countDie d (0x610 + line / 2 ^ 23 % 4) 1)
  | Option.none =>
    let m : Merge := { line := line, joined := 1, data := readMem (s.die d).loft (64 * line) 64, poison := (s.die d).poisonedIn line }
    (m, s.modDie d (fun x => { x with merges := x.merges.filter (fun k => k.line ≠ line) ++ [m] }))

/-- The bytes an engine of a core reads at a place of this module within a line, and whether one of their words is poisoned; a Loft line through its
merge entry (R197). -/
def State.engineBytes (s : State) (l : Loc) (n : Nat) : List Byte × Bool × State :=
  match l with
  | .loft d off =>
    let (m, s) := s.mergeRead d (off / 64)
    ((m.data.drop (off % 64)).take n, (wordsOf (off % 64) n).any (fun k => m.poison.contains k), s)
  | _ => (s.readLoc l n, s.poisoned l n, s)

/-! ### What a read finds (R186, R196, R247, R248, R249, R444) -/

/-- Adds an entry to a die's memory error log: UNIT, KIND and ADDR; the oldest of 64 is dropped. -/
def State.logError (s : State) (d : DieIx) (unit kind addr : Nat) : State :=
  let e : BitVec 128 := BitVec.ofNat 128 (s.now % 2 ^ 64 * 2 ^ 64 + unit * 2 ^ 60 + kind * 2 ^ 58 + addr % 2 ^ 48)
  s.modDie d (fun x =>
    let l := x.errlog ++ [e]
    { x with errlog := if 64 < l.length then l.drop 1 else l })

/-- UNIT of a place, and its address in the log. -/
def Loc.unit : Loc → Nat
  | .ls _ _ => 1
  | .loft _ _ => 2
  | .hbm _ _ => 3
  | .ddr _ _ => 4
  | _ => 0

def Loc.die : Loc → DieIx
  | .ls c _ => coreDie c
  | .ctl c _ => coreDie c
  | .loft d _ => d
  | .hbm d _ => d
  | .ddr d _ => d
  | .remote _ _ => 0

def State.logAddr (s : State) (l : Loc) : Nat :=
  match l with
  | .ls c _ => (s.coreId c).toNat
  | .ddr _ o => ddrBase + o
  | _ => l.off

/-- Counts a corrected error of HBM or DDR, and sends MEM_CE_RATE when one frame collects more than 16 within 24 hours (R249). -/
def State.countCorrected (s : State) (l : Loc) : State :=
  match l with
  | .hbm d o => frame s d (2 * (o / pageSize)) (o / pageSize * pageSize) 0x601 3
  | .ddr d o => frame s d (2 * (o / pageSize) + 1) (ddrBase + o / pageSize * pageSize) 0x602 4
  | _ => s
where
  /-- The corrected errors of one frame. -/
  frame (s : State) (d : DieIx) (key addr event unit : Nat) : State :=
    let s := s.countDie d event 1
    let day := 86400000000000
    let old := (Sparse.get [] (s.die d).ceLog key).filter (fun (t : Word) => decide (s.now ≤ t.toNat + day))
    let l := old ++ [BitVec.ofNat 64 s.now]
    let s := s.modDie d (fun x => { x with ceLog := Sparse.put [] x.ceLog key (if 16 < l.length then [] else l) })
    if 16 < l.length then (s.logError d unit 3 addr).event 0x0003 d addr 1 else s

/-- DETAIL of an uncorrectable word as a thread of core `c` reads it (R57, R186). -/
def eccDetail (c : CoreIx) (l : Loc) : Nat :=
  match l with
  | .ls c' _ => if c = c' then 1 else 7
  | .loft _ _ => 2
  | .hbm _ _ => 3
  | .ddr _ _ => 4
  | _ => 5

/-- A place in the same unit at another offset. -/
def Loc.moveTo (l : Loc) (off : Nat) : Loc :=
  match l with
  | .ls c _ => .ls c off
  | .ctl c _ => .ctl c off
  | .loft d _ => .loft d off
  | .hbm d _ => .hbm d off
  | .ddr d _ => .ddr d off
  | .remote m _ => .remote m (BitVec.ofNat 64 off)

/-- Marks one word of an access poisoned after an uncorrectable error, and answers it; which word of several it is, the command does not say
(log 5). -/
def State.poisonWord (s : State) (l : Loc) (n : Nat) : Nat × State :=
  let ws := wordsOf l.off n
  let (k, s) := s.freeNat
  let word := ws.getD (k % ws.length) 0
  (word, s.setPoisonOf l (Sparse.put false (s.poisonOf l) word true))

/-- An uncorrectable error found at a place by a read (`kind` 1) or by a scrub (`kind` 2): poison, the error log with the address of the word
(R249, R444), the counter, and for a local store the fence of its core unless the reader's own trap will fence it (R58, R186). -/
def State.uncorrectable (s : State) (l : Loc) (n : Nat) (kind : Nat) (trapFences : Bool) : State :=
  let (word, s) := s.poisonWord l n
  let s := s.logError l.die l.unit kind (s.logAddr (l.moveTo (8 * word)))
  match l with
  | .ls c _ => if trapFences then s else s.fenceCore c 0x0A Option.none
  | .hbm d _ => s.countDie d 0x603 1
  | .ddr d _ => s.countDie d 0x604 1
  | _ => s

/-- What a read by a thread of core `c` finds: a trap, if the words are uncorrectable or poisoned (R56: an uncorrectable word decides). -/
def State.sense (s : State) (c : CoreIx) (l : Loc) (n : Nat) (u : Upset) (a : Word) : Option Trap × State :=
  match u with
  | .uncorrectable =>
    (some { code := 0x0A, detail := BitVec.ofNat 16 (eccDetail c l), tval := a },
      s.uncorrectable l n 1 (decide (eccDetail c l = 1)))
  | .corrected =>
    let s := s.countCorrected l
    (if s.poisoned l n then some { code := 0x0A, detail := 5, tval := a } else Option.none, s)
  | .none => (if s.poisoned l n then some { code := 0x0A, detail := 5, tval := a } else Option.none, s)

/-- The same for an engine or another module, whose read ends in a fault of its own (R186, R216, R231): DETAIL of the error found. -/
def State.senseEngine (s : State) (l : Loc) (n : Nat) (u : Upset) : Option Nat × State :=
  match u with
  | .uncorrectable =>
    (some (match l with | .ls _ _ => 7 | .loft _ _ => 2 | .hbm _ _ => 3 | .ddr _ _ => 4 | _ => 5), s.uncorrectable l n 1 false)
  | .corrected =>
    let s := s.countCorrected l
    (if s.poisoned l n then some 5 else Option.none, s)
  | .none => (if s.poisoned l n then some 5 else Option.none, s)

/-- What a patrol scrub does at the place it reads (R187, R196, R249). -/
def State.scrub (s : State) (l : Loc) (n : Nat) (u : Upset) : State :=
  match u with
  | .uncorrectable => s.uncorrectable l n 2 false
  | .corrected => s.countCorrected l
  | .none => s

/-! ### The data cache (R72 to R76) -/

/-- The line tag of a global address: its module field resolved. -/
def State.lineTag (s : State) (a : Word) : Nat :=
  let m := if s.ownModule (adModule a) then s.mod.id else adModule a
  (m.toNat * 2 ^ 52 + a.toNat % 2 ^ 52) / 64

/-- Whether the data cache may hold an address: a line of spaces 0 to 2 that does not lie in a local store. -/
def cacheable (a : Word) (l : Loc) : Bool :=
  decide (adSpace a ≠ 3) &&
    (match l with
     | .ls _ _ => false
     | .ctl _ _ => false
     | .remote _ b => decide (adSpace b ≠ 3)
     | _ => true)

def lineBytes (v : BitVec 512) (skip n : Nat) : List Byte := toBytes (v.toNat / 2 ^ (8 * skip)) n

/-- The global byte address under which a data cache would hold the bytes at a place: the tiered address for a translated access. -/
def State.cacheAddr (s : State) (l : Loc) (page : Option Nat) : Option Nat :=
  let at_ (d : DieIx) (space off : Nat) : Option Nat := some (packW [(s.mod.id.toNat, 52), (d.toNat, 50), (space, 48), (off, 0)]).toNat
  match l, page with
  | .ls _ _, _ => Option.none
  | .ctl _ _, _ => Option.none
  | l, some p => at_ 0 0 (p * pageSize + l.off % pageSize)
  | .loft d o, Option.none => at_ d 2 o
  | .hbm d o, Option.none => at_ d 1 o
  | .ddr d o, Option.none => at_ d 1 (ddrBase + o)
  | .remote _ a, Option.none => if adSpace a = 3 then Option.none else some a.toNat

/-- Updates the present lines that stored bytes touch (R73, R270). -/
def Core.cacheStore (x : Core) (base : Nat) (bs : List (Option Byte)) : Core :=
  let lines := (List.range ((base + bs.length + 63) / 64 - base / 64)).map (fun k => base / 64 + k)
  lines.foldl (fun x t =>
    match Sparse.find x.dcache t with
    | Option.none => x
    | some v =>
      let new := (toBytes v.toNat 64).zipIdx.map (fun p => (byteFor base bs (64 * t + p.2)).getD p.1)
      { x with dcache := Sparse.set x.dcache t (BitVec.ofNat 512 (leNat new)) }) x

/-- The fills in flight of the lines a test names are not installed (R75). -/
def State.dropFills (s : State) (c : CoreIx) (p : Nat → Bool) : State :=
  { s with reads := s.reads.map (fun f =>
      match f.fill with
      | some (t, true) => if f.who.core = c ∧ p t then { f with fill := some (t, false) } else f
      | _ => f) }

/-- What a store does to its core's data cache: present lines are updated, and a line whose fill is in flight is not installed. -/
def State.cacheNote (s : State) (c : CoreIx) (l : Loc) (page : Option Nat) (bs : List (Option Byte)) : State :=
  match s.cacheAddr l page with
  | Option.none => s
  | some base => (s.modCore c (fun x => x.cacheStore base bs)).dropFills c (fun t => decide (base / 64 ≤ t ∧ 64 * t < base + bs.length))

def Core.cacheDrop (x : Core) (tag : Nat) : Core := { x with dcache := Sparse.drop x.dcache tag }

/-- Installs a line in its set of four. DESIGN CHOICE: a line's set is its tag modulo 256, and the replaced line is a free choice (log 5, log
52). -/
def State.cacheInstall (s : State) (c : CoreIx) (tag : Nat) (v : BitVec 512) : State :=
  let set := ((s.core c).dcache.filter (fun e => e.1 % 256 = tag % 256 ∧ e.1 ≠ tag)).map (fun e => e.1)
  if set.length < 4 then s.modCore c (fun x => { x with dcache := Sparse.set x.dcache tag v })
  else
    let (k, s) := s.freeNat
    s.modCore c (fun x => { x with dcache := Sparse.set (Sparse.drop x.dcache (set.getD (k % set.length) 0)) tag v })

/-- Installs the line of an instruction in the instruction cache of a core, by the same rule (R72, log 52). -/
def State.icacheInstall (s : State) (c : CoreIx) (tag : Nat) : State :=
  let set := (s.core c).icache.filter (fun t => decide (t % 256 = tag % 256 ∧ t ≠ tag))
  let put (out : Nat) (s : State) : State := s.modCore c (fun x => { x with icache := x.icache.filter (fun t => decide (t ≠ tag ∧ t ≠ out)) ++ [tag] })
  if set.length < 4 then put tag s
  else
    let (k, s) := s.freeNat
    put (set.getD (k % set.length) tag) s

/-! ### Writes, reads and atomics a thread sends -/

/-- The consecutive runs of present bytes of a masked write. -/
def runsFrom : Nat → List (Option Byte) → List (Nat × List Byte)
  | _, [] => []
  | k, Option.none :: bs => runsFrom (k + 1) bs
  | k, some b :: bs =>
    match runsFrom (k + 1) bs with
    | [] => [(k, [b])]
    | (j, run) :: rest => if j = k + 1 then (k, b :: run) :: rest else (k, [b]) :: (j, run) :: rest

/-- Cuts a run at the 4 KiB boundaries a remote write must not cross (R399). -/
def cutRun : Nat → Word → List Byte → List (Word × List Byte)
  | 0, _, _ => []
  | fuel + 1, a, bs =>
    if bs.isEmpty then []
    else
      let n := 4096 - a.toNat % 4096
      (a, bs.take n) :: cutRun fuel (a + BitVec.ofNat 64 n) (bs.drop n)

/-- The remote write packets of a write (R399); `skind` is the source of R267. -/
def State.sendWritePackets (s : State) (w : Who) (skind : BitVec 2) (m : BitVec 12) (a : Word) (bs : List (Option Byte)) (seq : Nat) :
    State :=
  let base := Packet.base 1 1 m s.mod.id (coreDie w.core)
  let runs := (runsFrom 0 bs).flatMap (fun r => cutRun 3 (a + BitVec.ofNat 64 r.1) r.2)
  runs.foldl (fun s r =>
    s.sendReq (coreDie w.core)
      { base with skind := skind, sid := s.coreId w.core, thr := w.thr, addr := r.1, payload := r.2 } seq Option.none) s

/-- A thread's access toward an unreachable module (R280, R583): LOST, and its active items end FAILED_LINK, with the peer in LOC. -/
def State.lostAccess (s : State) (w : Who) (m : BitVec 12) : State :=
  (s.modThread w (fun h => { h with lost := true })).failItems w stLink m.toNat (locOf 5 Option.none (m ++ (0 : BitVec 10)))

/-- A write of a thread to anywhere but its own local store and its own control words leaves the outbound port (R267, R279). -/
def State.sendWrite (s : State) (w : Who) (l : Loc) (page : Option Nat) (bs : List (Option Byte)) : State :=
  let out (s : State) : State :=
    { s with writes := s.writes ++ [({ seq := s.nextSeq, source := .port w.core, src := some w, dma := Option.none, loc := l, bytes := bs,
                                       page := page, red := Option.none } : WFlight)] }.modThread w
      (fun h => { h with pend := h.pend + 1 })
  match l with
  | .remote m a =>
    if s.unreachable m then s.lostAccess w m
    else
      let seq := s.nextSeq
      (out s).bumpSeq.sendWritePackets w 0 m a bs seq
  | _ => (out s).bumpSeq

/-- Stores bytes at a resolved place past the data cache: at once to the own local store, else through the outbound port (R87, R267). -/
def State.storePast (s : State) (w : Who) (l : Loc) (page : Option Nat) (bs : List (Option Byte)) : State :=
  match l with
  | .ls c _ => if c = w.core then s.perform l bs else s.sendWrite w l page bs
  | _ => s.sendWrite w l page bs

/-- Whether a store leaves the core by its outbound port: neither to its own local store nor toward an unreachable module (R267, R583). -/
def State.leaves (s : State) (w : Who) (l : Loc) : Bool :=
  match l with
  | .ls c _ => decide (c ≠ w.core)
  | .remote m _ => !(s.unreachable m)
  | _ => true

/-- A store: as it leaves the outbound port it updates the lines of the data cache it touches (R73, R270). -/
def State.store (s : State) (w : Who) (l : Loc) (page : Option Nat) (bs : List (Option Byte)) : State :=
  (if s.leaves w l then s.cacheNote w.core l page bs else s).storePast w l page bs

/-- Sends a read or an atomic of a thread; the part answers when it returns. -/
def State.startRead (s : State) (w : Who) (l : Loc) (len : Nat) (a : Word) (page : Option Nat) (fill : Option (Nat × Bool))
    (skip take : Nat) (atom : Option (AtomKind × Word × Word)) : LoadPart × State :=
  let seq := s.nextSeq
  let f : RFlight := { seq, who := w, loc := l, len, addr := a, page, fill, skip, take, atom, got := .no }
  let out (s : State) : State :=
    let s := { s with reads := s.reads ++ [f] }.bumpSeq
    if atom.isSome then s.modThread w (fun h => { h with pend := h.pend + 1 }) else s
  match l with
  | .remote m b =>
    if s.unreachable m then (.fault (violation 5 a) (some m), s)
    else
      let base := Packet.base (if atom.isSome then 3 else 2) 1 m s.mod.id (coreDie w.core)
      let pay := match atom with
        | some (.cas, old, new) => toBytes old.toNat 8 ++ toBytes new.toNat 8
        | some (_, _, v) => toBytes v.toNat 8
        | Option.none => []
      let func : BitVec 16 := match atom with
        | some (.tas, _, _) => 0
        | some (.cas, _, _) => 5
        | some (.fadd, _, _) => 6
        | _ => 0
      (.wait seq, (out s).sendReq (coreDie w.core)
        { base with sid := s.coreId w.core, thr := w.thr, len := BitVec.ofNat 13 len, oparg := func, addr := b, payload := pay }
        seq Option.none)
  | _ => (.wait seq, out s)

/-- A read an engine makes in another module: sent the first time, answered once the response has come; the answer stays until the engine
drops it. -/
def State.engineRead (s : State) (w : Who) (tag : EngineRead) (m : BitVec 12) (b : Word) (len : Nat) (page : Option Nat) :
    Option Got × State :=
  match s.reads.find? (fun f => f.engine = some tag ∧ f.who = w) with
  | some f => (if f.got = .no then Option.none else some f.got, s)
  | Option.none =>
    if s.unreachable m then (some (.trap (violation 5 b)), s)
    else
      let seq := s.nextSeq
      let f : RFlight := { seq, who := w, loc := .remote m b, len, addr := b, page, fill := Option.none, skip := 0, take := len,
                           atom := Option.none, got := .no, engine := some tag }
      let base := Packet.base 2 1 m s.mod.id (coreDie w.core)
      let src : BitVec 2 := match tag with
        | .dma _ _ _ _ => 1
        | _ => 0
      (Option.none, { s with reads := s.reads ++ [f] }.bumpSeq.sendReq (coreDie w.core)
        { base with skind := src, sid := s.coreId w.core, thr := w.thr, len := BitVec.ofNat 13 len, addr := b } seq Option.none)

/-! ### The order of what one source sends to one destination (R267, R272) -/

/-- The source of a read or an atomic. -/
def RFlight.source (f : RFlight) : Source :=
  match f.engine with
  | some (.dma t _ _ _) => .dma t
  | _ => .port f.who.core

/-- Whether a message goes to a destination: the local store and the control space of the receiving core, or its module (R281). -/
def Msg.goesTo (m : Msg) (s : State) (d : Nat × Nat × Nat) : Bool :=
  if s.mine m.target then decide (d = (0, 0, (idCore m.target).toNat) ∨ d = (1, 0, (idCore m.target).toNat))
  else decide (d = (5, 0, (idModule m.target).toNat))

/-- Whether a write, an atomic, a message or, where `reads` asks, a read that left a source before number `n` is still on its way to a
destination. A message to a queue of its own core never leaves the port (R312). -/
def State.behind (s : State) (src : Source) (d : Nat × Nat × Nat) (n : Nat) (reads : Bool) : Bool :=
  s.writes.any (fun y => decide (y.seq < n ∧ y.source = src ∧ y.loc.dest s = d)) ||
    s.reads.any (fun g => decide (g.seq < n ∧ g.source = src ∧ g.loc.dest s = d ∧ g.got = .no) && (reads || g.atom.isSome)) ||
    s.msgs.any (fun m => decide (m.left < n ∧ m.source = src ∧ m.phase = .flight) && m.goesTo s d &&
      !(s.mine m.target && decide (src = .port (idCore m.target))))

/-- Whether a read may be performed. Two reads may change places (R268). -/
def State.readReady (s : State) (f : RFlight) : Bool := !(s.behind f.source (f.loc.dest s) f.seq false)

end Sys2Proof.Machine
end

