-- ==== Sys2Proof/Machine/Operands.lean ====
section
/-! DEFINITION. How an instruction of a thread runs: the checks at its fetch, its operands and addressing modes, what becomes of its
result, and how outstanding loads retire. -/

namespace Sys2Proof.Machine

/-! ### Traps by cause (R57) -/

def illegal (opc : Nat) : Trap := { code := 0x01, detail := BitVec.ofNat 16 opc }
def misaligned (size : Nat) (a : Word) : Trap := { code := 0x05, detail := BitVec.ofNat 16 size, tval := a }
def shapeFault (d : Nat) : Trap := { code := 0x02, detail := BitVec.ofNat 16 d }

/-! ### Retiring loads (R52, R53, R92, R268) -/

/-- What the parts of a load say, in order: its bytes, and whether it waits or meets a fault after them. -/
inductive Scan where
  | all (bytes : List Byte)
  | waits (bytes : List Byte)
  | faults (bytes : List Byte) (t : Trap) (lost : Option (BitVec 12))
  | halts (bytes : List Byte)
  deriving DecidableEq, Repr

def scanParts : List LoadPart → List Byte → Scan
  | [], bs => .all bs
  | .wait _ :: _, bs => .waits bs
  | .data d :: ps, bs => scanParts ps (bs ++ d)
  | .fault t m :: _, bs => .faults bs t m
  | .halted :: _, bs => .halts bs
  | .more :: _, bs => .waits bs

/-- A loaded scalar, extended to 64 bits (R62). -/
def extendScalar (bs : List Byte) (size : Nat) (signed : Bool) : Word :=
  let n := leNat bs
  if signed ∧ 2 ^ (8 * size - 1) ≤ n % 2 ^ (8 * size) then BitVec.ofNat 64 n - BitVec.ofNat 64 (2 ^ (8 * size))
  else BitVec.ofNat 64 n

/-- Bytes of an element row of a tile format at K units (R82): width, K-unit, largest K, scaled. -/
structure FmtInfo where
  width  : Nat
  unit   : Nat
  scaled : Bool
  deriving DecidableEq, Repr

def fmtInfo (f : BitVec 4) : Option FmtInfo :=
  match f.toNat with
  | 0 => some ⟨16, 1, false⟩
  | 1 => some ⟨8, 2, true⟩
  | 2 => some ⟨8, 2, true⟩
  | 3 => some ⟨8, 2, true⟩
  | 4 => some ⟨6, 4, true⟩
  | 5 => some ⟨6, 4, true⟩
  | 6 => some ⟨4, 4, true⟩
  | 7 => some ⟨32, 1, false⟩
  | _ => Option.none

/-- Bytes of one row of a tile transfer: element bytes, or scales for tld.sc and tst.sc (R86). -/
def tileRowBytes (f : TileF) (sc : Bool) : Nat :=
  match fmtInfo f.fmt with
  | some i =>
    let k := (f.kf.toNat + 1) * i.unit
    if sc then k / 32 else k * i.width / 8
  | Option.none => 0

/-- Writes the complete rows of a tile load, from row `next` on, into a tile; the last bytes of a longer row keep their contents
(R87). -/
def tilePutRows (x : Tile) (sc : Bool) (rb : Nat) : Nat → Nat → List Byte → Tile
  | 0, _, _ => x
  | n + 1, row, bs =>
    let x := if sc then
        let old : BitVec 32 := Sparse.get 0 x.side row
        let new := leNat (bs.take rb ++ (toBytes old.toNat 4).drop rb)
        { x with side := Sparse.put 0 x.side row (BitVec.ofNat 32 new) }
      else
        let old : BitVec 512 := Sparse.get 0 x.rows row
        let new := leNat (bs.take rb ++ (toBytes old.toNat 64).drop rb)
        { x with rows := Sparse.put 0 x.rows row (BitVec.ofNat 512 new) }
    tilePutRows x sc rb n (row + 1) (bs.drop rb)

/-- The tile state with a code (R78). -/
def tileStateOf (c : BitVec 2) : TileState :=
  if c = 0 then .empty else if c = 1 then .full else if c = 2 then .partial_ else .loading

def TileState.code : TileState → BitVec 2
  | .empty => 0
  | .full => 1
  | .partial_ => 2
  | .loading => 3

/-- Drops what a squashed load still expects. -/
def State.dropReads (s : State) (w : Who) : State :=
  { s with reads := s.reads.filter (fun f => !(decide (f.who = w)) || f.engine.isSome) }

/-- The numbers under which a thread's mm and sync.e have gone past outstanding loads. -/
def Thread.passed (h : Thread) : List Nat :=
  h.loads.filterMap (fun op => match op.kind with | .pass n => some n | _ => Option.none)

/-- Squashes the mm that have gone past the outstanding loads of a thread (R52, R104). -/
def State.dropPassed (s : State) (w : Who) : State :=
  let ns := (s.thread w).passed
  let gone := (s.core w.core).mq.filter (fun m => decide (m.thr = w.thr) && ns.contains m.seq)
  (s.countWasted w.core gone.length).modCore w.core (fun x => { x with mq := x.mq.filter (fun m => !(decide (m.thr = w.thr) && ns.contains m.seq)) })

/-- Whether a thread has queued matrix instructions older than its outstanding loads. -/
def State.mmOlder (s : State) (w : Who) : Bool :=
  (s.core w.core).mq.any (fun m => decide (m.thr = w.thr) && !((s.thread w).passed.contains m.seq))

/-- The trap of a load: nothing younger leaves an effect (R52); an access toward an unreachable module sets LOST and ends the thread's items
(R583). -/
def State.loadTrap (s : State) (w : Who) (op : LoadOp) (t : Trap) (lost : Option (BitVec 12)) : State :=
  let s := (s.dropReads w).dropPassed w
  let s := match lost with
    | some m => s.lostAccess w m
    | Option.none => s
  (s.takeTrap w op.pc op.long t).stepEnd w

/-- What a retired load does to its thread: its result and its base register. -/
def LoadOp.finish (op : LoadOp) (h : Thread) (bs : List Byte) : Thread :=
  let h := match op.kind with
    | .scalar rd size signed => h.setReg rd (extendScalar bs size signed)
    | .vector vd mask zero =>
      h.setVec vd ((BitVec.ofNat 1024 (leNat bs) &&& mask) ||| (if zero then 0 else h.vec vd &&& ~~~mask))
    | .atomic rd => h.setReg rd (BitVec.ofNat 64 (leNat bs))
    | .tile _ _ _ _ _ => h
    | .pass _ => h
  match op.upd with
  | some (r, v) => h.setReg r v
  | Option.none => h

/-- The buffer of a stream after its next tile is consumed (R211, R377): a tile that is also sent on stays until it has been sent, with the data
the load wrote, or with its own where the load had another shape; any other leaves. A deferred tile that such a load passes over never becomes
complete and leaves too. -/
def consumeTile (relay discard : Bool) (rows : List (List Byte)) (now : Nat) : List FillTile → List FillTile
  | [] => []
  | t :: ts =>
    if t.consumed then t :: consumeTile relay discard rows now ts
    else if ¬ relay ∨ t.sent ∨ (discard ∧ t.defer.isSome) then ts
    else if discard then { t with consumed := true } :: ts
    else { t with consumed := true, rows := rows, defer := Option.none, since := if t.defer.isSome then now else t.since } :: ts

/-- A stream after its next tile is consumed (R208, R214): POS moves by TSTEP, COUNT falls unless unbounded, and COUNT reaching 0 discards
what is filled and not consumed. -/
def Stream.consumed (x : Stream) (discard : Bool) (rows : List (List Byte)) (now : Nat) : Stream :=
  let count := if x.count = 0xFFFFFFFF then x.count else x.count - 1
  let tiles := consumeTile (decide (x.mode = 1 ∨ x.mode = 3)) discard rows now x.tiles
  { x with pos := BitVec.ofNat 23 ((x.pos.toNat + x.tstep.toNat) % 2 ^ x.size.toNat), count := count,
           tiles := if count = 0 then tiles.filter (fun t => t.consumed) else tiles }

/-- The bytes of the rows of a tile as a stream sends them on. -/
def Tile.rowBytes (x : Tile) (sc : Bool) (rb n : Nat) : List (List Byte) :=
  (List.range n).map (fun r =>
    if sc then (toBytes (Sparse.get (0 : BitVec 32) x.side r).toNat 4).take rb
    else (toBytes (Sparse.get (0 : BitVec 512) x.rows r).toNat 64).take rb)

/-- The row at which a tile load stands and the bytes before it. -/
def rowsDone (bs : List Byte) (rb : Nat) : Nat := if rb = 0 then 0 else bs.length / rb

/-- Address of row `r` of a tile load as the instruction forms it (R86). -/
def tileRowAddr (h : Thread) (f : TileF) (r : Nat) : Word := h.reg f.rb + BitVec.ofNat 64 r * h.reg f.rs

/-- Writes the rows of a tile load that are complete, and the tile's state. -/
def State.tilePut (s : State) (w : Who) (f : TileF) (sc : Bool) (next : Nat) (bs : List Byte) (st : TileState) : State :=
  let rb := tileRowBytes f sc
  s.modThread w (fun h =>
    let x := tilePutRows (h.tile f.td) sc rb (rowsDone bs rb) next bs
    h.setTile f.td { x with state := st })

/-- A tile load interrupted after its complete rows (R92): PARTIAL, TLD_PEND and the cursor. -/
def State.tileStop (s : State) (w : Who) (f : TileF) (sc : Bool) (next : Nat) (prior : BitVec 2) (bs : List Byte) : State :=
  let s := s.tilePut w f sc next bs .partial_
  s.modThread w (fun h =>
    { h with tldPend := true,
             cursor := { sc := sc, tile := f.td, src := f.src, strm := f.strm, prior := if sc then prior else 0,
                         row := BitVec.ofNat 5 (next + rowsDone bs (tileRowBytes f sc)) } })

/-- A tile load whose last row is written (R79, R93, R208): FULL, or for a tld.sc the state before it; a resumed load continues after
the tld at THR_EPC. -/
def State.tileEnd (s : State) (w : Who) (f : TileF) (sc : Bool) (next : Nat) (prior : BitVec 2) (stream : Option Bool)
    (bs : List Byte) : State :=
  let s := s.tilePut w f sc next bs (if sc then tileStateOf prior else .full)
  let s := s.modThread w (fun h =>
    let x := h.tile f.td
    { (h.setTile f.td { x with image := { rows := x.rows, side := x.side } }) with
      tldPend := false, cursor := {}, loads := h.loads.drop 1, pc := if h.tldPend then h.epc + 8 else h.pc })
  match stream with
  | some discard =>
    let rows := ((s.thread w).tile f.td).rowBytes sc (tileRowBytes f sc) (f.rows.toNat + 1)
    s.modStream w f.strm (fun x => x.consumed discard rows s.time)
  | Option.none => s

/-- A tile's entry leaves the operand cache (R81). -/
def State.opcDrop (s : State) (w : Who) (td : BitVec 3) : State :=
  s.modCore w.core (fun x => { x with opc := x.opc.filter (fun e => e ≠ (w.thr, td)) })

/-- A tile load that no older load can undo any more gives its tile its version and its source, once (R52, R81, R153). -/
def State.tileTag (s : State) (w : Who) (op : LoadOp) (f : TileF) (sc : Bool) : State :=
  match op.tag with
  | Option.none => s
  | some (v, src) =>
    (s.opcDrop w f.td).modThread w (fun h =>
      let x := h.tile f.td
      let h := h.setTile f.td (if sc then { x with version := v, sideSource := src } else { x with version := v, source := src })
      { h with loads := replaceFirst (fun q => decide (q = op)) (fun q => { q with tag := Option.none }) h.loads })

/-- The rows of a load under way: a tile becomes LOADING with its first row, but stays PARTIAL while tret completes an interrupted load, whose
cursor moves on (R79, R91). -/
def State.tileGoing (s : State) (w : Who) (f : TileF) (sc : Bool) (next : Nat) (bs : List Byte) : State :=
  let cur := ((s.thread w).tile f.td).state
  let done := rowsDone bs (tileRowBytes f sc)
  let resumed := (s.thread w).tldPend
  let s := s.tilePut w f sc next bs (if sc ∨ resumed ∨ done = 0 then cur else .loading)
  if resumed then s.modThread w (fun h => { h with cursor := { h.cursor with row := BitVec.ofNat 5 (next + done) } }) else s

/-- Progress of a tile load at the head of the outstanding loads (R79, R91 to R94, R555); the flag says whether it ended. -/
def State.tileProgress (s : State) (w : Who) (op : LoadOp) (f : TileF) (sc : Bool) (next : Nat) (prior : BitVec 2)
    (stream : Option Bool) : State × Bool :=
  let s := s.tileTag w op f sc
  match scanParts op.parts [] with
  | .waits bs => (s.tileGoing w f sc next bs, false)
  | .all bs => (s.tileEnd w f sc next prior stream bs, true)
  | .faults bs t m =>
    if s.mmOlder w then (s.tileGoing w f sc next bs, false)
    else ((s.tileStop w f sc next prior bs).loadTrap w op t m, false)
  | .halts bs =>
    if s.mmOlder w then (s.tileGoing w f sc next bs, false)
    else
      let s := ((s.tileStop w f sc next prior bs).dropReads w).dropPassed w
      ((s.modThread w (fun h => { h with loads := [], pc := op.pc, memHold := .none })).haltThread w 4, false)

/-- Retires the outstanding loads of a thread in program order, as far as their data has returned. -/
def State.retire : Nat → State → Who → State
  | 0, s, _ => s
  | n + 1, s, w =>
    match (s.thread w).loads with
    | [] => s
    | op :: _ =>
      match op.kind with
      | .tile f sc next prior stream =>
        let (s, done) := s.tileProgress w op f sc next prior stream
        if done then State.retire n ((s.countRetired w).stepEnd w) w else s
      | _ =>
        match scanParts op.parts [] with
        | .waits _ => s
        | .halts _ => s
        | .faults _ t m => if s.mmOlder w then s else s.loadTrap w op t m
        | .all bs =>
          let s := s.modThread w (fun h => { op.finish h bs with loads := h.loads.drop 1 })
          State.retire n ((s.countRetired w).stepEnd w) w

/-- Replaces the part that waits for a read (R268). -/
def answerPart (seq : Nat) (p : LoadPart) (op : LoadOp) : LoadOp :=
  { op with parts := op.parts.map (fun q => if q = .wait seq then p else q) }

/-- A read has returned: its thread's load receives the part, and what is complete retires. -/
def State.deliver (s : State) (w : Who) (seq : Nat) (p : LoadPart) : State :=
  let atom := s.reads.any (fun f => decide (f.seq = seq) && f.atom.isSome)
  let s := { s with reads := s.reads.filter (fun f => f.seq ≠ seq) }
  let s := s.modThread w (fun h =>
    { h with loads := h.loads.map (answerPart seq p), pend := if atom then h.pend - 1 else h.pend })
  s.retire (s.thread w).loads.length w

/-! ### Issue -/

/-- What the ECC logic found in a word of the local store that the instruction itself reads. -/
def Found.upset (f : Found) : Upset :=
  match f with
  | .corrected => .corrected
  | .uncorrectable => .uncorrectable
  | _ => .none

/-- What an instruction asks of the issue stage: whether it is held by a waiting sync.e or fence, whether it may follow outstanding loads (`past`: atomics
too) and the registers and tiles it then needs, whether it reads registers (R56), whether the residue check covers it (R438), whether it reads the tile
file (R437). -/
structure Cls where
  mem     : Bool := false
  load    : Bool := false
  past    : Bool := false
  needs   : List (BitVec 5) := []
  tiles   : List (BitVec 3) := []
  reads   : Bool := true
  residue : Bool := false
  file    : Bool := false

/-- How an instruction ends: it completes, continues elsewhere, sends a load, traps, waits where it is, halts its thread, or has
settled the thread's fate itself. -/
inductive Res where
  | done (s : State)
  | jump (s : State) (pc : Word)
  | sent (s : State)
  | trap (s : State) (t : Trap)
  | wait (s : State)
  | halt (reason : BitVec 4)
  | gone (s : State)

/-- The registers that outstanding loads will write. -/
def LoadOp.dests (op : LoadOp) : List (BitVec 5) :=
  (match op.kind with
   | .scalar rd _ _ => [rd]
   | .atomic rd => [rd]
   | _ => []) ++ (match op.upd with | some (r, _) => [r] | Option.none => [])

/-- Whether every outstanding load is one that a further load, an mm or a sync.e may follow: none is an atomic it may not pass, none writes a register it needs,
and none loads a tile it names (R103, R268). While tret resumes a tile load nothing follows (R93). -/
def loadsAllow (c : Cls) (resuming : Bool) (ls : List LoadOp) : Bool :=
  ls.isEmpty || (c.load && !resuming && ls.all (fun op =>
    (match op.kind with | .atomic _ => c.past | .tile f _ _ _ _ => !(c.tiles.contains f.td) | _ => true) &&
      op.dests.all (fun r => !(c.needs.contains r))))

/-- The level of the unit two cores share, as a fence scope sees it (R275). -/
def inScope (level : BitVec 3) (c : CoreIx) (l : Loc) : Bool :=
  match l with
  | .ls c' _ => core c'
  | .ctl c' _ => core c'
  | .loft d o => decide (4 ≤ level.toNat) || decide (level = 3) || (decide (level = 2) && decide (d = coreDie c)) ||
      (decide (level = 1) && decide (d = coreDie c ∧ bitsN o 30 29 = (coreRegion c).toNat))
  | .hbm d _ => decide (3 ≤ level.toNat) || (decide (level = 2) && decide (d = coreDie c))
  | .ddr d _ => decide (3 ≤ level.toNat) || (decide (level = 2) && decide (d = coreDie c))
  | .remote _ _ => decide (level = 4)
where
  core (c' : CoreIx) : Bool :=
    if level = 0 then decide (coreTeam c = coreTeam c')
    else if level = 1 then decide (coreDie c = coreDie c' ∧ coreRegion c = coreRegion c')
    else if level = 2 then decide (coreDie c = coreDie c')
    else true

/-- Where a message goes, as a fence scope sees it. -/
def State.msgLoc (s : State) (m : Msg) : Loc :=
  if s.mine m.target then .ls (idCore m.target) 0 else .remote (idModule m.target) 0

/-- Matrix work of a thread older than a hold (R269): queued instructions and slots an acc.send still streams. -/
def State.matrixBusy (s : State) (w : Who) (upTo : Nat) : Bool :=
  let x := s.core w.core
  let sh := slotShare x.mode w.thr
  x.mq.any (fun m => decide (m.thr = w.thr ∧ m.seq < upTo)) ||
    x.slots.any (fun e => decide (sh.1 ≤ e.1 ∧ e.1 < sh.1 + sh.2 ∧ e.2.sending ≠ 0))

/-- Outrider fills of a thread's MODE 0 streams in flight (R215, R383). -/
def State.fillsInFlight (s : State) (w : Who) : Bool :=
  (s.thread w).streams.any (fun e => decide (e.2.mode = 0) && e.2.tiles.any (fun t => !t.ready))

/-- Loads older than a sync.e that its mask waits for (R269): scalar loads, vld, tile loads; and every older load where its Outrider bit is to
discard tiles, which nothing may undo (R52, R215). -/
def State.loadsBusy (s : State) (w : Who) (mask : BitVec 5) (upTo : Nat) : Bool :=
  let ls := (s.thread w).loads
  ls.any (fun op => decide (op.kind = .pass upTo)) &&
    (ls.takeWhile (fun op => decide (op.kind ≠ .pass upTo))).any (fun op =>
      mask.getLsbD 3 ||
      (match op.kind with
       | .scalar _ _ _ => mask.getLsbD 0
       | .atomic _ => mask.getLsbD 0
       | .vector _ _ _ => mask.getLsbD 1
       | .tile _ _ _ _ _ => mask.getLsbD 2
       | .pass _ => false))

/-- Whether what a waiting sync.e or fence waits for is complete (R269, R276). -/
def State.memHoldOver (s : State) (w : Who) : MemHold → Bool
  | .none => true
  | .syncE mask upTo =>
    !(s.loadsBusy w mask upTo) && !(mask.getLsbD 2 && s.matrixBusy w upTo) && !(mask.getLsbD 3 && s.fillsInFlight w)
  | .fence level upTo =>
    !(s.matrixBusy w upTo) &&
    !(s.writes.any (fun x => decide (x.src = some w ∧ x.seq < upTo) && inScope level w.core x.loc)) &&
    !(s.acks.any (fun x => decide (x.src = some w ∧ x.seq < upTo) && inScope level w.core x.loc)) &&
    !(s.msgs.any (fun m => decide (m.origin = .thread w ∧ m.seq < upTo) && inScope level w.core (s.msgLoc m)))

/-- What a sync.e of the Outrider does once the fills have returned (R215): filled tiles that no tld consumed are discarded. -/
def State.syncStreams (s : State) (w : Who) : State :=
  allStreams.foldl (fun s k =>
    let x := s.stream w k
    let n := (x.tiles.filter (fun t => !t.consumed)).length
    if x.mode = 0 ∧ n ≠ 0 then
      (s.modStream w k (fun x => { x with tiles := x.tiles.filter (fun t => t.consumed) })).countThread w 0x005 n
    else s) s

/-- Ends a sync.e or fence whose wait is over. -/
def State.settleHold (s : State) (w : Who) : State :=
  let h := s.thread w
  if h.memHold ≠ .none ∧ s.memHoldOver w h.memHold then
    let s := s.modThread w (fun h => { h with memHold := .none })
    match h.memHold with
    | .syncE mask _ => if mask.getLsbD 3 then s.syncStreams w else s
    | _ => s
  else s

/-- The breakpoint that matches a thread's next instruction (R554, R555): its number and action. -/
def State.breakpoint (s : State) (w : Who) : Option (Nat × Bool) :=
  let x := s.core w.core
  let pc := (x.thread w.thr).pc
  (List.range 4).findSome? (fun n =>
    let c : BitVec 16 := Sparse.get 0 x.bpc n
    if c.getLsbD 0 ∧ c.getLsbD (4 + w.thr.toNat) ∧ s.lineTag (Sparse.get 0 x.bpa n) = s.lineTag pc ∧
        (Sparse.get 0 x.bpa n : Word).toNat % 64 = pc.toNat % 64 then some (n, c.getLsbD 1) else Option.none)

/-- The global byte address of an access, its module field resolved; a local-store offset after relocation (R555). -/
def State.watchAddr (s : State) (c : CoreIx) (g : Bool) (a : Word) : Nat :=
  if g then s.lineTag a * 64 + a.toNat % 64
  else (packW [(s.mod.id.toNat, 52), ((coreDie c).toNat, 50), (3, 48), (c.toNat % 256, 32),
               ((s.core c).lsBase.toNat * 4096 + a.toNat, 0)]).toNat

/-- The watchpoint an access of a thread matches: its number and action (R554, R555). -/
def State.watchpoint (s : State) (w : Who) (g : Bool) (a : Word) (n : Nat) (read write : Bool) : Option (Nat × Bool) :=
  let x := s.core w.core
  let b := s.watchAddr w.core g a
  (List.range 2).findSome? (fun k =>
    let c : BitVec 16 := Sparse.get 0 x.wpc k
    let wa : Word := Sparse.get 0 x.wpa k
    let lo := s.lineTag wa * 64 + wa.toNat % 64
    if c.getLsbD 0 ∧ c.getLsbD (4 + w.thr.toNat) ∧ ((read ∧ c.getLsbD 8) ∨ (write ∧ c.getLsbD 9)) ∧
        lo < b + n ∧ b < lo + 2 ^ (c.extractLsb' 12 4).toNat then some (k, c.getLsbD 1) else Option.none)

/-- A match of breakpoint `n` or watchpoint `n - 4`: trap 0x0B, or a halt with its REASON. -/
def matched (s : State) (n : Nat) (act : Bool) : Res :=
  if act then .halt (if n < 4 then 3 else 4) else .trap s { code := 0x0B, detail := BitVec.ofNat 16 n }

/-- A thread's access that misses the translation cache waits for a walk (R253). -/
def State.missHold (s : State) (w : Who) (x : Xlate) : State :=
  (s.modThread w (fun h => { h with hold := .xlate x })).countTeam (coreTeam w.core) 0x410 1

/-- What the ECC logic found in the words of an instruction as its line was fetched. -/
def Found.fetched (f : Found) : Upset :=
  match f with
  | .fetchCorrected => .corrected
  | .fetchUncorrectable => .uncorrectable
  | _ => .none

/-- How a fetch ends: the instruction is there, or something stops it; the flag says whether the instruction counts as a long one. -/
inductive Fetch where
  | ok (s : State)
  | stop (r : Res) (long : Bool)

/-- Reads the line of an instruction into the instruction cache from the place it lies at (R72, R196, R248, R583). -/
def State.fetchLine (s : State) (w : Who) (pc : Word) (l : Loc) (n : Nat) (u : Upset) : Fetch :=
  match l with
  | .remote m _ =>
    if s.unreachable m then .stop (.trap (s.lostAccess w m) (violation 5 pc)) false
    else .ok (s.icacheInstall w.core (s.lineTag pc))
  | _ =>
    match s.sense w.core l n u pc with
    | (some t, s) => .stop (.trap s t) false
    | (Option.none, s) => .ok (s.icacheInstall w.core (s.lineTag pc))

/-- A parity error in the line of the instruction cache that a fetch hits: the line is invalidated and fetched again (R76). -/
def State.icacheParity (s : State) (c : CoreIx) (tag : Nat) : State :=
  if (s.core c).icache.contains tag then
    (s.modCore c (fun x => { x with icache := x.icache.filter (· ≠ tag) })).countCore c 0x111 1
  else s

/-- What the fetch of the next instruction meets (R36, R60, R72, R76, R252, R583). A line the instruction cache holds is not read again. -/
def State.fetchCheck (s : State) (w : Who) (long : Bool) (found : Found) : Fetch :=
  let pc := (s.thread w).pc
  let n := if long ∧ pc.toNat % 8 = 0 then 8 else 4
  match s.breakpoint w with
  | some (k, act) => .stop (matched s k act) long
  | Option.none =>
    if pc.toNat % 4 ≠ 0 then .stop (.trap s (misaligned 4 pc)) false
    else if adSpace pc = 3 then .stop (.trap s (violation 1 pc)) false
    else
      match s.resolve w.core .fetch false pc n with
      | .bad t => .stop (.trap s t) false
      | .miss page => .stop (.wait (s.missHold w { page, fetch := true, tval := pc })) false
      | .at_ l _ =>
        let tag := s.lineTag pc
        let s := if found = .fetchParity then s.icacheParity w.core tag else s
        if (s.core w.core).icache.contains tag then .ok s else s.fetchLine w pc l n (Found.fetched found)

/-- Priority of a trap cause before which register parity is not raised (R56, R57). -/
def beforeParity (t : Trap) : Bool := decide (t.code ≠ 0x0A ∧ t.code ≠ 0x0C ∧ t.code ≠ 0x08)

/-- Whether older instructions of a thread are not complete: outstanding loads, matrix work, a sync.e or a fence (R52, R104, R269). -/
def State.olderWork (s : State) (w : Who) : Bool :=
  s.mmQueued w || decide ((s.thread w).memHold ≠ .none) || !(s.thread w).loads.isEmpty

/-- Settles how an instruction ended. A trap or a halt waits until the thread's older work is done (R52, R104, R553). -/
def State.settle (s0 : State) (w : Who) (long : Bool) (r : Res) : State :=
  let len := if long then 8 else 4
  match r with
  | .done s => ((s.modThread w (fun h => h.advance len)).countRetired w).stepEnd w
  | .jump s pc => ((s.modThread w (fun h => { h with pc := pc, given := Option.none })).countRetired w).stepEnd w
  | .sent s =>
    let s := s.modThread w (fun h => h.advance len)
    s.retire (s.thread w).loads.length w
  | .trap s t => if s0.olderWork w then s0 else (s.takeTrap w (s0.thread w).pc long t).stepEnd w
  | .wait s => s
  | .halt reason => if s0.olderWork w then s0 else s0.haltThread w reason
  | .gone s => s

/-- The trap 0x01 of a reserved encoding or of a 64-bit instruction that is not on an 8-byte boundary (R60). -/
def badEncoding (i : Iss) (long : Bool) (pc : Word) : Bool := i.rsv.isSome || (long && decide (pc.toNat % 8 = 4))

/-- The opcode a trap 0x01 shows: of a reserved encoding its own bits 31:26 (R57, R60). -/
def issOpcode (i : Iss) (opc : Nat) : Nat := (i.rsv.map BitVec.toNat).getD opc

/-- Whether an instruction is 64 bits long: bits 31:29 of its first word are 0b111 (R60). -/
def issLong (i : Iss) (long : Bool) : Bool := (i.rsv.map (fun o => decide (56 ≤ o.toNat))).getD long

/-- Whether a thread can take an instruction now: it is RUN, nothing holds it, no halt is asked of it, its core is not in a retry of its
flush, and what it waits for is over. -/
def State.canIssue (s : State) (w : Who) (c : Cls) : Bool :=
  let h := s.thread w
  decide (h.state = .run ∧ h.hold = .none) && h.haltReq.isNone && loadsAllow c h.tldPend h.loads &&
    (!c.mem || decide (h.memHold = .none)) &&
    (match (s.core w.core).retry with | some r => !(decide (r.thr = w.thr)) | Option.none => true)

/-- A check at register read finds a fault: 0x0A, unless a cause of a lower priority number decides (R56, R57). -/
def checkTrap (r : Res) (s : State) (t : Trap) : Res :=
  match r with
  | .trap s' t' => if beforeParity t' then .trap s' t' else .trap s t
  | _ => .trap s t

/-- A word of the tile file that ECC cannot correct: the error log takes it, and the reading thread 0x0A (R437, R444). DESIGN CHOICE (log 5): R57 names
no DETAIL of a tile file, so DETAIL is a free value. -/
def State.fileError (s : State) (w : Who) (r : Res) : Res :=
  let (k, s) := s.freeNat
  checkTrap r (s.logError (coreDie w.core) 5 1 (s.coreId w.core).toNat) { code := 0x0A, detail := BitVec.ofNat 16 k }

/-- An instruction of a thread: turned away while the thread cannot take it; else its fetch is checked, its encoding, and its body runs
under the core's own checks. -/
def issue (i : Iss) (opc : Nat) (long : Bool) (c : Cls) (body : State → Res) (s : State) : Host.Outcome State Fault Refusal :=
  let s := (s.settleHold i.who).haltIfAsked i.who
  let long := issLong i long
  if !(s.canIssue i.who c) then .next s
  else
    match s.fetchCheck i.who long i.found with
    | .stop r l => .next (s.settle i.who l r)
    | .ok s =>
      if badEncoding i long (s.thread i.who).pc then .next (s.settle i.who long (.trap s (illegal (issOpcode i opc))))
      else
        let r := body s
        let r := match i.found with
          | .parity => if c.reads then checkTrap r s { code := 0x0A, detail := 6 } else r
          | .uncorrectable => if c.file then s.fileError i.who r else r
          | .residue =>
            if c.residue then
              match r with
              | .trap s' t => .trap s' t
              | _ => .gone (s.fenceCore i.who.core 0 Option.none)
            else r
          | _ => r
        .next (s.settle i.who long r)

/-! ### Addressing (R61 to R63) -/

/-- The scale of an index (R62). -/
def scaleOf (h : Thread) (code : Nat) : Option Word :=
  if code < 4 then some (BitVec.ofNat 64 (2 ^ code)) else if code = 4 then some h.pitch else Option.none

/-- Address of a scalar access and the base register's new value; none where the encoding raises 0x01. -/
def memAddr (h : Thread) (rb : BitVec 5) (loadRd : Option (BitVec 5)) (m : MemF) : Option (Word × Option Word) :=
  let b := h.reg rb
  let mode := m.mode.toNat
  if m.nc ∧ ¬ m.g then Option.none
  else if mode = 0 then some (b + m.disp.signExtend 64, Option.none)
  else if mode = 3 then
    if m.disp.extractLsb' 0 4 ≠ 0 then Option.none
    else (scaleOf h (m.disp.extractLsb' 4 3).toNat).map (fun k => (b + h.reg (m.disp.extractLsb' 7 5) * k, Option.none))
  else if rb = 0 ∨ loadRd = some rb then Option.none
  else if mode = 1 then some (b, some (b + m.disp.zeroExtend 64))
  else some (b - m.disp.zeroExtend 64, some (b - m.disp.zeroExtend 64))

/-- The registers an addressing form needs. -/
def memNeeds (rb : BitVec 5) (m : MemF) : List (BitVec 5) :=
  if m.mode = 3 then [rb, m.disp.extractLsb' 7 5] else [rb]

/-- Resolves an access of a thread, local-store offset or global address. -/
def State.place (s : State) (w : Who) (g : Bool) (k : Access) (ctl : Bool) (a : Word) (size : Nat) : Place :=
  if g then s.resolve w.core k ctl a size else s.resolveLs w.core a size

end Sys2Proof.Machine
end

