-- ==== Sys2Proof/Machine/Flags.lean ====
section
/-! DEFINITION. Fixed-point results and the sticky flags: rounding, saturation, wrapping (R69 to R71), THR_FXSTAT, the bits of THR_FPSTAT
(R139) and the predicates compares write (R580). -/

namespace Sys2Proof.Machine

/-- Rounds x ÷ 2^k by an RND code (R70). -/
def roundShift (rnd : BitVec 2) (x : Int) (k : Nat) : Int :=
  let d : Int := 2 ^ k
  let q := x / d
  let r := x % d
  if rnd = 0 then q
  else if rnd = 1 then (if d ≤ 2 * r then q + 1 else q)
  else if rnd = 2 then (if d < 2 * r ∨ (d = 2 * r ∧ q % 2 = 1) then q + 1 else q)
  else if r ≠ 0 ∧ x < 0 then q + 1 else q

/-- What became of a fixed-point result: it fitted, it was clamped, or it wrapped. -/
inductive Fit where
  | fits | clamped | wrapped
  deriving DecidableEq, Repr

/-- Fits a value to a signed width: clamped under SAT, else wrapped (R70). -/
def fitSigned (sat : Bool) (bits : Nat) (x : Int) : Int × Fit :=
  let hi : Int := 2 ^ (bits - 1)
  if -hi ≤ x ∧ x < hi then (x, .fits)
  else if sat then ((if x < 0 then -hi else hi - 1), .clamped)
  else ((x + hi) % (2 * hi) - hi, .wrapped)

/-- Sets the sticky flag of a fixed-point result (R70, R71). -/
def Thread.fxFlag (h : Thread) (f : Fit) : Thread :=
  match f with
  | .fits => h
  | .clamped => { h with fxstat := h.fxstat ||| 2 }
  | .wrapped => { h with fxstat := h.fxstat ||| 1 }

/-- Of the flags of many lanes, both kinds are kept (R176). -/
def Thread.fxFlags (h : Thread) (fs : List Fit) : Thread := fs.foldl Thread.fxFlag h

/-- The low bits of an integer as a word. -/
def wordOfInt (x : Int) : Word := BitVec.ofInt 64 x

/-- The signed value of the low `bits` of a number. -/
def signedOf (bits x : Nat) : Int :=
  let y := x % 2 ^ bits
  if 2 ^ (bits - 1) ≤ y then (y : Int) - 2 ^ bits else y

/-- Bits of THR_FPSTAT (R139). -/
def fpInv : BitVec 9 := 0x001
def fpFovf : BitVec 9 := 0x002
def fpFtz : BitVec 9 := 0x004
def fpIdz : BitVec 9 := 0x008
def fpScaleOvf : BitVec 9 := 0x010
def fpScaleUfl : BitVec 9 := 0x020
def fpScaleNan : BitVec 9 := 0x040
def fpCsat : BitVec 9 := 0x080
def fpCnan : BitVec 9 := 0x100

/-- Sets sticky floating-point flags. -/
def Thread.fpFlag (h : Thread) (f : BitVec 9) : Thread := { h with fpstat := h.fpstat ||| f }

/-- All ones when a comparison holds, zero when it does not (R580). -/
def predOf (b : Bool) : Word := if b then BitVec.allOnes 64 else 0

end Sys2Proof.Machine
end

