-- ==== Sys2Proof/Machine/Float.lean ====
section
/-! DEFINITION. Number formats (R114 to R116), exact binary values, rounding and conversions (R134 to R138). -/

namespace Sys2Proof.Machine

/-- A number an element or register holds: NaN, an infinity, or ±m × 2^e exactly (m may be 0). -/
inductive Num where
  | nan
  | inf (neg : Bool)
  | fin (neg : Bool) (m : Nat) (e : Int)
  deriving DecidableEq, Repr

/-- Number of significant bits. -/
def bitLen (m : Nat) : Nat := if m = 0 then 0 else m.log2 + 1

/-- Exponent of the leading bit of m × 2^e. -/
def leadExp (m : Nat) (e : Int) : Int := e + (bitLen m : Int) - 1

/-- Round to nearest, ties to even, of m ÷ 2^k. -/
def rneShift (m k : Nat) : Nat :=
  let q := m / 2 ^ k
  let r := m % 2 ^ k
  if 2 ^ k < 2 * r ∨ (2 ^ k = 2 * r ∧ q % 2 = 1) then q + 1 else q

/-- Rounds a magnitude to a number of significant bits with an unbounded exponent range (R120, R136). -/
def roundSig (prec m : Nat) (e : Int) : Nat × Int :=
  if bitLen m ≤ prec then (m, e) else (rneShift m (bitLen m - prec), e + (bitLen m - prec : Nat))

/-- m × 2^e as an integer multiple of 2^lo, for lo ≤ e. -/
def alignTo (neg : Bool) (m : Nat) (e lo : Int) : Int :=
  let v : Int := (m : Int) * 2 ^ (e - lo).toNat
  if neg then -v else v

/-- An integer multiple of 2^e as a number; zero takes the given sign. -/
def numOfInt (x : Int) (e : Int) (zeroNeg : Bool) : Num :=
  if x = 0 then .fin zeroNeg 0 0 else .fin (decide (x < 0)) x.natAbs e

/-! ### FP32 and BF16 -/

/-- Reads an FP32 number; a subnormal reads as zero and sets IDZ (R116). -/
def ofF32 (x : F32) : Num × BitVec 9 :=
  let s := x.getLsbD 31
  let e := (x.extractLsb' 23 8).toNat
  let f := (x.extractLsb' 0 23).toNat
  if e = 255 then (if f = 0 then .inf s else .nan, 0)
  else if e = 0 then (.fin s 0 0, if f = 0 then 0 else fpIdz)
  else (.fin s (2 ^ 23 + f) ((e : Int) - 150), 0)

/-- BF16 is the high half of FP32 (R114). -/
def bf16ToF32 (x : BitVec 16) : F32 := x ++ (0 : BitVec 16)

def ofBf16 (x : BitVec 16) : Num × BitVec 9 := ofF32 (bf16ToF32 x)

def nanF32 : F32 := 0x7FC00000
def nanBf16 : BitVec 16 := 0x7FC0

/-- Packs a magnitude already rounded to `prec` bits (24 or 8) into sign, 8-bit exponent and fraction, as a number of prec + 8 bits; FOVF
and FTZ as R120 and R136 state. -/
def packIeee (prec : Nat) (neg : Bool) (m : Nat) (e : Int) : Nat × BitVec 9 :=
  let sgn := b2n neg * 2 ^ (prec + 7)
  if m = 0 then (sgn, 0)
  else
    let l := leadExp m e
    if 128 ≤ l then (sgn + 255 * 2 ^ (prec - 1), fpFovf)
    else if l < -126 then (sgn, fpFtz)
    else
      let sig := m * 2 ^ (prec - bitLen m) / 2 ^ (bitLen m - prec)
      (sgn + (l + 127).toNat * 2 ^ (prec - 1) + (sig - 2 ^ (prec - 1)), 0)

/-- Rounds an exact number once to a format of `prec` significant bits (R136). -/
def roundNum (prec : Nat) (x : Num) : Nat × BitVec 9 :=
  match x with
  | .nan => (511 * 2 ^ (prec - 2) - 0, 0)
  | .inf neg => (b2n neg * 2 ^ (prec + 7) + 255 * 2 ^ (prec - 1), 0)
  | .fin neg m e =>
    let r := roundSig prec m e
    packIeee prec neg r.1 r.2

/-- Rounds once to FP32. -/
def toF32 (x : Num) : F32 × BitVec 9 := let r := roundNum 24 x; (BitVec.ofNat 32 r.1, r.2)

/-- Rounds once to BF16. -/
def toBf16 (x : Num) : BitVec 16 × BitVec 9 := let r := roundNum 8 x; (BitVec.ofNat 16 r.1, r.2)

/-! ### Exact arithmetic -/

def Num.neg : Num → Num
  | .nan => .nan
  | .inf n => .inf !n
  | .fin n m e => .fin (!n) m e

def Num.abs : Num → Num
  | .nan => .nan
  | .inf _ => .inf false
  | .fin _ m e => .fin false m e

/-- Exact product; 0 × Inf is NaN (R118, R172). -/
def Num.mul : Num → Num → Num
  | .nan, _ => .nan
  | _, .nan => .nan
  | .inf a, .inf b => .inf (xor a b)
  | .inf a, .fin b m _ => if m = 0 then .nan else .inf (xor a b)
  | .fin a m _, .inf b => if m = 0 then .nan else .inf (xor a b)
  | .fin a m e, .fin b m' e' => .fin (xor a b) (m * m') (if m * m' = 0 then 0 else e + e')

/-- Exact sum; Inf − Inf is NaN, and an exact zero is +0 unless both are −0. -/
def Num.add : Num → Num → Num
  | .nan, _ => .nan
  | _, .nan => .nan
  | .inf a, .inf b => if a = b then .inf a else .nan
  | .inf a, .fin _ _ _ => .inf a
  | .fin _ _ _, .inf b => .inf b
  | .fin a m e, .fin b m' e' =>
    if m = 0 ∧ m' = 0 then .fin (a && b) 0 0
    else if m = 0 then .fin b m' e'
    else if m' = 0 then .fin a m e
    else
      let lo := min e e'
      numOfInt (alignTo a m e lo + alignTo b m' e' lo) lo false

/-- Whether one number is below another in the order of R135: −0 is below +0. NaN is below nothing. -/
def Num.below : Num → Num → Bool
  | .nan, _ => false
  | _, .nan => false
  | .inf a, .inf b => a && !b
  | .inf a, .fin _ _ _ => a
  | .fin _ _ _, .inf b => !b
  | .fin a m e, .fin b m' e' =>
    if m = 0 ∧ m' = 0 then a && !b
    else
      let lo := min e e'
      decide (alignTo a m e lo < alignTo b m' e' lo)

/-- Numeric equality: the zeros are equal and NaN equals nothing. -/
def Num.same (x y : Num) : Bool :=
  match x, y with
  | .nan, _ => false
  | _, .nan => false
  | .fin _ 0 _, .fin _ 0 _ => true
  | _, _ => !(x.below y) && !(y.below x)

/-- Maximum and minimum under R135. -/
def Num.max (x y : Num) : Num :=
  match x, y with
  | .nan, _ => y
  | _, .nan => x
  | _, _ => if x.below y then y else x

def Num.min (x y : Num) : Num :=
  match x, y with
  | .nan, _ => y
  | _, .nan => x
  | _, _ => if y.below x then y else x

/-! ### Element formats of tiles (R82, R83, R114) -/

/-- Exponent bits, mantissa bits, bias and largest finite value of an MX floating-point element format. -/
structure MxFloat where
  ebits : Nat
  mbits : Nat
  bias  : Nat
  maxM  : Nat
  maxE  : Int
  deriving DecidableEq, Repr

def mxFloat (f : BitVec 4) : Option MxFloat :=
  match f.toNat with
  | 1 => some ⟨4, 3, 7, 7, 6⟩
  | 2 => some ⟨5, 2, 15, 7, 13⟩
  | 4 => some ⟨3, 2, 3, 7, 2⟩
  | 5 => some ⟨2, 3, 1, 15, -1⟩
  | 6 => some ⟨2, 1, 1, 3, 1⟩
  | _ => Option.none

/-- Reads an element of a tile format from its bits; IDZ for a subnormal FP32 or BF16 operand. -/
def ofElem (f : BitVec 4) (x : Nat) : Num × BitVec 9 :=
  match mxFloat f with
  | some p =>
    let m := x % 2 ^ p.mbits
    let e := x / 2 ^ p.mbits % 2 ^ p.ebits
    let s := decide (x / 2 ^ (p.mbits + p.ebits) % 2 = 1)
    if f = 1 ∧ e = 15 ∧ m = 7 then (.nan, 0)
    else if f = 2 ∧ e = 31 then (if m = 0 then .inf s else .nan, 0)
    else if e = 0 then (.fin s m (1 - (p.bias : Int) - p.mbits), 0)
    else (.fin s (2 ^ p.mbits + m) ((e : Int) - p.bias - p.mbits), 0)
  | Option.none =>
    if f = 0 then ofBf16 (BitVec.ofNat 16 x)
    else if f = 3 then
      let v := signedOf 8 x
      (.fin (decide (v < 0)) v.natAbs (-6), 0)
    else ofF32 (BitVec.ofNat 32 x)

/-- A block scale: 2^(x − 127), or NaN (R115). -/
def ofScale (x : Nat) : Option Int := if x % 256 = 255 then Option.none else some ((x % 256 : Nat) - 127 : Int)

/-! ### Conversion into MX elements (R137, R138) -/

/-- Converts a value already divided by 2^X to an MX floating-point format: round to nearest even, then saturate. -/
def toMxFloat (f : BitVec 4) (p : MxFloat) (sat : Bool) (x : Num) : Nat × BitVec 9 :=
  let sbit (n : Bool) : Nat := b2n n * 2 ^ (p.ebits + p.mbits)
  let maxBits : Nat :=
    let l := leadExp p.maxM p.maxE
    (l + p.bias).toNat * 2 ^ p.mbits + (p.maxM * 2 ^ (p.mbits + 1 - bitLen p.maxM) - 2 ^ p.mbits)
  let overflow (n finite : Bool) : Nat × BitVec 9 :=
    if f = 2 ∧ ¬ sat then (sbit n + 31 * 4, if finite then fpFovf else 0) else (sbit n + maxBits, fpCsat)
  match x with
  | .nan => if f = 1 ∨ f = 2 then (0x7F, 0) else (0, fpCnan)
  | .inf n => overflow n false
  | .fin n m e =>
    if m = 0 then (sbit n, 0)
    else
      let emin : Int := 1 - p.bias
      let step : Int := max (leadExp m e) emin - p.mbits
      let q : Nat := if step ≤ e then m * 2 ^ (e - step).toNat else rneShift m (step - e).toNat
      if q = 0 then (sbit n, 0)
      else
        let lo := min step p.maxE
        if alignTo false p.maxM p.maxE lo < alignTo false q step lo then overflow n true
        else
          let l := leadExp q step
          if l < emin then (sbit n + q, 0)
          else (sbit n + (l + p.bias).toNat * 2 ^ p.mbits + (q * 2 ^ (p.mbits + 1 - bitLen q) / 2 ^ (bitLen q - (p.mbits + 1)) - 2 ^ p.mbits), 0)

/-- Converts to MXINT8: the nearest multiple of 2^−6, clamped (R137). -/
def toMxInt8 (x : Num) : Nat × BitVec 9 :=
  match x with
  | .nan => (0, fpCnan)
  | .inf n => (if n then 0x80 else 0x7F, fpCsat)
  | .fin n m e =>
    let q : Nat := if -6 ≤ e then m * 2 ^ (e + 6).toNat else rneShift m (-6 - e).toNat
    let v : Int := if n then -(q : Int) else q
    if v < -128 then (0x80, fpCsat) else if 127 < v then (0x7F, fpCsat) else ((v % 256).toNat, 0)

/-- Exponent of the largest element of a scaled format (R138). -/
def mxEmax (f : BitVec 4) : Int :=
  match f.toNat with
  | 1 => 8
  | 2 => 15
  | 4 => 4
  | 5 => 2
  | 6 => 2
  | _ => 0

/-- Divides a number by a power of two. -/
def Num.scaleDown (x : Num) (k : Int) : Num :=
  match x with
  | .fin n m e => .fin n m (e - k)
  | y => y

/-- Block quantisation (R138): the elements, the scale byte, the flags. -/
def quantise (f : BitVec 4) (sat : Bool) (xs : List Num) : List Nat × Nat × BitVec 9 :=
  if xs.contains .nan then (xs.map (fun _ => 0), 0xFF, fpCnan)
  else
    let mags := xs.map (fun x => match x with
      | .fin _ m e => if m = 0 then Option.none else some (leadExp m e)
      | _ => some 128)
    let top := mags.foldl (fun (a : Option Int) b => match a, b with
      | Option.none, y => y
      | y, Option.none => y
      | some p, some q => some (max p q)) Option.none
    match top with
    | Option.none => (xs.map (fun _ => 0), 0x7F, 0)
    | some l =>
      let x : Int := max (-127) (min 127 (l - mxEmax f))
      let rs := xs.map (fun y => match mxFloat f with
        | some p => toMxFloat f p sat (y.scaleDown x)
        | Option.none => toMxInt8 (y.scaleDown x))
      (rs.map (fun r => r.1), (x + 127).toNat, rs.foldl (fun a r => a ||| r.2) 0)

/-- Packs elements of a width into a little-endian bit string (R83). -/
def packElems (w : Nat) : List Nat → Nat
  | [] => 0
  | x :: xs => x % 2 ^ w + 2 ^ w * packElems w xs

end Sys2Proof.Machine
end

