-- ==== Sys2Proof/Machine/Checks.lean ====
section
/-! DEFINITION. The carried check: its number format, budgets, baselines, steps and comparison (R144 to R151), the CRC-32C digest of the
check log (R153), and the sum of a result tile (R162, R163). -/

namespace Sys2Proof.Machine

/-! ### The check format (R144) -/

def CkNum.num (x : CkNum) : Num := .fin x.neg x.sig x.exp

/-- Rounds a number to the check format: 64 significant bits, to nearest; the significand is kept with its leading bit at bit 63. -/
def ckOf (x : Num) : CkNum :=
  match x with
  | .fin n m e =>
    if m = 0 then {}
    else
      let r := roundSig 64 m e
      let k := 64 - bitLen r.1
      { neg := n, sig := r.1 * 2 ^ k / 2 ^ (bitLen r.1 - 64), exp := r.2 - k + (bitLen r.1 - 64 : Nat) }
  | _ => {}

/-- One addition of the check format, rounded. -/
def CkNum.add (a : CkNum) (v : Num) : CkNum := ckOf (a.num.add v)

/-- Adds a number to one entry of a table of sums. -/
def addCk (m : Sparse CkNum) (k : Nat) (v : Num) : Sparse CkNum := Sparse.upd {} m k (fun a => a.add v)

/-- Rounds a magnitude to FP32 toward +∞ (R145). -/
def ceilF32 (x : Num) : F32 :=
  match x with
  | .fin _ m e =>
    let d := bitLen m - 24
    let q := if bitLen m ≤ 24 then m else (m + 2 ^ d - 1) / 2 ^ d
    BitVec.ofNat 32 (packIeee 24 false q (e + d)).1
  | _ => 0x7F800000

/-- Adds to a budget, rounded toward +∞. -/
def addBudget (m : Sparse F32) (k : Nat) (v : Num) : Sparse F32 := Sparse.upd 0 m k (fun b => ceilF32 ((ofF32 b).1.add v))

/-- ρ of R124 for a written value: 2^−24 × |Y| + 2^−126. -/
def rho (y : F32) : Num := ((ofF32 y).1.abs.scaleDown 24).add (.fin false 1 (-126))

/-- The loss of a step: n × 2^(w − 27). -/
def stepLoss (n : Nat) (w : Option Int) : Num :=
  match w with
  | some w => .fin false n (w - 27)
  | Option.none => .fin false 0 0

/-! ### Baselines and steps (R146 to R149) -/

def isFinite (y : F32) : Bool := decide (y.extractLsb' 23 8 ≠ 255)

/-- Marks an element in a list of marks. -/
def markEl (l : List Nat) (k : Nat) : List Nat := if l.contains k then l else l ++ [k]

/-- The baseline of a slot: the state as acc.fill sets it from the elements the slot holds (R146). -/
def Slot.baseline (x : Slot) : Slot :=
  let z : Slot := { live := x.live, el := x.el, shadow := x.el, sending := x.sending }
  x.el.foldl (fun z e =>
    let i := e.1 / 32
    let j := e.1 % 32
    if isFinite e.2 then
      let v := (ofF32 e.2).1
      { z with cr := addCk z.cr j v, cc := addCk z.cc i v, qr := addCk z.qr i v.abs, qc := addCk z.qc j v.abs }
    else { z with sp := markEl z.sp e.1 }) z

/-- The first step of an overwriting mm takes the element's previous value out of the sums (R148). -/
def Slot.overwrite (x : Slot) (i j : Nat) : Slot :=
  let k := 32 * i + j
  let y : F32 := Sparse.get 0 x.el k
  let marked := !(isFinite y) || x.sp.contains k || x.either.contains k
  let x := { x with sp := x.sp.filter (· ≠ k), either := x.either.filter (· ≠ k) }
  if marked then { x with exr := markEl x.exr i, exc := markEl x.exc j }
  else { x with cr := addCk x.cr j (ofF32 y).1.neg, cc := addCk x.cc i (ofF32 y).1.neg }

/-- One step of one element that no rule of R122 decides: products, magnitudes and budgets (R147). DESIGN CHOICE (log 59): where the written Y has
overflowed, which R124 leaves out, ρ adds 0. -/
def Slot.checkStep (x : Slot) (i j : Nat) (ps : List Num) (n : Nat) (w : Option Int) (y : F32) : Slot :=
  let add (m : Sparse CkNum) (k : Nat) (f : Num → Num) : Sparse CkNum := ps.foldl (fun m p => addCk m k (f p)) m
  let r := if isFinite y then rho y else .fin false 0 0
  let l := (stepLoss n w).add r
  { x with cr := add x.cr j id, cc := add x.cc i id, qr := add x.qr i Num.abs, qc := add x.qc j Num.abs,
           lr := addBudget x.lr i l, lc := addBudget x.lc j l, ur := addBudget x.ur i r, uc := addBudget x.uc j r }

/-- What the check unit's own path predicts from the exact sum of a step (R149), a finite result for one below the band of EITHER, although the
truncation of R119 can then still overflow (log 60). -/
inductive Predict where
  | finite | special | either
  deriving DecidableEq, Repr

def predict (exact : Num) : Predict :=
  match (ckOf exact).num with
  | .fin _ m e =>
    let lo := min e 100
    let v := alignTo false m e lo
    let top := alignTo false 1 128 lo
    let band := alignTo false 1 108 lo
    if top - band ≤ v ∧ v ≤ top + band then .either else if top ≤ v then .special else .finite
  | _ => .special

/-- Records a prediction in the slot. -/
def Slot.predicted (x : Slot) (k : Nat) (p : Predict) : Slot :=
  match p with
  | .finite => x
  | .special => { x with sp := markEl x.sp k }
  | .either => { x with either := markEl x.either k }

/-! ### Comparison (R149, R151) -/

def Slot.rowExempt (x : Slot) (i : Nat) : Bool :=
  x.exr.contains i || x.sp.any (fun k => k / 32 = i) || x.either.any (fun k => k / 32 = i)

def Slot.colExempt (x : Slot) (j : Nat) : Bool :=
  x.exc.contains j || x.sp.any (fun k => k % 32 = j) || x.either.any (fun k => k % 32 = j)

/-- Exempt rows and columns at a comparison. -/
def Slot.exempts (x : Slot) : Nat :=
  ((List.range 32).filter x.rowExempt).length + ((List.range 32).filter x.colExempt).length

def Slot.rowEls (x : Slot) (i : Nat) : List F32 := (List.range 32).map (fun j => Sparse.get 0 x.el (32 * i + j))
def Slot.colEls (x : Slot) (j : Nat) : List F32 := (List.range 32).map (fun i => Sparse.get 0 x.el (32 * i + j))

/-- Sum of values in the check format. -/
def ckSum (vs : List Num) : CkNum := vs.foldl CkNum.add {}

/-- −lower − G ≤ sum − check ≤ upper + G, with G = 2^−40 × (q + Σ|Y|) (R151). -/
def withinBudget (sum check : CkNum) (lower upper : Num) (q : CkNum) (mags : CkNum) : Bool :=
  let g := (q.num.add mags.num).scaleDown 40
  let d := sum.num.add check.num.neg
  !(d.below (lower.add g).neg) && !((upper.add g).below d)

/-- Whether one line of a slot passes. DESIGN CHOICE (log 61): a line that is not exempt and holds an Inf or a NaN fails as a line. -/
def linePasses (els : List F32) (check : CkNum) (lower upper : F32) (q : CkNum) : Bool :=
  els.all isFinite &&
    (let vs := els.map (fun y => (ofF32 y).1)
     withinBudget (ckSum vs) check (ofF32 lower).1 (ofF32 upper).1 q (ckSum (vs.map Num.abs)))

def Slot.rowPasses (x : Slot) (i : Nat) : Bool :=
  x.rowExempt i || linePasses (x.rowEls i) (Sparse.get {} x.cc i) (Sparse.get 0 x.lr i) (Sparse.get 0 x.ur i) (Sparse.get {} x.qr i)

def Slot.colPasses (x : Slot) (j : Nat) : Bool :=
  x.colExempt j || linePasses (x.colEls j) (Sparse.get {} x.cr j) (Sparse.get 0 x.lc j) (Sparse.get 0 x.uc j) (Sparse.get {} x.qc j)

/-- The element rule (R151). DESIGN CHOICE (log 62): of an element with both marks, EITHER decides. -/
def Slot.elementsPass (x : Slot) : Bool :=
  (List.range 1024).all (fun k =>
    let fin := isFinite (Sparse.get 0 x.el k)
    if x.either.contains k then true else if x.sp.contains k then !fin else fin)

/-- The comparison of a slot: none if it passes, else the first failing line, rows before columns; line 0 if only the element rule fails
(R151, R159). -/
def Slot.compare (x : Slot) : Option (BitVec 5 × Bool) :=
  match (List.range 32).find? (fun i => !(x.rowPasses i)) with
  | some i => some (BitVec.ofNat 5 i, false)
  | Option.none =>
    match (List.range 32).find? (fun j => !(x.colPasses j)) with
    | some j => some (BitVec.ofNat 5 j, true)
    | Option.none => if x.elementsPass then Option.none else some (0, false)

/-! ### Result tiles (R162, R163) -/

/-- Rows 8q to 8q + 7 of a slot, row-major. -/
def Slot.tileEls (x : Slot) (q : Nat) : List F32 := (List.range 256).map (fun k => Sparse.get 0 x.el (256 * q + k))

/-- The carried sum of a tile, rounded to FP32 from the check format; none for a tile that holds an exempt row. -/
def Slot.tileSum (x : Slot) (q : Nat) : Option F32 :=
  if (List.range 8).any (fun r => x.rowExempt (8 * q + r)) then Option.none
  else some (toF32 (ckSum ((x.tileEls q).map (fun y => (ofF32 y).1))).num).1

/-! ### CRC-32C (R153) -/

/-- The bytes of a tile's rows and side-file. -/
def TileImage.bytes (x : TileImage) : List Byte :=
  (List.range 32).flatMap (fun r => toBytes (Sparse.get (0 : BitVec 512) x.rows r).toNat 64) ++
    (List.range 32).flatMap (fun r => toBytes (Sparse.get (0 : BitVec 32) x.side r).toNat 4)

/-- The digest of a tile (R153). -/
def TileImage.digest (x : TileImage) : BitVec 32 := crc32c x.bytes

end Sys2Proof.Machine
end

