-- ==== Sys2Proof/Machine/Tiles.lean ====
section
/-! DEFINITION. Tile loads and stores, trel, tld.drop, and tret, which resumes an interrupted tile load (R55, R77 to R97, R210 to R218). -/

namespace Sys2Proof.Machine

/-! ### Encoding and shape -/

/-- A tile memory encoding whose fields contradict SRC (R85). -/
def tileIllegal (f : TileF) : Bool :=
  if f.src then decide (f.rb ≠ 0 ∨ f.rs ≠ 0) || f.g else decide (f.strm ≠ 0)

/-- The shape fault of a tile transfer, lowest condition first (R99). -/
def tileShape (f : TileF) (sc pend : Bool) : Option Nat :=
  match fmtInfo f.fmt with
  | Option.none => some 1
  | some i =>
    let k := (f.kf.toNat + 1) * i.unit
    if sc ∧ ¬ i.scaled then some 1
    else if 64 < k * i.width / 8 then some 3
    else if i.scaled ∧ k % 32 ≠ 0 then some 4
    else if pend then some 5
    else Option.none

/-- Whether a queued mm of the thread still reads a tile (R103). -/
def State.tileRead (s : State) (w : Who) (t : BitVec 3) : Bool :=
  (s.core w.core).mq.any (fun m => decide (m.thr = w.thr ∧ (m.f.ta = t ∨ m.f.tb = t)))

/-! ### Where the rows of a load lie -/

/-- Cuts an access at 2 MiB pages. -/
def pagePieces (a : Word) (n : Nat) : List (Word × Nat) :=
  let room := pageSize - a.toNat % pageSize
  if n ≤ room then [(a, n)] else [(a, room), (a + BitVec.ofNat 64 room, n - room)]

/-- The pieces of `n` bytes from byte `q` of a stream's ring (R208). -/
def ringPieces (x : Stream) : Nat → Nat → Nat → List (Word × Nat)
  | 0, _, _ => []
  | fuel + 1, q, n =>
    if n = 0 then []
    else
      let size := 2 ^ x.size.toNat
      let off := q % size
      let k := min n (size - off)
      (if x.loc then [(x.base + BitVec.ofNat 64 off, k)] else linePieces 3 (x.base + BitVec.ofNat 64 off) k) ++
        ringPieces x fuel (q + k) (n - k)

/-- Byte of the ring at which row `r` of the tile at a position starts (R208). -/
def ringRow (x : Stream) (pos r : Nat) : Nat :=
  (((pos : Int) + r * x.rstride.toInt) % (2 ^ x.size.toNat : Int)).toNat

/-- Address of row `r` of a recorded source, and its pieces. -/
def TileSource.rowAt (x : TileSource) (r n : Nat) : Word × List (Word × Nat) :=
  match x.base with
  | some (b, size) =>
    let st : Stream := { base := b, size := BitVec.ofNat 5 size }
    let q := ((((x.addr - b).toNat : Int) + r * x.stride.toInt) % (2 ^ size : Int)).toNat
    (b + BitVec.ofNat 64 q, ringPieces st 3 q n)
  | Option.none =>
    let a := x.addr + BitVec.ofNat 64 r * x.stride
    (a, linePieces 3 a n)

/-- Whether a stream takes its tiles from the trace (R378). -/
def Stream.receives (x : Stream) : Bool := decide (x.mode = 2 ∨ x.mode = 3)

/-- Address of row `r` of a tile load as the instruction or the stream forms it, whether it is global, and its pieces. DESIGN CHOICE (log 57): a
receiving stream, whose own addresses are not used (R376), reads a deferred row again at its tile's origin. -/
def State.rowPieces (s : State) (w : Who) (f : TileF) (n r : Nat) : Word × Bool × List (Word × Nat) :=
  let h := s.thread w
  if f.src then
    let x := s.stream w f.strm
    let own : Word × Bool × List (Word × Nat) :=
      let q := ringRow x x.pos.toNat r
      (x.base + BitVec.ofNat 64 q, !x.loc, ringPieces x 3 q n)
    match x.tiles.find? (fun t => !t.consumed) with
    | some t => if x.receives then ((t.origin.rowAt r n).1, true, (t.origin.rowAt r n).2) else own
    | Option.none => own
  else
    let a := tileRowAddr h f r
    (a, f.g, if f.g then linePieces 3 a n else [(a, n)])

/-- What asking for one row meets. -/
inductive RowAsk where
  | go (ps : List (Word × Nat × Loc × Option Nat))
  | bad (t : Trap)
  | miss (page : Nat)
  | stop

/-- Checks the pieces of a row in order. -/
def State.askPieces (s : State) (w : Who) (g : Bool) (row : Word) :
    List (Word × Nat) → List (Word × Nat × Loc × Option Nat) → RowAsk
  | [], acc => .go acc
  | (a, n) :: ps, acc =>
    match s.place w g .read false a n with
    | .bad t => .bad { t with tval := row }
    | .miss page => .miss page
    | .at_ l page => State.askPieces s w g row ps (acc ++ [(a, n, l, page)])

/-- Asks for a row: watchpoint, translation and checks (R87, R92, R555). -/
def State.askRow (s : State) (w : Who) (f : TileF) (n r : Nat) : RowAsk :=
  let (a, g, ps) := s.rowPieces w f n r
  match ps.findSome? (fun p => s.watchpoint w g p.1 p.2 true false) with
  | some (_, true) => .stop
  | some (k, false) => .bad { code := 0x0B, detail := BitVec.ofNat 16 (4 + k), tval := a }
  | Option.none => s.askPieces w g a ps []

/-- Sends the reads of the pieces of the row at an address. -/
def State.sendRow (s : State) (w : Who) (row : Word) (ps : List (Word × Nat × Loc × Option Nat)) : State × List LoadPart :=
  ps.foldl (fun (acc : State × List LoadPart) p =>
    let r := acc.1.startRead w p.2.2.1 p.2.1 row p.2.2.2 Option.none 0 p.2.1 Option.none
    (r.2, acc.2 ++ [r.1])) (s, [])

/-- Asks for rows in ascending order until the last, a fault, or a translation miss, whose page it answers with the row (R87, R92). -/
def State.askRows : Nat → State → Who → TileF → Nat → Nat → List LoadPart → State × List LoadPart × Option (Nat × Nat)
  | 0, s, _, _, _, _, ps => (s, ps, Option.none)
  | k + 1, s, w, f, n, r, ps =>
    match s.askRow w f n r with
    | .bad t => (s, ps ++ [.fault t Option.none], Option.none)
    | .stop => (s, ps ++ [.halted], Option.none)
    | .miss page => (s, ps ++ [.more], some (page, r))
    | .go qs =>
      let (s, new) := s.sendRow w (s.rowPieces w f n r).1 qs
      State.askRows k s w f n (r + 1) (ps ++ new)

/-! ### Starting and continuing a tile load -/

/-- The source of a load as the check log records it (R153, R380): the resolved global address of row 0. -/
def State.loadSource (s : State) (w : Who) (f : TileF) (sc : Bool) : TileSource :=
  let h := s.thread w
  let n := tileRowBytes f sc
  let absLs (o : Word) : Word := BitVec.ofNat 64 (s.watchAddr w.core false o)
  if f.src then
    let x := s.stream w f.strm
    let base := if x.loc then absLs x.base else x.base
    let here : TileSource :=
      { addr := base + BitVec.ofNat 64 (ringRow x x.pos.toNat 0), stride := x.rstride.signExtend 64, rows := f.rows.toNat + 1,
        rowBytes := n, base := some (base, x.size.toNat), sc := sc, g := true }
    match x.tiles.find? (fun t => !t.consumed) with
    | some t => if t.origin.rows ≠ 0 then t.origin else here
    | Option.none => here
  else
    { addr := if f.g then h.reg f.rb else absLs (h.reg f.rb), stride := h.reg f.rs, rows := f.rows.toNat + 1, rowBytes := n,
      sc := sc, g := true }

/-- Begins a tile load from row `from_` at an instruction address: new version tag and source, which its tile takes once the loads before it have
retired (R52, R153), the rows a filled stream tile holds, then the reads of the rest. -/
def State.tileStart (s : State) (w : Who) (pc : Word) (f : TileF) (sc : Bool) (from_ : Nat) (prior : BitVec 2)
    (held : List (List Byte)) (stream : Option Bool) : State :=
  let n := tileRowBytes f sc
  let src := s.loadSource w f sc
  let v := s.nextSeq
  let parts := held.map LoadPart.data
  let first := from_ + held.length
  let (s, parts, miss) := State.askRows (f.rows.toNat + 1 - first) s.bumpSeq w f n first parts
  let op : LoadOp := { pc := pc, long := true, kind := .tile f sc from_ prior stream, parts := parts, tag := some (v, src) }
  let s := s.modThread w (fun h => { h with loads := h.loads ++ [op] })
  match miss with
  | some (page, r) =>
    s.missHold w { page, long := true, tval := (s.rowPieces w f n r).1, tileRow := some (f, sc, r, prior) }
  | Option.none => s

/-- Goes on with a tile load whose row `r` waited for its translation. -/
def State.tileContinue (s : State) (w : Who) (f : TileF) (sc : Bool) (r : Nat) (prior : BitVec 2) : State :=
  let n := tileRowBytes f sc
  match (s.thread w).loads.find? (fun op => op.parts.contains .more) with
  | some op =>
    let (s, parts, miss) :=
      State.askRows (f.rows.toNat + 1 - r) s w f n r (op.parts.filter (fun p => decide (p ≠ .more)))
    let s := s.modThread w (fun h =>
      { h with loads := replaceFirst (fun q => q.parts.contains .more) (fun q => { q with parts := parts }) h.loads })
    match miss with
    | some (page, r) => s.missHold w { page, long := true, tval := (s.rowPieces w f n r).1, tileRow := some (f, sc, r, prior) }
    | Option.none => s.retire (s.thread w).loads.length w
  | Option.none => s

/-- Ends the row a tile load waited for with a fault (R92). -/
def State.tileFault (s : State) (w : Who) (t : Trap) : State :=
  let s := s.modThread w (fun h => { h with loads := h.loads.map (fun op =>
    { op with parts := op.parts.map (fun p => if p = .more then .fault t Option.none else p) }) })
  s.retire (s.thread w).loads.length w

/-- What a load with SRC = 1 takes from its stream (R210 to R212, R378, R381); `discard`: its shape is not the descriptor's (R211). -/
inductive Take where
  | refuse
  | wait
  | tile (t : FillTile) (discard : Bool)

/-- The next tile of a stream for a load; `coming` says whether a tile is on the trace toward it. -/
def Stream.take (x : Stream) (f : TileF) (sc coming : Bool) : Take :=
  let match_ := decide (f.rows = x.rowsf ∧ f.fmt = x.fmt ∧ f.kf = x.kf)
  if ¬ x.en ∨ x.count = 0 ∨ x.sc ≠ sc then .refuse
  else if x.receives ∧ ¬ match_ then .refuse
  else if (x.mode = 1 ∨ x.mode = 3) ∧ ¬ x.cons then .wait
  else
    match x.tiles.find? (fun t => !t.consumed) with
    | Option.none => if x.receives ∧ x.lost ∧ ¬ coming then .refuse else .wait
    | some t => if t.ready then .tile t (!match_) else .wait

/-- The rows a filled tile holds. What a tile of another shape lacks of a receiving stream's shape the spec does not state: free bytes (log 6). -/
def State.heldRows (s : State) (x : Stream) (f : TileF) (sc : Bool) (t : FillTile) : List (List Byte) × State :=
  if x.receives then
    let n := s.free
    let rb := tileRowBytes f sc
    let rows := (List.range (f.rows.toNat + 1)).map (fun r =>
      (List.range rb).map (fun k => ((t.rows.getD r [])[k]?).getD (Config.freeByte (n + 64 * r + k))))
    (rows, if rows = t.rows then s else { s with free := n + 2048 })
  else (t.rows, s)

/-- The rows a load receives from a tile: those before the row it is deferred from (R217), which a fill-buffer word that ECC cannot correct also
makes it, from a row of free choice, and the error log takes (R204, R444, log 5); none where the shape differs (R211). -/
def State.takeRows (s : State) (w : Who) (x : Stream) (f : TileF) (sc : Bool) (t : FillTile) (discard : Bool) (u : Upset) :
    List (List Byte) × State :=
  if discard then ([], s.countThread w 0x004 1)
  else
    let (rows, s) := s.heldRows x f sc t
    match t.defer with
    | some d => (rows.take d, s)
    | Option.none =>
      if u = .uncorrectable then
        let (k, s) := s.freeNat
        (rows.take (k % rows.length), (s.logError (coreDie w.core) 5 1 (s.coreId w.core).toNat).countThread w 0x003 1)
      else (rows, s.countThread w 0x001 1)

/-- Whether base or stride of a tile transfer raise 0x05 (R86). -/
def tileSkew (h : Thread) (f : TileF) (sc : Bool) : Bool :=
  !f.src && !sc && decide ((h.reg f.rb).toNat % 8 ≠ 0 ∨ (h.reg f.rs).toNat % 8 ≠ 0)

/-- The fault a tile load meets before it moves a row, beside its encoding: shape, then alignment (R57). DESIGN CHOICE (log 55): THR_TVAL of the 0x05
holds the base register's value, also where only the stride is misaligned. -/
def tileFaultFirst (h : Thread) (f : TileF) (sc pend : Bool) : Option Trap :=
  match tileShape f sc pend with
  | some d => some (shapeFault d)
  | Option.none => if tileSkew h f sc then some (misaligned 8 (h.reg f.rb)) else Option.none

/-- The watchpoint that the rows of a tile transfer match (R555). -/
def State.watchRows (s : State) (w : Who) (f : TileF) (sc read write : Bool) : Option (Nat × Bool) :=
  let n := tileRowBytes f sc
  if n = 0 then Option.none
  else
    ((List.range (f.rows.toNat + 1)).flatMap (fun r =>
      let (_, g, ps) := s.rowPieces w f n r
      ps.map (fun p => (g, p)))).findSome? (fun q => s.watchpoint w q.1 q.2.1 q.2.2 read write)

/-- A tld or tld.sc (R86 to R88, R95, R99, R103, R210). Beside a fault of its own, a matching watchpoint decides (R56). One that waits for its tile
holds its claim (R210, R212). -/
def tileLoad (i : Iss) (f : TileF) (sc : Bool) (s : State) : Host.Outcome State Fault Refusal :=
  issue i 0x3B true { mem := true, load := !f.src, needs := [f.rb, f.rs], tiles := [f.td], residue := true } (fun s =>
    let w := i.who
    let h := s.thread w
    let x := s.stream w f.strm
    let got : Take := x.take f sc (s.relayComing w f.strm)
    if tileIllegal f || (f.src && (match got with | .refuse => true | _ => false)) then .trap s (illegal 0x3B)
    else
      match tileFaultFirst h f sc h.tldPend with
      | some t =>
        (match s.watchRows w f sc true false with
         | some (k, act) => matched s (4 + k) act
         | Option.none => .trap s t)
      | Option.none =>
        let claim (on : Bool) (s : State) : State := if f.src then s.modStream w f.strm (fun x => { x with claim := on }) else s
        if s.tileRead w f.td then .wait (claim true s)
        else if f.src then
          match got with
          | .tile t discard =>
            let (rows, s) := (claim false s).takeRows w x f sc t discard (Found.upset i.found)
            .sent (s.tileStart w h.pc f sc 0 (h.tile f.td).state.code rows (some discard))
          | _ => .wait (claim true s)
        else .sent (s.tileStart w h.pc f sc 0 (h.tile f.td).state.code [] Option.none)) s

/-- TLD, R87. -/
def execTld (i : Iss) (f : TileF) (s : State) : Host.Outcome State Fault Refusal := tileLoad i f false s

/-- TLD_SC, R86. -/
def execTldSc (i : Iss) (f : TileF) (s : State) : Host.Outcome State Fault Refusal := tileLoad i f true s

/-! ### Tile stores -/

/-- Checks every row of a store before any is written (R89): the pieces with their bytes, or what stops it. -/
inductive StoreAsk where
  | go (ps : List (Loc × Option Nat × List (Option Byte)))
  | bad (t : Trap)
  | miss (page : Nat) (a : Word)

def State.askStore (s : State) (w : Who) (g : Bool) (row : Word) :
    List (Word × List (Option Byte)) → List (Loc × Option Nat × List (Option Byte)) → StoreAsk
  | [], acc => .go acc
  | (a, bs) :: ps, acc =>
    match s.place w g .write false a bs.length with
    | .bad t => .bad { t with tval := if g then a else row }
    | .miss page => .miss page a
    | .at_ l page => State.askStore s w g row ps (acc ++ [(l, page, bs)])

/-- Splits the bytes of an access among its pieces. -/
def splitBytes : List (Word × Nat) → List (Option Byte) → List (Word × List (Option Byte))
  | [], _ => []
  | (a, n) :: ps, bs => (a, bs.take n) :: splitBytes ps (bs.drop n)

/-- The pieces of a store, with their bytes. -/
def storePieces (g : Bool) (a : Word) (bs : List (Option Byte)) : List (Word × List (Option Byte)) :=
  splitBytes (if g then pagePieces a bs.length else [(a, bs.length)]) bs

/-- Performs the pieces of a checked tile store in order, past the data cache (R87). -/
def State.storeAll (s : State) (w : Who) (ps : List (Loc × Option Nat × List (Option Byte))) : State :=
  ps.foldl (fun s p => s.storePast w p.1 p.2.1 p.2.2) s

/-- Checks the rows of a tile store in order, lowest fault first. -/
def State.askStores (s : State) (w : Who) (g : Bool) :
    List (Word × List (Option Byte)) → List (Loc × Option Nat × List (Option Byte)) → StoreAsk
  | [], acc => .go acc
  | (a, bs) :: rows, acc =>
    match s.askStore w g a (storePieces g a bs) acc with
    | .go acc => State.askStores s w g rows acc
    | r => r

/-- A tst or tst.sc (R80, R86, R89, R99); causes in the order of R57. -/
def tileStore (i : Iss) (f : TileF) (sc : Bool) (s : State) : Host.Outcome State Fault Refusal :=
  issue i 0x3B true { mem := true, residue := true, file := true } (fun s =>
    let w := i.who
    let h := s.thread w
    if f.src ∨ tileIllegal f then .trap s (illegal 0x3B)
    else
      match s.watchRows w f sc false true with
      | some (k, act) => matched s (4 + k) act
      | Option.none =>
        match tileShape f sc false with
        | some d => .trap s (shapeFault d)
        | Option.none =>
          let x := h.tile f.td
          if x.state = .empty ∨ x.state = .partial_ then .trap s { code := 0x09, detail := BitVec.ofNat 16 f.td.toNat }
          else if tileSkew h f sc then .trap s (misaligned 8 (h.reg f.rb))
          else
            let rows := (x.rowBytes sc (tileRowBytes f sc) (f.rows.toNat + 1)).zipIdx.map (fun p => (tileRowAddr h f p.2, p.1.map some))
            match s.askStores w f.g rows [] with
            | .bad t => .trap s t
            | .miss page a => .wait (s.missHold w { page, write := true, long := true, tval := a })
            | .go ps => .done (s.storeAll w ps)) s

/-- TST, R89. -/
def execTst (i : Iss) (f : TileF) (s : State) : Host.Outcome State Fault Refusal := tileStore i f false s

/-- TST_SC, R89. -/
def execTstSc (i : Iss) (f : TileF) (s : State) : Host.Outcome State Fault Refusal := tileStore i f true s

/-- TREL, R90: the tile becomes EMPTY and zero (R79); a pending load of it is dropped. -/
def execTrel (i : Iss) (td : BitVec 3) (s : State) : Host.Outcome State Fault Refusal :=
  issue i 0x3B true { reads := false } (fun s =>
    if s.tileRead i.who td then .wait s
    else
      let v := s.nextSeq
      .done ((s.bumpSeq.opcDrop i.who td).modThread i.who (fun h =>
        let h := h.setTile td { version := v }
        if h.tldPend ∧ h.cursor.tile = td then { h with tldPend := false, cursor := {} } else h))) s

/-- Clears a pending tile load and leaves its tile PARTIAL (R96). -/
def Thread.dropTld (h : Thread) : Thread := { h with tldPend := false, cursor := {} }

/-- TLD_DROP, R96. -/
def execTldDrop (i : Iss) (s : State) : Host.Outcome State Fault Refusal :=
  issue i 0x3B true { reads := false } (fun s => .done (s.modThread i.who Thread.dropTld)) s

/-! ### tret (R55, R93) -/

/-- Reads a doubleword as a tile load: its fields and whether it is a tld.sc; none if it is anything else (R85). -/
def tileLoadOf (w : Who) (x : BitVec 64) : Option (TileF × Bool) :=
  match Sys2Proof.decodeInsn w x with
  | .tld i f => if i.rsv.isSome || tileIllegal f then Option.none else some (f, false)
  | .tldSc i f => if i.rsv.isSome || tileIllegal f then Option.none else some (f, true)
  | _ => Option.none

/-- A new trap of a resumed load, which leaves THR_EPC as it is (R93). -/
def trapAtEpc (s : State) (w : Who) (long : Bool) (t : Trap) : Res :=
  .gone ((s.takeTrap w (s.thread w).epc long t).stepEnd w)

/-- What the fetch of the pending tld finds. -/
def Upset.found (u : Upset) : Found :=
  match u with
  | .none => .clean
  | .corrected => .fetchCorrected
  | .uncorrectable => .fetchUncorrectable

/-- TRET, R55. What it finds at THR_EPC matters only while TLD_PEND is 1 (R93). -/
def execTret (i : Iss) (found : Refetch) (s : State) : Host.Outcome State Fault Refusal :=
  issue i 0x26 false { reads := false } (fun s0 =>
    let w := i.who
    let h := s0.thread w
    if ¬ h.tldPend then .jump (s0.modThread w Thread.trapReturn) h.epc
    else if s0.mmQueued w ∨ h.memHold ≠ .none then .wait s0
    else
      let long := decide (found.word.extractLsb' 29 3 = 7)
      let s := (s0.countRetired w).modThread w Thread.trapReturn
      match s.fetchCheck w long (Upset.found found.upset) with
      | .stop (.trap s t) l => trapAtEpc s w l t
      | .stop (.wait s) _ =>
        (match (s.thread w).hold with
         | .xlate x => .wait (s0.missHold w x)
         | _ => .wait s0)
      | .stop (.halt r) _ => .gone (s.haltThread w r)
      | .stop _ _ => .wait s0
      | .ok s =>
        match tileLoadOf w found.word with
        | Option.none => trapAtEpc s w long (shapeFault 6)
        | some (f, sc) =>
          let c := h.cursor
          if sc ≠ c.sc ∨ f.td ≠ c.tile ∨ f.src ≠ c.src ∨ f.strm ≠ c.strm then trapAtEpc s w long (shapeFault 6)
          else
            match tileShape f sc false with
            | some d => trapAtEpc s w true (shapeFault d)
            | Option.none =>
              if tileSkew h f sc then
                trapAtEpc s w true (misaligned 8 (h.reg f.rb))
              else
                let s := s.tileStart w h.epc f sc c.row.toNat c.prior [] (if f.src then some false else Option.none)
                .gone (s.retire (s.thread w).loads.length w)) s

/-- A row of a tile load returns (R92, R186): its bytes, or what ECC found. -/
def State.rowReturn (s : State) (f : RFlight) (u : Upset) : State :=
  let (t, s) := s.sense f.who.core f.loc f.len u f.addr
  match t with
  | some t => s.deliver f.who f.seq (.fault t Option.none)
  | Option.none => s.deliver f.who f.seq (.data (s.readLoc f.loc f.len))

/-- Whether a read belongs to a tile load of its thread. -/
def State.tileReadSeq (s : State) (f : RFlight) : Bool :=
  (s.thread f.who).loads.any (fun op =>
    (match op.kind with | .tile _ _ _ _ _ => true | _ => false) && op.parts.contains (.wait f.seq))

/-- A return of a row that a Loft slice has read, or of any other memory of this module. -/
def State.returnRow (s : State) (f : RFlight) (u : Upset) : State :=
  match f.loc, f.got with
  | .remote _ _, _ => s
  | .loft _ _, .no => s
  | .loft _ _, got =>
    if u = .uncorrectable then
      let (t, s) := s.sense f.who.core f.loc f.len u f.addr
      s.deliver f.who f.seq (.fault (t.getD {code := 0x0A, detail := 2, tval := f.addr}) Option.none)
    else
      match got with
      | .trap t => s.deliver f.who f.seq (.fault { t with tval := f.addr } Option.none)
      | .bytes b => s.deliver f.who f.seq (.data b)
      | .no => s
  | _, _ => if s.readReady f then s.rowReturn f u else s

/-- TLD_ROW_RETURN, R92. -/
def execTldRowReturn (seq : Nat) (u : Upset) (s : State) : Host.Outcome State Fault Refusal :=
  match s.reads.find? (fun f => f.seq = seq) with
  | some f => .next (if s.tileReadSeq f then s.returnRow f u else s)
  | Option.none => .next s

end Sys2Proof.Machine
end

