-- ==== Sys2Proof/Machine/Xlate.lean ====
section
/-! DEFINITION. Translation of tiered space: the page table, walks, their outcomes, invalidation, and the walks of the engines (R250 to
R264). -/

namespace Sys2Proof.Machine

/-! ### The page table (R251, R252) -/

/-- XL_PT_ROOT. -/
def State.ptRoot (s : State) : Word := BitVec.ofNat 64 (s.effective 0x2300 0)

def State.readLoftWord (s : State) (d : DieIx) (off : Nat) : Word := BitVec.ofNat 64 (leNat (readMem (s.die d).loft off 8))

/-- The level-1 entry of a page, from the walker's cache of die `wd` or from the Loft. -/
def State.level1 (s : State) (wd : DieIx) (page : Nat) : Word :=
  match (s.die wd).walkL1.find? (fun e => e.1 = page / 16384) with
  | some e => e.2
  | Option.none =>
    let r := s.ptRoot
    s.readLoftWord (r.extractLsb' 31 2) ((r.extractLsb' 16 15).toNat * 65536 + 8 * (page / 16384))

/-- A level-1 entry with V = 1 and a reserved bit set. -/
def level1Bad (e : Word) : Bool := decide (e.extractLsb' 33 30 ≠ 0 ∨ e.extractLsb' 0 17 ≠ 0)

/-- Die and Loft offset of the level-2 entry of a page under a level-1 entry. -/
def level2At (e : Word) (page : Nat) : DieIx × Nat :=
  (e.extractLsb' 31 2, (e.extractLsb' 17 14).toNat * 131072 + 8 * (page % 16384))

/-- Whether a FRAME lies in the HBM range, or in the DDR range. -/
def frameHbm (f : Nat) : Bool := decide (f < hbmSize / pageSize)
def frameDdr (f : Nat) : Bool := decide (ddrBase / pageSize ≤ f ∧ f < ddrBase / pageSize + 0x80000)

/-- A level-2 entry that is malformed (R252). -/
def level2Bad (e : Word) : Bool :=
  let policy := (e.extractLsb' 61 2).toNat
  let space := (e.extractLsb' 40 2).toNat
  let f := (e.extractLsb' 0 27).toNat
  if e.extractLsb' 27 13 ≠ 0 ∨ policy = 3 then true
  else if space = 2 then decide (policy ≠ 0 ∨ 1024 ≤ f)
  else if space = 3 then decide (policy ≠ 0 ∨ bitsN f 26 19 ≠ 0 ∨ 3 < bitsN f 10 0)
  else if policy = 0 then !(frameHbm f)
  else if policy = 1 then !(frameDdr f)
  else !(frameHbm f || frameDdr f)

/-- The outcomes of a translation in the order they are tested (R258). `absent` carries the KIND of THR_XLF. -/
inductive Walk where
  | absent (kind : Nat)
  | malformed
  | denied
  | claim
  | busy
  | mapped (e : Word)
  | poisoned
  deriving DecidableEq, Repr

/-- What a walk by the walker of die `wd` found: outcome, level-2 entry as read, and the place of that entry. -/
def State.walk (s : State) (wd : DieIx) (page : Nat) (k : Access) : Walk × Option Word × DieIx × Nat :=
  if !(s.ptRoot.getLsbD 63) then (.absent 0, Option.none, 0, 0)
  else
    let e1 := s.level1 wd page
    if !(e1.getLsbD 63) then (.absent 0, Option.none, 0, 0)
    else
      let (d, off) := level2At e1 page
      let e := s.readLoftWord d off
      if s.poisoned (.loft d off) 8 then (.poisoned, Option.none, d, off)
      else if !(e.getLsbD 63) then (.absent 1, some e, d, off)
      else if level1Bad e1 || level2Bad e then (.malformed, some e, d, off)
      else if !(pteAllows e k) then (.denied, some e, d, off)
      else if e.extractLsb' 61 2 = 2 then ((if e.getLsbD 57 then .busy else .claim), some e, d, off)
      else (.mapped e, some e, d, off)

/-- Keeps a present level-1 entry in the walker's cache of 64; the replaced one is a free choice (log 5). -/
def State.keepLevel1 (s : State) (wd : DieIx) (page : Nat) : State :=
  let e1 := s.level1 wd page
  let l := (s.die wd).walkL1
  if !(s.ptRoot.getLsbD 63) || !(e1.getLsbD 63) || level1Bad e1 || l.any (fun e => e.1 = page / 16384) then s
  else if l.length < 64 then s.modDie wd (fun x => { x with walkL1 := x.walkL1 ++ [(page / 16384, e1)] })
  else
    let (k, s) := s.freeNat
    s.modDie wd (fun x => { x with walkL1 := x.walkL1.eraseIdx (k % 64) ++ [(page / 16384, e1)] })

/-- Sets a bit of a level-2 entry at its slice, as the walker's atomic does (R253): ACC is bit 56, BUSY bit 57. DESIGN CHOICE (log 56): ACC is set as
the walk reads the entry, also where an invalidation then keeps it from being installed. -/
def State.setPteBit (s : State) (d : DieIx) (off bit : Nat) : State :=
  let e := (s.readLoftWord d off).toNat
  let e' := if e / 2 ^ bit % 2 = 1 then e else e + 2 ^ bit
  s.perform (.loft d off) ((toBytes e' 8).map some)

/-- Installs a translation in the team's cache: 256 sets of four, the replaced way a free choice (R253, log 5). -/
def State.xlInstall (s : State) (t : BitVec 8) (page : Nat) (e : Word) : State :=
  let l := (s.team t).xl.filter (fun x => x.1 ≠ page)
  let set := l.filter (fun x => x.1 % 256 = page % 256)
  if set.length < 4 then s.modTeam t (fun x => { x with xl := l ++ [(page, e)] })
  else
    let (k, s) := s.freeNat
    let out := (set.getD (k % 4) (page, e)).1
    s.modTeam t (fun x => { x with xl := l.filter (fun x => x.1 ≠ out) ++ [(page, e)] })

/-! ### Walks of threads (R253, R258 to R262) -/

def Xlate.access (x : Xlate) : Access :=
  if x.fetch then .fetch else if x.atomic then .atomic else if x.write then .write else .read

/-- The outcome of a walk from the entries it recorded. -/
def walkOutcome (k : Access) (e1 e2 : Option Word) : Walk :=
  match e1 with
  | Option.none => .absent 0
  | some e1 =>
    if !(e1.getLsbD 63) then .absent 0
    else
      match e2 with
      | Option.none => .poisoned
      | some e =>
        if !(e.getLsbD 63) then .absent 1
        else if level1Bad e1 || level2Bad e then .malformed
        else if !(pteAllows e k) then .denied
        else if e.extractLsb' 61 2 = 2 then (if e.getLsbD 57 then .busy else .claim)
        else .mapped e

/-- Whether the access is past everything of its thread that may still trap (R52): only then may it trap, or take a claim. A tile row's fault waits
its turn among the loads. -/
def State.trapReady (s : State) (w : Who) (x : Xlate) : Bool :=
  (x.tileRow.isSome || (!(s.mmQueued w) && decide ((s.thread w).memHold = .none) && (s.thread w).loads.isEmpty))

/-- Whether a claim may be taken for a waiting access: nothing older of its thread, beside the rows of the tile load it belongs to, may still trap. -/
def State.claimReady (s : State) (w : Who) : Bool :=
  !(s.mmQueued w) && decide ((s.thread w).memHold = .none ∧ (s.thread w).loads.length ≤ 1)

/-- The walk in flight that a miss of the same page joins: of any thread of the die (R254). -/
def State.walkInFlight (s : State) (wd : DieIx) (page : Nat) : Option (Option Word × Option Word × DieIx × Nat) :=
  ((s.listedCores.filter (fun c => coreDie c = wd)).flatMap whos).findSome? (fun v =>
    match (s.thread v).hold with
    | .xlate y => if y.page = page ∧ ¬ y.busy ∧ ¬ y.stale then y.walked else Option.none
    | _ => Option.none)

/-- What the walker's atomic does to the level-2 entry for an outcome (R253): ACC, or the claim. -/
def State.walkMark (s : State) (r : Walk) (d : DieIx) (off : Nat) : State :=
  match r with
  | .mapped e => if e.getLsbD 57 then s else s.setPteBit d off 56
  | .claim => s.setPteBit d off 57
  | _ => s

/-- The walker reads the entries for a waiting access, and in the same atomic sets ACC or takes the claim (R253, R258). A miss of a page whose walk is in
flight is served by that walk, unless it is to take a claim of its own (R254). -/
def State.startWalk (s : State) (w : Who) (x : Xlate) : State :=
  let wd := coreDie w.core
  let go (s : State) (k : Option Word × Option Word × DieIx × Nat) : State :=
    s.modThread w (fun h => { h with hold := .xlate { x with walked := some k, busy := false, stale := false } })
  let shared := match s.walkInFlight wd x.page with
    | some k => if walkOutcome x.access k.1 k.2.1 = Walk.claim then Option.none else some k
    | Option.none => Option.none
  match shared with
  | some k => go (s.walkMark (walkOutcome x.access k.1 k.2.1) k.2.2.1 k.2.2.2) k
  | Option.none =>
    let (r, e, d, off) := s.walk wd x.page x.access
    if r = Walk.claim ∧ ¬ s.claimReady w then s
    else
      let e1 := if s.ptRoot.getLsbD 63 then some (s.level1 wd x.page) else Option.none
      go ((((s.keepLevel1 wd x.page).countDie wd 0x600 1).walkMark r d off)) (e1, e, d, off)

/-- TRANSLATION_WALK, R253. -/
def execTranslationWalk (w : Who) (s : State) : Host.Outcome State Fault Refusal :=
  match (s.thread w).hold with
  | .xlate x => .next (if x.walked.isNone then s.startWalk w x else s)
  | _ => .next s

/-- THR_XLF (R259). -/
def xlfWord (kind : Nat) (d : DieIx) (off : Nat) : Word :=
  if kind = 0 then 0 else packW [(kind, 62), (d.toNat, 32), (off, 0)]

/-- Records a walk in THR_XLF and THR_XPTE before trap 0x06 (R259). -/
def Thread.recordWalk (h : Thread) (kind : Nat) (e : Option Word) (d : DieIx) (off : Nat) : Thread :=
  { h with xlf := xlfWord kind d off, xpte := e.getD 0 }

/-- Ends the wait of an access with a trap (R52, R92): a tile row is that load's fault; any other instruction traps once the thread's older
matrix work, sync.e and fence are done. -/
def State.xlTrap (s : State) (w : Who) (x : Xlate) (t : Trap) : State :=
  let t := { t with tval := x.tval }
  match x.tileRow with
  | some _ => (s.modThread w (fun h => { h with hold := .none })).tileFault w t
  | Option.none => (s.takeTrap w (s.thread w).pc x.long t).stepEnd w

/-- Trap 0x06 with its record. -/
def State.xlFault (s : State) (w : Who) (x : Xlate) (kind : Nat) (e : Option Word) (d : DieIx) (off : Nat) : State :=
  (s.modThread w (fun h => h.recordWalk kind e d off)).xlTrap w x { code := 0x06 }

/-- A walk returns to its access (R258). A translation that met an invalidation, or whose entry is BUSY, is delivered for this access and not
installed (R253, R254). -/
def State.walkDone (s : State) (w : Who) (x : Xlate) : State :=
  match x.walked with
  | Option.none => s
  | some (e1, e, d, off) =>
    match walkOutcome x.access e1 e with
    | .mapped p =>
      let keep := !x.stale && !(p.getLsbD 57)
      let s := if keep then s.xlInstall (coreTeam w.core) x.page p else s
      let s := s.modThread w (fun h => { h with hold := .none, given := if keep then Option.none else some (x.page, p) })
      (match x.tileRow with
       | some (f, sc, r, prior) => (s.tileContinue w f sc r prior).modThread w (fun h => { h with given := Option.none })
       | Option.none => s)
    | .busy => s.modThread w (fun h => { h with hold := .xlate { x with busy := true } })
    | r =>
      if !(s.trapReady w x) then s
      else
        match r with
        | .absent k => s.xlFault w x k e d off
        | .claim => s.xlFault w x 2 e d off
        | .denied => s.xlTrap w x { code := 0x07, detail := 2 }
        | .poisoned => s.xlTrap w x { code := 0x0A, detail := 5 }
        | _ => s.xlTrap w x { code := 0x07, detail := 1 }

/-- WALK_COMPLETE, R258. -/
def execWalkComplete (w : Who) (s : State) : Host.Outcome State Fault Refusal :=
  match (s.thread w).hold with
  | .xlate x => .next (if x.busy then s else s.walkDone w x)
  | _ => .next s

/-- A waiting access is sent to walk again (R260). -/
def Xlate.again (x : Xlate) : Xlate := { x with walked := Option.none, busy := false, stale := false }

/-- BUSY_REWALK, R260. -/
def execBusyRewalk (w : Who) (s : State) : Host.Outcome State Fault Refusal :=
  match (s.thread w).hold with
  | .xlate x => .next (if x.busy then s.modThread w (fun h => { h with hold := .xlate x.again }) else s)
  | _ => .next s

/-- BUSY_LIMIT, R260: trap 0x06 with KIND 3. -/
def execBusyLimit (w : Who) (s : State) : Host.Outcome State Fault Refusal :=
  match (s.thread w).hold with
  | .xlate x =>
    (match x.walked with
     | some (_, e, d, off) => .next (if x.busy && s.trapReady w x then s.xlFault w x 3 e d off else s)
     | Option.none => .next s)
  | _ => .next s

/-! ### Invalidation (R254 to R257) -/

/-- Whether an XL_INV word names a page. -/
def invNames (val : Word) (page : Nat) : Bool := val.getLsbD 62 || decide (page = (val.extractLsb' 21 27).toNat)

/-- Whether a team lies in the scope of an XL_INV through core `c`. -/
def invScope (val : Word) (c : CoreIx) (t : BitVec 8) : Bool := val.getLsbD 63 || decide (t = coreTeam c)

/-- Drops the translations an XL_INV names, in its scope, and the level-1 entries the walkers hold where the scope is the module. -/
def State.invDrop (s : State) (c : CoreIx) (val : Word) : State :=
  let ts := Sparse.mapVals {} (fun t (x : Team) =>
    if invScope val c (BitVec.ofNat 8 t) then { x with xl := x.xl.filter (fun e => !(invNames val e.1)) } else x) s.teams
  let s := { s with teams := ts }
  if val.getLsbD 63 then
    let ds := Sparse.mapVals {} (fun _ (x : Die) =>
      { x with walkL1 := x.walkL1.filter (fun e => !(val.getLsbD 62 || decide (e.1 = (val.extractLsb' 35 13).toNat))) }) s.dies
    { s with dies := ds }
  else s

/-- Changes the waiting accesses of the threads in the scope of an invalidation whose page it names. -/
def State.invWaits (s : State) (c : CoreIx) (val : Word) (f : Xlate → Xlate) (given : Bool) : State :=
  let one (h : Thread) : Thread :=
    let h := match h.hold with
      | .xlate y => if invNames val y.page then { h with hold := .xlate (f y) } else h
      | _ => h
    match h.given with
    | some (p, _) => if given ∧ invNames val p then { h with given := Option.none } else h
    | Option.none => h
  { s with cores := Sparse.mapVals {} (fun k x =>
      if invScope val c (coreTeam (BitVec.ofNat 10 k)) then { x with threads := Sparse.mapVals {} (fun _ h => one h) x.threads } else x) s.cores }

/-- Every access waiting for a page in scope is sent to walk again (R256). -/
def State.invRewalk (s : State) (c : CoreIx) (val : Word) : State := s.invWaits c val Xlate.again true

/-- A walk in flight as the invalidation of its page reaches it: it delivers its translation and installs nothing (R254). -/
def Xlate.meet (x : Xlate) : Xlate := if x.walked.isSome ∧ ¬ x.busy then { x with stale := true } else x

/-- Whether an access that used an old entry in scope is still under way (R256). -/
def State.invBusy (s : State) (c : CoreIx) (val : Word) : Bool :=
  let hit (t : BitVec 8) (p : Option Nat) : Bool :=
    match p with | some p => invScope val c t && invNames val p | Option.none => false
  s.writes.any (fun x => hit (match x.source with | .port c => coreTeam c | .dma t => t | _ => coreTeam c) x.page) ||
    s.reads.any (fun x => decide (x.got = .no) && hit (coreTeam x.who.core) x.page)

/-- A write of XL_INV (R255, R256): discarded with ERR while one through this core is under way. -/
def State.xlInvWrite (s : State) (c : CoreIx) (val : Word) : State :=
  if (s.core c).xlInv.isSome then s.modCore c (fun x => { x with xlErr := true })
  else ((s.invDrop c val).invWaits c val Xlate.meet false).modCore c (fun x => { x with xlInv := some val })

/-- XL_INV_TEAM, R255. -/
def execXlInvTeam (_v : Via) (c : CoreIx) (val : Word) (s : State) : Host.Outcome State Fault Refusal :=
  .next (s.xlInvWrite c (BitVec.ofNat 64 (val.toNat % 2 ^ 63)))

/-- XL_INV_MODULE, R255. -/
def execXlInvModule (_v : Via) (c : CoreIx) (val : Word) (s : State) : Host.Outcome State Fault Refusal :=
  .next (s.xlInvWrite c (val ||| 0x8000000000000000))

/-- XL_INV_COMPLETE, R256. -/
def execXlInvComplete (c : CoreIx) (s : State) : Host.Outcome State Fault Refusal :=
  match (s.core c).xlInv with
  | Option.none => .next s
  | some val =>
    if s.invBusy c val then .next s
    else .next (((s.invDrop c val).invRewalk c val).modCore c (fun x => { x with xlInv := Option.none }))

/-- The module-scope invalidation a write of XL_PT_ROOT performs (R251). -/
def State.xlInvAll (s : State) : State :=
  let val : Word := 0xC000000000000000
  (s.invDrop 0 val).invRewalk 0 val

/-! ### Walks of the engines (R209, R216, R224, R231, R258) -/

/-- Where an engine's access goes, or what stops it. -/
inductive EPlace where
  | at_ (l : Loc) (page : Option Nat)
  | absent
  | migrate
  | violation
  | poisoned
  deriving DecidableEq, Repr

/-- Resolves an engine's access; a miss of the team's cache walks at once. BUSY is never touched (R258). -/
def State.engineResolve (s : State) (c : CoreIx) (k : Access) (a : Word) (size : Nat) : EPlace × State :=
  match s.resolve c k false a size with
  | .at_ l p => (.at_ l p, s)
  | .bad _ => (.violation, s)
  | .miss page =>
    let wd := coreDie c
    let (r, _, d, off) := s.walk wd page k
    let s := ((s.countTeam (coreTeam c) 0x410 1).keepLevel1 wd page).countDie wd 0x600 1
    match r with
    | .mapped e =>
      let s := if e.getLsbD 57 then s else (s.setPteBit d off 56).xlInstall (coreTeam c) page e
      (match s.ptePlace e (a.toNat % pageSize) size a with
       | .inl _ => (.violation, s)
       | .inr l => (.at_ l (some page), s))
    | .absent _ => (.absent, s)
    | .claim => (.migrate, s)
    | .busy => (.migrate, s)
    | .poisoned => (.poisoned, s)
    | _ => (.violation, s)

end Sys2Proof.Machine
end

