-- ==== Sys2Proof/Machine/Matrix.lean ====
section
/-! DEFINITION. The matrix unit: shapes, steps, the queue, checkpoints, the acc instructions, retry, ACC_SPLIT and ACC_CHKSTAT (R98 to
R133, R150 to R159). -/

namespace Sys2Proof.Machine

/-! ### Shape (R99) -/

/-- The lowest shape fault of an mm. -/
def matShape (func : BitVec 2) (f : MatF) : Option Nat :=
  match fmtInfo f.fmta, fmtInfo f.fmtb with
  | some a, some b =>
    let k := (f.kf.toNat + 1) * a.unit
    let m := f.mf.toNat + 1
    if (func = 0 ∧ (f.fmta = 7 ∨ f.fmtb = 7)) ∨ (func ≠ 0 ∧ (f.fmta ≠ 7 ∨ f.fmtb ≠ 7)) ∨ (f.tra ∧ (a.scaled ∨ b.scaled)) ∨
        (f.scs ∧ ¬ (a.scaled ∧ b.scaled)) then some 1
    else if f.fmta ≠ f.fmtb then some 2
    else if 64 < k * b.width / 8 ∨ (if f.tra then decide (32 < k ∨ 64 < m * a.width / 8) else decide (64 < k * a.width / 8)) then some 3
    else if a.scaled ∧ k % 32 ≠ 0 then some 4
    else Option.none
  | _, _ => some 1

/-! ### Terms of a step (R117, R118, R125 to R132) -/

/-- The terms of a step without its accumulator term: products that are no 0 × Inf, whether one is, the exact products the check adds, and
flags. -/
structure Terms where
  terms   : List Num := []
  zeroInf : Bool := false
  prods   : List Num := []
  flags   : BitVec 9 := 0
  deriving DecidableEq, Repr

def Num.special : Num → Bool
  | .fin _ _ _ => false
  | _ => true

def Num.isNan : Num → Bool
  | .nan => true
  | _ => false

def Num.isZero : Num → Bool
  | .fin _ 0 _ => true
  | _ => false

def Num.negative : Num → Bool
  | .nan => false
  | .inf n => n
  | .fin n _ _ => n

/-- Exponent of the leading bit of a nonzero finite number. -/
def Num.lead : Num → Option Int
  | .fin _ m e => if m = 0 then Option.none else some (leadExp m e)
  | _ => Option.none

/-- The largest leading exponent of a list of numbers. -/
def maxLead (xs : List Num) : Option Int :=
  xs.foldl (fun a x => match a, x.lead with
    | Option.none, y => y
    | y, Option.none => y
    | some p, some q => some (max p q)) Option.none

/-- Products of pairs, without block tests. -/
def plainTerms (ps : List (Num × Num)) (s : Int) : Terms :=
  let zi (p : Num × Num) : Bool := !p.1.isNan && !p.2.isNan && (p.1.mul p.2).isNan
  let ts := (ps.filter (fun p => !(zi p))).map (fun p => (p.1.mul p.2).scaleDown (-s))
  { terms := ts, zeroInf := ps.any zi, prods := ts.filter (fun t => !t.special) }

/-- The terms of one scaled block (R125 to R128). -/
def blockTerms (sa sb : Nat) (ps : List (Num × Num)) : Terms :=
  match ofScale sa, ofScale sb with
  | some a, some b =>
    let s := a + b
    if ps.any (fun p => p.1.special || p.2.special) then plainTerms ps s
    else
      let raw := ps.map (fun p => p.1.mul p.2)
      match maxLead raw with
      | Option.none => {}
      | some e =>
        if 128 ≤ e + s then
          { terms := [.inf (raw.foldl Num.add (.fin false 0 0)).negative], flags := fpScaleOvf }
        else if e + s ≤ -127 then { flags := fpScaleUfl }
        else plainTerms ps s
  | _, _ => { terms := [.nan], flags := fpScaleNan }

/-- What a step writes: its word, flags, whether a rule of R122 decided it, n and w of R124, and the exact sum. -/
structure StepOut where
  y       : F32
  flags   : BitVec 9
  special : Bool
  n       : Nat
  w       : Option Int
  exact   : Num
  deriving DecidableEq, Repr

/-- Aligns a term to the window that ends at 2^lo, truncating toward −∞ (R119). -/
def windowed (lo : Int) : Num → Int
  | .fin neg m e =>
    if lo ≤ e then alignTo neg m e lo
    else
      let v : Int := if neg then -(m : Int) else m
      v / (2 ^ (lo - e).toNat : Int)
  | _ => 0

/-- One step of one element (R119 to R122). -/
def evalStep (t : Terms) (acc : Option Num) : StepOut :=
  let all := t.terms ++ acc.toList
  let bad (y : F32) (f : BitVec 9) : StepOut := { y := y, flags := f, special := true, n := 0, w := Option.none, exact := .nan }
  if all.any Num.isNan then bad nanF32 0
  else if t.zeroInf then bad nanF32 fpInv
  else
    let pos := all.any (fun x => x.special && !x.negative)
    let neg := all.any (fun x => x.special && x.negative)
    if pos ∧ neg then bad nanF32 fpInv
    else if pos then bad 0x7F800000 0
    else if neg then bad 0xFF800000 0
    else
      let n := all.length - 1
      match maxLead all with
      | Option.none =>
        let z := !all.isEmpty && all.all Num.negative
        { y := if z then 0x80000000 else 0, flags := 0, special := false, n := n, w := Option.none, exact := .fin false 0 0 }
      | some w =>
        let lo := w - 27
        let sum := (all.map (windowed lo)).foldl (· + ·) 0
        let r := toF32 (numOfInt sum lo false)
        { y := r.1, flags := r.2, special := false, n := n, w := some w, exact := all.foldl Num.add (.fin false 0 0) }

/-! ### Operands (R83, R84, R130) -/

/-- Element `k` of row `r` of a tile at a width. -/
def TileImage.elem (x : TileImage) (width r k : Nat) : Nat :=
  (Sparse.get (0 : BitVec 512) x.rows r).toNat / 2 ^ (k * width) % 2 ^ width

/-- Scale byte `b` of row `r`. -/
def TileImage.scale (x : TileImage) (r b : Nat) : Nat := (Sparse.get (0 : BitVec 32) x.side r).toNat / 256 ^ b % 256

/-- The BF16 pieces hi, mid and lo of an FP32 element; each below 2^−126 is a zero of its sign (R130). -/
def pieces (x : F32) : List Num :=
  match (ofF32 x).1 with
  | .fin neg m e =>
    let piece (p : Nat) (e : Int) : Num := if p = 0 ∨ leadExp p e < -126 then .fin neg 0 0 else .fin neg p e
    if m = 0 then [.fin neg 0 0, .fin neg 0 0, .fin neg 0 0]
    else [piece (m / 65536) (e + 16), piece (m / 256 % 256) (e + 8), piece (m % 256) e]
  | y => [y, y, y]

/-- The passes of mm.x2 and mm.x3 as indices of the pieces of A and of B, smallest first (R131). -/
def splitPasses (func : BitVec 2) : List (Nat × Nat) :=
  if func = 1 then [(1, 0), (0, 1), (0, 0)] else [(2, 0), (0, 2), (1, 1), (1, 0), (0, 1), (0, 0)]

/-- The terms of one split pass; a product with a special element is formed in hi·hi only (R132). -/
def passTerms (p : Nat × Nat) (ps : List (F32 × F32)) : Terms :=
  let one (q : F32 × F32) : Option (Num × Num) :=
    let a := pieces q.1
    let b := pieces q.2
    if ((ofF32 q.1).1.special || (ofF32 q.2).1.special) && !(decide (p = (0, 0))) then Option.none
    else some (a.getD p.1 .nan, b.getD p.2 .nan)
  plainTerms (ps.filterMap one) 0

/-- The steps of element (i, j) of an mm (R117, R131). -/
def elementSteps (func : BitVec 2) (f : MatF) (a b : TileImage) (i j : Nat) : List Terms :=
  match fmtInfo f.fmta with
  | Option.none => []
  | some fi =>
    let k := (f.kf.toNat + 1) * fi.unit
    let ea (q : Nat) : Nat := if f.tra then a.elem fi.width q i else a.elem fi.width i q
    let eb (q : Nat) : Nat := b.elem fi.width j q
    if func ≠ 0 then
      let ps := (List.range k).map (fun q => (BitVec.ofNat 32 (ea q), BitVec.ofNat 32 (eb q)))
      let idz := ps.foldl (fun z q => z ||| (ofF32 q.1).2 ||| (ofF32 q.2).2) 0
      (splitPasses func).map (fun p =>
        let t := passTerms p ps
        { t with flags := t.flags ||| idz })
    else
      (List.range ((k + 31) / 32)).map (fun s =>
        let rs := (List.range (min 32 (k - 32 * s))).map (fun q => (ofElem f.fmta (ea (32 * s + q)), ofElem f.fmta (eb (32 * s + q))))
        let idz := rs.foldl (fun z q => z ||| q.1.2 ||| q.2.2) 0
        let ps := rs.map (fun q => (q.1.1, q.2.1))
        let t := if fi.scaled then
            (if f.scs then blockTerms 127 127 ps else blockTerms (a.scale i s) (b.scale j s) ps)
          else plainTerms ps 0
        { t with flags := t.flags ||| idz })

/-! ### An mm on a slot (R101, R117, R147 to R149) -/

/-- Whether an element holds an infinity or a NaN that the check unit never predicted: its own path then goes on without the slot's value, so
that SP stays clear and the element rule finds the fault (R149, log 26). -/
def Slot.unpredicted (x : Slot) (k : Nat) (acc : Num) : Bool := acc.special && !(x.sp.contains k) && !(x.either.contains k)

/-- One step of element (i, j); `flip` is a fault of the adder tree in this step's result. -/
def Slot.step (x : Slot) (i j : Nat) (first ovw : Bool) (t : Terms) (flip : Option (BitVec 5)) : Slot × BitVec 9 :=
  let k := 32 * i + j
  let p := ofF32 (Sparse.get 0 x.el k)
  let fresh := first && ovw
  let x := if fresh then x.overwrite i j else x
  let r := evalStep t (if fresh then Option.none else some p.1)
  let y : F32 := match flip with
    | some b => r.y ^^^ (1 <<< b.toNat)
    | Option.none => r.y
  let x := { x with el := Sparse.put 0 x.el k y }
  let c := if !fresh && x.unpredicted k p.1 then evalStep t Option.none else r
  let x := if c.special then x.predicted k .special
    else (x.checkStep i j t.prods c.n c.w y).predicted k (predict c.exact)
  (x, t.flags ||| r.flags ||| (if fresh then 0 else p.2))

/-- Every step of an element. -/
def Slot.element (x : Slot) (i j : Nat) (ovw : Bool) (flip : Option (BitVec 5)) : List Terms → Bool → Slot × BitVec 9
  | [], _ => (x, 0)
  | t :: ts, first =>
    let r := x.step i j first ovw t (if ts.isEmpty then flip else Option.none)
    let q := Slot.element r.1 i j ovw flip ts false
    (q.1, r.2 ||| q.2)

/-- The fault that strikes an element, if it is the one named. -/
def flipAt (flip : Option Flip) (i j : Nat) : Option (BitVec 5) :=
  match flip with
  | some f => if f.row.toNat = i ∧ f.col.toNat = j then some f.bit else Option.none
  | Option.none => Option.none

/-- An mm on a slot: the slot and the flags its steps set. -/
def Slot.mm (x : Slot) (func : BitVec 2) (f : MatF) (a b : TileImage) (flip : Option Flip) : Slot × BitVec 9 :=
  (List.range (f.mf.toNat + 1)).foldl (fun z i =>
    (List.range (f.nf.toNat + 1)).foldl (fun z j =>
      let r := z.1.element i j f.ovw (flipAt flip i j) (elementSteps func f a b i j) true
      (r.1, z.2 ||| r.2)) z) (x, 0)

/-! ### Issue and the matrix queue (R100, R103) -/

/-- Physical slot of a thread-relative one, if it lies in the thread's share (R106, R108). -/
def State.physSlot (s : State) (w : Who) (acc : BitVec 4) : Option Nat :=
  let sh := slotShare (s.core w.core).mode w.thr
  if acc.toNat < sh.2 then some (sh.1 + acc.toNat) else Option.none

def slotFault (acc : BitVec 4) : Trap := { code := 0x03, detail := acc.zeroExtend 16 }

def Tile.unreadable (x : Tile) : Bool := decide (x.state = .empty ∨ x.state = .partial_)

/-- Puts an mm into the queue. Behind outstanding loads it leaves its mark among them: it runs, and counts as retired, once they have returned (R52). -/
def State.queueMm (s : State) (w : Who) (op : MatOp) : State :=
  let h := s.thread w
  (s.bumpSeq.modCore w.core (fun x => { x with mq := x.mq ++ [op] })).modThread w (fun g =>
    if h.loads.isEmpty then g
    else { g with loads := g.loads ++ [{ pc := h.pc, long := true, kind := .pass op.seq, parts := [] }] })

/-- An mm, mm.x2 or mm.x3 passes M1 into the matrix queue (R99, R100, R103). -/
def mmIssue (i : Iss) (func : BitVec 2) (f : MatF) (s : State) : Host.Outcome State Fault Refusal :=
  issue i 0x3A true { load := true, past := true, tiles := [f.ta, f.tb], file := true } (fun s =>
    let w := i.who
    match matShape func f with
    | some d => .trap s (shapeFault d)
    | Option.none =>
      if (s.physSlot w f.acc).isNone then .trap s (slotFault f.acc)
      else
        let h := s.thread w
        if (h.tile f.ta).unreadable then .trap s { code := 0x09, detail := f.ta.zeroExtend 16 }
        else if (h.tile f.tb).unreadable then .trap s { code := 0x09, detail := f.tb.zeroExtend 16 }
        else if 8 ≤ (s.core w.core).mq.length then .wait s
        else
          let op : MatOp := { seq := s.nextSeq, thr := w.thr, func := func, f := f }
          if h.loads.isEmpty then .done (s.queueMm w op) else .sent (s.queueMm w op)) s

/-- MM, R101. -/
def execMm (i : Iss) (f : MatF) (s : State) : Host.Outcome State Fault Refusal := mmIssue i 0 f s

/-- MM_X2, R131. -/
def execMmX2 (i : Iss) (f : MatF) (s : State) : Host.Outcome State Fault Refusal := mmIssue i 1 f s

/-- MM_X3, R131. -/
def execMmX3 (i : Iss) (f : MatF) (s : State) : Host.Outcome State Fault Refusal := mmIssue i 2 f s

/-- The operand cache of four entries, least recently used first (R81). -/
def State.opcTouch (s : State) (c : CoreIx) (t : ThrIx) (tile : BitVec 3) : State :=
  let l := (s.core c).opc
  if l.contains (t, tile) then
    (s.modCore c (fun x => { x with opc := l.filter (fun e => e ≠ (t, tile)) ++ [(t, tile)] })).countCore c 0x112 1
  else
    (s.modCore c (fun x => { x with opc := (if l.length < 4 then l else l.drop 1) ++ [(t, tile)] })).countCore c 0x113 1

def Tile.contents (x : Tile) : TileImage := { rows := x.rows, side := x.side }

/-- A trap that waited for a thread's older work is taken (R52, R104). -/
def State.takeDue (s : State) (w : Who) : State :=
  match (s.thread w).hold with
  | .due t => if s.olderWork w then s else (s.takeTrap w (s.thread w).pc false t).stepEnd w
  | _ => s

/-- What waited for the queue goes on: faults of loads, a sync.e or fence (R271), a trap that is due, halts. -/
def State.afterMatrix (s : State) (w : Who) : State :=
  let s := (s.settleHold w).retire (s.thread w).loads.length w
  (s.takeDue w).haltIfAsked w

/-- The head of the queue runs on its slot. -/
def State.runHead (s : State) (c : CoreIx) (op : MatOp) (rest : List MatOp) (k : Nat) (flip : Option Flip) : State :=
  let w : Who := ⟨c, op.thr⟩
  let a := (s.thread w).tile op.f.ta
  let b := (s.thread w).tile op.f.tb
  let r := ((s.core c).slot k).mm op.func op.f a.contents b.contents flip
  let e : LogEntry := { f := op.f, func := op.func, thr := op.thr, verA := a.version, verB := b.version, imgA := a.image, imgB := b.image,
                        srcA := a.source, srcB := b.source, sideA := a.sideSource, sideB := b.sideSource }
  let s := (s.opcTouch c op.thr op.f.ta).opcTouch c op.thr op.f.tb
  let s := s.modSlot c k (fun _ => { r.1 with live := true, unchk := true, log := r.1.log ++ [e] })
  let s := s.modCore c (fun x => { x with mq := rest })
  (s.modThread w (fun h => h.fpFlag r.2)).afterMatrix w

/-- MATRIX_QUEUE_ISSUE, R100: held by a retry, by an acc.send that still streams the slot (R113), by a checkpoint that is due (R150), and by older loads of
its thread (R52). -/
def execMatrixQueueIssue (c : CoreIx) (flip : Option Flip) (s : State) : Host.Outcome State Fault Refusal :=
  let x := s.core c
  match x.mq with
  | [] => .next s
  | op :: rest =>
    match s.physSlot ⟨c, op.thr⟩ op.f.acc with
    | Option.none => .next s
    | some k =>
      if x.retry.isSome ∨ (x.slot k).sending ≠ 0 ∨ 64 ≤ (x.slot k).log.length ∨ op.seq ∈ (x.thread op.thr).passed then .next s
      else .next (s.runHead c op rest k flip)

/-! ### Comparisons and flushes (R111, R150 to R152) -/

/-- A comparison is made: exempt lines are counted. -/
def State.countExempt (s : State) (c : CoreIx) (x : Slot) : State := if x.exempts = 0 then s else s.countCore c 0x124 x.exempts

/-- A passing comparison sets a new baseline and clears UNCHK (R146, R152). -/
def State.passSlot (s : State) (c : CoreIx) (k : Nat) (x : Slot) : State := s.modSlot c k (fun _ => { x.baseline with unchk := false })

/-- The four tiles of an acc.send (R350), with the handle's fields; a target that is absent or unreachable drops them with REASON 7 (R584).
A target in another module is asked for credit by a packet of KIND 5. -/
def State.sendTiles (s : State) (w : Who) (k : Nat) (x : Slot) (h : Word) (target : BitVec 22) (ctx : BitVec 4) (epoch : BitVec 16) :
    State :=
  if s.noCore target then
    let s := (s.modThread w (fun t => { t with redRej := true, redReason := 7 })).modSlot w.core k (fun _ => {})
    if !(s.mine target) && s.unreachable (idModule target) then s.lostAccess w (idModule target) else s
  else
    let s := s.modSlot w.core k (fun y => { y with sending := 4 })
    [0, 1, 2, 3].foldl (fun (s : State) (q : Nat) =>
      let n : Contrib := { seq := s.nextSeq, sender := w, target := idCore target,
                           away := if s.mine target then Option.none else some target, from_ := Option.none, ctx := ctx,
                           epoch := epoch, gen := h.extractLsb' 56 8, thinm1 := h.extractLsb' 48 6, block := h.extractLsb' 32 16,
                           rank := h.extractLsb' 16 12, q := BitVec.ofNat 2 q, data := x.tileEls q, sum := x.tileSum q,
                           count := 256 * ((h.extractLsb' 48 6).toNat + 1), credit := false, slot := BitVec.ofNat 4 k,
                           req := if s.mine target then Option.none
                             else some (Sparse.get 0 s.fab.txSeq (streamKey (coreDie w.core) (idModule target))) }
      let s := { s with contribs := s.contribs ++ [n] }.bumpSeq
      if s.mine target then s
      else
        let pk := Packet.base 5 1 (idModule target) s.mod.id (coreDie w.core)
        s.sendReq (coreDie w.core)
          { pk with sid := s.coreId w.core, thr := w.thr, oparg := BitVec.ofNat 16 (n.rank.toNat + 4096 * q),
                    addr := packW [(target.toNat, 0), (ctx.toNat, 24), (epoch.toNat, 32)], aux := h.extractLsb' 32 32 }
          n.seq Option.none) s

/-- The 4 KiB of a slot as acc.spill writes them: rows of 32 FP32 values. -/
def Slot.bytes (x : Slot) : List Byte := (List.range 1024).flatMap (fun k => toBytes (Sparse.get (0 : F32) x.el k).toNat 4)

/-- Row `r` of a slot as a vector register, lane j = column j. -/
def Slot.rowVec (x : Slot) (r : Nat) : Vec := BitVec.ofNat 1024 (packElems 32 ((x.rowEls r).map BitVec.toNat))

/-- The maximum of each row in lane i, with IDZ for the subnormals read (R111, R135). -/
def Slot.rowMax (x : Slot) : Vec × BitVec 9 :=
  let rows := (List.range 32).map (fun i => (x.rowEls i).map ofF32)
  (BitVec.ofNat 1024 (packElems 32 (rows.map (fun r => (toF32 (r.foldl (fun a v => a.max v.1) .nan)).1.toNat))),
    rows.flatten.foldl (fun a v => a ||| v.2) 0)

/-- What a flush or row read does once its slot has passed, or needed no comparison; `x` is the slot as it was compared (R111). -/
def State.flushEffect (s : State) (w : Who) (k : Nat) (x : Slot) (fl : Flush) : State :=
  match fl with
  | .spill rx keep =>
    let off := ((s.thread w).reg rx).toNat
    let s := s.perform (.ls w.core ((s.core w.core).lsBase.toNat * 4096 + off)) (x.bytes.map some)
    if keep then s else s.modSlot w.core k (fun _ => {})
  | .send h target ctx epoch => s.sendTiles w k x h target ctx epoch
  | .chk => s
  | .row vd r => s.modThread w (fun t => t.setVec vd (x.rowVec r.toNat))
  | .rmax vd => s.modThread w (fun t => (t.setVec vd x.rowMax.1).fpFlag x.rowMax.2)
  | .checkpoint => s

/-- Compares a slot: none if it passed, with the state after, or the state in which its retry is due (R150, R154). -/
def State.compareSlot (s : State) (t : ThrIx) (c : CoreIx) (k : Nat) (fl : Flush) : Bool × State :=
  let x := (s.core c).slot k
  let s := s.countExempt c x
  match x.compare with
  | Option.none => (true, (s.countCore c 0x120 1).passSlot c k x)
  | some (line, col) =>
    (false, s.modCore c (fun y => { y with retry := some { thr := t, slot := k, flush := fl, line := line, col := col } }))

/-- Whether an older matrix instruction of the thread on a slot is still queued, or an acc.send still streams it, or the check unit serves a
retry (R103, R113, R150). -/
def State.slotBusy (s : State) (w : Who) (acc : BitVec 4) (k : Nat) : Bool :=
  let x := s.core w.core
  x.mq.any (fun m => decide (m.thr = w.thr ∧ m.f.acc = acc)) || decide ((x.slot k).sending ≠ 0) || x.retry.isSome

/-- A flush or row read of slot `k` of a thread, once its own checks have passed. -/
def flushSlot (s : State) (w : Who) (acc : BitVec 4) (k : Nat) (fl : Flush) (check : Bool) : Res :=
  if s.slotBusy w acc k then .wait s
  else
    let x := (s.core w.core).slot k
    if !check then .done (s.flushEffect w k x fl)
    else
      match s.compareSlot w.thr w.core k fl with
      | (true, s) => .done (s.flushEffect w k x fl)
      | (false, s) => .wait s

/-- CHECKPOINT, R150: the slot of the queue's head is compared because its log is full. -/
def execCheckpoint (c : CoreIx) (s : State) : Host.Outcome State Fault Refusal :=
  let x := s.core c
  match x.mq with
  | [] => .next s
  | op :: _ =>
    match s.physSlot ⟨c, op.thr⟩ op.f.acc with
    | Option.none => .next s
    | some k =>
      if x.retry.isSome ∨ (x.slot k).log.length < 64 then .next s
      else .next ((s.countCore c 0x121 1).compareSlot op.thr c k .checkpoint).2

/-- An acc instruction whose slot lies in the thread's share (R108). -/
def accIssue (i : Iss) (c : Cls) (acc : BitVec 4) (body : State → Nat → Res) (s : State) : Host.Outcome State Fault Refusal :=
  issue i 0x3A true c (fun s =>
    match s.physSlot i.who acc with
    | Option.none => .trap s (slotFault acc)
    | some k => body s k) s

/-- The local-store range of acc.spill and acc.fill (R112): its place or its trap. -/
def State.accRange (s : State) (w : Who) (rx : BitVec 5) : Trap ⊕ Loc :=
  let off := (s.thread w).reg rx
  if off.toNat % 64 ≠ 0 then .inl (misaligned 64 off)
  else
    match s.resolveLs w.core off 4096 with
    | .at_ l _ => .inr l
    | .bad t => .inl t
    | .miss _ => .inl (violation 1 off)

/-- ACC_SPILL, R111. -/
def execAccSpill (i : Iss) (acc : BitVec 4) (rx : BitVec 5) (keep : Bool) (s : State) : Host.Outcome State Fault Refusal :=
  accIssue i { mem := true } acc (fun s k =>
    let w := i.who
    match s.accRange w rx with
    | .inl t => .trap s t
    | .inr _ =>
      match s.watchpoint w false ((s.thread w).reg rx) 4096 false true with
      | some (n, act) => matched s (4 + n) act
      | Option.none => flushSlot s w acc k (.spill rx keep) true) s

/-- The 4 KiB of an acc.fill as elements. -/
def fillEls (bs : List Byte) : Sparse F32 :=
  (List.range 1024).filterMap (fun k =>
    let v := BitVec.ofNat 32 (leNat ((bs.drop (4 * k)).take 4))
    if v = 0 then Option.none else some (k, v))

/-- ACC_FILL, R111. -/
def execAccFill (i : Iss) (acc : BitVec 4) (rx : BitVec 5) (s : State) : Host.Outcome State Fault Refusal :=
  accIssue i { mem := true } acc (fun s k =>
    let w := i.who
    match s.accRange w rx with
    | .inl t => .trap s t
    | .inr l =>
      if s.slotBusy w acc k then .wait s
      else
        match s.watchpoint w false ((s.thread w).reg rx) 4096 true false with
        | some (n, act) => matched s (4 + n) act
        | Option.none =>
          match s.sense w.core l 4096 (Found.upset i.found) ((s.thread w).reg rx) with
          | (some t, s) => .trap s t
          | (Option.none, s) =>
            let y : Slot := { live := true, el := fillEls (s.readLoc l 4096) }
            .done (s.modSlot w.core k (fun _ => y.baseline))) s

/-- A handle's must-be-0 fields (R349). -/
def handleBad (h : Word) : Bool := decide (h.extractLsb' 54 2 ≠ 0 ∨ h.extractLsb' 28 4 ≠ 0)

/-- ACC_SEND, R111. -/
def execAccSend (i : Iss) (acc : BitVec 4) (rx : BitVec 5) (s : State) : Host.Outcome State Fault Refusal :=
  accIssue i { mem := true } acc (fun s k =>
    let w := i.who
    let h := (s.thread w).reg rx
    if handleBad h then .trap s { code := 0x0E, detail := 1 }
    else
      match (s.core w.core).resolve (h.extractLsb' 0 8) (h.extractLsb' 8 8) with
      | Option.none => .trap s { code := 0x0F, detail := h.extractLsb' 0 16 }
      | some (target, ctx, epoch) => flushSlot s w acc k (.send h target ctx epoch) true) s

/-- ACC_CHK, R111. -/
def execAccChk (i : Iss) (acc : BitVec 4) (s : State) : Host.Outcome State Fault Refusal :=
  accIssue i { reads := false } acc (fun s k => flushSlot s i.who acc k .chk true) s

/-- ACC_ROW, R111. -/
def execAccRow (i : Iss) (acc : BitVec 4) (vd : BitVec 5) (row : BitVec 5) (s : State) : Host.Outcome State Fault Refusal :=
  accIssue i { reads := false } acc (fun s k => flushSlot s i.who acc k (.row vd row) ((s.core i.who.core).slot k).unchk) s

/-- ACC_RMAX, R111. -/
def execAccRmax (i : Iss) (acc : BitVec 4) (vd : BitVec 5) (s : State) : Host.Outcome State Fault Refusal :=
  accIssue i { reads := false } acc (fun s k => flushSlot s i.who acc k (.rmax vd) ((s.core i.who.core).slot k).unchk) s

/-! ### Retry (R153 to R159) -/

/-- What a replay finds as it reads an operand again. -/
inductive Reread where
  | ok (x : TileImage)
  | bad
  | wait
  deriving DecidableEq, Repr

/-- Reads one piece again through the core's load path (R154, R156, R197): only a RESIDENT or DIRECT page will do. What ECC finds in the core's own store
does not fence by itself, since the retry it ends does (R157). -/
def State.rereadPiece (s : State) (w : Who) (tag : EngineRead) (a : Word) (n : Nat) (u : Upset) : Option (Option (List Byte)) × State :=
  match s.engineResolve w.core .read a n with
  | (.at_ (.remote m b) page, s) =>
    (match s.engineRead w tag m b n page with
     | (some (.bytes bs), s) => (some (some bs), s)
     | (some _, s) => (some Option.none, s)
     | (Option.none, s) => (Option.none, s))
  | (.at_ l _, s) =>
    if u = .uncorrectable then (some Option.none, s.uncorrectable l n 1 (match l with | .ls c _ => decide (c = w.core) | _ => false))
    else
      let (bs, bad, s) := (if u = .corrected then s.countCorrected l else s).engineBytes l n
      (some (if bad then Option.none else some bs), s)
  | (_, s) => (some Option.none, s)

/-- Reads every row of a source again: the bytes of each row, `none` inside for an unreplayable one, `none` while a read is under way. ECC finds `u` in the
first of them. -/
def State.rereadRows (s : State) (w : Who) (slot entry operand : Nat) (src : TileSource) (u : Upset) :
    Option (Option (List (List Byte))) × State :=
  (List.range src.rows).foldl (fun acc r =>
    (src.rowAt r src.rowBytes).2.zipIdx.foldl (fun (acc : Option (Option (List (List Byte))) × State) p =>
      let (got, s) := acc.2.rereadPiece w (.replay slot entry operand (64 * r + p.2)) p.1.1 p.1.2
        (if r = 0 ∧ p.2 = 0 then u else .none)
      match acc.1, got with
      | some (some rows), some (some bs) =>
        (some (some (if p.2 = 0 then rows ++ [bs] else rows.dropLast ++ [rows.getLastD [] ++ bs])), s)
      | some Option.none, _ => (some Option.none, s)
      | _, some Option.none => (some Option.none, s)
      | _, _ => (Option.none, s)) acc) (some (some []), s)

/-- Puts re-read rows into an image. -/
def TileImage.withRows (x : TileImage) (sc : Bool) (rows : List (List Byte)) : TileImage :=
  rows.zipIdx.foldl (fun x p =>
    if sc then
      let old := toBytes (Sparse.get (0 : BitVec 32) x.side p.2).toNat 4
      { x with side := Sparse.put 0 x.side p.2 (BitVec.ofNat 32 (leNat (p.1 ++ old.drop p.1.length))) }
    else
      let old := toBytes (Sparse.get (0 : BitVec 512) x.rows p.2).toNat 64
      { x with rows := Sparse.put 0 x.rows p.2 (BitVec.ofNat 512 (leNat (p.1 ++ old.drop p.1.length))) }) x

/-- An operand of a log entry: the tile file if its version still matches, else its source read again, whose digest must be that of the
log (R154, R156). -/
def State.replayOperand (s : State) (w : Who) (slot entry operand : Nat) (tile : BitVec 3) (ver : Nat) (img : TileImage)
    (src side : TileSource) (u : Upset) : Reread × Bool × State :=
  let x := (s.thread w).tile tile
  if x.version = ver then (.ok x.contents, false, s)
  else
    let (a, s) := s.rereadRows w slot entry (2 * operand) src u
    let (b, s) := if side.rows = 0 then (some (some []), s) else s.rereadRows w slot entry (2 * operand + 1) side .none
    match a, b with
    | some (some ra), some (some rb) =>
      let y := (img.withRows src.sc ra).withRows true rb
      if y.digest = img.digest then (.ok y, true, s) else (.bad, true, s)
    | some Option.none, _ => (.bad, true, s)
    | _, some Option.none => (.bad, true, s)
    | _, _ => (.wait, true, s)

/-- How far a replay has come: the slot as recomputed so far, the flags of its entries, and how many operands were read again. -/
inductive Replay where
  | going (x : Slot) (flags : BitVec 9) (rereads : Nat)
  | bad (x : Slot) (flags : BitVec 9) (rereads : Nat)
  | wait

/-- Replays the log entries in order on a restored slot (R154). ECC finds `u` as the operands of entry `hit` are read again. -/
def State.replay (s : State) (c : CoreIx) (slot : Nat) (flip : Option Flip) (hit : Nat) (u : Upset) :
    Nat → List LogEntry → Replay → Replay × State
  | _, [], r => (r, s)
  | n, e :: es, r =>
    match r with
    | .going x fl k =>
      let w : Who := ⟨c, e.thr⟩
      let u' : Upset := if n = hit then u else .none
      let (a, ra, s) := s.replayOperand w slot n 0 e.f.ta e.verA e.imgA e.srcA e.sideA u'
      let (b, rb, s) := s.replayOperand w slot n 1 e.f.tb e.verB e.imgB e.srcB e.sideB (if ra then .none else u')
      let k := k + b2n ra + b2n rb
      (match a, b with
       | .ok a, .ok b =>
         let z := x.mm e.func e.f a b flip
         State.replay s c slot flip hit u (n + 1) es (.going z.1 (fl ||| z.2) k)
       | .wait, _ => (.wait, s)
       | _, .wait => (.wait, s)
       | _, _ => (.bad x fl k, s))
    | r => (r, s)

/-- Records a mismatch in ACC_CHKSTAT; outcomes 0b10 and 0b11 stay (R159). -/
def Core.chkRecord (x : Core) (outcome : Nat) (r : Retry) (reread : Bool) : Core :=
  if x.chkstat.extractLsb' 14 2 = 2 ∨ x.chkstat.extractLsb' 14 2 = 3 then x
  else { x with chkstat := BitVec.ofNat 17 (2 ^ 16 + outcome * 2 ^ 14 + r.thr.toNat * 2 ^ 12 + r.slot * 2 ^ 8 + b2n reread * 2 ^ 6 +
                                              b2n r.col * 2 ^ 5 + r.line.toNat) }

/-- A retry that passes completes its flush (R157). -/
def State.retryPass (s : State) (c : CoreIx) (r : Retry) (x : Slot) (reread : Bool) : State :=
  let w : Who := ⟨c, r.thr⟩
  let s := s.modCore c (fun y => { y.chkRecord 1 r reread with retry := Option.none })
  let s := (s.countCore c 0x122 1).passSlot c r.slot x
  match r.flush with
  | .checkpoint => s.afterMatrix w
  | fl =>
    let s := (s.flushEffect w r.slot x fl).modThread w (fun h => h.advance 8)
    (s.countRetired w).stepEnd w

/-- A second mismatch or an unreplayable retry (R157): trap 0x08, the core is fenced and nothing leaves the slot, which stands as it was recomputed in place
(R154). -/
def State.retryFail (s : State) (c : CoreIx) (r : Retry) (y : Slot) (outcome : Nat) (reread : Bool) : State :=
  let w : Who := ⟨c, r.thr⟩
  let s := s.modSlot c r.slot (fun x => { y with live := x.live, unchk := x.unchk, log := x.log, shadow := x.shadow, sending := x.sending })
  let s := (s.modCore c (fun y => y.chkRecord outcome r reread)).countCore c 0x123 1
  let rel := r.slot - (slotShare (s.core c).mode r.thr).1
  let t : Trap := { code := 0x08, detail := BitVec.ofNat 16 rel }
  let s := s.modThread w (fun h => { h with cause := causeWord t (decide (r.flush ≠ .checkpoint)) })
  s.fenceCore c 0x08 (some (r.thr, (s.core c).chkstat.toNat % 65536))

/-- The flags and the rereads of a retry are counted, whatever it comes to (R142). -/
def State.retryNote (s : State) (c : CoreIx) (r : Retry) (flags : BitVec 9) (rereads : Nat) : State :=
  let s := { s with reads := s.reads.filter (fun f =>
    !(decide (f.who.core = c) && (match f.engine with | some (.replay _ _ _ _) => true | _ => false))) }
  (if rereads = 0 then s else s.countCore c 0x125 rereads).modThread ⟨c, r.thr⟩ (fun h => h.fpFlag flags)

/-- CHECK_RETRY, R154 and R156. What ECC finds in operands that are read again, it finds in those of one log entry, of free choice (log 5). -/
def execCheckRetry (c : CoreIx) (found : RetryFound) (s : State) : Host.Outcome State Fault Refusal :=
  match (s.core c).retry with
  | Option.none => .next s
  | some r =>
    let x := (s.core c).slot r.slot
    if found.shadow then .next (s.retryFail c r x 3 false)
    else
      let fresh : Slot := Slot.baseline { x with el := x.shadow }
      let (k, s) := if found.upset = .none then (0, s) else s.freeNat
      match s.replay c r.slot found.flip (k % x.log.length) found.upset 0 x.log (.going fresh 0 0) with
      | (.wait, s) => .next s
      | (.bad y fl k, s) => .next ((s.retryNote c r fl k).retryFail c r y 3 (decide (k ≠ 0)))
      | (.going y fl k, s) =>
        let s := (s.retryNote c r fl k).countExempt c y
        .next (if y.compare.isNone then s.retryPass c r y (decide (k ≠ 0)) else s.retryFail c r y 2 (decide (k ≠ 0)))

/-! ### Control words (R78, R106 to R109, R159) -/

/-- A write of ACC_SPLIT (R107): MODE changes only while every slot is EMPTY and the matrix queue is empty; ERR is W1C. -/
def State.accSplit (s : State) (c : CoreIx) (val : Word) : State :=
  s.modCore c (fun x =>
    let x := if val.getLsbD 8 then { x with splitErr := false } else x
    let mode : BitVec 2 := val.extractLsb' 0 2
    if mode = x.mode then x
    else if mode = 3 ∨ ¬ x.slots.isEmpty ∨ ¬ x.mq.isEmpty then { x with splitErr := true }
    else { x with mode := mode })

/-- ACC_SPLIT_WRITE, R107. -/
def execAccSplitWrite (_v : Via) (c : CoreIx) (val : Word) (s : State) : Host.Outcome State Fault Refusal := .next (s.accSplit c val)

def Core.splitWord (x : Core) : Word := packW [(b2n x.splitErr, 8), (x.mode.toNat, 0)]

/-- ACC_STATE (R109). -/
def Core.accState (x : Core) : Word :=
  packW ((List.range 16).flatMap (fun k => [(b2n (x.slot k).live, k), (b2n (x.slot k).unchk, 16 + k)]))

/-- TILE_STATE (R78). -/
def Core.tileState (x : Core) : Word :=
  packW ((List.range 32).map (fun k =>
    (((x.thread (BitVec.ofNat 2 (k / 8))).tile (BitVec.ofNat 3 (k % 8))).state.code.toNat, 2 * k)))

end Sys2Proof.Machine
end

