-- ==== Sys2Proof/Machine/Queues.lean ====
section
/-! DEFINITION. Receive queues, stations and messages: the control words, commit, answers, snd.q, sel.q and poll.q (R288 to R321, R584). -/

namespace Sys2Proof.Machine

/-! ### Queue words (R288 to R291) -/

def Queue.slotCount (x : Queue) : Nat := 2 ^ x.slots.toNat

/-- Absolute local-store addresses of a slot's payload and message word (R289). -/
def Queue.payloadAt (x : Queue) (n : Nat) : Nat := x.base.toNat * 256 + n * 256
def Queue.wordAt (x : Queue) (n : Nat) : Nat := x.base.toNat * 256 + x.slotCount * 256 + n * 8

/-- QUE_CTL and QUE_STAT as words. -/
def Queue.ctlWord (x : Queue) : Word :=
  packW [(x.epoch.toNat, 16), (b2n x.cls, 8), (x.slots.toNat, 4), (b2n x.err, 1), (b2n x.opn, 0)]
def Queue.statWord (x : Queue) : Word := packW [(x.occ, 32), (x.tail, 16), (x.head, 0)]
def Queue.dropWord (x : Queue) : Word := packW [(x.full.toNat, 32), (x.stale.toNat, 16), (x.closed.toNat, 0)]

/-- The head slot's message word, 0 when the queue is empty. -/
def State.queHeadWord (s : State) (c : CoreIx) (q : BitVec 4) : Word :=
  let x := s.queue c q
  if x.occ = 0 then 0 else BitVec.ofNat 64 (leNat (readMem (s.core c).ls (x.wordAt x.head) 8))

/-- Whether a thread's sel.q finds a queue it can take from (R313), and which. -/
def State.selPick (s : State) (w : Who) (mask : BitVec 16) (rot : Bool) : Option (BitVec 4) :=
  let order := if rot then (List.range 16).map (fun k => ((s.thread w).rot.toNat + 1 + k) % 16) else List.range 16
  (order.find? (fun q => mask.getLsbD q && decide ((s.queue w.core (BitVec.ofNat 4 q)).occ ≠ 0))).map (BitVec.ofNat 4)

/-- Whether every masked queue is closed and empty. -/
def State.selClosed (s : State) (w : Who) (mask : BitVec 16) : Bool :=
  (List.range 16).all (fun q =>
    let x := s.queue w.core (BitVec.ofNat 4 q)
    !(mask.getLsbD q) || (!x.opn && decide (x.occ = 0)))

/-- A thread that waits in a queue instruction goes on with a status word (R307, R314). -/
def State.wakeStatus (s : State) (w : Who) (gd : BitVec 5) (v : Word) : State :=
  let s := s.modThread w (fun h => { (h.setReg gd v).advance 8 with state := .run, hold := .none })
  ((s.movement w.core).countRetired w).stepEnd w

/-- Threads whose sel.q waits on queues that are now all closed and empty complete with CLOSED (R314). -/
def State.wakeClosed (s : State) (c : CoreIx) : State :=
  (whos c).foldl (fun s w =>
    match (s.thread w).hold with
    | .sel mask _ gd _ _ _ _ => if s.selClosed w mask then s.wakeStatus w gd 4 else s
    | _ => s) s

/-- OPEN, CLOSE and RESET (R291). -/
def State.queOpen (s : State) (c : CoreIx) (q : BitVec 4) : State :=
  s.modQueue c q (fun x =>
    if x.opn then x
    else if x.slots.toNat < 2 ∨ 12 < x.slots.toNat ∨ lsSize < x.base.toNat * 256 + x.slotCount * 264 then { x with err := true }
    else { x with opn := true })

def State.queClose (s : State) (c : CoreIx) (q : BitVec 4) : State :=
  (s.modQueue c q (fun x => { x with opn := false })).wakeClosed c

def State.queReset (s : State) (c : CoreIx) (q : BitVec 4) : State :=
  (s.modQueue c q (fun x => { x with opn := false, head := x.tail, occ := 0, epoch := x.epoch + 1 })).wakeClosed c

/-- QUE_CMD by its OP (R291). -/
def State.queCmd (s : State) (c : CoreIx) (q : BitVec 4) (op : Nat) : State :=
  if op = 1 then s.queOpen c q else if op = 2 then s.queClose c q else if op = 3 then s.queReset c q else s

/-- A write of QUE_RING or QUE_CTL (R290): changes only a queue that is closed and empty; ERR is W1C, and a discarded write leaves it 1. -/
def State.queConfig (s : State) (c : CoreIx) (q : BitVec 4) (ctl : Bool) (val : Word) : State :=
  s.modQueue c q (fun x =>
    let free := !x.opn && decide (x.occ = 0)
    if ctl then
      let x := if val.getLsbD 1 then { x with err := false } else x
      let cls := val.getLsbD 8
      let slots : BitVec 4 := val.extractLsb' 4 4
      if cls = x.cls ∧ slots = x.slots then x
      else if free then { x with cls := cls, slots := slots } else { x with err := true }
    else
      let base : BitVec 15 := val.extractLsb' 8 15
      if base = x.base then x else if free then { x with base := base } else { x with err := true })

/-- Reading QUE_DROP clears it, but not through the debug path (R320, R559). -/
def State.queDropRead (s : State) (v : Via) (c : CoreIx) (q : BitVec 4) : Word × State :=
  ((s.queue c q).dropWord,
    match v with
    | .debug => s
    | _ => s.modQueue c q (fun x => { x with full := 0, stale := 0, closed := 0 }))

/-- QUE_OPEN, R291. -/
def execQueOpen (_v : Via) (c : CoreIx) (q : BitVec 4) (s : State) : Host.Outcome State Fault Refusal := .next (s.queOpen c q)

/-- QUE_CLOSE, R291. -/
def execQueClose (_v : Via) (c : CoreIx) (q : BitVec 4) (s : State) : Host.Outcome State Fault Refusal := .next (s.queClose c q)

/-- QUE_RESET, R291. -/
def execQueReset (_v : Via) (c : CoreIx) (q : BitVec 4) (s : State) : Host.Outcome State Fault Refusal := .next (s.queReset c q)

/-- QUE_CONFIG_WRITE, R290. -/
def execQueConfigWrite (_v : Via) (c : CoreIx) (q : BitVec 4) (ctl : Bool) (val : Word) (s : State) :
    Host.Outcome State Fault Refusal := .next (s.queConfig c q ctl val)

/-- QUE_DROP_READ, R320. The value read stands in the read-data register of the model. -/
def execQueDropRead (v : Via) (c : CoreIx) (q : BitVec 4) (s : State) : Host.Outcome State Fault Refusal :=
  let (x, s) := s.queDropRead v c q
  .next { s with dict := { s.dict with rdata := x } }

/-! ### Station tables (R301) -/

/-- The bits of a station entry and of a lane entry that are not reserved. -/
def stnEntryMask : Word := 0xCFFFFFCFFFFFFFFF
def stnLaneMask : Word := 0x8FFFFFCFFFFF0000

/-- A write of a station entry: only through the core window, and never KIND 3 (R301). -/
def State.stnEntryWrite (s : State) (v : Via) (c : CoreIx) (n : BitVec 8) (val : Word) : State :=
  s.modCore c (fun x =>
    if (ownThread v c).isSome ∨ val.extractLsb' 62 2 = 3 then { x with stnErr := true }
    else { x with stnEntry := Sparse.put 0 x.stnEntry n.toNat (val &&& stnEntryMask) })

def State.stnLaneWrite (s : State) (v : Via) (c : CoreIx) (n : BitVec 8) (val : Word) : State :=
  s.modCore c (fun x =>
    if (ownThread v c).isSome then { x with stnErr := true }
    else { x with stnLane := Sparse.put 0 x.stnLane n.toNat (val &&& stnLaneMask) })

/-- STN_ENTRY_WRITE, R301. -/
def execStnEntryWrite (v : Via) (c : CoreIx) (n : BitVec 8) (val : Word) (s : State) : Host.Outcome State Fault Refusal :=
  .next (s.stnEntryWrite v c n val)

/-- STN_LANE_WRITE, R301. -/
def execStnLaneWrite (v : Via) (c : CoreIx) (n : BitVec 8) (val : Word) (s : State) : Host.Outcome State Fault Refusal :=
  .next (s.stnLaneWrite v c n val)

/-! ### Commit (R293, R295) -/

/-- The message word a receiver writes (R293). -/
def Msg.word (m : Msg) : Word :=
  packW [(m.kind.toNat, 62), (m.thr.toNat, 60), (m.sender.toNat, 38), (m.epoch.toNat, 16), (m.payload.length - 1, 8)]

/-- Adds one to a saturating 16-bit count. -/
def sat16 (x : BitVec 16) : BitVec 16 := if x = 0xFFFF then x else x + 1

/-- The queue a waiting sel.q has been given, while that still holds a message. -/
def State.givenTo (s : State) (w : Who) : Option (BitVec 4) :=
  match (s.thread w).hold with
  | .sel _ _ _ _ _ _ (some q) => if (s.queue w.core q).occ ≠ 0 then some q else Option.none
  | _ => Option.none

/-- Since when a thread waits in sel.q for a message of a queue, if it has been given none yet. -/
def State.awaits (s : State) (w : Who) (q : BitVec 4) : Option Nat :=
  match (s.thread w).hold with
  | .sel mask _ _ _ _ since _ => if mask.getLsbD q.toNat ∧ (s.givenTo w).isNone then some since else Option.none
  | _ => Option.none

/-- A commit to a queue goes to the thread that has waited longest for it (R314, R315). -/
def State.assign (s : State) (c : CoreIx) (q : BitVec 4) : State :=
  let best := (whos c).foldl (fun (b : Option (Who × Nat)) w =>
    match s.awaits w q, b with
    | some n, some (_, m) => if n < m then some (w, n) else b
    | some n, Option.none => some (w, n)
    | Option.none, _ => b) Option.none
  match best with
  | some (w, _) => s.modThread w (fun h =>
      match h.hold with
      | .sel mask rot gd vr tmo since _ => { h with hold := .sel mask rot gd vr tmo since (some q) }
      | _ => h)
  | Option.none => s

/-- The commit of a message: the answer, and the state with the slot written or the refusal counted (R295). An accepted item delivery
moves its ledger entry to DELIVERED with its place (R454, R458). A core that a remap has made absent meanwhile answers CLOSED (R584). -/
def State.commit (s : State) (m : Msg) : BitVec 3 × State :=
  let c := idCore m.target
  let x := s.queue c m.queue
  if ¬ s.present c then (4, s)
  else if m.epoch ≠ x.epoch then (5, s.modQueue c m.queue (fun x => { x with stale := sat16 x.stale }))
  else if ¬ x.opn then (4, s.modQueue c m.queue (fun x => { x with closed := sat16 x.closed }))
  else if x.slotCount ≤ x.occ then (2, s.modQueue c m.queue (fun x => { x with full := sat16 x.full }))
  else
    let s := s.perform (.ls c (x.payloadAt x.tail)) ((fitBytes m.payload 256).map some)
    let s := s.perform (.ls c (x.wordAt x.tail)) ((toBytes m.word.toNat 8).map some)
    let s := s.modQueue c m.queue (fun x => { x with tail := (x.tail + 1) % x.slotCount, occ := x.occ + 1 })
    let s := match m.origin with
      | .item r slot => s.modLed r slot (fun l =>
          { l with state := 2, core := m.target, queue := m.queue, epoch := m.epoch, slot := BitVec.ofNat 12 x.tail })
      | _ => s
    (0, (s.assign c m.queue).movement c)

/-! ### Answers (R308 to R311, R234, R361, R454) -/

def State.setPhase (s : State) (seq : Nat) (p : MsgPhase) : State :=
  { s with msgs := s.msgs.map (fun m => if m.seq = seq then { m with phase := p } else m) }

/-- A refused message waits for its next attempt. -/
def State.backOff (s : State) (seq : Nat) : State :=
  { s with msgs := s.msgs.map (fun m => if m.seq = seq then { m with phase := .backoff, refusals := m.refusals + 1 } else m) }

/-- Whether an answer ends an engine's notification, and how it is recorded: FULL after the timeout is TIMEOUT (R234, R309, R361). -/
def State.engineAnswer (s : State) (m : Msg) (st : BitVec 3) : State :=
  if st ≠ 2 then (s.endMsg m).notified m.origin st
  else if m.oneShot then (s.endMsg m).notified m.origin 2
  else if m.late s.now then (s.endMsg m).notified m.origin 3
  else s.backOff m.seq

/-- A snd.q that a halt has been asked of gives its message up and stands at its instruction again (R318). -/
def State.sndHalt (s : State) (w : Who) (m : Msg) : State := ((s.endMsg m).unwait w).haltIfAsked w

/-- An answer reaches the sender of a message; each core counts what its own port sent (R321). -/
def State.answer (s : State) (m : Msg) (st : BitVec 3) : State :=
  let full := decide (st = 2)
  let s := match m.source with
    | .port c => if full then s.countCore c 0x132 1 else if st = 0 then s.countCore c 0x130 1 else s
    | _ => s
  match m.origin with
  | .lost => s.endMsg m
  | .peer p d seq => (s.endMsg m).sendAck p d seq st.toNat
  | .thread w =>
    let s := s.pendMsg m false
    match (s.thread w).hold with
    | .snd seq gd tmo expired =>
      if seq ≠ m.seq then s.endMsg m
      else if st ≠ 0 ∧ (s.thread w).haltReq.isSome then s.sndHalt w m
      else if ¬ full then (s.endMsg m).wakeStatus w gd (st.zeroExtend 64)
      else if tmo = 0 then (s.endMsg m).wakeStatus w gd 2
      else if expired then (s.endMsg m).wakeStatus w gd 3
      else s.backOff m.seq
    | _ => s.endMsg m
  | .dma _ _ => s.engineAnswer m st
  | .red _ _ => s.engineAnswer m st
  | .item r slot =>
    if full then s.backOff m.seq
    else if st = 0 then
      let s := s.endMsg m
      if ((s.ring r).led slot).state = 1 then
        s.modLed r slot (fun l => { l with state := 2, core := m.target, queue := m.queue, epoch := m.epoch })
      else s
    else (s.endMsg m).endItem r slot stFault (faultCause 3 st.toNat) (locOf 4 Option.none (s.mod.id ++ (0 : BitVec 10)))

/-- Whether something that left the same source earlier is still on its way to the receiving core's local store or control space (R272, R281). A message to
a queue of its own core has not used the port; earlier ones of that core to itself go first (R312). -/
def State.msgBlocked (s : State) (m : Msg) : Bool :=
  let c := (idCore m.target).toNat
  if m.target = m.sender ∧ m.source = .port (idCore m.sender) then
    s.msgs.any (fun n => decide (n.left < m.left ∧ n.source = m.source ∧ n.target = m.target ∧ n.phase = .flight))
  else s.behind m.source (0, 0, c) m.left true || s.behind m.source (1, 0, c) m.left true

/-- MESSAGE_COMMIT, R295. A message to a queue of its own core is answered in the same A-cycle (R312), and one of another module by its
acknowledgement. -/
def execMessageCommit (seq : Nat) (s : State) : Host.Outcome State Fault Refusal :=
  match s.msgs.find? (fun m => m.seq = seq) with
  | Option.none => .next s
  | some m =>
    if m.phase ≠ .flight ∨ ¬ s.mine m.target ∨ s.msgBlocked m then .next s
    else
      let (st, s) := s.commit m
      let atOnce := decide (m.sender = m.target) || (match m.origin with | .peer _ _ _ => true | _ => false)
      if atOnce then .next (s.answer m st) else .next (s.setPhase seq (.answer st))

/-- SEND_ANSWER, R308. -/
def execSendAnswer (seq : Nat) (s : State) : Host.Outcome State Fault Refusal :=
  match s.msgs.find? (fun m => m.seq = seq) with
  | Option.none => .next s
  | some m =>
    match m.phase with
    | .answer st => .next (s.answer m st)
    | _ => .next s

/-- SEND_RETRY, R308: the outbound port sends a refused message again, unless its thread is asked to halt (R318); a message that its engine has given up
by now is withdrawn (R234, R309), and so are the held ones of its channel. -/
def execSendRetry (seq : Nat) (s : State) : Host.Outcome State Fault Refusal :=
  match s.msgs.find? (fun m => m.seq = seq) with
  | Option.none => .next s
  | some m =>
    let halting : Bool := match m.origin with | .thread w => (s.thread w).haltReq.isSome | _ => false
    if m.phase ≠ .backoff ∨ halting then .next s
    else
      let s := s.leaveMsg m
      .next (if s.msgs.any (fun n => n.seq = seq) then s else s.releaseChannel m.sender m.target m.queue)

/-- SND_TIMEOUT, R309. -/
def execSndTimeout (w : Who) (s : State) : Host.Outcome State Fault Refusal :=
  match (s.thread w).hold with
  | .snd seq gd tmo _ =>
    if tmo = 0 ∨ tmo = 0xFFFF then .next s
    else
      match s.msgs.find? (fun m => m.seq = seq) with
      | some m =>
        if m.phase = .backoff ∨ m.phase = .held then
          .next ((s.endMsg m).wakeStatus w gd 3)
        else .next (s.modThread w (fun h => { h with hold := .snd seq gd tmo true }))
      | Option.none => .next s
  | _ => .next s

/-- Trap 0x0F: station in bits 7:0, lane in bits 15:8 (R302). -/
def notMapped (station lane : BitVec 8) : Trap := { code := 0x0F, detail := lane ++ station }

/-- The 256 bytes of a vector pair (R306). -/
def Thread.pairBytes (h : Thread) (vr : BitVec 5) : List Byte :=
  toBytes (h.vec vr).toNat 128 ++ toBytes (h.vec (vr + 1)).toNat 128

/-- SND_Q, R308. -/
def execSndQ (i : Iss) (tmo : BitVec 16) (lenm1 : BitVec 8) (gd vr gs : BitVec 5) (s : State) : Host.Outcome State Fault Refusal :=
  issue i 0x3C true { mem := true } (fun s =>
    let h := s.thread i.who
    let station : BitVec 8 := (h.reg gs).extractLsb' 0 8
    let lane : BitVec 8 := (h.reg gs).extractLsb' 8 8
    if vr.getLsbD 0 then .trap s (illegal 0x3C)
    else
      match (s.core i.who.core).resolve station lane with
      | Option.none => .trap s (notMapped station lane)
      | some (target, q, epoch) =>
        if ¬ s.mine target ∧ s.unreachable (idModule target) then .done (s.modThread i.who (fun h => h.setReg gd 4))
        else
          let seq := s.nextSeq
          let pay := (h.pairBytes vr).take (lenm1.toNat + 1)
          let s := s.sendMsg (.thread i.who) 0 i.who.thr (s.coreId i.who.core) target q epoch pay (decide (tmo = 0)) Option.none
          .wait (s.modThread i.who (fun h => { h with state := .wait, hold := .snd seq gd tmo false }))) s

/-! ### Takes (R313 to R317) -/

/-- The item a take of a queue slot delivers (R458). -/
def State.takenItem (s : State) (target : BitVec 22) (q : BitVec 4) (slot : Nat) (epoch : BitVec 16) : Option (BitVec 6 × BitVec 10) :=
  s.rings.findSome? (fun e => e.2.ledger.findSome? (fun l =>
    if l.2.state = 2 ∧ l.2.core = target ∧ l.2.queue = q ∧ l.2.slot.toNat = slot ∧ l.2.epoch = epoch then
      some (BitVec.ofNat 6 e.1, BitVec.ofNat 10 l.1) else Option.none))

/-- The engine learns of a take (R458): the item becomes TAKEN by the thread. -/
def State.learnTake (s : State) (w : Who) (r : BitVec 6) (slot : BitVec 10) : State :=
  let s := s.modLed r slot (fun l => { l with state := 5, core := s.coreId w.core, thr := w.thr })
  s.modThread w (fun h => { h with taken := h.taken ++ [handleOf r slot] })

/-- Takes the head message of a queue: its payload, its word, or the trap an unreadable slot raises; the message is consumed either way
(R313, R317). The pair receives the payload. -/
def State.take (s : State) (w : Who) (q : BitVec 4) (vr : BitVec 5) (u : Upset) : (Word ⊕ Trap) × State :=
  let x := s.queue w.core q
  let at_ : Loc := .ls w.core (x.payloadAt x.head)
  let atW : Loc := .ls w.core (x.wordAt x.head)
  let (t, s) := s.sense w.core at_ 256 u 0
  let (t', s) := if t.isSome then (t, s) else s.sense w.core atW 8 .none 0
  let bytes := s.readLoc at_ 256
  let word : Word := BitVec.ofNat 64 (leNat (s.readLoc atW 8))
  let item := if word.extractLsb' 62 2 = 2 then s.takenItem (s.coreId w.core) q x.head (word.extractLsb' 16 16) else Option.none
  let s := s.modQueue w.core q (fun x => { x with head := (x.head + 1) % x.slotCount, occ := x.occ - 1 })
  match (if t.isSome then t else t') with
  | some t =>
    let s := match item with
      | some (r, slot) => s.endItem r slot stFault (faultCause 6 0) (locThread s w)
      | Option.none => s
    (.inr t, s.wakeClosed w.core)
  | Option.none =>
    let s := (s.countCore w.core 0x131 1).movement w.core
    let s := match item with
      | some (r, slot) => s.learnTake w r slot
      | Option.none => s
    let s := s.modThread w (fun h =>
      (h.setVec vr (BitVec.ofNat 1024 (leNat (bytes.take 128)))).setVec (vr + 1) (BitVec.ofNat 1024 (leNat (bytes.drop 128))))
    (.inl word, s.wakeClosed w.core)

/-- The result word of sel.q for a taken message (R313). -/
def selWord (word : Word) (q : BitVec 4) : Word := (word &&& 0xFFFFFFFFFFFFFF00) ||| (packW [(q.toNat, 4)])

/-- The watchpoint that the payload of a queue's head slot matches (R555). -/
def State.watchSlot (s : State) (w : Who) (q : BitVec 4) : Option (Nat × Bool) :=
  let x := s.queue w.core q
  s.watchpoint w true (packW [(s.mod.id.toNat, 52), ((coreDie w.core).toNat, 50), (3, 48), (w.core.toNat % 256, 32),
    (x.payloadAt x.head, 0)]) 256 true false

/-- SEL_Q, R313 and R314. -/
def execSelQ (i : Iss) (tmo mask : BitVec 16) (rot : Bool) (gd vr : BitVec 5) (s : State) : Host.Outcome State Fault Refusal :=
  issue i 0x3C true { mem := true } (fun s =>
    let w := i.who
    if vr.getLsbD 0 ∨ mask = 0 then .trap s (illegal 0x3C)
    else
      match s.selPick w mask rot with
      | some q =>
        (match s.watchSlot w q with
         | some (k, act) => matched s (4 + k) act
         | Option.none =>
           match s.take w q vr (Found.upset i.found) with
           | (.inr t, s) => .trap s t
           | (.inl word, s) =>
             .done (s.modThread w (fun h => { (h.setReg gd (selWord word q)) with rot := if rot then q else h.rot })))
      | Option.none =>
        if s.selClosed w mask then .done (s.modThread w (fun h => h.setReg gd 4))
        else if tmo = 0 then .done (s.modThread w (fun h => h.setReg gd 1))
        else .wait (s.bumpSeq.modThread w (fun h => { h with state := .wait, hold := .sel mask rot gd vr tmo s.nextSeq Option.none }))) s

/-- Messages of a queue that have been given to waiting threads. -/
def State.givenOf (s : State) (c : CoreIx) (q : BitVec 4) : Nat :=
  ((whos c).filter (fun v => decide (s.givenTo v = some q))).length

/-- The queue a waiting sel.q takes from: the one whose commit it has been given, or the first masked one that holds a message given to nobody. -/
def State.selTake (s : State) (w : Who) (mask : BitVec 16) (rot : Bool) : Option (BitVec 4) :=
  let left (q : BitVec 4) : Bool := decide (s.givenOf w.core q < (s.queue w.core q).occ)
  match s.givenTo w with
  | some q => some q
  | Option.none =>
    let order := if rot then (List.range 16).map (fun k => ((s.thread w).rot.toNat + 1 + k) % 16) else List.range 16
  (order.map (BitVec.ofNat 4)).find? (fun q => mask.getLsbD q.toNat && left q)

/-- Whether no thread of the core that has waited longer is to take from a queue first (R315). -/
def State.selFirst (s : State) (w : Who) (q : BitVec 4) (since : Nat) : Bool :=
  (whos w.core).all (fun v =>
    match (s.thread v).hold with
    | .sel mask _ _ _ _ since' _ =>
      !(decide (since' < since)) || !(decide (s.givenTo v = some q) || (mask.getLsbD q.toNat && (s.givenTo v).isNone))
    | _ => true)

/-- A waiting sel.q meets a trap or a watchpoint at its take: it leaves WAIT with it. -/
def State.wakeStop (s : State) (w : Who) (r : Res) : State := (s.unwait w).settle w true r

/-- A waiting sel.q takes its message and goes on. A take that ends in a trap or a halt waits for the thread's older work (R52, R317). -/
def State.wakeTake (s : State) (w : Who) (q : BitVec 4) (rot : Bool) (gd vr : BitVec 5) (u : Upset) : State :=
  match s.watchSlot w q with
  | some (k, act) => if s.olderWork w then s else s.wakeStop w (matched (s.unwait w) (4 + k) act)
  | Option.none =>
    match (s.modThread w (fun h => { h with hold := .none })).take w q vr u with
    | (.inr t, s') => if s.olderWork w then s else s'.wakeStop w (.trap (s'.unwait w) t)
    | (.inl word, s) =>
      (s.modThread w (fun h => { h with rot := if rot then q else h.rot })).wakeStatus w gd (selWord word q)

/-- SEL_WAKE_TAKE, R314. -/
def execSelWakeTake (w : Who) (u : Upset) (s : State) : Host.Outcome State Fault Refusal :=
  match (s.thread w).hold with
  | .sel mask rot gd vr _ since _ =>
    (match s.selTake w mask rot with
     | some q => .next (if s.selFirst w q since then s.wakeTake w q rot gd vr u else s)
     | Option.none => .next s)
  | _ => .next s

/-- SEL_TIMEOUT, R314: a message already committed for the thread is taken instead. -/
def execSelTimeout (w : Who) (s : State) : Host.Outcome State Fault Refusal :=
  match (s.thread w).hold with
  | .sel mask rot gd vr tmo since _ =>
    if tmo = 0xFFFF then .next s
    else
      match s.selTake w mask rot with
      | some q => .next (if s.selFirst w q since then s.wakeTake w q rot gd vr .none else s)
      | Option.none => .next (s.wakeStatus w gd 3)
  | _ => .next s

/-- POLL_Q, R316. -/
def execPollQ (i : Iss) (q : BitVec 4) (gd vr : BitVec 5) (s : State) : Host.Outcome State Fault Refusal :=
  issue i 0x3C true { mem := true } (fun s =>
    let w := i.who
    let x := s.queue w.core q
    if vr.getLsbD 0 then .trap s (illegal 0x3C)
    else if x.occ = 0 then
      .done (s.modThread w (fun h => h.setReg gd (packW [(if x.opn then 1 else 4, 0), (q.toNat, 4)])))
    else
      match s.watchSlot w q with
      | some (k, act) => matched s (4 + k) act
      | Option.none =>
        match s.take w q vr (Found.upset i.found) with
        | (.inr t, s) => .trap s t
        | (.inl word, s) =>
          .done (s.modThread w (fun h => h.setReg gd
            (packW [(q.toNat, 4), ((word.extractLsb' 8 8).toNat, 8), (x.occ, 16)])))) s

end Sys2Proof.Machine
end

