-- ==== Sys2Proof/Machine/Debug.lean ====
section
/-! DEFINITION. Counters and their control words, snapshots and aggregates (R536 to R548), debug halts, breakpoints, and the register window
(R549 to R557, R561). -/

namespace Sys2Proof.Machine

/-! ### Counter words (R536, R541, R543) -/

/-- A read that a core's own thread may be refused, by the bit of PMC_USER that allows it (R543). -/
def State.pmcGuard (s : State) (v : Via) (c : CoreIx) (bit : Nat) (x : BitVec 48) : Word × State :=
  if (ownThread v c).isSome ∧ ¬ (s.effective 0x2800 0).testBit bit then (0, s.modCore c (fun k => { k with pmcDeny := true }))
  else (x.zeroExtend 64, s)

/-- Live counter or snapshot copy, by PMC_CTL.VIEW. -/
def pmcPick (view : Bool) (live snap : Sparse (BitVec 48)) (e : Nat) : BitVec 48 := Sparse.get 0 (if view then snap else live) e

/-- A read of the counter space 0xB000 to 0xC3FF. -/
def State.pmcRead (s : State) (v : Via) (c : CoreIx) (off : Nat) : Word × State :=
  let x := s.core c
  if off < 0xB800 then
    let t : ThrIx := BitVec.ofNat 2 ((off - 0xB000) / 0x200)
    let h := x.thread t
    s.pmcGuard v c (if ownThread v c = some t then 0 else 1) (pmcPick x.pmcView h.pmc h.snap (off % 0x200 / 8))
  else if off < 0xBC00 then s.pmcGuard v c 1 (pmcPick x.pmcView x.pmc x.snap (0x100 + (off - 0xB800) / 8))
  else if off < 0xBE00 then
    let t := s.team (coreTeam c)
    s.pmcGuard v c 2 (pmcPick x.pmcView t.pmc t.snap (0x400 + (off - 0xBC00) / 8))
  else if 0xC000 ≤ off ∧ off < 0xC400 then
    let d := s.die (coreDie c)
    s.pmcGuard v c 3 (pmcPick x.pmcView d.pmc d.snap (0x600 + (off - 0xC000) / 8))
  else (0, s)

def Core.pmcCtlWord (x : Core) : Word := packW [(b2n x.pmcView, 2), (b2n x.pmcHfrz, 1), (b2n x.pmcFreeze, 0)]
def Core.pmcStatWord (x : Core) : Word := packW [(b2n x.pmcErr, 2), (b2n x.pmcDeny, 1), (b2n x.pmcSat, 0)]

/-- CLEAR: every thread and core counter of the core. -/
def Core.pmcZero (x : Core) : Core :=
  { x with pmc := [], threads := Sparse.mapVals {} (fun _ h => { h with pmc := [] }) x.threads }

/-- A write of PMC_CTL (R541). -/
def State.pmcCtl (s : State) (v : Via) (c : CoreIx) (val : Word) : State :=
  if (ownThread v c).isSome ∧ ¬ (s.effective 0x2800 0).testBit 4 then s.modCore c (fun x => { x with pmcErr := true })
  else
    s.modCore c (fun x =>
      let x := if val.getLsbD 7 then x.pmcZero else x
      { x with pmcView := val.getLsbD 2, pmcHfrz := val.getLsbD 1, pmcFreeze := val.getLsbD 0 })

/-- A write of PMC_STAT. -/
def Core.pmcStatW (x : Core) (val : Word) : Core :=
  { x with pmcErr := x.pmcErr && !(val.getLsbD 2), pmcDeny := x.pmcDeny && !(val.getLsbD 1), pmcSat := x.pmcSat && !(val.getLsbD 0) }

/-- PMC_CLEAR, R541. -/
def execPmcClear (v : Via) (c : CoreIx) (val : Word) (s : State) : Host.Outcome State Fault Refusal := .next (s.pmcCtl v c val)

/-- A write of 1 to PMC_CLEAR_SHARED (R540). -/
def State.pmcClearShared (s : State) : State :=
  { s with teams := Sparse.mapVals {} (fun _ t => { t with pmc := [] }) s.teams,
           dies := Sparse.mapVals {} (fun _ d => { d with pmc := [] }) s.dies }

/-- PMC_CLEAR_SHARED, R540. -/
def execPmcClearShared (p : Path) (val : Byte) (s : State) : Host.Outcome State Fault Refusal :=
  let code := s.writeCode p 0x7F01 0 1 1 false
  if code ≠ 0 then .next (s.report p code)
  else if 1 < val.toNat then .next (s.report p 8)
  else .next ((if val = 1 then s.pmcClearShared else s).report p 0)

/-! ### Snapshots and aggregates (R546, R548) -/

/-- A write of PMC_SNAP_TIME: refused less than 1 µs ahead. -/
def State.pmcSnapTime (s : State) (t : Word) : Nat × State :=
  if t.toNat < s.now + 1000 then (9, s)
  else
    let s := s.dictStore 0x7F00 0 (toBytes t.toNat 8)
    let s := { s with mod := { s.mod with snapReq := some t.toNat } }
    (0, [0, 1, 2, 3].foldl (fun (s : State) (d : DieIx) => s.modDie d (fun x => { x with snapDone := false })) s)

/-- PMC_SNAP_TIME, R546. -/
def execPmcSnapTime (p : Path) (t : Word) (s : State) : Host.Outcome State Fault Refusal :=
  let code := s.writeCode p 0x7F00 0 5 8 false
  if code ≠ 0 then .next (s.report p code)
  else
    let (code, s) := s.pmcSnapTime t
    .next (s.report p code)

/-- The counters of a die are copied. -/
def State.snapDie (s : State) (d : DieIx) : State :=
  let s := { s with
    cores := Sparse.mapVals {} (fun k x =>
      if k / 256 = d.toNat then
        { x with snap := x.pmc, threads := Sparse.mapVals {} (fun _ h => { h with snap := h.pmc }) x.threads }
      else x) s.cores,
    teams := Sparse.mapVals {} (fun k x => if k / 64 = d.toNat then { x with snap := x.pmc } else x) s.teams }
  s.modDie d (fun x => { x with snap := x.pmc, snapDone := true })

/-- PMC_SNAPSHOT, R546: at or after T, once for each die. -/
def execPmcSnapshot (d : DieIx) (s : State) : Host.Outcome State Fault Refusal :=
  match s.mod.snapReq with
  | Option.none => .next s
  | some t =>
    if s.now < t ∨ (s.die d).snapDone then .next s
    else .next { s.snapDie d with mod := { s.mod with snapT := BitVec.ofNat 64 t } }

/-- PMC_AGGREGATE_UPDATE, R548. -/
def execPmcAggregateUpdate (s : State) : Host.Outcome State Fault Refusal :=
  .next (if s.boot.headStopped then s else { s with mod := { s.mod with aggShown := s.mod.agg } })

/-! ### Halts (R549 to R553) -/

/-- DBG_ENABLE (R561). -/
def State.debugOn (s : State) : Bool := decide (storedIn s.dict.vals 0x8060 0 = [1])

/-- The debug path while debug is enabled. -/
def State.debugPath (s : State) (v : Via) : Bool := decide (v = .debug) && s.debugOn

/-- HALT (R550): a thread at a boundary halts at once; one that waits in join, sel.q, hb.wait or for a translation does too, a snd.q with no
attempt in flight is withdrawn (R318), and every other wait ends first. -/
def State.dbgHalt (s : State) (w : Who) : State := ((s.settleHold w).askHalt w 1).haltIfAsked w

/-- RESUME and STEP (R551). -/
def State.dbgRun (s : State) (w : Who) (step : Bool) : State :=
  if (s.thread w).state = .halt then s.modThread w (fun h => { h with state := .run, stepping := step }) else s

/-- DBG_THR (R549). -/
def Thread.dbgWord (h : Thread) : Word := packW [(b2n h.diex, 9), (b2n h.xtrig, 8), (h.reason.toNat, 4)]

/-- The command of a DBG_THR write. -/
def State.dbgCmd (s : State) (w : Who) (cmd : Nat) : State :=
  if cmd = 1 then s.dbgHalt w else if cmd = 2 then s.dbgRun w false else if cmd = 3 then s.dbgRun w true else s

/-- A write of DBG_THR: only by the debug path. -/
def State.dbgThr (s : State) (v : Via) (w : Who) (val : Word) : State :=
  if s.debugPath v then
    (s.modThread w (fun h => { h with diex := val.getLsbD 9, xtrig := val.getLsbD 8 })).dbgCmd w (val.extractLsb' 0 2).toNat
  else s

/-- DBG_HALT, R550. -/
def execDbgHalt (v : Via) (c : CoreIx) (t : ThrIx) (s : State) : Host.Outcome State Fault Refusal :=
  .next (if s.debugPath v then s.dbgHalt ⟨c, t⟩ else s)

/-- DBG_RESUME, R551. -/
def execDbgResume (v : Via) (c : CoreIx) (t : ThrIx) (s : State) : Host.Outcome State Fault Refusal :=
  .next (if s.debugPath v then s.dbgRun ⟨c, t⟩ false else s)

/-- DBG_STEP, R551. -/
def execDbgStep (v : Via) (c : CoreIx) (t : ThrIx) (s : State) : Host.Outcome State Fault Refusal :=
  .next (if s.debugPath v then s.dbgRun ⟨c, t⟩ true else s)

/-! ### Breakpoints and watchpoints (R554) -/

/-- Word `n` of 0xE200 to 0xE25F. -/
def Core.bpWord (x : Core) (n : Nat) : Word :=
  if n < 8 then
    (if n % 2 = 0 then Sparse.get 0 x.bpa (n / 2) else (Sparse.get (0 : BitVec 16) x.bpc (n / 2)).zeroExtend 64)
  else if n < 12 then
    (if n % 2 = 0 then Sparse.get 0 x.wpa (n / 2 - 4) else (Sparse.get (0 : BitVec 16) x.wpc (n / 2 - 4)).zeroExtend 64)
  else 0

def Core.bpWrite (x : Core) (n : Nat) (val : Word) : Core :=
  if n < 8 then
    (if n % 2 = 0 then { x with bpa := Sparse.put 0 x.bpa (n / 2) (val &&& ~~~(3 : Word)) }
     else { x with bpc := Sparse.put 0 x.bpc (n / 2) (val.extractLsb' 0 16 &&& 0xF0F3) })
  else if n < 12 then
    (if n % 2 = 0 then { x with wpa := Sparse.put 0 x.wpa (n / 2 - 4) val }
     else { x with wpc := Sparse.put 0 x.wpc (n / 2 - 4) (val.extractLsb' 0 16 &&& 0xF3F3) })
  else x

def State.bpStore (s : State) (v : Via) (c : CoreIx) (n : Nat) (val : Word) : State :=
  if s.debugPath v then s.modCore c (fun x => x.bpWrite n val) else s

/-! ### The register window (R556, R557) -/

/-- Bits of DBG_RSEL that are not reserved. -/
def rselMask : Word := 0xF33F

def Core.rselFile (x : Core) : Nat := (x.rsel.extractLsb' 12 4).toNat
def Core.rselThread (x : Core) : ThrIx := x.rsel.extractLsb' 8 2
def Core.rselIndex (x : Core) : Nat := (x.rsel.extractLsb' 0 6).toNat

/-- Whether the window is valid. -/
def Core.windowValid (x : Core) : Bool := decide ((x.thread x.rselThread).state = .halt) || x.fenced

/-- The physical slot that INDEX names: relative to the thread for FILE 5, physical for FILE 6 and 7. -/
def Core.windowSlot (x : Core) : Option Nat :=
  let n := x.rselIndex / 2
  let sh := slotShare x.mode x.rselThread
  if x.rselFile = 5 then (if n < sh.2 then some (sh.1 + n) else Option.none)
  else if x.rselFile = 6 then (if n < 16 then some n else Option.none)
  else if x.rselIndex < 16 then some x.rselIndex else Option.none

/-- A check-format number as 16 bytes: exponent of the significand's lowest bit in two's complement. -/
def CkNum.window (x : CkNum) (hi : Bool) : Word :=
  if hi then packW [((BitVec.ofInt 16 x.exp).toNat, 0), (b2n x.neg, 23)] else BitVec.ofNat 64 x.sig

/-- Word `n` of the window. -/
def Core.windowWord (x : Core) (n : Nat) : Word :=
  let h := x.thread x.rselThread
  let i := x.rselIndex
  let two (a b : F32) : Word := b ++ a
  match x.rselFile with
  | 0 => if n < 32 then h.reg (BitVec.ofNat 5 n) else 0
  | 1 => if n < 8 then h.pred (BitVec.ofNat 3 n) else 0
  | 2 => if n < 16 ∧ i < 32 then (h.vec (BitVec.ofNat 5 i)).extractLsb' (64 * n) 64 else 0
  | 3 =>
    if n = 0 then h.ga0.extractLsb' 0 64 else if n = 1 then (h.ga0.extractLsb' 64 8).signExtend 64
    else if n = 2 then h.ga1.extractLsb' 0 64 else if n = 3 then (h.ga1.extractLsb' 64 8).signExtend 64
    else if n = 4 then h.pc else 0
  | 4 =>
    let t := h.tile (BitVec.ofNat 3 i)
    if t.state = .empty ∨ 8 ≤ i then 0
    else if n < 256 then (Sparse.get (0 : BitVec 512) t.rows (n / 8)).extractLsb' (64 * (n % 8)) 64
    else if n < 272 then two (Sparse.get 0 t.side (2 * (n - 256))) (Sparse.get 0 t.side (2 * (n - 256) + 1))
    else 0
  | 5 =>
    match x.windowSlot with
    | some k =>
      let a := 512 * (i % 2) + 2 * n
      if n < 256 then two (Sparse.get 0 (x.slot k).el a) (Sparse.get 0 (x.slot k).el (a + 1)) else 0
    | Option.none => 0
  | 6 =>
    match x.windowSlot with
    | some k =>
      let z := x.slot k
      let v := n / 2
      let c : CkNum := if i % 2 = 0 then (if v < 32 then Sparse.get {} z.cr v else Sparse.get {} z.cc (v - 32))
        else (if v < 32 then Sparse.get {} z.qr v else Sparse.get {} z.qc (v - 32))
      if n < 128 then c.window (decide (n % 2 = 1)) else 0
    | Option.none => 0
  | 7 =>
    match x.windowSlot with
    | some k =>
      let z := x.slot k
      let m := if n < 16 then z.lr else if n < 32 then z.ur else if n < 48 then z.lc else z.uc
      if n < 64 then two (Sparse.get 0 m (2 * (n % 16))) (Sparse.get 0 m (2 * (n % 16) + 1)) else 0
    | Option.none => 0
  | _ => 0

/-- Replaces bits `lo + 63 : lo` of a wide register. -/
def setWord {w : Nat} (x : BitVec w) (lo : Nat) (v : Word) : BitVec w :=
  BitVec.ofNat w (x.toNat - x.toNat / 2 ^ lo % 2 ^ 64 * 2 ^ lo + v.toNat * 2 ^ lo)

/-- A thread after a write of word `n` of FILE 0 to 4; `ver` is the version of a tile that changes. -/
def Thread.windowWrite (h : Thread) (file i n : Nat) (val : Word) (ver : Nat) : Thread :=
  match file with
  | 0 => if n < 32 then h.setReg (BitVec.ofNat 5 n) val else h
  | 1 => if n < 8 then h.setPred (BitVec.ofNat 3 n) val else h
  | 2 => if n < 16 ∧ i < 32 then h.setVec (BitVec.ofNat 5 i) (setWord (h.vec (BitVec.ofNat 5 i)) (64 * n) val) else h
  | 3 =>
    if n = 0 then { h with ga0 := h.ga0.extractLsb' 64 8 ++ val }
    else if n = 1 then { h with ga0 := val.extractLsb' 0 8 ++ h.ga0.extractLsb' 0 64 }
    else if n = 2 then { h with ga1 := h.ga1.extractLsb' 64 8 ++ val }
    else if n = 3 then { h with ga1 := val.extractLsb' 0 8 ++ h.ga1.extractLsb' 0 64 }
    else if n = 4 then { h with pc := val, tldPend := false, cursor := {}, given := Option.none }
    else h
  | 4 =>
    if 8 ≤ i ∨ 272 ≤ n then h
    else
      let old := h.tile (BitVec.ofNat 3 i)
      let t : Tile := if old.state = .empty then {} else old
      let t := if n < 256 then
          { t with rows := Sparse.put 0 t.rows (n / 8) (setWord (Sparse.get (0 : BitVec 512) t.rows (n / 8)) (64 * (n % 8)) val) }
        else
          let r := 2 * (n - 256)
          let side := Sparse.put 0 t.side r (val.extractLsb' 0 32)
          { t with side := Sparse.put 0 side (r + 1) (val.extractLsb' 32 32) }
      h.setTile (BitVec.ofNat 3 i) { t with state := .full, version := ver }
  | _ => h

/-- Whether an access may see the state that the window selects: no thread reads or writes another thread's registers (R35), so FILE 0 to 5 are
shown to the debug path alone (log 43). -/
def Core.windowShown (x : Core) (v : Via) : Bool := x.windowValid && decide (v = .debug ∨ 6 ≤ x.rselFile)

/-- A write through the window: discarded while the window is not valid. -/
def State.windowWrite (s : State) (v : Via) (c : CoreIx) (n : Nat) (val : Word) : State :=
  let x := s.core c
  let w : Who := ⟨c, x.rselThread⟩
  if !(x.windowShown v) then s
  else if x.rselFile ≤ 4 then
    let s := if x.rselFile = 4 then s.opcDrop w (BitVec.ofNat 3 x.rselIndex) else s
    (s.modThread w (fun h => h.windowWrite x.rselFile x.rselIndex n val s.nextSeq)).bumpSeq
  else if x.rselFile = 5 ∧ n < 256 then
    match x.windowSlot with
    | some k =>
      s.modSlot c k (fun y =>
        let a := 512 * (x.rselIndex % 2) + 2 * n
        let el := Sparse.put 0 y.el a (val.extractLsb' 0 32)
        Slot.baseline { y with live := true, el := Sparse.put 0 el (a + 1) (val.extractLsb' 32 32) })
    | Option.none => s
  else s

/-- REGISTER_WINDOW_WRITE, R557. `off` is the word's offset in the control space. -/
def execRegisterWindowWrite (v : Via) (c : CoreIx) (off : BitVec 16) (val : Word) (s : State) : Host.Outcome State Fault Refusal :=
  .next (if 0xE400 ≤ off.toNat ∧ off.toNat < 0xEC80 ∧ off.toNat % 8 = 0 then s.windowWrite v c ((off.toNat - 0xE400) / 8) val else s)

/-! ### DBG_ENABLE (R561) -/

/-- The words of the debug space 0xE100 to 0xEC7F. -/
def State.dbgRead (s : State) (v : Via) (c : CoreIx) (off : Nat) : Word :=
  let x := s.core c
  if off < 0xE120 then (x.thread (BitVec.ofNat 2 ((off - 0xE100) / 8))).dbgWord
  else if 0xE200 ≤ off ∧ off < 0xE260 then x.bpWord ((off - 0xE200) / 8)
  else if off = 0xE300 then x.rsel.zeroExtend 64
  else if 0xE400 ≤ off ∧ off < 0xEC80 then (if x.windowShown v then x.windowWord ((off - 0xE400) / 8) else 0)
  else 0

def State.dbgWrite (s : State) (v : Via) (c : CoreIx) (off : Nat) (val : Word) : State :=
  if off < 0xE120 then s.dbgThr v ⟨c, BitVec.ofNat 2 ((off - 0xE100) / 8)⟩ val
  else if 0xE200 ≤ off ∧ off < 0xE260 then s.bpStore v c ((off - 0xE200) / 8) val
  else if off = 0xE300 then s.modCore c (fun x => { x with rsel := (val &&& rselMask).extractLsb' 0 16 })
  else if 0xE400 ≤ off ∧ off < 0xEC80 then s.windowWrite v c ((off - 0xE400) / 8) val
  else s

/-- A write of DBG_ENABLE: 0 resumes every halted thread and clears every EN. -/
def State.debugEnable (s : State) (on : Bool) : State :=
  let s := s.dictStore 0x8060 0 [if on then 1 else 0]
  if on then s
  else
    let en (m : Sparse (BitVec 16)) : Sparse (BitVec 16) := Sparse.mapVals 0 (fun _ c => c &&& 0xFFFE) m
    let run (h : Thread) : Thread :=
      if h.state = .halt then { h with state := .run, haltReq := Option.none, stepping := false } else { h with haltReq := Option.none, stepping := false }
    { s with cores := Sparse.mapVals {} (fun _ x =>
        { x with bpc := en x.bpc, wpc := en x.wpc, threads := Sparse.mapVals {} (fun _ h => run h) x.threads }) s.cores }

/-- DBG_ENABLE_WRITE, R561: an OWN entry, written only inside a write set. -/
def execDbgEnableWrite (p : Path) (val : Byte) (s : State) : Host.Outcome State Fault Refusal :=
  let code := s.writeCode p 0x8060 0 1 1 false
  if code ≠ 0 then .next (s.report p code)
  else if 1 < val.toNat then .next (s.report p 8)
  else .next ((s.debugEnable (decide (val = 1))).report p 0)

end Sys2Proof.Machine
end

