-- ==== Sys2Proof/Machine/Streams.lean ====
section
/-! DEFINITION. The local-store window and the Outrider: LS_BASE and LS_BOUND (R188, R189), stream descriptors, fills, deferral
(R205 to R219), and the relay of tiles along a row (R375 to R383). -/

namespace Sys2Proof.Machine

/-! ### LS_BASE and LS_BOUND (R188, R189) -/

def Core.lsBaseWord (x : Core) : Word := packW [(b2n x.lsErr, 63), (x.lsBase.toNat, 12)]
def Core.lsBoundWord (x : Core) : Word := packW [(x.lsLimit.toNat, 12)]

/-- A write of LS_BASE, or of LS_BOUND (R189): discarded with ERR from a thread of the core, while a thread is in RUN, WAIT or HALT, or where
the window would pass the end of the store. -/
def State.lsWindowWrite (s : State) (v : Via) (c : CoreIx) (bound : Bool) (val : Word) : State :=
  let x := s.core c
  let active := allThreads.any (fun t =>
    let st := (x.thread t).state
    decide (st = .run ∨ st = .wait ∨ st = .halt))
  let base : BitVec 11 := if bound then x.lsBase else val.extractLsb' 12 11
  let limit : BitVec 12 := if bound then val.extractLsb' 12 12 else x.lsLimit
  s.modCore c (fun x =>
    if (ownThread v c).isSome || active || decide (0x800 < base.toNat + limit.toNat) then { x with lsErr := true }
    else { x with lsBase := base, lsLimit := limit, lsErr := x.lsErr && !(!bound && val.getLsbD 63) })

/-- LS_WINDOW_WRITE, R189. -/
def execLsWindowWrite (v : Via) (c : CoreIx) (bound : Bool) (val : Word) (s : State) : Host.Outcome State Fault Refusal :=
  .next (s.lsWindowWrite v c bound val)

/-! ### Descriptor words (R205 to R207, R375, R376) -/

/-- Whether an access may write the descriptors of a thread: the thread itself, or the core window from outside the core. -/
def streamRight (v : Via) (c : CoreIx) (t : ThrIx) : Bool :=
  match ownThread v c with
  | some u => decide (u = t)
  | Option.none => true

def Stream.ctlWord (x : Stream) : Word :=
  packW [(b2n x.en, 63), (b2n x.loc, 62), (b2n x.sc, 61), (x.fmt.toNat, 52), (x.rowsf.toNat, 47), (x.kf.toNat, 42),
         (x.ahead.toNat, 32), (x.size.toNat, 0)]
def Stream.strideWord (x : Stream) : Word := packW [(x.tstep.toNat, 32), (x.rstride.toNat, 0)]
/-- FEED_POS: bits of POS at and above SIZE_LOG2 read as zero. -/
def Stream.posWord (x : Stream) : Word := packW [(x.pos.toNat % 2 ^ x.size.toNat, 0)]
def Stream.countWord (x : Stream) : Word := packW [(x.count.toNat, 0)]
def Stream.relayWord (x : Stream) : Word :=
  packW [(b2n x.lost, 63), (x.mode.toNat, 10), (b2n x.dir, 9), (b2n x.cons, 8), (x.tthr.toNat, 6), (x.tstrm.toNat, 3)]

/-- FEED_STAT. -/
def Stream.statWord (x : Stream) : Word :=
  let defer := match x.tiles.find? (fun t => !t.consumed) with
    | some t => t.ready && t.defer.isSome
    | Option.none => false
  packW [(b2n x.cerr, 23), (b2n x.werr, 22), (b2n defer, 21), ((x.tiles.filter (fun t => !t.ready)).length, 16),
         ((x.tiles.filter (fun t => t.ready)).length, 8), (b2n x.claim, 0)]

/-- The shape of a stream's tiles as the fields of a load with SRC = 1. -/
def Stream.shape (x : Stream) (k : BitVec 3) : TileF :=
  { td := 0, rb := 0, rs := 0, g := false, src := true, strm := k, rows := x.rowsf, kf := x.kf, fmt := x.fmt }

/-- Tiles the other enabled streams of a thread keep (R207). -/
def State.aheadOthers (s : State) (w : Who) (k : BitVec 3) : Nat :=
  allStreams.foldl (fun a j => if j ≠ k ∧ (s.stream w j).en then a + (s.stream w j).ahead.toNat + 1 else a) 0

/-- Whether an enable is accepted (R207, R376). -/
def State.enableOk (s : State) (w : Who) (k : BitVec 3) (x : Stream) : Bool :=
  let receiver := x.receives
  let size := 2 ^ x.size.toNat
  let buffer :=
    decide (12 ≤ x.size.toNat ∧ x.size.toNat ≤ 23) && decide (x.base.toNat % size = 0) &&
    (if x.loc then decide (x.base.toNat + size ≤ (s.core w.core).lsLimit.toNat * 4096)
     else decide (adSpace x.base ≠ 3) && s.ownModule (adModule x.base))
  (receiver || buffer) && (tileShape (x.shape k) x.sc false).isNone &&
    decide (s.aheadOthers w k + x.ahead.toNat + 1 ≤ 16) &&
    (!(decide (x.mode = 1 ∨ x.mode = 3)) || (s.neighbour w.core x.dir).isSome)

/-- The fields of a FEED_CTL value but EN. -/
def Stream.withCtl (x : Stream) (val : Word) : Stream :=
  { x with loc := val.getLsbD 62, sc := val.getLsbD 61, fmt := val.extractLsb' 52 4, rowsf := val.extractLsb' 47 5,
           kf := val.extractLsb' 42 5, ahead := val.extractLsb' 32 4, size := val.extractLsb' 0 5 }

/-- A write of FEED_CTL (R206, R207, R214). -/
def State.feedCtl (s : State) (v : Via) (c : CoreIx) (t : ThrIx) (k : BitVec 3) (val : Word) : State :=
  let w : Who := ⟨c, t⟩
  let x := s.stream w k
  if !(streamRight v c t) then s
  else if x.en then
    if val.getLsbD 63 then s.modStream w k (fun x => { x with werr := true }) else s.stopStream w k false
  else if val.getLsbD 63 then
    let y := x.withCtl val
    if s.enableOk w k y then s.modStream w k (fun _ => { y with en := true, lost := false, tiles := [] })
    else s.modStream w k (fun x => { x with cerr := true })
  else s.modStream w k (fun x => x.withCtl val)

/-- A write of FEED_BASE, FEED_STRIDE, FEED_POS, FEED_COUNT or FEED_RELAY, by a field update (R206, R376). -/
def State.feedField (s : State) (v : Via) (c : CoreIx) (t : ThrIx) (k : BitVec 3) (f : Stream → Stream) : State :=
  if !(streamRight v c t) then s
  else s.modStream ⟨c, t⟩ k (fun x => if x.en then { x with werr := true } else f x)

/-- Descriptor word `n` of R205 as it is written. -/
def State.feedWrite (s : State) (v : Via) (c : CoreIx) (t : ThrIx) (k : BitVec 3) (n : Nat) (val : Word) : State :=
  match n with
  | 0 => s.feedField v c t k (fun x => { x with base := val })
  | 1 => s.feedCtl v c t k val
  | 2 => s.feedField v c t k (fun x => { x with tstep := val.extractLsb' 32 32, rstride := val.extractLsb' 0 32 })
  | 3 => s.feedField v c t k (fun x => { x with pos := val.extractLsb' 0 23 })
  | 4 => s.feedField v c t k (fun x => { x with count := val.extractLsb' 0 32 })
  | 5 => if !(streamRight v c t) then s
         else s.modStream ⟨c, t⟩ k (fun x => { x with cerr := x.cerr && !(val.getLsbD 23), werr := x.werr && !(val.getLsbD 22) })
  | _ => s

/-- Descriptor word `n` of R205 as it reads. -/
def Stream.word (x : Stream) (n : Nat) : Word :=
  match n with
  | 0 => x.base
  | 1 => x.ctlWord
  | 2 => x.strideWord
  | 3 => x.posWord
  | 4 => x.countWord
  | 5 => x.statWord
  | _ => 0

/-- FEED_RELAY as it is written (R375, R376). -/
def State.relayWrite (s : State) (v : Via) (c : CoreIx) (t : ThrIx) (k : BitVec 3) (val : Word) : State :=
  s.feedField v c t k (fun x =>
    { x with mode := val.extractLsb' 10 2, dir := val.getLsbD 9, cons := val.getLsbD 8, tthr := val.extractLsb' 6 2,
             tstrm := val.extractLsb' 3 3 })

/-- FEED_ENABLE, R207: a write of FEED_CTL with EN = 1. -/
def execFeedEnable (v : Via) (c : CoreIx) (t : ThrIx) (k : BitVec 3) (val : Word) (s : State) : Host.Outcome State Fault Refusal :=
  .next (s.feedCtl v c t k (val ||| 0x8000000000000000))

/-- FEED_DISABLE, R214: a write of EN = 0 and no other change. -/
def execFeedDisable (v : Via) (c : CoreIx) (t : ThrIx) (k : BitVec 3) (s : State) : Host.Outcome State Fault Refusal :=
  .next (if streamRight v c t then s.stopStream ⟨c, t⟩ k false else s)

/-- FEED_RELAY_WRITE, R376. -/
def execFeedRelayWrite (v : Via) (c : CoreIx) (t : ThrIx) (k : BitVec 3) (val : Word) (s : State) :
    Host.Outcome State Fault Refusal := .next (s.relayWrite v c t k val)

/-! ### Fills (R208, R209, R216) -/

/-- Whether a stream begins the fill of another tile (R209, R216, R378). -/
def Stream.mayFill (x : Stream) : Bool :=
  let ahead := (x.tiles.filter (fun t => !t.consumed)).length
  x.en && decide (x.mode = 0 ∨ x.mode = 1) && decide (x.tiles.length < x.ahead.toNat + 1) &&
    (decide (x.count = 0xFFFFFFFF) || decide (ahead < x.count.toNat)) &&
    x.tiles.all (fun t => t.consumed || t.defer.isNone)

/-- Position of the next tile to fill. -/
def Stream.nextFill (x : Stream) : Nat :=
  let ahead := (x.tiles.filter (fun t => !t.consumed)).length
  (((x.pos.toNat : Int) + ahead * x.tstep.toInt) % (2 ^ x.size.toNat : Int)).toNat

/-- The origin record of a tile a stream fills (R153, R380). -/
def State.fillOrigin (s : State) (c : CoreIx) (x : Stream) (pos : Nat) (n : Nat) : TileSource :=
  let base := if x.loc then BitVec.ofNat 64 (s.watchAddr c false x.base) else x.base
  { addr := base + BitVec.ofNat 64 (ringRow x pos 0), stride := x.rstride.signExtend 64, rows := x.rowsf.toNat + 1,
    rowBytes := n, base := some (base, x.size.toNat), sc := x.sc, g := true }

/-- OUTRIDER_FILL, R209: the reads of the next tile leave. -/
def execOutriderFill (c : CoreIx) (t : ThrIx) (k : BitVec 3) (s : State) : Host.Outcome State Fault Refusal :=
  let w : Who := ⟨c, t⟩
  let x := s.stream w k
  if !x.mayFill || (s.core c).fenced then .next s
  else
    let pos := x.nextFill
    let tile : FillTile := { id := s.nextSeq, pos := pos, origin := s.fillOrigin c x pos (tileRowBytes (x.shape k) x.sc) }
    .next (s.bumpSeq.modStream w k (fun x => { x with tiles := x.tiles ++ [tile] }))

/-- What an engine finds as it reads one piece. -/
inductive Piece where
  | ok (bs : List Byte)
  | wait
  | fail
  deriving DecidableEq, Repr

/-- Reads one piece of a fill row (R197, R209, R216). -/
def State.fillPiece (s : State) (w : Who) (x : Stream) (tag : EngineRead) (a : Word) (n : Nat) (u : Upset) : Piece × State :=
  let (p, s) := if x.loc then
      (match s.resolveLs w.core a n with
       | .at_ l p => (EPlace.at_ l p, s)
       | _ => (EPlace.violation, s))
    else s.engineResolve w.core .read a n
  match p with
  | .at_ (.remote m b) page =>
    let (g, s) := s.engineRead w tag m b n page
    (match g with
     | some (.bytes bs) => (.ok bs, s)
     | some _ => (.fail, s)
     | Option.none => (.wait, s))
  | .at_ l _ =>
    let (e, s) := if u = .none then (Option.none, s) else s.senseEngine l n u
    if e.isSome then (.fail, s)
    else
      let (bs, bad, s) := s.engineBytes l n
      (if bad then .fail else .ok bs, s)
  | _ => (.fail, s)

/-- Reads the pieces of a row in order; piece `bad` holds what ECC finds. -/
def State.fillPieces (s : State) (w : Who) (x : Stream) (k : BitVec 3) (tile row bad : Nat) (u : Upset) :
    Nat → List (Word × Nat) → List Byte → Piece × State
  | _, [], acc => (.ok acc, s)
  | j, (a, n) :: ps, acc =>
    match s.fillPiece w x (.fill k tile row j) a n (if j = bad then u else .none) with
    | (.ok bs, s) => State.fillPieces s w x k tile row bad u (j + 1) ps (acc ++ bs)
    | r => r

/-- Reads the rows of a tile from row `r` on: the rows filled, the row it is deferred from, or none while a read is under way. -/
def State.fillRows (s : State) (w : Who) (x : Stream) (k : BitVec 3) (t : FillTile) (bad badPiece : Nat) (u : Upset) :
    Nat → Nat → List (List Byte) → Option (List (List Byte) × Option Nat) × State
  | 0, _, acc => (some (acc, Option.none), s)
  | n + 1, r, acc =>
    let rb := tileRowBytes (x.shape k) x.sc
    let ps := ringPieces x 3 (ringRow x t.pos r) rb
    match s.fillPieces w x k t.id r (badPiece % ps.length) (if r = bad then u else .none) 0 ps [] with
    | (.ok bs, s) => State.fillRows s w x k t bad badPiece u n (r + 1) (acc ++ [bs])
    | (.fail, s) => (some (acc, some r), s)
    | (.wait, s) => (Option.none, s)

/-- Drops the reads of a stream's tiles that a test names. -/
def State.dropFillReads (s : State) (w : Who) (k : BitVec 3) (p : Nat → Bool) : State :=
  { s with reads := s.reads.filter (fun f =>
      !(decide (f.who = w) && (match f.engine with | some (.fill j id _ _) => decide (j = k) && p id | _ => false))) }

/-- OUTRIDER_FILL_RETURN, R209 and R216: the oldest tile in flight completes, or is deferred from the row that failed; then the tiles in flight behind it
are given up, and filled once it is consumed. Which row holds a word ECC finds is a free choice (log 5). -/
def execOutriderFillReturn (c : CoreIx) (t : ThrIx) (k : BitVec 3) (u : Upset) (s : State) : Host.Outcome State Fault Refusal :=
  let w : Who := ⟨c, t⟩
  let x := s.stream w k
  match x.tiles.find? (fun y => !y.ready) with
  | Option.none => .next s
  | some y =>
    let n := x.rowsf.toNat + 1
    let (bad, s) := if u = .none then (0, s) else s.freeNat
    match s.fillRows w x k y (bad % n) (bad / n) u n 0 [] with
    | (Option.none, s) => .next s
    | (some (rows, defer), s) =>
      let s := s.modStream w k (fun x =>
        { x with tiles := (replaceFirst (fun z => z.id = y.id)
            (fun z => { z with ready := true, rows := rows, defer := defer, since := s.time }) x.tiles).filter (fun z => z.ready || defer.isNone) })
      let s := s.dropFillReads w k (fun id => decide (id = y.id) || defer.isSome)
      let s := if defer.isSome then s.countThread w 0x003 1 else s
      .next ((s.settleHold w).haltIfAsked w)

/-! ### Relay (R377 to R382) -/

/-- Tiles a stream holds or has on the trace toward it. -/
def State.relayLoad (s : State) (w : Who) (k : BitVec 3) : Nat :=
  (s.stream w k).tiles.length + (s.relays.filter (fun r => decide (r.core = w.core ∧ r.thr = w.thr ∧ r.strm = k))).length

/-- What a sent tile leaves behind (R377): with CONS = 0 it is freed, and POS and COUNT advance; with CONS = 1 it is freed once consumed. -/
def Stream.sentOne (x : Stream) (id : Nat) : Stream :=
  if x.cons then
    let ts := x.tiles.map (fun t => if t.id = id then { t with sent := true } else t)
    { x with tiles := ts.filter (fun t => !(t.sent && t.consumed)) }
  else
    let count := if x.count = 0xFFFFFFFF then x.count else x.count - 1
    { x with pos := BitVec.ofNat 23 ((x.pos.toNat + x.tstep.toNat) % 2 ^ x.size.toNat), count := count,
             tiles := if count = 0 then [] else x.tiles.filter (fun t => t.id ≠ id) }

/-- A MODE 3 stream with LOST set and nothing left to pass on sets LOST in its own target (R381). -/
def State.passLost (s : State) (w : Who) (k : BitVec 3) : State :=
  let x := s.stream w k
  if x.mode = 3 ∧ x.lost ∧ x.tiles.all (fun t => t.sent) ∧ ¬ s.relayComing w k then State.relayLost 16 s w.core x false else s

/-- The tile a stream could send now, and where to: its next complete one, while the target has room or its core is fenced (R377). -/
def State.relayNext (s : State) (w : Who) (k : BitVec 3) : Option (FillTile × Who × BitVec 3) :=
  let x := s.stream w k
  match s.relayTarget w.core x, x.tiles.find? (fun y => !y.sent) with
  | some (v, j), some y =>
    if x.en ∧ y.ready ∧ y.defer.isNone ∧ ((s.core v.core).fenced ∨ s.relayLoad v j < (s.stream v j).ahead.toNat + 1) then some (y, v, j)
    else Option.none
  | _, _ => Option.none

/-- Whether a stream's tile is the next on its trace direction: the one that has waited longest, then the lower thread, then the lower stream (R379). -/
def State.relayTurn (s : State) (w : Who) (k : BitVec 3) (y : FillTile) : Bool :=
  (whos w.core).all (fun v => allStreams.all (fun j =>
    match s.relayNext v j with
    | some (z, _) =>
      decide ((s.stream v j).dir ≠ (s.stream w k).dir ∨ y.since < z.since) ||
        (decide (y.since = z.since) && decide (8 * w.thr.toNat + k.toNat ≤ 8 * v.thr.toNat + j.toNat))
    | Option.none => true))

/-- RELAY_SEND, R377 and R379: the next complete tile leaves for the target stream while that has room; toward a fenced core it is discarded. -/
def execRelaySend (c : CoreIx) (t : ThrIx) (k : BitVec 3) (s : State) : Host.Outcome State Fault Refusal :=
  let w : Who := ⟨c, t⟩
  match s.relayNext w k with
  | some (y, v, j) =>
    if !(s.relayTurn w k y) then .next s
    else if (s.core v.core).fenced then
      .next (((s.modStream w k (fun x => x.sentOne y.id)).countThread w 0x008 1).passLost w k)
    else
      let f : RelayFlight := { seq := s.nextSeq, from_ := c, core := v.core, thr := v.thr, strm := j, ends := false,
                               tile := { y with consumed := false, sent := false } }
      let s := { s with relays := s.relays ++ [f] }.bumpSeq
      .next (((s.modStream w k (fun x => x.sentOne y.id)).countThread w 0x006 1).passLost w k)
  | Option.none => .next s

/-- RELAY_TILE_ARRIVAL, R378 and R382: the tiles of one neighbour arrive in order; a stream that is not enabled for the trace discards them. -/
def execRelayTileArrival (seq : Nat) (s : State) : Host.Outcome State Fault Refusal :=
  match s.relays.find? (fun r => r.seq = seq) with
  | Option.none => .next s
  | some r =>
    let older := s.relays.any (fun q => decide (q.seq < r.seq ∧ q.from_ = r.from_ ∧ q.core = r.core ∧ q.thr = r.thr ∧ q.strm = r.strm))
    if older then .next s
    else
      let w : Who := ⟨r.core, r.thr⟩
      let s := { s with relays := s.relays.filter (fun q => q.seq ≠ seq) }
      let s := s.modStream w r.strm (fun x =>
        let x := if x.en ∧ x.receives then { x with tiles := x.tiles ++ [{ r.tile with since := s.time }] } else x
        if r.ends ∧ x.receives then { x with lost := true } else x)
      .next (s.passLost w r.strm)

end Sys2Proof.Machine
end

