-- ==== Sys2Proof/Machine/Threads.lean ====
section
/-! DEFINITION. Starting, forking, joining and ending threads (R38 to R43), and the system operations of OPC 0x26 other than tret: nop,
brk, sync.e, the fences and the cache operations (R61, R74, R269, R276). -/

namespace Sys2Proof.Machine

/-- A thread that starts: registers zero, tiles empty, THR_ words at reset values (R38). Its stream descriptors keep their words with EN
clear (R214); its counters and its debug word are not THR_ words. -/
def Thread.started (h : Thread) (pc : Word) : Thread :=
  { state := .run, pc := pc, streams := h.streams, pmc := h.pmc, snap := h.snap, xtrig := h.xtrig, diex := h.diex, reason := h.reason }

/-- The writes, acknowledgements, messages and DMA channels that a thread number's last run still has under way no longer count for it. -/
def State.disown (s : State) (w : Who) : State :=
  let s := s.modTeam (coreTeam w.core) (fun x =>
    { x with ch := Sparse.mapVals {} (fun _ k => if k.by_ = some w then { k with by_ := Option.none } else k) x.ch })
  { s with writes := s.writes.map (fun x => if x.src = some w then { x with src := Option.none } else x),
           acks := s.acks.map (fun x => if x.src = some w then { x with src := Option.none } else x),
           msgs := s.msgs.map (fun m => if m.origin = .thread w then { m with origin := .lost } else m) }

/-- CORE_START (R38): thread 0 starts if the write comes through the core window and finds it FREE; else PMC_START_DROP counts. -/
def State.coreStart (s : State) (v : Via) (c : CoreIx) (addr : Word) : State :=
  if ¬ s.boot.mainOn ∨ ¬ s.present c then s
  else if (ownThread v c).isNone ∧ (s.thread ⟨c, 0⟩).state = .free then
    (s.disown ⟨c, 0⟩).modThread ⟨c, 0⟩ (fun h => { h.started addr with orphan := true })
  else s.countCore c 0x110 1

/-- CORE_START, R38. -/
def execCoreStart (v : Via) (c : CoreIx) (addr : Word) (s : State) : Host.Outcome State Fault Refusal :=
  .next (s.coreStart v c addr)

/-- The lowest FREE thread of a core (R39). -/
def Core.freeThread (x : Core) : Option ThrIx := allThreads.find? (fun t => decide ((x.thread t).state = .free))

/-- A free 72-bit value, of two numbers of the counter of free values. -/
def freeGa (n : Nat) : BitVec 72 := (Config.freeWord (n + 1)).extractLsb' 0 8 ++ Config.freeWord n

/-- The forked thread (R39). What ga0 and ga1 hold in it the spec does not state (log 5). -/
def Thread.forked (h p : Thread) (parent t : ThrIx) (pc arg : Word) (n : Nat) : Thread :=
  let h := { h.started pc with parent := parent, tvec := p.tvec, pitch := p.pitch,
                               ga0 := freeGa n, ga1 := freeGa (n + 2) }
  (h.setReg 1 arg).setReg 2 (BitVec.ofNat 64 t.toNat)

/-- FORK, R39. -/
def execFork (i : Iss) (rd rs1 rs2 : BitVec 5) (s : State) : Host.Outcome State Fault Refusal :=
  issue i 0x24 false {} (fun s =>
    let p := s.thread i.who
    match (s.core i.who.core).freeThread with
    | Option.none => .done (s.modThread i.who (fun h => h.setReg rd (BitVec.allOnes 64)))
    | some t =>
      let w : Who := ⟨i.who.core, t⟩
      let n := s.free
      let s := { s with free := n + 4 }
      let s := (s.disown w).modThread w (fun h => h.forked p i.who.thr t (p.reg rs1) (p.reg rs2) n)
      .done (s.modThread i.who (fun h => h.setReg rd (BitVec.ofNat 64 t.toNat)))) s

/-- Whether join traps (R43). A thread that is FREE or an orphan was forked by no running thread, whatever its PARENT still holds (log 25). -/
def joinFault (s : State) (w : Who) (v : Word) : Bool :=
  decide (4 ≤ v.toNat) || decide (v.toNat = w.thr.toNat) ||
    (let c := s.thread ⟨w.core, v.extractLsb' 0 2⟩
     decide (c.parent ≠ w.thr) || c.orphan || decide (c.state = .free) || c.joined)

/-- JOIN, R43. -/
def execJoin (i : Iss) (rd rs1 : BitVec 5) (s : State) : Host.Outcome State Fault Refusal :=
  issue i 0x24 false {} (fun s =>
    let v := (s.thread i.who).reg rs1
    let t : ThrIx := v.extractLsb' 0 2
    let c := s.thread ⟨i.who.core, t⟩
    if joinFault s i.who v then .trap s { code := 0x0D, detail := v.extractLsb' 0 16 }
    else if c.state = .done then
      let s := s.modThread ⟨i.who.core, t⟩ (fun h => { h with state := .free, joined := true })
      .done (s.modThread i.who (fun h => h.setReg rd c.exitWord))
    else .wait (s.modThread i.who (fun h => { h with state := .wait, hold := .join t rd }))) s

/-- END, R41. The thread's older matrix work is done first (R104); items bound to it or taken by it fail with SOURCE 6 (R457). -/
def execEndThread (i : Iss) (rs1 : BitVec 5) (s : State) : Host.Outcome State Fault Refusal :=
  issue i 0x24 false {} (fun s =>
    if s.mmQueued i.who then .wait s
    else
      let v := (s.thread i.who).reg rs1
      let s := s.countRetired i.who
      .gone (s.endThreadOp i.who (v.extractLsb' 0 32) (faultCause 6 0))) s

/-- NOP, R579. -/
def execNop (i : Iss) (s : State) : Host.Outcome State Fault Refusal :=
  issue i 0x26 false { reads := false } (fun s => .done s) s

/-- BRK, R57: trap 0x0B with DETAIL 0xFFFF. -/
def execBrk (i : Iss) (s : State) : Host.Outcome State Fault Refusal :=
  issue i 0x26 false { reads := false } (fun s => .trap s { code := 0x0B, detail := 0xFFFF }) s

/-- A sync.e or fence takes its hold; one with nothing to wait for is over at once. -/
def State.takeHold (s : State) (w : Who) (m : MemHold) : State :=
  (s.modThread w (fun h => { h with memHold := m })).settleHold w

/-- A sync.e takes its hold (R269). Behind outstanding loads it leaves its mark among them, and counts as retired once they have. -/
def State.takeSync (s : State) (w : Who) (mask : BitVec 5) : State :=
  let n := s.nextSeq
  let h := s.thread w
  let s := s.bumpSeq.modThread w (fun g =>
    if h.loads.isEmpty then g
    else { g with loads := g.loads ++ [{ pc := h.pc, long := false, kind := .pass n, parts := [] }] })
  s.takeHold w (.syncE mask n)

/-- SYNC_E, R269; the team DMA bit makes the thread WAIT until its channels are terminal (R235). -/
def execSyncE (i : Iss) (mask : BitVec 5) (s : State) : Host.Outcome State Fault Refusal :=
  issue i 0x26 false { mem := true, load := decide (¬ mask.getLsbD 4), past := true, reads := false } (fun s =>
    if mask.getLsbD 4 ∧ ¬ s.dmaQuiet i.who then
      .wait (s.modThread i.who (fun h => { h with state := .wait, hold := .syncDma mask }))
    else if (s.thread i.who).loads.isEmpty then .done (s.takeSync i.who mask)
    else .sent (s.takeSync i.who mask)) s

/-- The team DMA part of a waiting sync.e is over once every channel of the thread is terminal (R235). -/
def State.wakeSync (s : State) (w : Who) : State :=
  match (s.thread w).hold with
  | .syncDma mask =>
    if s.dmaQuiet w then
      let s := s.modThread w (fun h => { h.advance 4 with state := .run, hold := .none })
      (((s.takeSync w mask).movement w.core).countRetired w).stepEnd w
    else s
  | _ => s

/-- The same for every thread of a team. -/
def State.wakeSyncs (s : State) (t : BitVec 8) : State :=
  ((teamCores t).flatMap whos).foldl State.wakeSync s

/-- A fence of a level (R276): it waits for the thread's matrix work and for its writes, atomics and messages in scope. -/
def fence (i : Iss) (level : BitVec 3) (s : State) : Host.Outcome State Fault Refusal :=
  issue i 0x26 false { mem := true, reads := false } (fun s => .done (s.takeHold i.who (.fence level s.nextSeq))) s

/-- FENCE_T, R276. -/
def execFenceT (i : Iss) (s : State) : Host.Outcome State Fault Refusal := fence i 0 s

/-- FENCE_R, R276. -/
def execFenceR (i : Iss) (s : State) : Host.Outcome State Fault Refusal := fence i 1 s

/-- FENCE_D, R276. -/
def execFenceD (i : Iss) (s : State) : Host.Outcome State Fault Refusal := fence i 2 s

/-- FENCE_M, R276. -/
def execFenceM (i : Iss) (s : State) : Host.Outcome State Fault Refusal := fence i 3 s

/-- FENCE_S, R276. -/
def execFenceS (i : Iss) (s : State) : Host.Outcome State Fault Refusal := fence i 4 s

/-- Drops the data-cache lines of a core that a test names; a fill of such a line in flight is not installed (R74, R75). -/
def State.cacheInv (s : State) (c : CoreIx) (p : Nat → Bool) : State :=
  (s.modCore c (fun x => { x with dcache := x.dcache.filter (fun e => !(p e.1)) })).dropFills c p

/-- CACHE_INV, R74. -/
def execCacheInv (i : Iss) (rs1 rs2 : BitVec 5) (s : State) : Host.Outcome State Fault Refusal :=
  issue i 0x26 false {} (fun s =>
    let h := s.thread i.who
    let a := h.reg rs1
    let len := (h.reg rs2).toNat
    if len = 0 then .done s
    else
      let base := s.lineTag a * 64 + a.toNat % 64
      let first := base / 64
      let last := (base + len - 1) / 64
      if 1024 < last - first + 1 then .done (s.cacheInv i.who.core (fun _ => true))
      else .done (s.cacheInv i.who.core (fun t => decide (first ≤ t ∧ t ≤ last)))) s

/-- CACHE_INVALL, R74. -/
def execCacheInvall (i : Iss) (s : State) : Host.Outcome State Fault Refusal :=
  issue i 0x26 false { reads := false } (fun s => .done (s.cacheInv i.who.core (fun _ => true))) s

/-- CACHE_IINV, R74: the instruction cache of the core holds nothing any more. -/
def execCacheIinv (i : Iss) (s : State) : Host.Outcome State Fault Refusal :=
  issue i 0x26 false { reads := false } (fun s => .done (s.modCore i.who.core (fun x => { x with icache := [] }))) s

end Sys2Proof.Machine
end

