-- ==== Sys2Proof/Machine/Dma.lean ====
section
/-! DEFINITION. Team DMA: channel words, activation checks, the movement of granules, bus errors, and the commands that end a halt
(R221 to R237). -/

namespace Sys2Proof.Machine

/-! ### Shapes (R223) -/

/-- One side of a channel: start, stride and shape word. -/
structure Side where
  start  : Word
  stride : Word
  shape  : Word
  deriving DecidableEq, Repr

def DmaDesc.read (d : DmaDesc) : Side := ⟨d.src, d.srcStride, d.srcShape⟩
def DmaDesc.write (d : DmaDesc) : Side := ⟨d.dst, d.dstStride, d.dstShape⟩

def Side.loc (x : Side) : Bool := x.shape.getLsbD 63
def Side.count (x : Side) : Nat := (x.shape.extractLsb' 32 16).toNat
def Side.len (x : Side) : Nat := (x.shape.extractLsb' 0 32).toNat

/-- Line and byte of granule `g` on a side. -/
def Side.line (x : Side) (g : Nat) : Nat := 64 * g / x.len
def Side.off (x : Side) (g : Nat) : Nat := 64 * g % x.len

/-- Address of granule `g` as the channel names it. -/
def Side.addr (x : Side) (g : Nat) : Word := x.start + BitVec.ofNat 64 (x.line g) * x.stride + BitVec.ofNat 64 (x.off g)

/-- Granules of a channel. -/
def DmaDesc.granules (d : DmaDesc) : Nat := d.read.len * d.read.count / 64

/-- Whether every byte of a local-store side lies below a bound. -/
def Side.below (x : Side) (bound : Nat) : Bool :=
  let a : Int := x.start.toNat
  let z : Int := a + (x.count - 1 : Nat) * x.stride.toInt
  decide (0 ≤ z ∧ a + x.len ≤ bound ∧ z + x.len ≤ bound)

/-! ### Activation (R226, R227) -/

def Side.unaligned (x : Side) : Bool := decide (x.start.toNat % 64 ≠ 0 ∨ x.stride.toNat % 64 ≠ 0 ∨ x.len % 64 ≠ 0)
def Side.empty (x : Side) : Bool := decide (x.len = 0 ∨ x.count = 0)

/-- The lowest failing check of an activation, 0 for none. -/
def State.dmaCheck (s : State) (c : CoreIx) (x : Chan) : BitVec 4 :=
  let r := x.desc.read
  let d := x.desc.write
  let bound := (s.core c).lsLimit.toNat * 4096
  if r.unaligned || d.unaligned then 1
  else if r.empty || d.empty || decide (r.len * r.count ≠ d.len * d.count) then 2
  else if (r.loc && !(r.below bound)) || (d.loc && !(d.below bound)) then 3
  else if x.ntf && ((s.core c).resolve (x.notify.extractLsb' 0 8) (x.notify.extractLsb' 8 8)).isNone then 4
  else 0

/-- The thread of the team that writes GO, through whichever core of the team. -/
def goThread (v : Via) (t : BitVec 8) : Option Who :=
  match v with
  | .thread w => if coreTeam w.core = t then some w else Option.none
  | _ => Option.none

/-- A GO write of a channel that is not queued, active or halted. The activating core is that of the thread, or for a write from outside the team, which
sets WIN, the one whose core window it comes through. -/
def State.dmaActivate (s : State) (v : Via) (c : CoreIx) (ch : BitVec 3) : State :=
  let t := coreTeam c
  let by_ := goThread v t
  let c := (by_.map (fun w => w.core)).getD c
  let x := s.chan t ch
  let code := s.dmaCheck c x
  let s := s.modChan t ch (fun x =>
    { x with statTag := x.tag, core := c.extractLsb' 0 2, thr := (by_.map (fun w => w.thr)).getD 0, win := by_.isNone, lines := 0, nstat := 0,
             nfail := false, code := code, act := x.desc, lsBase := (s.core c).lsBase.toNat * 4096, moved := 0, run := x.run + 1,
             ending := Option.none, bad := Option.none, by_ := by_, kept := [], state := if code = 0 then 1 else 5 })
  if code = 0 then s.modTeam t (fun y => { y with order := y.order ++ [ch] })
  else
    let s := s.countTeam t 0x402 1
    if code = 4 then s else s.dmaNotify t ch

/-- A write of DMA_CTL (R221, R222, R226). -/
def State.dmaCtl (s : State) (v : Via) (c : CoreIx) (ch : BitVec 3) (val : Word) : State :=
  let t := coreTeam c
  let x := s.chan t ch
  if x.open_ then s.modChan t ch (fun x => { x with werr := true })
  else
    let s := s.modChan t ch (fun x => { x with tag := val.extractLsb' 8 8, ntf := val.getLsbD 1 })
    if val.getLsbD 63 then s.dmaActivate v c ch else s

/-- Channel word `n` of R221 as it is written (R222). -/
def State.dmaWrite (s : State) (v : Via) (c : CoreIx) (ch : BitVec 3) (n : Nat) (val : Word) : State :=
  let t := coreTeam c
  let busy := (s.chan t ch).open_
  let put (f : Chan → Chan) : State := s.modChan t ch (fun x => if busy then { x with werr := true } else f x)
  let shape : Word := val &&& 0x8000FFFFFFFFFFFF
  match n with
  | 0 => put (fun x => { x with desc := { x.desc with src := val } })
  | 1 => put (fun x => { x with desc := { x.desc with srcStride := val } })
  | 2 => put (fun x => { x with desc := { x.desc with srcShape := shape } })
  | 3 => put (fun x => { x with desc := { x.desc with dst := val } })
  | 4 => put (fun x => { x with desc := { x.desc with dstStride := val } })
  | 5 => put (fun x => { x with desc := { x.desc with dstShape := shape } })
  | 6 => put (fun x => { x with notify := val.extractLsb' 0 32 })
  | 7 => s.dmaCtl v c ch val
  | 8 => s.modChan t ch (fun x => { x with werr := x.werr && !(val.getLsbD 9) })
  | _ => s

/-- Channel word `n` of R221 as it reads. -/
def Chan.word (x : Chan) (n : Nat) : Word :=
  match n with
  | 0 => x.desc.src
  | 1 => x.desc.srcStride
  | 2 => x.desc.srcShape
  | 3 => x.desc.dst
  | 4 => x.desc.dstStride
  | 5 => x.desc.dstShape
  | 6 => packW [(x.notify.toNat, 0)]
  | 7 => packW [(x.tag.toNat, 8), (b2n x.ntf, 1)]
  | 8 => x.stat
  | _ => 0

/-- DMA_ENG (R228). -/
def State.dmaEng (s : State) (t : BitVec 8) : Word :=
  let x := s.team t
  let st := match x.order with
    | h :: _ => (s.chan t h).state
    | [] => 0
  packW ((x.order.zipIdx.map (fun p => (p.1.toNat, 32 + 3 * p.2))) ++
    [(x.order.length, 8), (b2n x.cerr, 5), (b2n (decide (st = 3)), 4), (b2n (decide (st = 2)), 3), ((x.order.headD 0).toNat, 0)])

/-- DMA_GO, R227. -/
def execDmaGo (v : Via) (c : CoreIx) (ch : BitVec 3) (val : Word) (s : State) : Host.Outcome State Fault Refusal :=
  .next (s.dmaCtl v c ch (val ||| 0x8000000000000000))

/-! ### Movement (R225, R229 to R231) -/

/-- What became of one side of a granule: a place or a bus error's KIND. -/
inductive SideAt where
  | at_ (l : Loc) (page : Option Nat)
  | err (kind : Nat)
  deriving DecidableEq, Repr

/-- The place of granule `g` on a side of the channel of core `c` (R224). -/
def State.sideAt (s : State) (c : CoreIx) (x : Chan) (y : Side) (k : Access) (g : Nat) : SideAt × State :=
  if y.loc then (.at_ (.ls c (x.lsBase + (y.addr g).toNat)) Option.none, s)
  else
    match s.engineResolve c k (y.addr g) 64 with
    | (.at_ l p, s) => (.at_ l p, s)
    | (.absent, s) => (.err 1, s)
    | (.migrate, s) => (.err 2, s)
    | (.violation, s) => (.err 3, s)
    | (.poisoned, s) => (.err 4, s)

/-- What the move of one granule comes to. -/
inductive Move where
  | moved (s : State)
  | wait (s : State)
  | err (s : State) (write : Bool) (kind : Nat)

/-- Where a side of a channel lies at a granule, as far as its translations can be seen now. -/
def State.sideLoc (s : State) (c : CoreIx) (x : Chan) (y : Side) (k : Access) (g : Nat) : Option Loc :=
  match (s.sideAt c x y k g).1 with
  | .at_ l _ => some l
  | .err _ => Option.none

/-- The granules of the read side that share bytes with a place (R225). -/
def State.readsOver (s : State) (c : CoreIx) (x : Chan) (l : Loc) : List (Nat × Loc) :=
  (List.range x.act.granules).filterMap (fun g =>
    match s.sideLoc c x x.act.read .read g with
    | some r => if overlap l 64 r 64 then some (g, r) else Option.none
    | Option.none => Option.none)

/-- The bytes a granule writes: those that overlap the read side end with unpredictable contents (R225, log 6). -/
def State.granuleBytes (s : State) (ov : List (Nat × Loc)) (l : Loc) (bs : List Byte) : List Byte × State :=
  let n := s.free
  let out := bs.zipIdx.map (fun p =>
    if ov.any (fun r => decide (r.2.off ≤ l.off + p.2 ∧ l.off + p.2 < r.2.off + 64)) then Config.freeByte (n + p.2) else p.1)
  if ov.isEmpty then (bs, s) else (out, { s with free := n + 64 })

/-- Keeps the source granules that a write is about to change before they are read, so that no byte outside the overlap is affected (R225). -/
def State.keepSource (s : State) (t : BitVec 8) (ch : BitVec 3) (g : Nat) (ov : List (Nat × Loc)) : State :=
  ov.foldl (fun s r =>
    match r.2 with
    | .remote _ _ => s
    | _ =>
      if g < r.1 ∧ (Sparse.find (s.chan t ch).kept r.1).isNone then
        let bs := s.readLoc r.2 64
        s.modChan t ch (fun x => { x with kept := Sparse.set x.kept r.1 bs })
      else s) s

/-- Granules of a channel's present run whose remote writes are not acknowledged. -/
def State.dmaFlying (s : State) (t : BitVec 8) (ch : BitVec 3) : List Nat :=
  let run := (s.chan t ch).run
  s.writes.filterMap (fun x => match x.dma with
    | some (t', c', g, r) => if t' = t ∧ c' = ch ∧ r = run then some g else Option.none
    | Option.none => Option.none)

/-- LINES: the write-side lines all of whose granules are performed. -/
def State.dmaLines (s : State) (t : BitVec 8) (ch : BitVec 3) : State :=
  let x := s.chan t ch
  let done := (s.dmaFlying t ch).foldl min x.moved
  s.modChan t ch (fun x => { x with lines := BitVec.ofNat 16 (64 * done / x.act.write.len) })

/-- Writes a granule to its place: at once in this module, as a remote write to another (R224). PMC_DMA_BYTES counts it as it is performed (R238). -/
def State.granuleWrite (s : State) (t : BitVec 8) (ch : BitVec 3) (c : CoreIx) (g : Nat) (l : Loc) (page : Option Nat) (bs : List Byte) :
    State :=
  match l with
  | .remote m a =>
    let seq := s.nextSeq
    let f : WFlight := { seq := seq, source := .dma t, src := Option.none, dma := some (t, ch, g, (s.chan t ch).run), loc := l, bytes := bs.map some,
                         page := page, red := Option.none }
    let s := { s with writes := s.writes ++ [f] }.bumpSeq.modChan t ch (fun x => { x with unacked := x.unacked + 1 })
    s.sendWritePackets ⟨c, 0⟩ 1 m a (bs.map some) seq
  | _ => (s.perform l (bs.map some)).countTeam t 0x400 64

/-- Reads the source of a granule: what the channel has kept of it, or the memory it lies in. -/
def State.granuleRead (s : State) (t : BitVec 8) (ch : BitVec 3) (c : CoreIx) (g : Nat) (l : Loc) (page : Option Nat) (u : Upset) :
    (Piece ⊕ Nat) × State :=
  let x := s.chan t ch
  match l, Sparse.find x.kept g with
  | .remote m b, _ =>
    (match s.engineRead ⟨c, 0⟩ (.dma t ch g x.run) m b 64 page with
     | (some (.bytes bs), s) => (.inl (.ok bs), s)
     | (some (.trap e), s) => (.inr (if e.code = 0x07 ∧ e.detail = 5 then 5 else 6), s)
     | (_, s) => (.inl .wait, s))
  | _, some bs => (.inl (.ok bs), s)
  | _, Option.none =>
    match s.senseEngine l 64 u with
    | (some _, s) => (.inr 4, s)
    | (Option.none, s) => (.inl (.ok (s.readLoc l 64)), s)

/-- Moves the next granule of an active channel (R223, R225, R229, R231). -/
def State.moveGranule (s : State) (t : BitVec 8) (ch : BitVec 3) (u : Upset) : Move :=
  let x := s.chan t ch
  let c := chanCore t x
  let g := x.moved
  match s.sideAt c x x.act.read .read g with
  | (.err k, s) => .err s false k
  | (.at_ l page, s) =>
    match s.granuleRead t ch c g l page u with
    | (.inr k, s) => .err s false k
    | (.inl (.ok bs), s) =>
      (match s.sideAt c x x.act.write .write g with
       | (.err k, s) => .err s true k
       | (.at_ l page, s) =>
         let lost := match l with
           | .remote m _ => s.unreachable m
           | _ => false
         if lost then .err s true 5
         else
           let ov := s.readsOver c x l
           let (bs, s) := (s.keepSource t ch g ov).granuleBytes ov l bs
           let s := (s.granuleWrite t ch c g l page bs).dropEngine (fun e => decide (e = .dma t ch g x.run))
           .moved (((s.modChan t ch (fun x => { x with moved := g + 1 })).dmaLines t ch).movement c))
    | (.inl _, s) => .wait s

/-- Whether an active channel issues granules: it is not ending, and no error of a write waits for the writes before it (R231). -/
def Chan.issues (x : Chan) : Bool := decide (x.state = 2) && x.ending.isNone && x.bad.isNone

/-- Moves up to `n` granules; it stops before one that meets a bus error. -/
def State.moveGranules : Nat → State → BitVec 8 → BitVec 3 → State
  | 0, s, _, _ => s
  | n + 1, s, t, ch =>
    if (s.chan t ch).moved < (s.chan t ch).act.granules then
      match s.moveGranule t ch .none with
      | .moved s => State.moveGranules n s t ch
      | .wait s => s
      | .err _ _ _ => s
    else s

/-- Whether the row of a team is being quiesced, so that queued channels wait (R237). -/
def State.teamQuiesced (s : State) (t : BitVec 8) : Bool :=
  match (s.die (t.extractLsb' 6 2)).quiesce with
  | some q => decide (q.row = t.extractLsb' 2 4)
  | Option.none => false

/-- DMA_CHANNEL_START, R229: the head queued channel becomes ACTIVE, and an active head moves granules. -/
def execDmaChannelStart (t : BitVec 8) (granules : Nat) (s : State) : Host.Outcome State Fault Refusal :=
  match (s.team t).order with
  | [] => .next s
  | ch :: _ =>
    let x := s.chan t ch
    if x.state = 1 ∧ ¬ s.teamQuiesced t then
      .next (State.moveGranules granules (s.modChan t ch (fun x => { x with state := 2 })) t ch)
    else if x.issues then .next (State.moveGranules granules s t ch)
    else .next s

/-- A channel ends; threads that waited for it in sync.e go on (R235). -/
def State.dmaFinish (s : State) (t : BitVec 8) (ch : BitVec 3) (code : BitVec 4) : State := (s.dmaEnd t ch code).wakeSyncs t

/-- DMA_CHANNEL_DONE, R229: every write performed and acknowledged; a channel that is to end does so once its issued writes are (R232, R236). -/
def execDmaChannelDone (t : BitVec 8) (s : State) : Host.Outcome State Fault Refusal :=
  match (s.team t).order with
  | [] => .next (s.wakeSyncs t)
  | ch :: _ =>
    let x := s.chan t ch
    if x.state ≠ 2 ∨ x.unacked ≠ 0 then .next (s.wakeSyncs t)
    else
      match x.ending with
      | some code => .next (s.dmaFinish t ch code)
      | Option.none => .next (if x.act.granules ≤ x.moved then s.dmaFinish t ch 4 else s.wakeSyncs t)

/-- A bus error at granule `g` (R231): the fault is latched and the channel HALTED; one that is to end, by an ABORT that came with the error or the fence
of its core, ends as it was to (R233, R237). Read data of the channel is discarded. -/
def State.dmaFault (s : State) (t : BitVec 8) (ch : BitVec 3) (write : Bool) (kind g : Nat) : State :=
  let x := s.chan t ch
  let y := if write then x.act.write else x.act.read
  let f := packW [(1, 63), (b2n write, 62), (kind, 58), (ch.toNat, 48), (y.line g, 32), (y.off g, 0)]
  let s := (s.modTeam t (fun z => { z with fault := f, faultAddr := y.addr g })).dropEngine (fun e => e.ofChan t ch)
  if x.state ≠ 2 then s
  else if x.ending.isSome then s
  else
    let s := s.modChan t ch (fun x => { x with state := 3, moved := g, bad := Option.none })
    ((s.dmaLines t ch).countTeam t 0x401 1).dmaNotify t ch

/-- A write-side error takes effect once every write of the granules before it is performed (R231). -/
def State.dmaSettle (s : State) (t : BitVec 8) (ch : BitVec 3) : State :=
  match (s.chan t ch).bad with
  | some (w, kind, g) => if (s.dmaFlying t ch).any (fun k => decide (k < g)) then s else s.dmaFault t ch w kind g
  | Option.none => s

/-- The acknowledgement of a granule's remote write: performed, or a bus error's KIND, of which that of the lowest granule counts. An error of an earlier
run of the channel no longer does (R231, R232). -/
def State.dmaAck (s : State) (d : BitVec 8 × BitVec 3 × Nat × Nat) (err : Option Nat) : State :=
  let (t, ch, g, run) := d
  let s := s.modChan t ch (fun x => { x with unacked := x.unacked - 1 })
  let x := s.chan t ch
  let s := match err with
    | Option.none => s.countTeam t 0x400 64
    | some kind =>
      if run ≠ x.run ∨ x.state ≠ 2 then s
      else
        match x.bad with
        | some (_, _, g') => if g' ≤ g then s else s.modChan t ch (fun x => { x with bad := some (true, kind, g) })
        | Option.none => s.modChan t ch (fun x => { x with bad := some (true, kind, g) })
  let s := if run = x.run ∧ x.open_ ∧ (s.chan t ch).bad.isNone then s.dmaLines t ch else s
  s.dmaSettle t ch

/-- DMA_BUS_ERROR, R231: the next granule of the active channel meets its bus error, once the writes before it are performed. One that comes with an ABORT
is latched first (R233). -/
def execDmaBusError (t : BitVec 8) (u : Upset) (s : State) : Host.Outcome State Fault Refusal :=
  match (s.team t).order with
  | [] => .next s
  | ch :: _ =>
    let x := s.chan t ch
    if x.state ≠ 2 ∨ x.bad.isSome ∨ x.unacked ≠ 0 ∨ x.act.granules ≤ x.moved then .next s
    else
      match s.moveGranule t ch u with
      | .err s' w k => .next (s'.dmaFault t ch w k x.moved)
      | _ => .next s

/-! ### DMA_CMD (R232, R233) -/

/-- A discarded command sets DMA_ENG.CERR. -/
def State.dmaDiscard (s : State) (t : BitVec 8) : State := s.modTeam t (fun x => { x with cerr := true })

/-- The halted head channel of a team. -/
def State.dmaHalted (s : State) (t : BitVec 8) : Option (BitVec 3) :=
  match (s.team t).order with
  | ch :: _ => if (s.chan t ch).state = 3 then some ch else Option.none
  | [] => Option.none

/-- RESUME: a new run from the granule of the fault, with everything read anew. -/
def State.dmaResume (s : State) (t : BitVec 8) : State :=
  match s.dmaHalted t with
  | some ch => s.modChan t ch (fun x => { x with state := 2, run := x.run + 1 })
  | Option.none => s.dmaDiscard t

def State.dmaSkip (s : State) (t : BitVec 8) : State :=
  match s.dmaHalted t with
  | some ch => (s.dmaStop t ch 6).wakeSyncs t
  | Option.none => s.dmaDiscard t

/-- ABORT: every queued channel ends, and the active or halted one; an active one stops at a granule boundary and ends once its issued writes are
performed. -/
def State.dmaAbort (s : State) (t : BitVec 8) : State := ((s.team t).order.foldl (fun s k => s.dmaStop t k 7) s).wakeSyncs t

/-- DMA_CMD by its OP. -/
def State.dmaCmd (s : State) (t : BitVec 8) (op : Nat) : State :=
  if op = 1 then s.dmaResume t else if op = 2 then s.dmaSkip t else if op = 3 then s.dmaAbort t else s

/-- DMA_RESUME, R232. -/
def execDmaResume (_v : Via) (c : CoreIx) (s : State) : Host.Outcome State Fault Refusal := .next (s.dmaResume (coreTeam c))

/-- DMA_SKIP, R232. -/
def execDmaSkip (_v : Via) (c : CoreIx) (s : State) : Host.Outcome State Fault Refusal := .next (s.dmaSkip (coreTeam c))

/-- DMA_ABORT, R232. -/
def execDmaAbort (_v : Via) (c : CoreIx) (s : State) : Host.Outcome State Fault Refusal := .next (s.dmaAbort (coreTeam c))

end Sys2Proof.Machine
end

