-- ==== Sys2Proof/Machine/Harness.lean ====
section
/-! DEFINITION. Harness barriers: their words, hb.arrive and hb.wait, reports, releases, timeouts, and the quiescence monitor (R322 to
R343). -/

namespace Sys2Proof.Machine

/-! ### Barrier words (R325, R326) -/

def State.barrier (s : State) (d : DieIx) (b : BitVec 8) : Barrier := Sparse.get {} (s.die d).barriers b.toNat

def State.modBarrier (s : State) (d : DieIx) (b : BitVec 8) (f : Barrier → Barrier) : State :=
  s.modDie d (fun x => { x with barriers := Sparse.upd {} x.barriers b.toNat f })

/-- The threads of a die that wait in hb.wait on a barrier. -/
def State.hbWaiters (s : State) (d : DieIx) (b : BitVec 8) : List Who :=
  ((s.listedCores.filter (fun c => coreDie c = d)).flatMap whos).filter (fun w =>
    match (s.thread w).hold with
    | .hbWait b' _ _ => decide (b' = b)
    | _ => false)

def Barrier.cfgWord (x : Barrier) : Word :=
  packW [(b2n x.en, 63), (b2n x.err, 62), (x.level.toNat, 59), (x.unit.toNat, 48), (x.local_.toNat, 32), (x.tmo.toNat, 16),
         (x.dies.toNat, 8)]
def Barrier.sysWord (x : Barrier) : Word := packW [(x.root.toNat, 52), (x.modules.toNat, 32)]

/-- HB_STAT. -/
def State.hbStat (s : State) (d : DieIx) (b : BitVec 8) : Word :=
  let x := s.barrier d b
  packW [(x.gen.toNat, 48), (x.count, 37), (x.early, 26), (x.missmod.toNat, 13), (x.missdie.toNat, 9), (x.misslvl.toNat, 3),
         (b2n x.timedout, 1), (b2n (!(s.hbWaiters d b).isEmpty), 0)]

/-- HB_MISS word `n`: bit c stands for core 64n + c of the die. -/
def Barrier.missWord (x : Barrier) (n : Nat) : Word :=
  BitVec.ofNat 64 (x.miss.foldl (fun a c => if c.toNat % 256 / 64 = n then a + 2 ^ (c.toNat % 64) else a) 0)

/-- The fields of an HB_CFG value. -/
def Barrier.withCfg (x : Barrier) (val : Word) : Barrier :=
  { x with level := val.extractLsb' 59 3, unit := val.extractLsb' 48 8, local_ := val.extractLsb' 32 11,
           tmo := val.extractLsb' 16 16, dies := val.extractLsb' 8 4 }

/-- The conditions of Table: HB_CFG on die `d`. -/
def Barrier.cfgOk (x : Barrier) (d : DieIx) : Bool :=
  let unitOk := if x.level = 0 then decide (x.unit.toNat < 64)
    else if x.level = 1 then decide (x.unit.toNat < 4) else decide (x.unit = 0)
  let diesOk := if x.level = 3 ∨ x.level = 4 then x.dies.getLsbD 0 && x.dies.getLsbD d.toNat else decide (x.dies = 0)
  decide (x.level.toNat ≤ 4) && unitOk && decide (1 ≤ x.local_.toNat ∧ x.local_.toNat ≤ 1024) && diesOk

/-- Whether nothing is counted and no thread waits. -/
def State.hbIdle (s : State) (d : DieIx) (b : BitVec 8) : Bool :=
  let x := s.barrier d b
  decide (x.count = 0 ∧ x.early = 0) && (s.hbWaiters d b).isEmpty

/-- A barrier with EN cleared: nothing is counted. The reports its counters hold are not withdrawn (R335). -/
def Barrier.disabled (x : Barrier) : Barrier :=
  { x with en := false, count := 0, early := 0, came := [], cameEarly := [], reported := false }

/-- The counters of a barrier start empty as HB_CFG sets or clears EN. DESIGN CHOICE (log 58): the spec does not say what becomes of reports counted
before that. -/
def Barrier.fresh (x : Barrier) : Barrier := { x with upDies := 0, upMods := [] }

/-- Trap 0x0C in every thread that waits on the barrier (R326, R335); it is taken once the thread's older matrix work is done (R104). -/
def State.hbTrap (s : State) (d : DieIx) (b : BitVec 8) : State :=
  (s.hbWaiters d b).foldl (fun s w =>
    let t : Trap := { code := 0x0C, detail := b.zeroExtend 16 }
    let s := s.unwait w
    if s.olderWork w then s.modThread w (fun h => { h with hold := .due t })
    else (s.takeTrap w (s.thread w).pc false t).stepEnd w) s

/-- A discarded write sets ERR. -/
def State.hbDiscard (s : State) (d : DieIx) (b : BitVec 8) : State := s.modBarrier d b (fun x => { x with err := true })

/-- A write of HB_CFG (R325, R326). -/
def State.hbCfg (s : State) (v : Via) (c : CoreIx) (b : BitVec 8) (val : Word) : State :=
  let d := coreDie c
  let x := s.barrier d b
  let y := x.withCfg val
  let fits := y.cfgOk d && s.hbIdle d b
  if (ownThread v c).isSome then s.hbDiscard d b
  else if val.getLsbD 63 then
    if fits then s.modBarrier d b (fun _ => { y.fresh with en := true, err := y.err && !(val.getLsbD 62) }) else s.hbDiscard d b
  else
    let s := if fits then s.modBarrier d b (fun _ => { y.disabled.fresh with err := y.err && !(val.getLsbD 62) })
             else s.modBarrier d b (fun x => { x.disabled.fresh with err := true })
    s.hbTrap d b

/-- A write of HB_SYS (R325, R326). -/
def State.hbSys (s : State) (v : Via) (c : CoreIx) (b : BitVec 8) (val : Word) : State :=
  let d := coreDie c
  if (ownThread v c).isSome || !(s.hbIdle d b) then s.hbDiscard d b
  else s.modBarrier d b (fun x => { x with root := val.extractLsb' 52 12, modules := val.extractLsb' 32 13 })

/-- HB_CFG_WRITE, R326. -/
def execHbCfgWrite (v : Via) (c : CoreIx) (b : BitVec 8) (val : Word) (s : State) : Host.Outcome State Fault Refusal :=
  .next (s.hbCfg v c b val)

/-- HB_SYS_WRITE, R326. -/
def execHbSysWrite (v : Via) (c : CoreIx) (b : BitVec 8) (val : Word) (s : State) : Host.Outcome State Fault Refusal :=
  .next (s.hbSys v c b val)

/-- Barrier word `n` as it reads, and as a write to it acts: HB_STAT.TIMEDOUT is W1C. -/
def State.hbRead (s : State) (d : DieIx) (b : BitVec 8) (n : Nat) : Word :=
  let x := s.barrier d b
  match n with
  | 0 => x.cfgWord
  | 1 => x.sysWord
  | 2 => s.hbStat d b
  | 4 => x.missWord 0
  | 5 => x.missWord 1
  | 6 => x.missWord 2
  | 7 => x.missWord 3
  | _ => 0

def State.hbWrite (s : State) (v : Via) (c : CoreIx) (b : BitVec 8) (n : Nat) (val : Word) : State :=
  match n with
  | 0 => s.hbCfg v c b val
  | 1 => s.hbSys v c b val
  | 2 => s.modBarrier (coreDie c) b (fun x => { x with timedout := x.timedout && !(val.getLsbD 1) })
  | _ => s

/-! ### hb.arrive and hb.wait (R328 to R331) -/

/-- Whether hb.arrive raises 0x07 (R329). -/
def Barrier.refuses (x : Barrier) (c : CoreIx) : Bool :=
  !x.en || !(x.covers c) || (decide (x.local_.toNat ≤ x.count) && decide (x.early = x.local_.toNat))

/-- Counts one arrival (R329): the generation it counts toward. -/
def Barrier.arrive (x : Barrier) (c : CoreIx) : BitVec 16 × Barrier :=
  if x.count < x.local_.toNat then (x.gen, { x with count := x.count + 1, came := x.came ++ [c] })
  else (x.gen + 1, { x with early := x.early + 1, cameEarly := x.cameEarly ++ [c] })

/-- Whether a release may reach a die: one descends to it, or the barrier is a system barrier whose root is another module. -/
def State.releaseDue (s : State) (d : DieIx) (b : BitVec 8) : Bool :=
  let x := s.barrier d b
  decide (0 < x.relPend) || (decide (x.level = 4) && decide (x.root ≠ s.mod.id))

/-- Whether a release reaches a die in the same C-cycle: it waits in the queue (R334, R336, log 63). -/
def State.releaseWaits (s : State) (d : DieIx) (b : BitVec 8) : Bool := s.releaseDue d b && s.pending.contains (.hbRelease d b)

/-- HB_ARRIVE, R329. A release of the same C-cycle is applied first; the arrival waits for it and counts toward the new generation (R334). -/
def execHbArrive (i : Iss) (rd rs1 : BitVec 5) (s : State) : Host.Outcome State Fault Refusal :=
  issue i 0x27 false { mem := true } (fun s =>
    let w := i.who
    let d := coreDie w.core
    let b : BitVec 8 := ((s.thread w).reg rs1).extractLsb' 0 8
    let x := s.barrier d b
    if s.releaseWaits d b then .wait s
    else if x.refuses w.core then .trap s (violation 1 0)
    else
      let (g, y) := x.arrive w.core
      let s := ((s.modBarrier d b (fun _ => y)).countCore w.core 0x140 1).movement w.core
      .done (s.modThread w (fun h => h.setReg rd (g.zeroExtend 64)))) s

/-- Whether hb.wait is over: (GEN - gs2) mod 2^16 lies in 1 to 0x7FFF (R331). -/
def hbOver (gen g : BitVec 16) : Bool := decide (1 ≤ (gen - g).toNat ∧ (gen - g).toNat ≤ 0x7FFF)

/-- HB_WAIT, R331. -/
def execHbWait (i : Iss) (rd rs1 rs2 : BitVec 5) (s : State) : Host.Outcome State Fault Refusal :=
  issue i 0x27 false { mem := true } (fun s =>
    let w := i.who
    let b : BitVec 8 := ((s.thread w).reg rs1).extractLsb' 0 8
    let g : BitVec 16 := ((s.thread w).reg rs2).extractLsb' 0 16
    let x := s.barrier (coreDie w.core) b
    if ¬ x.en then .trap s { code := 0x0C, detail := b.zeroExtend 16 }
    else if hbOver x.gen g then .done (s.modThread w (fun h => h.setReg rd (x.gen.zeroExtend 64)))
    else .wait (s.modThread w (fun h => { h with state := .wait, hold := .hbWait b g rd }))) s

/-! ### Reports and releases (R332 to R337) -/

/-- Sends a release down to every participating die of this module. -/
def State.sendReleases (s : State) (b : BitVec 8) (dies : BitVec 4) : State :=
  ([0, 1, 2, 3] : List DieIx).foldl (fun s d =>
    if dies.getLsbD d.toNat then s.modBarrier d b (fun x => { x with relPend := x.relPend + 1 }) else s) s

/-- The packet of KIND 6 that carries a harness report or release to another module (R400): whether it is a release, the barrier and the reporting module
(layout: log 15). -/
def State.sendHb (s : State) (release : Bool) (b : BitVec 8) (dest : BitVec 12) : State :=
  let k := Packet.base 6 0 dest s.mod.id 0
  s.emit (.packet 0 (Packet.seal { k with payload := fitBytes ([(if release then 1 else 0), b] ++ toBytes s.mod.id.toNat 2) 32 }))

/-- A module's report reaches the system counter at the root: the last one sends the release to every module (R332). -/
def State.hbSystem (s : State) (b : BitVec 8) (m : BitVec 12) : State :=
  let x := s.barrier 0 b
  let mods := if x.upMods.contains m then x.upMods else x.upMods ++ [m]
  if mods.length < x.modules.toNat then s.modBarrier 0 b (fun x => { x with upMods := mods })
  else
    let s := s.modBarrier 0 b (fun x => { x with upMods := [] })
    let s := (mods.filter (· ≠ s.mod.id)).foldl (fun s p => s.sendHb true b p) s
    s.sendReleases b x.dies

/-- A die's report reaches the module counter at die 0 (R332). -/
def State.hbModule (s : State) (d : DieIx) (b : BitVec 8) : State :=
  let x := s.barrier 0 b
  let up : BitVec 4 := x.upDies ||| (1 <<< d.toNat)
  if x.dies &&& up ≠ x.dies then s.modBarrier 0 b (fun x => { x with upDies := up })
  else
    let s := s.modBarrier 0 b (fun x => { x with upDies := 0 })
    if x.level = 4 then
      if x.root = s.mod.id then s.hbSystem b s.mod.id else s.sendHb false b x.root
    else s.sendReleases b x.dies

/-- HB_REPORT, R332: a die whose COUNT has reached LOCAL reports, once for each generation; `remote` is the report of another module as it
reaches the root. -/
def execHbReport (d : DieIx) (b : BitVec 8) (remote : Option (BitVec 12)) (s : State) : Host.Outcome State Fault Refusal :=
  match remote with
  | some m =>
    let x := s.barrier 0 b
    .next (if x.level = 4 ∧ x.root = s.mod.id ∧ m ≠ s.mod.id then s.hbSystem b m else s)
  | Option.none =>
    let x := s.barrier d b
    if ¬ x.en ∨ x.reported ∨ x.count ≠ x.local_.toNat then .next s
    else
      let s := s.modBarrier d b (fun x => { x with reported := true })
      .next (if x.level.toNat ≤ 2 then s.modBarrier d b (fun x => { x with relPend := x.relPend + 1 }) else s.hbModule d b)

/-- A release as a die applies it (R332). -/
def Barrier.released (x : Barrier) : Barrier :=
  { x with gen := x.gen + 1, count := x.early, early := 0, came := x.cameEarly, cameEarly := [], reported := false }

/-- Whether the unit of one barrier lies strictly inside the unit of another. -/
def Barrier.inside (x y : Barrier) : Bool :=
  if x.level = 0 then
    decide (y.level ≠ 0) && (decide (y.level ≠ 1) || decide (x.unit.toNat / 16 = y.unit.toNat))
  else decide (x.level = 1 ∧ y.level ≠ 0 ∧ y.level ≠ 1)

/-- Whether two barriers have the same unit. -/
def Barrier.sameUnit (x y : Barrier) : Bool :=
  if x.level = 0 then decide (y.level = 0 ∧ x.unit = y.unit)
  else if x.level = 1 then decide (y.level = 1 ∧ x.unit = y.unit)
  else decide (y.level ≠ 0 ∧ y.level ≠ 1)

/-- A release is a movement in every unit that shares a core with its own (R341). -/
def State.releaseMoves (s : State) (d : DieIx) (x : Barrier) : State :=
  s.modDie d (fun y => { y with barriers := Sparse.mapVals {} (fun _ z =>
    if z.inside x || x.inside z || z.sameUnit x then { z with quietReported := false } else z) y.barriers })

/-- Every thread whose hb.wait condition now holds resumes. -/
def State.hbWake (s : State) (d : DieIx) (b : BitVec 8) : State :=
  let gen := (s.barrier d b).gen
  (s.hbWaiters d b).foldl (fun s w =>
    match (s.thread w).hold with
    | .hbWait _ g rd =>
      if hbOver gen g then
        let s := s.modThread w (fun h => { (h.setReg rd (gen.zeroExtend 64)).advance 4 with state := .run, hold := .none })
        ((s.movement w.core).countRetired w).stepEnd w
      else s
    | _ => s) s

/-- HB_RELEASE, R332; a release that finds EN = 0 is discarded (R337). -/
def execHbRelease (d : DieIx) (b : BitVec 8) (s : State) : Host.Outcome State Fault Refusal :=
  if !(s.releaseDue d b) then .next s
  else
    let s := s.modBarrier d b (fun x => { x with relPend := x.relPend - 1 })
    if ¬ (s.barrier d b).en then .next s
    else .next (((s.modBarrier d b Barrier.released).releaseMoves d (s.barrier d b)).hbWake d b)

/-- Whether the module counter at die 0 is short: it still waits for a die's report. -/
def Barrier.moduleShort (x : Barrier) : Bool := !(x.reported && decide (x.upDies = 0))

/-- MISSLVL of a timeout (R335). -/
def Barrier.missLevel (x : Barrier) (d : DieIx) : BitVec 3 :=
  if x.count < x.local_.toNat then (if x.level.toNat ≤ 2 then x.level else 2)
  else if d ≠ 0 then 3
  else if 3 ≤ x.level.toNat ∧ x.moduleShort then 3
  else 4

/-- The present cores of a barrier's unit with no counted arrival (R325). -/
def State.hbMissing (s : State) (d : DieIx) (x : Barrier) : List CoreIx :=
  (dieCores d).filter (fun c => s.present c && x.covers c && !(x.came.contains c))

/-- MISSDIE of die 0 and MISSMOD of the root's die 0 (R335). -/
def Barrier.missDies (x : Barrier) : BitVec 4 := if x.moduleShort then x.dies &&& ~~~x.upDies else 0
def Barrier.missModules (x : Barrier) : BitVec 13 := if x.relPend = 0 then BitVec.ofNat 13 (x.modules.toNat - x.upMods.length) else 0

/-- HB_TIMEOUT, R335: the record, 0x0C in every waiting thread, and EN, COUNT and EARLY cleared. A release of the same C-cycle wins (R336). -/
def execHbTimeout (d : DieIx) (b : BitVec 8) (s : State) : Host.Outcome State Fault Refusal :=
  let x := s.barrier d b
  if ¬ x.en ∨ x.tmo = 0 ∨ x.count = 0 ∨ s.releaseWaits d b then .next s
  else
    let top := decide (3 ≤ x.level.toNat) && decide (d = 0)
    let root := top && decide (x.level = 4) && decide (x.root = s.mod.id)
    let s := s.modBarrier d b (fun y =>
      { y with timedout := true, misslvl := x.missLevel d, miss := s.hbMissing d x,
               missdie := if top then x.missDies else y.missdie,
               missmod := if root then x.missModules else y.missmod })
    let s := (s.modBarrier d b Barrier.disabled).hbTrap d b
    .next ((s.countDie d 0x620 1).event 0x0004 d (b.toNat + (s.hbStat d b).toNat * 2 ^ 64) 1)

/-! ### Quiescence (R341 to R343) -/

/-- Whether a unit is quiet: every thread of its present cores in RUN, WAIT or HALT is in WAIT, and at least one is. -/
def State.unitQuiet (s : State) (d : DieIx) (x : Barrier) : Bool :=
  let ws := ((s.listedCores.filter (fun c => coreDie c = d ∧ s.present c ∧ x.covers c)).flatMap whos).map (fun w => (s.thread w).state)
  ws.all (fun t => decide (t ≠ .run ∧ t ≠ .halt)) && ws.any (fun t => decide (t = .wait))

/-- KIND and TARGET of a waiting thread (R343). -/
def State.waitEntry (s : State) (w : Who) : Option (Nat × Nat) :=
  match (s.thread w).hold with
  | .join k _ => some (1, k.toNat)
  | .sel mask _ _ _ _ _ _ => some (2, mask.toNat)
  | .snd seq _ _ _ =>
    (match s.msgs.find? (fun m => m.seq = seq) with
     | some m =>
       let occ := if s.mine m.target then (s.queue (idCore m.target) m.queue).occ else 0
       some (3, m.target.toNat + m.queue.toNat * 2 ^ 24 + occ * 2 ^ 32)
     | Option.none => some (3, 0))
  | .hbWait b g _ =>
    let x := s.barrier (coreDie w.core) b
    some (4, b.toNat + g.toNat * 2 ^ 8 + x.count * 2 ^ 24 + x.local_.toNat * 2 ^ 35)
  | .syncDma _ =>
    let t := coreTeam w.core
    let ch := (s.team t).order.headD 0
    some (5, t.toNat % 64 + ch.toNat * 2 ^ 8 + (s.chan t ch).state.toNat * 2 ^ 12)
  | _ => Option.none

/-- The wait-graph entries of a unit, in ascending core and thread order. -/
def State.waitGraph (s : State) (d : DieIx) (x : Barrier) : List (List Byte) :=
  ((s.listedCores.filter (fun c => coreDie c = d ∧ s.present c ∧ x.covers c)).flatMap whos).filterMap (fun w =>
    if (s.thread w).state = .wait then
      (s.waitEntry w).map (fun e =>
        toBytes (e.2 * 2 ^ 64 + e.1 * 2 ^ 28 + w.thr.toNat * 2 ^ 22 + (s.coreId w.core).toNat) 16)
    else Option.none)

/-- The header of the report: its fields in the order R343 names them, padded to 32 bytes (log 14). -/
def quietHeader (b : BitVec 8) (x : Barrier) (d : DieIx) (now n : Nat) : List Byte :=
  [b, x.level.zeroExtend 8, x.unit, d.zeroExtend 8] ++ toBytes n 4 ++ toBytes now 8 ++ List.replicate 16 0

/-- QUIESCENT, R341 to R343: once for each quiet period of a unit, and only for the largest of nested quiet units. -/
def execQuiescent (d : DieIx) (b : BitVec 8) (s : State) : Host.Outcome State Fault Refusal :=
  let x := s.barrier d b
  let larger := (s.die d).barriers.any (fun e => e.2.en && x.inside e.2 && s.unitQuiet d e.2)
  if ¬ x.en ∨ x.quietReported ∨ larger ∨ ¬ s.unitQuiet d x then .next s
  else
    let g := s.waitGraph d x
    let s := s.modDie d (fun y =>
      { y with barriers := Sparse.mapVals {} (fun _ z =>
          if z.inside x || z.sameUnit x then { z with quietReported := true } else z) y.barriers })
    let s := { s with mod := { s.mod with quietLast := quietHeader b x d s.now g.length ++ g.flatten } }
    .next ((s.countDie d 0x621 1).event 0x0005 d (b.toNat + g.length % 65536 * 2 ^ 16) 3)

end Sys2Proof.Machine
end

