-- ==== Sys2Proof/Machine/Reduce.lean ====
section
/-! DEFINITION. Reduction contexts: their words and commands, the credit window, the tests of an arriving tile, the additions and the
completion (R347 to R363). -/

namespace Sys2Proof.Machine

/-! ### The words (R347) -/

def State.redCtx (s : State) (c : CoreIx) (x : BitVec 4) : RedCtx := Sparse.get {} (s.core c).red x.toNat

def State.modRed (s : State) (c : CoreIx) (x : BitVec 4) (f : RedCtx → RedCtx) : State :=
  s.modCore c (fun k => { k with red := Sparse.upd {} k.red x.toNat f })

def RedCtx.ctlWord (x : RedCtx) : Word :=
  packW [(b2n x.ntf, 62), (b2n x.err, 61), (b2n x.fwd, 60), (b2n x.mean, 59), (x.thinm1.toNat, 53), (x.blocks.toNat, 32),
         (x.ranks.toNat, 16), (x.gen.toNat, 8)]
def RedCtx.bufWord (x : RedCtx) : Word := packW [(x.stage.toNat, 42), (x.result.toNat, 10)]
def RedCtx.fwdWord (x : RedCtx) : Word := packW [(x.fwdDest.toNat, 32), (x.fwdStn.toNat, 0)]
def RedCtx.stat (x : RedCtx) : Word :=
  packW [(x.used.toNat, 51), (x.miss.toNat, 39), (x.nstat.toNat, 36), (b2n x.nfail, 35), (x.late.toNat, 16), (x.rej.toNat, 8),
         (x.outcome.toNat, 4), (x.state.toNat, 0)]

/-- Word `n` of a context. -/
def RedCtx.word (x : RedCtx) (n : Nat) : Word :=
  match n with
  | 0 => x.ctlWord
  | 1 => x.bufWord
  | 2 => x.deadline
  | 3 => x.limit
  | 4 => x.notify.zeroExtend 64
  | 5 => x.fwdWord
  | 6 => x.stat
  | _ => 0

/-- Ranks and units of a context. -/
def RedCtx.nr (x : RedCtx) : Nat := x.ranks.toNat + 1
def RedCtx.units (x : RedCtx) : Nat := 4 * (x.blocks.toNat + 1)

/-- The cases in which ARM is refused (R348). -/
def State.redArmBad (s : State) (c : CoreIx) (x : RedCtx) : Bool :=
  decide (x.state = 1) || (x.mean && x.fwd) ||
    (x.ntf && ((s.core c).resolve (x.notify.extractLsb' 0 8) (x.notify.extractLsb' 8 8)).isNone) ||
    decide (lsSize < x.result.toNat * 1024 + 1024 + 1024 * x.units ∨ lsSize < x.stage.toNat * 1024 + 65536)

/-- A context as ARM leaves it (R348). -/
def RedCtx.armed (x : RedCtx) (gen : BitVec 8) (owner : Option ThrIx) : RedCtx :=
  { ntf := x.ntf, err := x.err, fwd := x.fwd, mean := x.mean, thinm1 := x.thinm1, blocks := x.blocks, ranks := x.ranks, gen := gen,
    stage := x.stage, result := x.result, deadline := x.deadline, limit := x.limit, notify := x.notify, fwdDest := x.fwdDest,
    fwdStn := x.fwdStn, state := 1, owner := owner, run := x.run + 1 }

/-- RED_CMD ARM (R348). -/
def State.redArm (s : State) (v : Via) (c : CoreIx) (x : BitVec 4) (gen : BitVec 8) : State :=
  let bad := s.redArmBad c (s.redCtx c x)
  s.modRed c x (fun y => if bad then { y with err := true } else y.armed gen (ownThread v c))

/-! ### The end of a context (R348, R355, R358, R359, R361) -/

/-- The completion message of a context (R361). Its sender kind is one of the three of R293, and the spec does not say which (log 5). -/
def State.redNotify (s : State) (c : CoreIx) (x : BitVec 4) : State :=
  let y := s.redCtx c x
  if ¬ y.ntf then s
  else
    match (s.core c).resolve (y.notify.extractLsb' 0 8) (y.notify.extractLsb' 8 8) with
    | Option.none => s.modRed c x (fun y => { y with nstat := 7, nfail := true })
    | some (target, q, epoch) =>
      let info := packW [((s.coreId c).toNat, 0), (x.toNat, 24), (y.gen.toNat, 32)]
      let (k, s) := s.freeNat
      s.sendMsg (.red c x) (BitVec.ofNat 2 (k % 3)) (if k % 3 = 0 then y.owner.getD 0 else 0) (s.coreId c) target q epoch
        (toBytes y.stat.toNat 8 ++ toBytes info.toNat 8) (decide (y.notify.extractLsb' 16 16 = 0))
        (some (s.now + 1000 * (y.notify.extractLsb' 16 16).toNat))

/-- A context ends FAILED: what it staged is gone, and its message is sent. -/
def State.redFail (s : State) (c : CoreIx) (x : BitVec 4) (outcome : BitVec 4) : State :=
  (s.modRed c x (fun y => { y with state := 3, outcome := outcome, staged := [], partial_ := [] })).redNotify c x

/-- Every item of the owner of a context ends. -/
def State.redFailItems (s : State) (c : CoreIx) (x : BitVec 4) (status cause : Nat) : State :=
  match (s.redCtx c x).owner with
  | some t => s.failItems ⟨c, t⟩ status cause (locThread s ⟨c, t⟩)
  | Option.none => s

/-- RED_CMD DISARM (R348). -/
def State.redDisarm (s : State) (c : CoreIx) (x : BitVec 4) : State := if (s.redCtx c x).state = 1 then s.redFail c x 4 else s

/-- A write of word `n` of a context (R347, R348). -/
def State.redWrite (s : State) (v : Via) (c : CoreIx) (x : BitVec 4) (n : Nat) (val : Word) : State :=
  if n = 7 then
    if val.extractLsb' 0 2 = 1 then s.redArm v c x (val.extractLsb' 8 8)
    else if val.extractLsb' 0 2 = 2 then s.redDisarm c x else s
  else
    s.modRed c x (fun y =>
      if n = 2 then { y with deadline := val }
      else if n = 3 then { y with limit := val }
      else if y.state = 1 ∧ (n = 0 ∨ n = 1 ∨ n = 4 ∨ n = 5) then { y with err := true }
      else if n = 0 then
        { y with ntf := val.getLsbD 62, err := y.err && !(val.getLsbD 61), fwd := val.getLsbD 60, mean := val.getLsbD 59,
                 thinm1 := val.extractLsb' 53 6, blocks := val.extractLsb' 32 16, ranks := val.extractLsb' 16 12 }
      else if n = 1 then { y with stage := val.extractLsb' 42 13, result := val.extractLsb' 10 13 }
      else if n = 4 then { y with notify := val.extractLsb' 0 32 }
      else if n = 5 then { y with fwdDest := val.extractLsb' 32 13, fwdStn := val.extractLsb' 0 8 }
      else y)

/-- RED_ARM, R348. -/
def execRedArm (v : Via) (c : CoreIx) (x : BitVec 4) (gen : BitVec 8) (s : State) : Host.Outcome State Fault Refusal :=
  .next (s.redArm v c x gen)

/-- RED_DISARM, R348. -/
def execRedDisarm (_v : Via) (c : CoreIx) (x : BitVec 4) (s : State) : Host.Outcome State Fault Refusal := .next (s.redDisarm c x)

/-! ### The credit window and the tests of a tile (R352, R356) -/

def Contrib.unit (n : Contrib) : Nat := 4 * n.block.toNat + n.q.toNat

/-- Position of a pair in ascending order, unit first. -/
def RedCtx.index (x : RedCtx) (u r : Nat) : Nat := u * x.nr + r

/-- Included pairs below a position. -/
def RedCtx.before (x : RedCtx) (i : Nat) : Nat :=
  i / x.nr * (x.nr - x.excluded.length) + ((List.range (i % x.nr)).filter (fun r => !(x.excluded.contains r))).length

/-- The lowest included rank from a rank on. -/
def RedCtx.nextRank (x : RedCtx) (r : Nat) : Option Nat :=
  ((List.range (x.nr - r)).map (· + r)).find? (fun k => !(x.excluded.contains k))

/-- Whether a pair lies among the first 65 that are neither added nor excluded. -/
def RedCtx.inWindow (x : RedCtx) (u r : Nat) : Bool :=
  decide (x.index x.unit x.rank ≤ x.index u r ∧ u < x.units ∧ r < x.nr) && !(x.excluded.contains r) &&
    decide (x.before (x.index u r) < x.before (x.index x.unit x.rank) + 65)

/-- Whether a pair has been received: it is staged, or added. -/
def RedCtx.received (x : RedCtx) (u r : Nat) : Bool :=
  decide (x.index u r < x.index x.unit x.rank) || x.staged.any (fun e => decide (e.1.unit = u ∧ e.1.rank.toNat = r))

/-- What the tests of R356 decide of a tile. -/
inductive Verdict where
  | refuse (reason : BitVec 3)
  | held
  | credit
  deriving DecidableEq, Repr

/-- The tests of R356, in their order, and the credit window (R352). -/
def State.redTest (s : State) (n : Contrib) : Verdict :=
  let x := s.redCtx n.target n.ctx
  let behind := (x.gen - n.gen).toNat
  if n.epoch ≠ (s.queue n.target n.ctx).epoch then .refuse 1
  else if 1 ≤ behind ∧ behind ≤ 0x80 then .refuse 6
  else if behind ≠ 0 then .held
  else if x.ranks.toNat < n.rank.toNat ∨ x.blocks.toNat < n.block.toNat then .refuse 3
  else if n.thinm1 ≠ x.thinm1 then .refuse 4
  else if x.excluded.contains n.rank.toNat ∨ x.state = 2 ∨ x.state = 3 then .refuse 6
  else if x.received n.unit n.rank.toNat then .refuse 5
  else if x.state = 1 ∧ x.inWindow n.unit n.rank.toNat then .credit
  else .held

def State.dropContrib (s : State) (seq : Nat) : State := { s with contribs := s.contribs.filter (fun n => n.seq ≠ seq) }

/-- A tile leaves its sender; the slot is EMPTY once the last has left (R113). -/
def State.leaveSlot (s : State) (n : Contrib) : State :=
  if n.from_.isSome then s
  else (s.modSlot n.sender.core n.slot.toNat (fun y => if y.sending ≤ 1 then {} else { y with sending := y.sending - 1 })).movement n.sender.core

/-- THR_REDSTAT of a sender (R356). -/
def State.redMark (s : State) (w : Who) (reason : BitVec 3) : State :=
  s.modThread w (fun h => { h with redRej := true, redReason := reason })

/-- The answer to a contribution of another module, with its refusal or its grant of credit, as status 8 (R400, R405; log 15). -/
def State.redAnswer (s : State) (n : Contrib) (grant : Bool) (reason : BitVec 3) : State :=
  match n.from_ with
  | some (i, seq) => s.sendAck (idModule i) (coreDie (idCore i)) seq (8 * b2n grant + reason.toNat)
  | Option.none => s

/-- A contribution is gone: refused, discarded or dropped (R356, R357). -/
def State.redGone (s : State) (n : Contrib) (reason : BitVec 3) : State :=
  let s := s.dropContrib n.seq
  match n.from_ with
  | some _ => s.redAnswer n false reason
  | Option.none => (if n.credit then s else s.leaveSlot n).redMark n.sender reason

/-- A collector rejects or discards a tile (R356). -/
def State.redRefuse (s : State) (n : Contrib) (reason : BitVec 3) : State :=
  let s := s.modRed n.target n.ctx (fun y =>
    if reason = 6 then { y with late := if y.late = 0xFFFF then y.late else y.late + 1 }
    else { y with rej := if y.rej = 0xFF then y.rej else y.rej + 1 })
  (s.countCore n.target (if reason = 6 then 0x152 else 0x153) 1).redGone n reason

def f32Bytes (xs : List F32) : List Byte := xs.flatMap (fun x => toBytes x.toNat 4)

/-- The free places of the staging area. -/
def RedCtx.freePlaces (x : RedCtx) : List Nat := (List.range 64).filter (fun k => !(x.staged.any (fun e => decide (e.2 = some k))))

/-- Whether a tile can be taken: it is the head's, or the staging area has a place. A place is in use until its tile has been added (R352, R354). -/
def RedCtx.hasRoom (x : RedCtx) (n : Contrib) : Bool :=
  decide (n.unit = x.unit ∧ n.rank.toNat = x.rank) || !x.freePlaces.isEmpty

/-- A tile is accepted: held for the addition if its pair is the head, else written to the staging area, at a place among the free ones
that the spec does not fix (R352; log 5). -/
def State.redAccept (s : State) (n : Contrib) : State :=
  let x := s.redCtx n.target n.ctx
  let s := ((s.dropContrib n.seq).redAnswer n false 0).movement n.target
  let r := n.rank.toNat
  let seen (y : RedCtx) : RedCtx := { y with arrived := if y.arrived.contains r then y.arrived else y.arrived ++ [r] }
  if n.unit = x.unit ∧ r = x.rank then
    s.modRed n.target n.ctx (fun y => let z := seen y; { z with staged := z.staged ++ [(n, Option.none)] })
  else
    let open_ := x.freePlaces
    let (f, s) := s.freeNat
    let k := open_.getD (f % open_.length) 0
    let s := s.modRed n.target n.ctx (fun y => let z := seen y; { z with staged := z.staged ++ [(n, some k)] })
    (s.perform (.ls n.target (x.stage.toNat * 1024 + 1024 * k)) ((f32Bytes n.data).map some)).countCore n.target 0x151 1

/-- A tile, or the request of one that waits for credit, reaches its collector (R356). -/
def State.redArrive (s : State) (seq : Nat) : State :=
  match s.contribs.find? (fun n => n.seq = seq) with
  | Option.none => s
  | some n =>
    if n.away.isSome ∨ (n.credit ∧ n.data.isEmpty) then s
    else
      match s.redTest n with
      | .refuse r => s.redRefuse n r
      | .held => s
      | .credit => if n.credit && (s.redCtx n.target n.ctx).hasRoom n then s.redAccept n else s

/-- RED_TILE_ARRIVAL, R356. -/
def execRedTileArrival (seq : Nat) (s : State) : Host.Outcome State Fault Refusal := .next (s.redArrive seq)

/-- The packet of a tile that leaves for another module: 1 KiB and its check (R400; layout: log 15). -/
def State.sendTilePacket (s : State) (n : Contrib) (target : BitVec 22) : State :=
  let d := coreDie n.sender.core
  let pk := Packet.base 5 1 (idModule target) s.mod.id d
  let handle := packW [(n.gen.toNat, 24), (n.thinm1.toNat, 16), (n.block.toNat, 0)]
  let check := toBytes (n.sum.getD 0).toNat 4 ++ toBytes n.count 4 ++ toBytes (b2n n.sum.isNone) 8
  s.sendReq d
    { pk with sid := s.coreId n.sender.core, thr := n.sender.thr, oparg := BitVec.ofNat 16 (n.rank.toNat + 4096 * n.q.toNat),
              addr := packW [(target.toNat, 0), (n.ctx.toNat, 24), (n.epoch.toNat, 32)], aux := handle.extractLsb' 0 32,
              payload := f32Bytes n.data ++ check } n.seq Option.none

/-- Whether a tile of the same acc.send with a lower number still waits: the four leave in ascending row order (R111). -/
def State.tileBefore (s : State) (n : Contrib) : Bool :=
  n.from_.isNone && s.contribs.any (fun m => m.from_.isNone && !m.credit && decide (m.sender = n.sender ∧ m.slot = n.slot ∧ m.q < n.q))

/-- RED_CREDIT_GRANT, R352: the tile leaves its sender. -/
def execRedCreditGrant (seq : Nat) (s : State) : Host.Outcome State Fault Refusal :=
  match s.contribs.find? (fun n => n.seq = seq) with
  | Option.none => .next s
  | some n =>
    let give (s : State) : State :=
      { s with contribs := s.contribs.map (fun m => if m.seq = seq then { m with credit := true } else m) }
    if n.credit || s.tileBefore n then .next s
    else
      match n.away with
      | some target => .next (((give s).leaveSlot n).sendTilePacket n target)
      | Option.none =>
        if s.redTest n = .credit then .next (((give s).leaveSlot n).redAnswer n true 0) else .next s

/-- RED_CREDIT_TIMEOUT, R357. -/
def execRedCreditTimeout (seq : Nat) (s : State) : Host.Outcome State Fault Refusal :=
  match s.contribs.find? (fun n => n.seq = seq) with
  | Option.none => .next s
  | some n => .next (if n.credit ∨ n.from_.isSome then s else s.redGone n 2)

/-! ### Additions (R163, R354, R355, R360) -/

/-- Adds the tile of the next included rank to the partial sum, or takes it as the partial sum (R354), with the check of R163. -/
def RedCtx.addTile (x : RedCtx) (n : Contrib) (data : List F32) : RedCtx :=
  let nums := data.map (fun v => (ofF32 v).1)
  let part := if x.partial_.isEmpty then data
    else (x.partial_.zip nums).map (fun p => (toF32 ((ofF32 p.1).1.add p.2)).1)
  let budget := if x.partial_.isEmpty then x.budget
    else part.foldl (fun b y => if isFinite y then b.add (rho y) else b) x.budget
  let mags := nums.foldl (fun m v => m.add v.abs) x.mags
  match n.sum with
  | some c =>
    let v := (ofF32 c).1
    { x with partial_ := part, budget := budget.add (v.abs.scaleDown 24), mags := mags, carried := x.carried.add v,
             wild := x.wild || !(isFinite c), count := x.count + n.count }
  | Option.none => { x with partial_ := part, budget := budget, mags := mags, exempt := true, count := x.count + n.count }

/-- Whether a unit holds a value, or a carried sum, that is not finite although no tile of it is exempt: R163 states no outcome there (log 5). -/
def RedCtx.odd (x : RedCtx) : Bool := !x.exempt && (x.wild || !(x.partial_.all isFinite))

/-- The check of a unit (R163). -/
def RedCtx.unitPasses (x : RedCtx) : Bool :=
  let vs := x.partial_.map (fun y => (ofF32 y).1)
  let mags := vs.foldl (fun m v => m.add v.abs) x.mags
  x.exempt || withinBudget (ckSum vs) x.carried x.budget.num x.budget.num mags {}

/-- A value divided by a count, rounded once (R360). -/
def divRound (y : F32) (d : Nat) : F32 :=
  match (ofF32 y).1 with
  | .fin n m e =>
    let a := m * 2 ^ 80
    (toF32 (.fin n (2 * (a / d) + b2n (decide (a % d ≠ 0))) (e - 81))).1
  | v => (toF32 v).1

/-- The ranks used in a result. -/
def RedCtx.usedCount (x : RedCtx) : Nat := x.nr - x.excluded.length

/-- The unit under way is complete: it is checked and written, or the context fails (R355, R359, R360). -/
def State.redUnit (s : State) (c : CoreIx) (x : BitVec 4) : State :=
  let y := s.redCtx c x
  let (f, s) := if y.odd then s.freeNat else (0, s)
  let pass := if y.odd then decide (f % 2 = 0) else y.unitPasses
  let fail (s : State) (outcome : BitVec 4) : State :=
    ((s.countCore c 0x154 1).redFailItems c x stCheck y.unit).redFail c x outcome
  if !pass then fail s 2
  else if y.count ≠ 256 * (y.thinm1.toNat + 1) * y.usedCount then fail s 3
  else
    let out := if y.mean then y.partial_.map (fun v => divRound v (y.usedCount * (y.thinm1.toNat + 1))) else y.partial_
    let s := s.perform (.ls c (y.result.toNat * 1024 + 1024 + 1024 * y.unit)) ((f32Bytes out).map some)
    s.modRed c x (fun y =>
      { y with unit := y.unit + 1, rank := (y.nextRank 0).getD 0, partial_ := [], carried := {}, budget := {}, mags := {},
               exempt := false, wild := false, count := 0 })

/-- The head of the window moves to the next included rank of its unit; past the last the unit is complete. -/
def State.redMove (s : State) (c : CoreIx) (x : BitVec 4) (r : Nat) : State :=
  match (s.redCtx c x).nextRank r with
  | some k => s.modRed c x (fun y => { y with rank := k })
  | Option.none =>
    if (s.redCtx c x).partial_.isEmpty then s.modRed c x (fun y => { y with unit := y.units, rank := 0 }) else s.redUnit c x

/-- RED_ADD, R354 and R355: the tile of the window's head, if it has come. A staged tile is read back from the staging area. -/
def execRedAdd (c : CoreIx) (x : BitVec 4) (s : State) : Host.Outcome State Fault Refusal :=
  let y := s.redCtx c x
  match y.staged.find? (fun e => decide (e.1.unit = y.unit ∧ e.1.rank.toNat = y.rank)) with
  | Option.none => .next s
  | some (n, at_) =>
    if y.state ≠ 1 ∨ (s.core c).fenced then .next s
    else
      let data : List F32 := match at_ with
        | some k =>
          let bs := readMem (s.core c).ls (y.stage.toNat * 1024 + 1024 * k) 1024
          (List.range 256).map (fun j => BitVec.ofNat 32 (leNat ((bs.drop (4 * j)).take 4)))
        | Option.none => n.data
      let s := s.modRed c x (fun y =>
        let z := y.addTile n data
        { z with staged := z.staged.filter (fun e => e.1.seq ≠ n.seq) })
      .next ((s.countCore c 0x150 1).redMove c x (y.rank + 1))

/-! ### Deadlines (R358) -/

/-- The lowest included rank that lacks a pair. -/
def RedCtx.missing (x : RedCtx) : Option Nat :=
  (List.range x.nr).find? (fun r =>
    let left := if x.rank ≤ r then x.units - x.unit else x.units - x.unit - 1
    !(x.excluded.contains r) && decide ((x.staged.filter (fun e => decide (e.1.rank.toNat = r))).length < left))

/-- A context with a missing pair fails with OUTCOME 1 and MISS. -/
def State.redExpire (s : State) (c : CoreIx) (x : BitVec 4) : State :=
  match (s.redCtx c x).missing with
  | Option.none => s
  | some r =>
    let s := s.modRed c x (fun y => { y with miss := BitVec.ofNat 12 r })
    (s.redFailItems c x stDeadline r).redFail c x 1

/-- The tiles of a context that arrive in the C-cycle of its deadline, which are those whose arrival waits in the queue (log 63), have arrived in time
(R359). -/
def State.redInTime (s : State) (c : CoreIx) (x : BitVec 4) : State :=
  s.pending.foldl (fun s k =>
    match k with
    | .redTileArrival seq => if s.contribs.any (fun n => decide (n.seq = seq ∧ n.target = c ∧ n.ctx = x)) then s.redArrive seq else s
    | _ => s) s

/-- RED_DEADLINE, R358 and R359. -/
def execRedDeadline (c : CoreIx) (x : BitVec 4) (s : State) : Host.Outcome State Fault Refusal :=
  let y := s.redCtx c x
  if y.state ≠ 1 ∨ y.deadline = 0 ∨ s.now < y.deadline.toNat then .next s
  else if ¬ y.mean then .next ((s.redInTime c x).redExpire c x)
  else
    let s := s.redInTime c x
    let y := s.redCtx c x
    let s := s.modRed c x (fun y => { y with excluded := (List.range y.nr).filter (fun r => !(y.arrived.contains r)) })
    .next (if y.units ≤ y.unit then s else s.redMove c x y.rank)

/-- RED_LIMIT_EXPIRE, R358. -/
def execRedLimitExpire (c : CoreIx) (x : BitVec 4) (s : State) : Host.Outcome State Fault Refusal :=
  let y := s.redCtx c x
  if y.state ≠ 1 ∨ ¬ y.mean ∨ y.limit = 0 ∨ s.now < y.limit.toNat then .next s else .next (s.redExpire c x)

/-! ### Forwarding and completion (R361) -/

/-- The lane targets of a station. -/
def Core.lanes (x : Core) (station : BitVec 8) : List (BitVec 22) :=
  (List.range 256).filterMap (fun l => (x.resolve station (BitVec.ofNat 8 l)).map (fun e => e.1))

/-- A block goes to one lane target; a target that no core carries, or that is unreachable, receives nothing. -/
def State.redForwardTo (s : State) (c : CoreIx) (x : BitVec 4) (off : Nat) (bs : List Byte) (target : BitVec 22) : State :=
  let send (s : State) (l : Loc) : State :=
    let s := s.modRed c x (fun y => { y with fwdUnacked := y.fwdUnacked + 1 })
    { s with writes := s.writes ++ [({ seq := s.nextSeq, source := .port c, src := Option.none, dma := Option.none, loc := l,
                                       bytes := bs.map some, page := Option.none, red := some (c, x, (s.redCtx c x).run) } : WFlight)] }
  if s.mine target then
    if idCore target = c then s.perform (.ls c off) (bs.map some)
    else if s.present (idCore target) then (send s (.ls (idCore target) off)).bumpSeq else s
  else if s.unreachable (idModule target) then s
  else
    let a := packW [((idModule target).toNat, 52), ((coreDie (idCore target)).toNat, 50), (3, 48), ((idCore target).toNat % 256, 32),
                    (off, 0)]
    let seq := s.nextSeq
    (send s (.remote (idModule target) a)).bumpSeq.sendWritePackets ⟨c, (s.redCtx c x).owner.getD 0⟩ 0 (idModule target) a
      (bs.map some) seq

/-- RED_FORWARD, R361: the next block whose four units are written. -/
def execRedForward (c : CoreIx) (x : BitVec 4) (s : State) : Host.Outcome State Fault Refusal :=
  let y := s.redCtx c x
  if y.state ≠ 1 ∨ ¬ y.fwd ∨ y.blocks.toNat < y.nextFwd ∨ y.unit < 4 * (y.nextFwd + 1) ∨ (s.core c).fenced then .next s
  else
    let bs := readMem (s.core c).ls (y.result.toNat * 1024 + 1024 + 4096 * y.nextFwd) 4096
    let off := y.fwdDest.toNat * 1024 + 4096 * y.nextFwd
    let s := ((s.core c).lanes y.fwdStn).foldl (fun s t => s.redForwardTo c x off bs t) s
    .next (s.modRed c x (fun y => { y with nextFwd := y.nextFwd + 1 }))

/-- The bit string of the ranks used. -/
def RedCtx.usedBits (x : RedCtx) : Nat :=
  (List.range x.nr).foldl (fun a r => if x.excluded.contains r then a else a + 2 ^ r) 0

/-- RED_DONE, R361. -/
def execRedDone (c : CoreIx) (x : BitVec 4) (s : State) : Host.Outcome State Fault Refusal :=
  let y := s.redCtx c x
  if y.state ≠ 1 ∨ y.unit < y.units ∨ (y.fwd ∧ (y.nextFwd ≤ y.blocks.toNat ∨ y.fwdUnacked ≠ 0)) ∨ (s.core c).fenced then .next s
  else
    let s := s.modRed c x (fun y => { y with state := 2, used := BitVec.ofNat 13 y.usedCount })
    let y := s.redCtx c x
    let head := toBytes y.stat.toNat 8 ++ toBytes s.now 8
    let s := s.perform (.ls c (y.result.toNat * 1024)) (head.map some)
    let s := s.perform (.ls c (y.result.toNat * 1024 + 512)) ((toBytes y.usedBits 512).map some)
    .next (s.redNotify c x)

end Sys2Proof.Machine
end

