-- ==== Sys2Proof/Machine/Items.lean ====
section
/-! DEFINITION. Item rings: configuration, doorbells, delivery, binding, records of peers, the audit and deadlines (R450 to R466). -/

namespace Sys2Proof.Machine

/-- Every slot of every ring that holds an entry of the ledger. -/
def State.ledgerSlots (s : State) : List (BitVec 6 × BitVec 10) :=
  s.rings.flatMap (fun e => e.2.ledger.map (fun l => (BitVec.ofNat 6 e.1, BitVec.ofNat 10 l.1)))

/-- Whether an item is outstanding: it has no terminal record yet (R461). -/
def Ledger.outstanding (l : Ledger) : Bool := decide (l.state ≠ 0) && !l.unacked

/-- LOC of the module's own level. -/
def State.locModule (s : State) : BitVec 32 := locOf 4 Option.none (s.mod.id ++ (0 : BitVec 10))

/-- Where an item stands, for its record (R459): its thread, the core of its queue, or the module. -/
def State.itemLoc (s : State) (l : Ledger) : BitVec 32 :=
  if l.state = 3 ∨ l.state = 4 ∨ l.state = 5 then locOf 0 (some l.thr) l.core
  else if l.state = 2 then locOf 0 Option.none l.core
  else s.locModule

/-! ### Configuration (R450, R493, R510) -/

/-- The configuration fields of a ring. -/
def Ring.withCfg (x : Ring) (val : BitVec 256) : Ring :=
  { x with en := val.getLsbD 255, kind := val.extractLsb' 253 2, depth := val.extractLsb' 249 4, msix := val.extractLsb' 243 6,
           peer := val.extractLsb' 231 12, peerRing := val.extractLsb' 225 6, sq := val.extractLsb' 128 64, cq := val.extractLsb' 64 64 }

/-- A ring that is enabled starts at slot 0 and record 0 (log 16). -/
def Ring.started (x : Ring) : Ring := { x with next := 0, records := 0 }

/-- Ends every outstanding item of a ring that is disabled (R450). -/
def State.abortRing (s : State) (r : BitVec 6) : State :=
  (s.ring r).ledger.foldl (fun s l =>
    if l.2.outstanding then s.endItem r (BitVec.ofNat 10 l.1) stAbort 4 s.locModule else s) s

/-- The code with which a ring configuration is refused. -/
def State.ringCode (s : State) (r : BitVec 6) (val : BitVec 256) : Nat :=
  let y := (({} : Ring).withCfg val)
  if ¬ y.en then 0
  else if (s.ring r).en then 9
  else if s.boot.stage ≠ 6 then 10
  else if y.kind = 3 ∨ y.depth.toNat < 4 ∨ 10 < y.depth.toNat ∨ (y.kind = 0 ∧ y.msix.toNat < 4) then 9
  else if y.kind = 2 ∧ y.sq.toNat % (64 * 2 ^ y.depth.toNat) ≠ 0 then 9
  else 0

/-- A write of ITM_RING_CFG that its own rule tests. -/
def State.ringWrite (s : State) (r : BitVec 6) (val : BitVec 256) : Nat × State :=
  let code := s.ringCode r val
  if code ≠ 0 then (code, s)
  else
    let s := if (s.ring r).en then s.abortRing r else s
    (0, s.modRing r (fun x => let y := x.withCfg val; if y.en then y.started else y))

/-- ITM_RING_CFG_WRITE, R450. -/
def execItmRingCfgWrite (p : Path) (r : BitVec 6) (val : BitVec 256) (s : State) : Host.Outcome State Fault Refusal :=
  let code := s.writeCode p (0x4100 + r.toNat) 0 13 32 true
  if code ≠ 0 then .next (s.report p code)
  else
    let (code, s) := s.ringWrite r val
    .next (s.report p code)

/-! ### Doorbells (R452, R453) -/

/-- The submission entry of a slot: the ring SRAM, or an outbound ring's entry area. -/
def State.entryOf (s : State) (r : BitVec 6) (slot : Nat) : BitVec 512 :=
  let x := s.ring r
  if x.kind = 2 then
    BitVec.ofNat 512 (leNat (s.readLoc (.loft (loftOf x.sq).1 ((loftOf x.sq).2 + 64 * slot)) 64))
  else Sparse.get 0 x.entries slot

/-- The submission packet of an outbound item (R452). -/
def State.submitToPeer (s : State) (r : BitVec 6) (slot : BitVec 10) (e : BitVec 512) : State :=
  let x := s.ring r
  if s.unreachable x.peer then s.endItem r slot stLink x.peer.toNat (locOf 5 Option.none (x.peer ++ (0 : BitVec 10)))
  else
    let pk := Packet.base 8 1 x.peer s.mod.id 0
    s.sendReq 0 { pk with skind := 2, sid := s.mod.id ++ (0 : BitVec 10), oparg := BitVec.ofNat 16 x.peerRing.toNat,
                          addr := slot.zeroExtend 64, payload := toBytes e.toNat 64 } 0 Option.none

/-- Takes one entry into the ledger; an entry without a usable ID is skipped (R453). -/
def State.takeEntry (s : State) (r : BitVec 6) (slot : BitVec 10) (e : BitVec 512) : State :=
  let id : Word := e.extractLsb' 0 64
  if id = 0 ∨ (s.ring r).ledger.any (fun l => l.2.outstanding && decide (l.2.id = id)) then s.countMod 0x803 1
  else
    let l : Ledger := { state := 1, id := id, submit := BitVec.ofNat 64 s.now, deadline := e.extractLsb' 64 64, entry := e }
    let s := s.modLed r slot (fun _ => l)
    if (s.ring r).kind = 2 then s.submitToPeer r slot e else s

/-- Takes entries in slot order up to a slot, exclusive; a slot whose item has no record yet is not taken again (R452). -/
def State.takeUpTo : Nat → State → BitVec 6 → Nat → State
  | 0, s, _, _ => s
  | n + 1, s, r, tail =>
    let x := s.ring r
    if x.next = tail then s
    else
      let slot := BitVec.ofNat 10 x.next
      if (x.led slot).state ≠ 0 then s
      else
        let e := s.entryOf r x.next
        let s := s.modRing r (fun x => { x with next := (x.next + 1) % 2 ^ x.depth.toNat })
        State.takeUpTo n (s.takeEntry r slot e) r tail

/-- TAIL. `area`: what the host has written into the entry area before the doorbell; it reaches only a host ring (log 17). -/
def State.dbTail (s : State) (r : BitVec 6) (slot : BitVec 10) (area : List (BitVec 10 × BitVec 512)) : State :=
  let s := if (s.ring r).kind = 0 then
      area.foldl (fun s a => s.modRing r (fun x => { x with entries := Sparse.put 0 x.entries a.1.toNat a.2 })) s
    else s
  let x := s.ring r
  if ¬ x.en ∨ x.kind = 1 ∨ 2 ^ x.depth.toNat ≤ slot.toNat then s
  else State.takeUpTo (2 ^ x.depth.toNat) s r slot.toNat

/-! ### Endings of one C-cycle (R463) -/

/-- Whether an item is delivered to or bound on a die of this module. -/
def State.itemOnDie (s : State) (d : DieIx) (l : Ledger) : Bool :=
  decide (l.state = 2 ∨ l.state = 3 ∨ l.state = 5) && s.mine l.core && decide (coreDie (idCore l.core) = d)

/-- Whether a module, not yet declared, is the peer of an outbound ring. -/
def State.losesPeer (s : State) (x : Ring) (m : BitVec 12) : Bool :=
  decide (x.kind = 2 ∧ x.peer = m ∧ m ≠ s.mod.id) && !(s.fab.unreach.contains m)

/-- Whether a reply to an outstanding probe of a module reaches a die in the same C-cycle (R410). -/
def State.replyWaits (s : State) (m : BitVec 12) : Bool :=
  s.pending.any (fun k => match k with | .probeReply d k _ => decide (k = m) && s.fab.probes.contains (d, m) | _ => false)

/-- Whether an outcome has left an item without its entry in the ledger. -/
def closed (r : BitVec 6) (slot : BitVec 10) (o : Host.Outcome State Fault Refusal) : Bool :=
  match o with
  | .next t => !((t.ring r).led slot).outstanding
  | _ => false

/-- Whether a command that waits in the queue, and so falls into the same C-cycle, is a check, fault, link or SAFEHOLD event that ends an item (R463,
log 63). -/
def State.faultWaits (s : State) (r : BitVec 6) (slot : BitVec 10) : Bool :=
  let x := s.ring r
  let l := x.led slot
  let moduleHeld := decide (x.kind ≠ 2) && !s.boot.modSafe && !s.boot.headStopped
  s.pending.any (fun c =>
    match c with
    | .safeholdEntered => moduleHeld
    | .monitorEvent .shared => moduleHeld || decide (l.state = 4)
    | .monitorEvent (.die d) => decide (l.state = 4) || s.itemOnDie d l && !(s.die d).safehold
    | .lockstepMismatch d => decide (d ≠ 0) && s.itemOnDie d l && !(s.die d).safehold
    | .checkerSelftest d (some (.die e)) => decide (e = d) && s.itemOnDie d l && !(s.die d).safehold
    | .checkerSelftest d (some (.core k)) =>
      decide (coreDie k = d ∧ (l.state = 3 ∨ l.state = 5) ∧ l.core = s.coreId k) && !(s.core k).fenced && (s.core k).retry.isNone
    | .unreachNotice m => s.losesPeer x m
    | .peerUnreach m => s.losesPeer x m && s.fab.probes.any (fun k => decide (k.2 = m)) && !(s.replyWaits m)
    | .checkRetry c f => closed r slot (execCheckRetry c f s)
    | .redAdd c x => closed r slot (execRedAdd c x s)
    | _ => false)

/-- An ABORT or, `deadline`, the deadline of an item: an event of a higher rank in the same C-cycle decides, and this one is discarded as late (R461,
R463). -/
def State.endLow (s : State) (r : BitVec 6) (slot : BitVec 10) (status cause : Nat) (loc : BitVec 32) : State :=
  let aborts := decide (status = stDeadline) && s.pending.any (fun c => decide (c = .itmDbAbort r slot))
  if (s.endsFirst r slot).isNone && (s.faultWaits r slot || aborts) then s.countMod 0x802 1 else s.endItem r slot status cause loc

/-- ABORT. Of an item in its DONE hold, which only a monitor event ends otherwise than DONE (R439), or of one that has ended, it is a later event
(R461). -/
def State.dbAbort (s : State) (r : BitVec 6) (slot : BitVec 10) : State :=
  let l := (s.ring r).led slot
  if l.outstanding && decide (l.state ≠ 4) then s.endLow r slot stAbort 1 (s.itemLoc l)
  else if l.id = 0 then s
  else s.countMod 0x802 1

/-- A write of ITM_DB (R452). -/
def State.itmDb (s : State) (r : BitVec 6) (val : Word) : State :=
  if s.boot.headStopped ∨ ¬ s.boot.hostUp then s
  else if val.extractLsb' 62 2 = 0 then s.dbTail r (val.extractLsb' 0 10) []
  else if val.extractLsb' 62 2 = 1 then s.dbAbort r (val.extractLsb' 0 10)
  else s

/-- ITM_DB_TAIL, R452. -/
def execItmDbTail (r : BitVec 6) (slot : BitVec 10) (area : List (BitVec 10 × BitVec 512)) (s : State) :
    Host.Outcome State Fault Refusal :=
  .next (if s.boot.headStopped ∨ ¬ s.boot.hostUp then s else s.dbTail r slot area)

/-- ITM_DB_ABORT, R452. -/
def execItmDbAbort (r : BitVec 6) (slot : BitVec 10) (s : State) : Host.Outcome State Fault Refusal :=
  .next (if s.boot.headStopped ∨ ¬ s.boot.hostUp then s else s.dbAbort r slot)

/-! ### Delivery (R448, R454, R483) -/

/-- The message of an item. -/
def itemPayload (e : BitVec 512) (handle : BitVec 16) : List Byte :=
  toBytes (e.extractLsb' 0 64).toNat 8 ++ toBytes (e.extractLsb' 64 64).toNat 8 ++ toBytes (e.extractLsb' 160 64).toNat 8 ++
    toBytes (e.extractLsb' 224 32).toNat 4 ++ toBytes handle.toNat 2 ++ [0, 0] ++ toBytes (e.extractLsb' 256 256).toNat 32

/-- Whether a core lies in a row that is quiescing. -/
def State.rowQuiescing (s : State) (c : CoreIx) : Bool :=
  match (s.die (coreDie c)).quiesce with
  | some q => decide (q.row = coreRow c)
  | Option.none => false

/-- The core whose station table resolves items: ITM_RESOLVER without its module field. -/
def State.resolver (s : State) : CoreIx := BitVec.ofNat 10 (leNat (storedIn s.dict.vals 0x4180 0))

/-- Whether an item waits for its queue: the queue's row is quiescing, or a quiesce held the item and the queue is not open again (R448). -/
def State.waitsForQueue (s : State) (l : Ledger) (target : BitVec 22) (q : BitVec 4) : Bool :=
  s.mine target && (s.rowQuiescing (idCore target) || (l.held && !(s.queue (idCore target) q).opn))

/-- ITEM_DELIVER, R454. -/
def execItemDeliver (r : BitVec 6) (slot : BitVec 10) (s : State) : Host.Outcome State Fault Refusal :=
  let x := s.ring r
  let l := x.led slot
  if l.state ≠ 1 ∨ x.kind = 2 ∨ s.dict.ovlState ≠ 0 ∨ s.boot.headStopped ∨ ¬ s.boot.hostUp ∨
      s.msgs.any (fun m => decide (m.origin = .item r slot)) then .next s
  else
    let station : BitVec 8 := l.entry.extractLsb' 128 8
    let lane : BitVec 8 := l.entry.extractLsb' 136 8
    match (s.core s.resolver).resolve station lane with
    | Option.none => .next (s.endItem r slot stFault (faultCause 3 0x0F) s.locModule)
    | some (target, q, epoch) =>
      if s.waitsForQueue l target q then .next s
      else
        .next (s.sendMsg (.item r slot) 2 0 (s.mod.id ++ (0 : BitVec 10)) target q epoch (itemPayload l.entry (handleOf r slot)) false
          Option.none)

/-! ### Items and records of peers (R450, R459, R466, R467) -/

/-- ITEM_SUBMISSION_ARRIVAL, R450: the entry is stored and taken. -/
def State.submission (s : State) (m : BitVec 12) (r : BitVec 6) (slot : BitVec 10) (e : BitVec 512) : State :=
  let x := s.ring r
  if ¬ x.en ∨ x.kind ≠ 1 ∨ x.peer ≠ m ∨ 2 ^ x.depth.toNat ≤ slot.toNat ∨ (x.led slot).state ≠ 0 then s
  else
    (s.modRing r (fun x => { x with entries := Sparse.put 0 x.entries slot.toNat e, next := (slot.toNat + 1) % 2 ^ x.depth.toNat })).takeEntry
      r slot e

def execItemSubmissionArrival (m : BitVec 12) (r : BitVec 6) (slot : BitVec 10) (e : BitVec 512) (s : State) :
    Host.Outcome State Fault Refusal :=
  .next (if s.boot.headStopped ∨ ¬ s.boot.hostUp then s else s.submission m r slot e)

/-- A peer's record ends the item of its outbound ring; a record for no outstanding item is late (R459, R461, R467). -/
def State.peerRecord (s : State) (m : BitVec 12) (r : BitVec 6) (rc : BitVec 256) : State :=
  let x := s.ring r
  if x.kind ≠ 2 ∨ x.peer ≠ m ∨ s.fab.unreach.contains m then s
  else
    match x.ledger.find? (fun l => l.2.outstanding && decide (l.2.id = rc.extractLsb' 0 64)) with
    | Option.none => s.countMod 0x802 1
    | some l =>
      let slot := BitVec.ofNat 10 l.1
      let phase := if x.records / 2 ^ x.depth.toNat % 2 = 0 then 1 else 0
      let s := s.modLed r slot (fun l => { l with state := 0 })
      let s := s.countMod (if rc.extractLsb' 64 16 = 0 then 0x800 else 0x801) 1
      s.putRecord r slot (phase * 2 ^ 255 + rc.toNat % 2 ^ 255)

/-- ITEM_RECORD_ARRIVAL, R459. -/
def execItemRecordArrival (m : BitVec 12) (r : BitVec 6) (rc : BitVec 256) (s : State) : Host.Outcome State Fault Refusal :=
  .next (if s.boot.headStopped ∨ ¬ s.boot.hostUp then s else s.peerRecord m r rc)

/-! ### THR_ITMCMD (R455, R456) -/

/-- RES for a handle that is not outstanding: 4 if an item of the slot has ended, else 1. -/
def Ledger.goneRes (l : Ledger) : BitVec 3 := if l.id = 0 then 1 else 4

def State.setRes (s : State) (w : Who) (r : BitVec 3) : State := s.modThread w (fun h => { h with itmRes := r })

/-- Whether an item is bound to a thread. -/
def State.boundTo (s : State) (w : Who) (l : Ledger) : Bool := decide (l.state = 3 ∧ l.core = s.coreId w.core ∧ l.thr = w.thr)

/-- BIND (R455, R458). -/
def State.itmBind (s : State) (w : Who) (handle : BitVec 16) : State :=
  let r : BitVec 6 := handle.extractLsb' 10 6
  let slot : BitVec 10 := handle.extractLsb' 0 10
  let l := (s.ring r).led slot
  if !l.outstanding || decide ((s.ring r).kind = 2) then s.setRes w 1
  else if s.boundTo w l then s.setRes w 0
  else if l.state = 3 then s.setRes w 2
  else if l.state = 4 then s.setRes w 4
  else if 8 ≤ (s.thread w).bound.length then s.setRes w 3
  else
    let s := s.unbind l handle
    let s := s.modLed r slot (fun l => { l with state := 3, core := s.coreId w.core, thr := w.thr })
    (s.modThread w (fun h => { h with bound := h.bound ++ [handle] })).setRes w 0

/-- RES with which DONE or FAIL is refused, if it is: an item in its DONE hold is decided (R461). -/
def State.endRes (s : State) (w : Who) (handle : BitVec 16) : Option (BitVec 3) :=
  let l := (s.ring (handle.extractLsb' 10 6)).led (handle.extractLsb' 0 10)
  if !l.outstanding then some l.goneRes
  else if s.boundTo w l then Option.none
  else if l.state = 4 then some 4
  else if l.state = 3 then some 2
  else some 1

/-- A refused DONE or FAIL: one of an item that is decided is a later event (R461). -/
def State.refuseEnd (s : State) (w : Who) (r : BitVec 3) : State := (if r = 4 then s.countMod 0x802 1 else s).setRes w r

/-- Whether steps 1 and 2 of fence.s are complete for a thread (R276). -/
def State.doneReady (s : State) (w : Who) : Bool :=
  (s.thread w).loads.isEmpty && s.memHoldOver w (.fence 4 s.nextSeq)

/-- DONE, once the fence is complete: the hold of R439 starts and the item is unbound (R456). -/
def State.itmDone (s : State) (w : Who) (handle : BitVec 16) : State :=
  match s.endRes w handle with
  | some r => s.refuseEnd w r
  | Option.none =>
    (s.startHold w (handle.extractLsb' 10 6) (handle.extractLsb' 0 10)).setRes w 0

/-- FAIL (R456). -/
def State.itmFail (s : State) (w : Who) (handle : BitVec 16) (cause : BitVec 12) : State :=
  match s.endRes w handle with
  | some r => s.refuseEnd w r
  | Option.none => (s.closeFailed w (handle.extractLsb' 10 6) (handle.extractLsb' 0 10) cause).setRes w 0

/-- Whether a thread stands where a control-word write of it takes effect (R48). -/
def State.mayCommand (s : State) (w : Who) : Bool :=
  s.canIssue w { mem := true }

/-- ITM_BIND, R455. -/
def execItmBind (w : Who) (handle : BitVec 16) (s : State) : Host.Outcome State Fault Refusal :=
  .next (if s.mayCommand w then s.itmBind w handle else s)

/-- ITM_DONE, R456: it waits for the fence. -/
def execItmDone (w : Who) (handle : BitVec 16) (s : State) : Host.Outcome State Fault Refusal :=
  .next (if s.mayCommand w ∧ s.doneReady w then s.itmDone w handle else s)

/-- ITM_FAIL, R456. -/
def execItmFail (w : Who) (handle : BitVec 16) (cause : BitVec 12) (s : State) : Host.Outcome State Fault Refusal :=
  .next (if s.mayCommand w then s.itmFail w handle cause else s)

/-! ### Audit and deadlines (R457, R458, R462) -/

/-- Whether the thread of a bound or taken item is in RUN, WAIT or HALT and holds its handle. -/
def State.auditThread (s : State) (l : Ledger) (handle : BitVec 16) : Bool :=
  let h := s.thread ⟨l.core.extractLsb' 0 10, l.thr⟩
  decide (h.state = .run ∨ h.state = .wait ∨ h.state = .halt) &&
    (if l.state = 3 then h.bound.contains handle else h.taken.contains handle)

/-- What the audit does to one item. -/
def State.auditItem (s : State) (r : BitVec 6) (slot : BitVec 10) : State :=
  let l := (s.ring r).led slot
  if l.unacked then s
  else if (l.state = 3 ∨ l.state = 5) ∧ !(s.auditThread l (handleOf r slot)) then s.endItem r slot stFault (faultCause 6 0) (s.itemLoc l)
  else if l.state = 2 ∧ s.mine l.core ∧ (s.queue (idCore l.core) l.queue).epoch ≠ l.epoch then
    s.endItem r slot stFault (faultCause 6 0) (s.itemLoc l)
  else s

/-- LEDGER_AUDIT, R457. -/
def execLedgerAudit (s : State) : Host.Outcome State Fault Refusal :=
  .next (if s.boot.headStopped ∨ ¬ s.boot.hostUp then s else s.ledgerSlots.foldl (fun s k => s.auditItem k.1 k.2) s)

/-- ITEM_DEADLINE, R462: an item in its DONE hold is not affected. -/
def execItemDeadline (r : BitVec 6) (slot : BitVec 10) (s : State) : Host.Outcome State Fault Refusal :=
  let l := (s.ring r).led slot
  if !l.outstanding ∨ l.state = 4 ∨ l.deadline = 0 ∨ s.now < l.deadline.toNat then .next s
  else .next (s.endLow r slot stDeadline 0xFFFF (s.itemLoc l))

end Sys2Proof.Machine
end

