-- ==== Sys2Proof/Machine/Control.lean ====
section
/-! DEFINITION. The control space of a core as one map: what each word reads and what a write to it does, by which path (R11, R35, R37, R578,
R581); csr.r and csr.w; the debug path (R558, R559). -/

namespace Sys2Proof.Machine

/-! ### The thread control block (R37, R91, R139, R259, R279, R356, R455) -/

def ThrState.code : ThrState → Nat
  | .free => 0
  | .run => 1
  | .wait => 2
  | .done => 3
  | .halt => 4
  | .fenced => 5

/-- THR_STATE. -/
def Thread.stateWord (h : Thread) : Word := packW [(h.exit.toNat, 32), (h.parent.toNat, 8), (b2n h.orphan, 4), (h.state.code, 0)]

/-- TLD_CURSOR. It reads 0 while no tile load is pending. -/
def Thread.cursorWord (h : Thread) : Word :=
  if h.tldPend then
    let c := h.cursor
    packW [(b2n c.sc, 15), (c.tile.toNat, 12), (b2n c.src, 11), (c.strm.toNat, 8), (c.prior.toNat, 5), (c.row.toNat, 0)]
  else 0

/-- Word at offset `o` of a thread's block. -/
def Thread.blockWord (h : Thread) (o : Nat) : Word :=
  match o with
  | 0x00 => h.stateWord
  | 0x08 => packW [(b2n h.tldPend, 1), (b2n h.inTrap, 0)]
  | 0x10 => h.tvec
  | 0x18 => h.epc
  | 0x20 => h.cause.zeroExtend 64
  | 0x28 => h.tval
  | 0x30 => h.fxstat.zeroExtend 64
  | 0x38 => h.pitch
  | 0x40 => h.scratch
  | 0x48 => h.cursorWord
  | 0x50 => h.fpstat.zeroExtend 64
  | 0x58 => h.xlf
  | 0x60 => h.xpte
  | 0x68 => packW [(b2n h.lost, 63), (min h.pend 0xFFFF, 0)]
  | 0x70 => packW [(b2n h.redRej, 63), (h.redReason.toNat, 56)]
  | 0x78 => packW [(h.bound.length, 8), (h.itmRes.toNat, 0)]
  | _ => 0

/-- A write to a word of the block that holds data: RW words take the value, W1C words lose the bits written as 1. -/
def Thread.blockWrite (h : Thread) (o : Nat) (val : Word) : Thread :=
  match o with
  | 0x10 => { h with tvec := val }
  | 0x18 => { h with epc := val }
  | 0x30 => { h with fxstat := h.fxstat &&& ~~~(val.extractLsb' 0 2) }
  | 0x38 => { h with pitch := val }
  | 0x40 => { h with scratch := val }
  | 0x50 => { h with fpstat := h.fpstat &&& ~~~(val.extractLsb' 0 9) }
  | 0x68 => { h with lost := h.lost && !(val.getLsbD 63) }
  | 0x70 => { h with redRej := h.redRej && !(val.getLsbD 63) }
  | _ => h

/-- THR_ITMCMD (R455). -/
def State.itmCmd (s : State) (w : Who) (val : Word) : State :=
  let op := (val.extractLsb' 62 2).toNat
  let handle : BitVec 16 := val.extractLsb' 0 16
  if op = 1 then s.itmBind w handle
  else if op = 2 then s.itmDone w handle
  else if op = 3 then s.itmFail w handle (val.extractLsb' 32 12)
  else s

/-- A write to a thread's block. A thread's write to another thread's block is discarded (R37). -/
def State.blockStore (s : State) (v : Via) (w : Who) (o : Nat) (val : Word) : State :=
  if !(streamRight v w.core w.thr) then s
  else if o = 0x80 then s.itmCmd w val
  else s.modThread w (fun h => h.blockWrite o val)

/-- Thread and offset of an access to 0x100 to 0x4FF or to the alias window, which has none through the core window (R37). -/
def blockOf (v : Via) (c : CoreIx) (off : Nat) : Option (ThrIx × Nat) :=
  if 0x100 ≤ off ∧ off < 0x500 then some (BitVec.ofNat 2 ((off - 0x100) / 0x100), off % 0x100)
  else if 0xF00 ≤ off ∧ off < 0x1000 then (ownThread v c).map (fun t => (t, off % 0x100))
  else Option.none

/-! ### The size table's copy (R17, R413) -/

/-- Entry behind word `n` of the copy. -/
def sizeEntry (n : Nat) : Nat × Nat :=
  if n = 0 then (0x11F0, 0)
  else if n < 10 then (0x1100 + (n - 1), 0)
  else if n < 14 then (0x1110, n - 10)
  else if n < 18 then (0x1111, n - 14)
  else if n = 18 then (0x1112, 0)
  else if n < 83 then (0x1120 + (n - 19) / 16, (n - 19) % 16)
  else if n = 83 then (0x1130, 0)
  else (0x1131, n - 84)

def State.sizeWord (s : State) (n : Nat) : Word :=
  if n < 100 then BitVec.ofNat 64 (leNat (s.dictValue (sizeEntry n).1 (sizeEntry n).2))
  else if n < 164 then BitVec.ofNat 64 (leNat (((s.dictValue 0x1132 0).drop (8 * (n - 100))).take 8))
  else 0

/-! ### Reading -/

/-- Words of the core itself, below 0x100. -/
def State.coreWord (s : State) (c : CoreIx) (off : Nat) : Word :=
  let x := s.core c
  match off with
  | 0x00 => (s.coreId c).zeroExtend 64
  | 0x08 => BitVec.ofNat 64 (s.physCol c)
  | 0x40 => x.splitWord
  | 0x48 => x.accState
  | 0x50 => x.tileState
  | 0x58 => x.chkstat.zeroExtend 64
  | 0x60 => x.lsBaseWord
  | 0x68 => x.lsBoundWord
  | _ => 0

/-- Words of the DMA engine, 0x3000 to 0x341F, and of XL_INV. -/
def State.engineWord (s : State) (c : CoreIx) (off : Nat) : Word :=
  let t := coreTeam c
  if off < 0x3400 then (s.chan t (BitVec.ofNat 3 ((off - 0x3000) / 0x80))).word (off % 0x80 / 8)
  else if off = 0x3400 then s.dmaEng t
  else if off = 0x3408 then (s.team t).fault
  else if off = 0x3410 then (s.team t).faultAddr
  else if off = 0x3508 then packW [(b2n (s.core c).xlErr, 1), (b2n (s.core c).xlInv.isSome, 0)]
  else 0

/-- A queue word; QUE_DROP clears on reading (R320). -/
def State.queWord (s : State) (v : Via) (c : CoreIx) (q : BitVec 4) (o : Nat) : Word × State :=
  let x := s.queue c q
  match o with
  | 0x00 => (packW [(x.base.toNat, 8)], s)
  | 0x08 => (x.ctlWord, s)
  | 0x18 => (x.statWord, s)
  | 0x20 => (s.queHeadWord c q, s)
  | 0x28 => s.queDropRead v c q
  | _ => (0, s)

/-- The word at an offset of a core's control space, and the state after the read. Offsets without a word read zero. -/
def State.ctlRead (s : State) (v : Via) (c : CoreIx) (off : Nat) : Word × State :=
  let x := s.core c
  let data (r : Word) : Word × State := (r, s)
  if off < 0x100 then data (s.coreWord c off)
  else if off < 0x1000 then
    data (match blockOf v c off with
      | some (t, o) => (x.thread t).blockWord o
      | Option.none => 0)
  else if off < 0x2000 then data (s.sizeWord ((off - 0x1000) / 8))
  else if off < 0x2800 then
    data ((s.stream ⟨c, BitVec.ofNat 2 ((off - 0x2000) / 0x200)⟩ (BitVec.ofNat 3 (off % 0x200 / 0x40))).word (off % 0x40 / 8))
  else if off < 0x2900 then
    data ((s.stream ⟨c, BitVec.ofNat 2 ((off - 0x2800) / 0x40)⟩ (BitVec.ofNat 3 (off % 0x40 / 8))).relayWord)
  else if off < 0x3000 then data 0
  else if off < 0x4000 then data (s.engineWord c off)
  else if off < 0x4400 then s.queWord v c (BitVec.ofNat 4 ((off - 0x4000) / 0x40)) (off % 0x40)
  else if off < 0x5000 then data 0
  else if off < 0x5800 then data (Sparse.get 0 x.stnEntry ((off - 0x5000) / 8))
  else if off < 0x6000 then data (Sparse.get 0 x.stnLane ((off - 0x5800) / 8))
  else if off = 0x6000 then data (packW [(b2n x.stnErr, 0)])
  else if off < 0x6400 then data 0
  else if off < 0x6800 then data ((s.redCtx c (BitVec.ofNat 4 ((off - 0x6400) / 0x40))).word (off % 0x40 / 8))
  else if off < 0x7000 then data 0
  else if off < 0xB000 then data (s.hbRead (coreDie c) (BitVec.ofNat 8 ((off - 0x7000) / 0x40)) (off % 0x40 / 8))
  else if off < 0xC400 then s.pmcRead v c off
  else if off = 0xE000 then data x.pmcCtlWord
  else if off = 0xE008 then data x.pmcStatWord
  else if off = 0xE010 then data s.mod.snapT
  else if 0xE100 ≤ off ∧ off < 0xEC80 then data (s.dbgRead v c off)
  else data 0

/-! ### Writing -/

/-- A W1C write of VALID clears ACC_CHKSTAT (R159). -/
def Core.chkClear (x : Core) (val : Word) : Core := if val.getLsbD 16 then { x with chkstat := 0 } else x

def State.coreStore (s : State) (v : Via) (c : CoreIx) (off : Nat) (val : Word) : State :=
  match off with
  | 0x10 => s.coreStart v c val
  | 0x40 => s.accSplit c val
  | 0x58 => s.modCore c (fun x => x.chkClear val)
  | 0x60 => s.lsWindowWrite v c false val
  | 0x68 => s.lsWindowWrite v c true val
  | _ => s

def State.engineStore (s : State) (v : Via) (c : CoreIx) (off : Nat) (val : Word) : State :=
  let t := coreTeam c
  if off < 0x3400 then s.dmaWrite v c (BitVec.ofNat 3 ((off - 0x3000) / 0x80)) (off % 0x80 / 8) val
  else if off = 0x3400 then s.modTeam t (fun x => { x with cerr := x.cerr && !(val.getLsbD 5) })
  else if off = 0x3408 then s.modTeam t (fun x => if val.getLsbD 63 then { x with fault := x.fault &&& 0x7FFFFFFFFFFFFFFF } else x)
  else if off = 0x3418 then s.dmaCmd t (val.extractLsb' 0 2).toNat
  else if off = 0x3500 then s.xlInvWrite c val
  else if off = 0x3508 then s.modCore c (fun x => { x with xlErr := x.xlErr && !(val.getLsbD 1) })
  else s

def State.queStore (s : State) (c : CoreIx) (q : BitVec 4) (o : Nat) (val : Word) : State :=
  match o with
  | 0x00 => s.queConfig c q false val
  | 0x08 => s.queConfig c q true val
  | 0x10 => s.queCmd c q (val.extractLsb' 0 2).toNat
  | _ => s

/-- A write to the word at an offset of a core's control space. A read-only word and an offset without one ignore it (R11). -/
def State.ctlWrite (s : State) (v : Via) (c : CoreIx) (off : Nat) (val : Word) : State :=
  if off < 0x100 then s.coreStore v c off val
  else if off < 0x1000 then
    match blockOf v c off with
    | some (t, o) => s.blockStore v ⟨c, t⟩ o val
    | Option.none => s
  else if off < 0x2000 then s
  else if off < 0x2800 then
    s.feedWrite v c (BitVec.ofNat 2 ((off - 0x2000) / 0x200)) (BitVec.ofNat 3 (off % 0x200 / 0x40)) (off % 0x40 / 8) val
  else if off < 0x2900 then s.relayWrite v c (BitVec.ofNat 2 ((off - 0x2800) / 0x40)) (BitVec.ofNat 3 (off % 0x40 / 8)) val
  else if off < 0x3000 then s
  else if off < 0x4000 then s.engineStore v c off val
  else if off < 0x4400 then s.queStore c (BitVec.ofNat 4 ((off - 0x4000) / 0x40)) (off % 0x40) val
  else if off < 0x5000 then s
  else if off < 0x5800 then s.stnEntryWrite v c (BitVec.ofNat 8 ((off - 0x5000) / 8)) val
  else if off < 0x6000 then s.stnLaneWrite v c (BitVec.ofNat 8 ((off - 0x5800) / 8)) val
  else if off = 0x6000 then s.modCore c (fun x => { x with stnErr := x.stnErr && !(val.getLsbD 0) })
  else if off < 0x6400 then s
  else if off < 0x6800 then s.redWrite v c (BitVec.ofNat 4 ((off - 0x6400) / 0x40)) (off % 0x40 / 8) val
  else if off < 0x7000 then s
  else if off < 0xB000 then s.hbWrite v c (BitVec.ofNat 8 ((off - 0x7000) / 0x40)) (off % 0x40 / 8) val
  else if off = 0xE000 then s.pmcCtl v c val
  else if off = 0xE008 then s.modCore c (fun x => x.pmcStatW val)
  else if 0xE100 ≤ off ∧ off < 0xEC80 then s.dbgWrite v c off val
  else if 0xF000 ≤ off ∧ off < 0xF200 then s.itmDb (BitVec.ofNat 6 ((off - 0xF000) / 8)) val
  else s

/-- Whether a write is a DONE that still waits for the fence before it (R456). -/
def State.ctlWaits (s : State) (v : Via) (c : CoreIx) (off : Nat) (val : Word) : Bool :=
  match blockOf v c off with
  | some (t, o) =>
    streamRight v c t && decide (o = 0x80 ∧ val.extractLsb' 62 2 = 2) && !(s.doneReady ⟨c, t⟩)
  | Option.none => false

/-! ### csr.r and csr.w (R61) -/

/-- CSR_R, R61: performed at M1 (R48). -/
def execCsrR (i : Iss) (rd : BitVec 5) (off : BitVec 16) (s : State) : Host.Outcome State Fault Refusal :=
  issue i 0x03 false { mem := true, reads := false } (fun s =>
    if off.toNat % 8 ≠ 0 then .trap s (illegal 0x03)
    else
      let (x, s) := s.ctlRead (.thread i.who) i.who.core off.toNat
      .done (s.modThread i.who (fun h => h.setReg rd x))) s

/-- CSR_W, R61. -/
def execCsrW (i : Iss) (rs1 : BitVec 5) (off : BitVec 16) (s : State) : Host.Outcome State Fault Refusal :=
  issue i 0x0C false { mem := true } (fun s =>
    let val := (s.thread i.who).reg rs1
    if off.toNat % 8 ≠ 0 then .trap s (illegal 0x0C)
    else if s.ctlWaits (.thread i.who) i.who.core off.toNat val then .wait s
    else .done (s.ctlWrite (.thread i.who) i.who.core off.toNat val)) s

/-! ### The debug path (R558 to R560) -/

/-- The instructions of the TAP (R560). -/
inductive TapInsn where
  | bypass | idcode | samplePreload | extest | dbgacc
  deriving DecidableEq, Repr

/-- The instruction the TAP decodes: EXTEST and DBGACC are BYPASS while DBG_ENABLE is 0, and EXTEST while RESET_N is not asserted (R561). -/
def State.tapDecode (s : State) (i : TapInsn) : TapInsn :=
  match i with
  | .extest => if s.debugOn ∧ s.boot.resetN = false then .extest else .bypass
  | .dbgacc => if s.debugOn then .dbgacc else .bypass
  | .bypass => .bypass
  | .idcode => .idcode
  | .samplePreload => .samplePreload

/-- The IDCODE register of the TAP (R560). -/
def tapIdcode : BitVec 32 := Config.hwRev.extractLsb' 0 4 ++ 0x4B04#16 ++ Config.jep106 ++ 1#1

/-- The DBGACC register as Capture-DR returns it after an access (R560). -/
def State.tapDbgacc (s : State) : BitVec 136 := s.mod.dbgData ++ s.mod.dbgAddr ++ 0#4 ++ s.mod.dbgStatus ++ s.mod.dbgOp

/-- The place a debug-path access names: module field 0xFFF, space 1 to 3, 8 bytes, a control word whole (R558, R581). -/
def State.debugPlace (s : State) (a : Word) : Option Loc :=
  if adModule a ≠ 0xFFF ∨ adSpace a = 0 ∨ ¬ s.boot.mainOn then Option.none
  else
    match s.ownPlace (adSpace a) (adDie a) (adOff a) 8 true a with
    | .inl _ => Option.none
    | .inr (.ctl c o) => if o % 8 = 0 then some (.ctl c o) else Option.none
    | .inr l => some l

/-- Status and data of a debug-path access, and the state after it: a read changes nothing (R559). -/
def State.debugDo (s : State) (write : Bool) (a data : Word) : BitVec 2 × Word × State :=
  match s.debugPlace a with
  | Option.none => (2, 0, s)
  | some (.ctl c o) =>
    if write then (0, data, s.ctlWrite .debug c o data) else (0, (s.ctlRead .debug c o).1, s)
  | some l =>
    if write then (0, data, s.perform l ((toBytes data.toNat 8).map some))
    else if s.poisoned l 8 then (2, 0, s)
    else (0, BitVec.ofNat 64 (leNat (s.readLoc l 8)), s)

/-- A debug access leaves its operation, address, status and data in DBGACC (R560). -/
def State.debugRun (s : State) (write : Bool) (a data : Word) : State :=
  let (st, x, s) := s.debugDo write a data
  { s with mod := { s.mod with dbgOp := if write then 2 else 1, dbgAddr := a, dbgStatus := st, dbgData := x } }

/-- DEBUG_ACCESS, R558: through the TAP, or as a write of DBG_ACCESS by the host. -/
def execDebugAccess (tap write : Bool) (addr data : Word) (s : State) : Host.Outcome State Fault Refusal :=
  if tap then .next (if s.tapDecode .dbgacc = .dbgacc then s.debugRun write addr data else s)
  else
    let code := s.writeCode .host 0xF100 0 13 24 true
    if code ≠ 0 then .next (s.report .host code)
    else if ¬ s.debugOn then .next (s.report .host 9)
    else .next ((s.debugRun write addr data).report .host 0)

end Sys2Proof.Machine
end

