-- ==== Sys2Proof/Machine/MemScalar.lean ====
section
/-! DEFINITION. Scalar loads and stores, the atomics and reservations (R62 to R68), and the return of data to a core: cache fills, uncached
reads, atomics (R72 to R76, R195 to R200, R268). -/

namespace Sys2Proof.Machine

/-! ### Loads (R62, R63) -/

/-- The first byte of the 64-byte line of a place. -/
def Loc.lineStart : Loc → Loc
  | .ls c o => .ls c (o / 64 * 64)
  | .ctl c o => .ctl c (o / 64 * 64)
  | .loft d o => .loft d (o / 64 * 64)
  | .hbm d o => .hbm d (o / 64 * 64)
  | .ddr d o => .ddr d (o / 64 * 64)
  | .remote m a => .remote m (BitVec.ofNat 64 (a.toNat / 64 * 64))

/-- Adds a load to the outstanding ones. -/
def State.pushLoad (s : State) (w : Who) (op : LoadOp) : State := s.modThread w (fun h => { h with loads := h.loads ++ [op] })

/-- The data-cache line an access hits. -/
def State.cacheHit (s : State) (w : Who) (a : Word) (l : Loc) (nc : Bool) : Option (BitVec 512) :=
  if nc || !(cacheable a l) then Option.none else Sparse.find (s.core w.core).dcache (s.lineTag a)

/-- Asks for the data of a scalar load: from a hit line, as a line fill, or past the cache (R63, R72). -/
def State.askScalar (s : State) (w : Who) (g nc : Bool) (a : Word) (l : Loc) (page : Option Nat) (size : Nat) : LoadPart × State :=
  if !g || nc || !(cacheable a l) then s.startRead w l size a page Option.none 0 size Option.none
  else
    match Sparse.find (s.core w.core).dcache (s.lineTag a) with
    | some v => (.data (lineBytes v (a.toNat % 64) size), s)
    | Option.none => s.startRead w l.lineStart 64 a page (some (s.lineTag a, true)) (a.toNat % 64) size Option.none

/-- A parity error in the line a load hits: the line is invalidated and fetched again (R76). -/
def State.cacheParity (s : State) (w : Who) (g nc : Bool) (a : Word) (l : Loc) : State :=
  if g ∧ (s.cacheHit w a l nc).isSome then
    (s.modCore w.core (fun x => x.cacheDrop (s.lineTag a))).countCore w.core 0x111 1
  else s

/-- A load of control space, performed at once once older loads have returned: only a whole aligned word (R48, R581). -/
def State.loadControl (s : State) (w : Who) (c : CoreIx) (off : Nat) : Word × State := s.ctlRead (.thread w) c off

/-- A scalar load (R62, R63). -/
def scalarLoad (i : Iss) (opc : Nat) (rd rb : BitVec 5) (m : MemF) (size : Nat) (signed : Bool) (s : State) :
    Host.Outcome State Fault Refusal :=
  issue i opc false { mem := true, load := true, needs := memNeeds rb m, residue := true } (fun s =>
    let w := i.who
    let h := s.thread w
    match memAddr h rb (some rd) m with
    | Option.none => .trap s (illegal opc)
    | some (a, upd) =>
      match s.watchpoint w m.g a size true false with
      | some (k, act) => matched s (4 + k) act
      | Option.none =>
        if a.toNat % size ≠ 0 then .trap s (misaligned size a)
        else
          match s.place w m.g .read (decide (size = 8)) a size with
          | .bad t => .trap s t
          | .miss page => .wait (s.missHold w { page, tval := a })
          | .at_ l page =>
            let op (p : LoadPart) : LoadOp :=
              { pc := h.pc, long := false, kind := .scalar rd size signed, parts := [p], upd := upd.map (fun v => (rb, v)) }
            match l with
            | .ctl c off =>
              if ¬ h.loads.isEmpty then .wait s
              else if c = w.core then
                let (x, s) := s.loadControl w c off
                .sent (s.pushLoad w (op (.data (toBytes x.toNat 8))))
              else
                let (p, s) := s.startRead w l size a page Option.none 0 size Option.none
                .sent (s.pushLoad w (op p))
            | _ =>
              let s := if i.found = .cacheParity then s.cacheParity w m.g m.nc a l else s
              let (p, s) := s.askScalar w m.g m.nc a l page size
              .sent (s.pushLoad w (op p))) s

/-- LD_B, R62. -/
def execLdB (i : Iss) (rd rb : BitVec 5) (m : MemF) (s : State) : Host.Outcome State Fault Refusal := scalarLoad i 0x10 rd rb m 1 true s

/-- LD_BU, R62. -/
def execLdBU (i : Iss) (rd rb : BitVec 5) (m : MemF) (s : State) : Host.Outcome State Fault Refusal := scalarLoad i 0x11 rd rb m 1 false s

/-- LD_H, R62. -/
def execLdH (i : Iss) (rd rb : BitVec 5) (m : MemF) (s : State) : Host.Outcome State Fault Refusal := scalarLoad i 0x12 rd rb m 2 true s

/-- LD_HU, R62. -/
def execLdHU (i : Iss) (rd rb : BitVec 5) (m : MemF) (s : State) : Host.Outcome State Fault Refusal := scalarLoad i 0x13 rd rb m 2 false s

/-- LD_W, R62. -/
def execLdW (i : Iss) (rd rb : BitVec 5) (m : MemF) (s : State) : Host.Outcome State Fault Refusal := scalarLoad i 0x14 rd rb m 4 true s

/-- LD_WU, R62. -/
def execLdWU (i : Iss) (rd rb : BitVec 5) (m : MemF) (s : State) : Host.Outcome State Fault Refusal := scalarLoad i 0x15 rd rb m 4 false s

/-- LD_D, R62. -/
def execLdD (i : Iss) (rd rb : BitVec 5) (m : MemF) (s : State) : Host.Outcome State Fault Refusal := scalarLoad i 0x16 rd rb m 8 false s

/-! ### Stores (R62, R63, R73) -/

/-- A scalar store: the low bytes of the register; the base register is updated with it. -/
def scalarStore (i : Iss) (opc : Nat) (rd rb : BitVec 5) (m : MemF) (size : Nat) (s : State) : Host.Outcome State Fault Refusal :=
  issue i opc false { mem := true, residue := true } (fun s =>
    let w := i.who
    let h := s.thread w
    match memAddr h rb Option.none m with
    | Option.none => .trap s (illegal opc)
    | some (a, upd) =>
      match s.watchpoint w m.g a size false true with
      | some (k, act) => matched s (4 + k) act
      | Option.none =>
        if a.toNat % size ≠ 0 then .trap s (misaligned size a)
        else
          match s.place w m.g .write (decide (size = 8)) a size with
          | .bad t => .trap s t
          | .miss page => .wait (s.missHold w { page, write := true, tval := a })
          | .at_ l page =>
            let val := h.reg rd
            let base (s : State) : State := s.modThread w (fun h => match upd with | some v => h.setReg rb v | Option.none => h)
            match l with
            | .ctl c off =>
              if c ≠ w.core then .done (base (s.sendWrite w l page ((toBytes val.toNat 8).map some)))
              else if s.ctlWaits (.thread w) c off val then .wait s
              else .done (base (s.ctlWrite (.thread w) c off val))
            | _ => .done (base (s.store w l page ((toBytes val.toNat size).map some)))) s

/-- ST_B, R62. -/
def execStB (i : Iss) (rd rb : BitVec 5) (m : MemF) (s : State) : Host.Outcome State Fault Refusal := scalarStore i 0x18 rd rb m 1 s

/-- ST_H, R62. -/
def execStH (i : Iss) (rd rb : BitVec 5) (m : MemF) (s : State) : Host.Outcome State Fault Refusal := scalarStore i 0x19 rd rb m 2 s

/-- ST_W, R62. -/
def execStW (i : Iss) (rd rb : BitVec 5) (m : MemF) (s : State) : Host.Outcome State Fault Refusal := scalarStore i 0x1A rd rb m 4 s

/-- ST_D, R62. -/
def execStD (i : Iss) (rd rb : BitVec 5) (m : MemF) (s : State) : Host.Outcome State Fault Refusal := scalarStore i 0x1B rd rb m 8 s

/-! ### Atomics (R64 to R68) -/

def AtomKind.size : AtomKind → Nat
  | .tas => 1
  | .lrw => 4
  | .scw => 4
  | _ => 8

/-- lr and sc. -/
def AtomKind.pair : AtomKind → Bool
  | .lrw => true
  | .lrd => true
  | .scw => true
  | .scd => true
  | _ => false

/-- Whether an atomic may target a place (R64); `own` says that the address names the own core's local store in space 3. -/
def atomTarget (c : CoreIx) (k : AtomKind) (a : Word) : Loc → Bool
  | .ls c' _ => decide (adSpace a = 3 ∧ c' = c) && (k.pair || decide (k = .tas))
  | .loft d _ => !k.pair || decide (d = coreDie c)
  | .remote _ b => !k.pair && decide (adSpace b = 2)
  | _ => false

/-- Whether a thread's reservation stands on the line of a place. -/
def Thread.holds (h : Thread) (l : Loc) : Bool :=
  match h.resv with
  | some r => r.sameUnit l && decide (r.off / 64 = l.off / 64)
  | Option.none => false

/-- The compare-and-swap and the addition as any source performs them at a Loft word: old word, and the word written if one is. -/
def atomNew (k : AtomKind) (old exp val : Word) : Option Word :=
  if k = .cas then (if old = exp then some val else Option.none) else some (old + val)

/-- Performs an atomic of a thread at its place: what it returns, and the state after it. -/
def State.atomDo (s : State) (w : Who) (l : Loc) (k : AtomKind) (exp val : Word) : List Byte × State :=
  let old := s.readLoc l k.size
  let s := s.closeMerges l (old.map some)
  match k with
  | .tas => (old, s.perform l [some 1])
  | .lrw => (old, s.modThread w (fun h => { h with resv := some l }))
  | .lrd => (old, s.modThread w (fun h => { h with resv := some l }))
  | .cas =>
    (old, match atomNew .cas (BitVec.ofNat 64 (leNat old)) exp val with
          | some v => s.perform l ((toBytes v.toNat 8).map some)
          | Option.none => s)
  | .fadd =>
    (old, match atomNew .fadd (BitVec.ofNat 64 (leNat old)) exp val with
          | some v => s.perform l ((toBytes v.toNat 8).map some)
          | Option.none => s)
  | _ =>
    let held := (s.thread w).holds l
    let s := s.modThread w (fun h => { h with resv := Option.none })
    (toBytes (b2n !held) 8, if held then s.perform l ((toBytes val.toNat k.size).map some) else s)

/-- An atomic: performed at once at the own local store, sent to a Loft otherwise (R48, R64). -/
def atomic (i : Iss) (rd ra rs2 : BitVec 5) (k : AtomKind) (s : State) : Host.Outcome State Fault Refusal :=
  issue i 0x1C false { mem := true, residue := true } (fun s =>
    let w := i.who
    let h := s.thread w
    let a := h.reg ra
    let writes := decide (k ≠ .lrw ∧ k ≠ .lrd)
    match s.watchpoint w true a k.size true writes with
    | some (n, act) => matched s (4 + n) act
    | Option.none =>
      if a.toNat % k.size ≠ 0 then .trap s (misaligned k.size a)
      else
        match s.resolve w.core .atomic true a k.size with
        | .bad t => .trap s t
        | .miss page => .wait (s.missHold w { page, atomic := true, tval := a })
        | .at_ l page =>
          if !(atomTarget w.core k a l) then .trap s (violation 4 a)
          else
            let t := s.lineTag a
            let s := s.cacheInv w.core (fun e => decide (e = t))
            let op (p : LoadPart) : LoadOp := { pc := h.pc, long := false, kind := .atomic rd, parts := [p] }
            match l with
            | .ls _ _ =>
              match s.sense w.core l k.size (Found.upset i.found) a with
              | (some t, s) => .trap s t
              | (Option.none, s) =>
                let (bs, s) := s.atomDo w l k (h.reg rd) (h.reg rs2)
                .sent (s.pushLoad w (op (.data bs)))
            | _ =>
              let (p, s) := s.startRead w l k.size a page Option.none 0 k.size (some (k, h.reg rd, h.reg rs2))
              .sent (s.pushLoad w (op p))) s

/-- TAS, R64. -/
def execTas (i : Iss) (rd ra rs2 : BitVec 5) (s : State) : Host.Outcome State Fault Refusal := atomic i rd ra rs2 .tas s

/-- LR_W, R64. -/
def execLrW (i : Iss) (rd ra rs2 : BitVec 5) (s : State) : Host.Outcome State Fault Refusal := atomic i rd ra rs2 .lrw s

/-- LR_D, R64. -/
def execLrD (i : Iss) (rd ra rs2 : BitVec 5) (s : State) : Host.Outcome State Fault Refusal := atomic i rd ra rs2 .lrd s

/-- SC_W, R64. -/
def execScW (i : Iss) (rd ra rs2 : BitVec 5) (s : State) : Host.Outcome State Fault Refusal := atomic i rd ra rs2 .scw s

/-- SC_D, R64. -/
def execScD (i : Iss) (rd ra rs2 : BitVec 5) (s : State) : Host.Outcome State Fault Refusal := atomic i rd ra rs2 .scd s

/-- CAS_D, R64. -/
def execCasD (i : Iss) (rd ra rs2 : BitVec 5) (s : State) : Host.Outcome State Fault Refusal := atomic i rd ra rs2 .cas s

/-- FADD_L, R64. -/
def execFaddL (i : Iss) (rd ra rs2 : BitVec 5) (s : State) : Host.Outcome State Fault Refusal := atomic i rd ra rs2 .fadd s

/-- RESERVATION_TIMEOUT, R65: 4096 A-cycles have passed without an sc of the thread. -/
def execReservationTimeout (w : Who) (s : State) : Host.Outcome State Fault Refusal :=
  let sc := s.reads.any (fun f => decide (f.who = w) &&
    (match f.atom with | some (k, _, _) => decide (k = .scw ∨ k = .scd) | Option.none => false))
  .next (if sc then s else s.modThread w (fun h => { h with resv := Option.none }))

/-! ### At the destination (R68, R197 to R200, R272) -/

/-- Records what a read's destination answered. -/
def State.gotRead (s : State) (seq : Nat) (g : Got) : State :=
  { s with reads := s.reads.map (fun f => if f.seq = seq then { f with got := g } else f) }

/-- Whether something older of the same core to the same destination is still under way (R272, R283). -/
def State.atomBlocked (s : State) (f : RFlight) : Bool := s.behind f.source (f.loc.dest s) f.seq true

/-- ATOMIC_ARRIVAL, R68: the atomic is performed at its Loft slice, and what it returns travels back; one that meets an uncorrectable or a poisoned
word performs nothing (R52, R196). -/
def execAtomicArrival (a : AtomicIn) (s : State) : Host.Outcome State Fault Refusal :=
  match s.reads.find? (fun f => f.seq = a.seq) with
  | some f =>
    (match f.loc, f.atom with
     | .loft _ _, some (k, exp, val) =>
       if f.got ≠ .no ∨ s.atomBlocked f then .next s
       else
         match s.sense f.who.core f.loc f.len a.upset f.addr with
         | (some t, s) => .next (s.gotRead a.seq (.trap t))
         | (Option.none, s) =>
           let (bs, s) := s.atomDo f.who f.loc k exp val
           .next (s.gotRead a.seq (.bytes bs))
     | _, _ => .next s)
  | Option.none => .next s

/-- What a read takes from a merge entry: the bytes it asked for, or the poison of a word that its thread takes (R196). -/
def Merge.answer (m : Merge) (off : Nat) (f : RFlight) : Got :=
  if (wordsOf (off % 64 + f.skip) f.take).any (fun k => m.poison.contains k) then .trap { code := 0x0A, detail := 5, tval := f.addr }
  else .bytes ((m.data.drop (off % 64)).take f.len)

/-- LOFT_READ_ARRIVAL, R197 to R199: the read joins the line's merge entry, or opens one. -/
def execLoftReadArrival (seq : Nat) (s : State) : Host.Outcome State Fault Refusal :=
  match s.reads.find? (fun f => f.seq = seq) with
  | some f =>
    (match f.loc with
     | .loft d off =>
       if f.got ≠ .no ∨ f.atom.isSome ∨ !(s.readReady f) then .next s
       else
         let (m, s) := s.mergeRead d (off / 64)
         .next (s.gotRead seq (m.answer off f))
     | _ => .next s)
  | Option.none => .next s

/-- MERGE_ENTRY_CLOSE, R197: 8 M-cycles after it opened. -/
def execMergeEntryClose (d : DieIx) (line : Nat) (s : State) : Host.Outcome State Fault Refusal :=
  .next (s.modDie d (fun x => { x with merges := x.merges.filter (fun m => m.line ≠ line) }))

/-! ### Data back at the core (R75, R186, R248, R268) -/

/-- The part of a read that its thread takes. -/
def RFlight.part (f : RFlight) : Loc :=
  match f.loc with
  | .ls c o => .ls c (o + f.skip)
  | .ctl c o => .ctl c (o + f.skip)
  | .loft d o => .loft d (o + f.skip)
  | .hbm d o => .hbm d (o + f.skip)
  | .ddr d o => .ddr d (o + f.skip)
  | .remote m a => .remote m (a + BitVec.ofNat 64 f.skip)

/-- The bytes or the trap with which a read of this module comes back, if its destination has answered or can; ECC finds `u` in the words the
thread takes. What an atomic of a Loft met, its slice has answered. -/
def State.returned (s : State) (f : RFlight) (u : Upset) : Option ((Trap ⊕ List Byte) × State) :=
  let checked (bs : List Byte) : Option ((Trap ⊕ List Byte) × State) :=
    match s.sense f.who.core f.part f.take u f.addr with
    | (some t, s) => some (.inl t, s)
    | (Option.none, s) => some (.inr bs, s)
  match f.loc, f.got with
  | .remote _ _, _ => Option.none
  | .loft _ _, .no => Option.none
  | .loft _ _, .trap t => if u = .uncorrectable ∧ f.atom.isNone then checked [] else some (.inl { t with tval := f.addr }, s)
  | .loft _ _, .bytes bs => if u = .none ∨ f.atom.isSome then some (.inr bs, s) else checked bs
  | .ctl c o, _ =>
    if s.readReady f then
      let (x, s) := s.ctlRead (.thread f.who) c o
      some (.inr (toBytes x.toNat 8), s)
    else Option.none
  | l, _ => if s.readReady f then checked (s.readLoc l f.len) else Option.none

/-- A returned line is installed unless a cache operation or a store covered it, or one of its words is poisoned (R75). -/
def State.installFill (s : State) (f : RFlight) (bs : List Byte) : State :=
  match f.fill with
  | some (t, true) =>
    if s.poisoned f.loc f.len then s else s.cacheInstall f.who.core t (BitVec.ofNat 512 (leNat bs))
  | _ => s

/-- The end of a read of this module. -/
def State.readBack (s : State) (f : RFlight) (u : Upset) : State :=
  match s.returned f u with
  | Option.none => s
  | some (.inl t, s) => s.deliver f.who f.seq (.fault t Option.none)
  | some (.inr bs, s) => (s.installFill f bs).deliver f.who f.seq (.data ((bs.drop f.skip).take f.take))

/-- CACHE_FILL_RETURN, R75. A line whose parity is wrong as it is filled is invalidated and fetched again (R76). -/
def execCacheFillReturn (seq : Nat) (found : FillFound) (s : State) : Host.Outcome State Fault Refusal :=
  match s.reads.find? (fun f => f.seq = seq) with
  | some f =>
    .next (if ¬ f.fill.isSome ∨ f.engine.isSome then s
           else if found.parity ∧ (s.returned f found.upset).isSome then (s.gotRead seq .no).countCore f.who.core 0x111 1
           else s.readBack f found.upset)
  | Option.none => .next s

/-- LOAD_DATA_RETURN, R268: any read of this module that is neither a line fill nor a row of a tile load. -/
def execLoadDataReturn (seq : Nat) (u : Upset) (s : State) : Host.Outcome State Fault Refusal :=
  match s.reads.find? (fun f => f.seq = seq) with
  | some f => .next (if f.fill.isSome ∨ f.engine.isSome ∨ s.tileReadSeq f then s else s.readBack f u)
  | Option.none => .next s

end Sys2Proof.Machine
end

