-- ==== Sys2Proof/Machine/Writes.lean ====
section
/-! DEFINITION. Writes at their destination and their acknowledgements (R266, R272, R278), and the patrol scrubs (R187, R196, R249). -/

namespace Sys2Proof.Machine

/-! ### Writes (R266, R272) -/

/-- Whether something older from the same source to the same destination is still under way. -/
def State.writeBlocked (s : State) (x : WFlight) : Bool := s.behind x.source (x.loc.dest s) x.seq true

/-- The bytes of a write to a control word as one word. -/
def wordOfWrite (bs : List (Option Byte)) : Word := BitVec.ofNat 64 (leNat (bs.map (fun b => b.getD 0)))

/-- Who makes a write to a control word of another core (R578). -/
def WFlight.via (x : WFlight) : Via :=
  match x.src, x.source with
  | some w, _ => .thread w
  | Option.none, .port c => .thread ⟨c, 0⟩
  | Option.none, _ => .window

/-- A write is performed, and its acknowledgement starts back. -/
def State.landWrite (s : State) (x : WFlight) : State :=
  let s := { s with writes := s.writes.filter (fun y => y.seq ≠ x.seq),
                    acks := s.acks ++ [({ seq := x.seq, src := x.src, loc := x.loc, red := x.red } : AckFlight)] }
  match x.loc with
  | .ctl c o => s.ctlWrite x.via c o (wordOfWrite x.bytes)
  | l => s.perform l x.bytes

/-- WRITE_ARRIVAL, R266: a write to a destination of this module; one to another module travels as packets. -/
def execWriteArrival (seq : Nat) (s : State) : Host.Outcome State Fault Refusal :=
  match s.writes.find? (fun x => x.seq = seq) with
  | Option.none => .next s
  | some x =>
    let waits := match x.loc with
      | .remote _ _ => true
      | .ctl c o => s.ctlWaits x.via c o (wordOfWrite x.bytes)
      | _ => false
    .next (if waits || s.writeBlocked x then s else s.landWrite x)

/-- What an acknowledgement does at the writer: PEND falls and a waiting fence is tested, or a block that the same arming of a context forwarded is
counted off (R276, R361). -/
def State.acked (s : State) (src : Option Who) (red : Option (CoreIx × BitVec 4 × Nat)) : State :=
  match src, red with
  | some w, _ => ((s.modThread w (fun h => { h with pend := h.pend - 1 })).settleHold w).haltIfAsked w
  | _, some (c, x, run) => s.modRed c x (fun y => if y.run = run then { y with fwdUnacked := y.fwdUnacked - 1 } else y)
  | _, _ => s

/-- WRITE_ACK_ARRIVAL, R278. -/
def execWriteAckArrival (seq : Nat) (s : State) : Host.Outcome State Fault Refusal :=
  match s.acks.find? (fun a => a.seq = seq) with
  | Option.none => .next s
  | some a => .next ({ s with acks := s.acks.filter (fun b => b.seq ≠ seq) }.acked a.src a.red)

/-! ### Patrol scrubs -/

/-- LS_PATROL_SCRUB, R187: the next 64-byte granule. -/
def execLsPatrolScrub (c : CoreIx) (u : Upset) (s : State) : Host.Outcome State Fault Refusal :=
  let k := (s.core c).lsScrub
  let s := s.scrub (.ls c (64 * k)) 64 u
  .next (s.modCore c (fun x => { x with lsScrub := (k + 1) % (lsSize / 64) }))

/-- LOFT_PATROL_SCRUB, R196: the next line of a slice; a write-back closes the line's merge entry (R199). -/
def execLoftPatrolScrub (d : DieIx) (slice : BitVec 2) (u : Upset) (s : State) : Host.Outcome State Fault Refusal :=
  let k := Sparse.get 0 (s.die d).loftScrub slice.toNat
  let l : Loc := .loft d (slice.toNat * 2 ^ 29 + 64 * k)
  let s := s.scrub l 64 u
  let s := if u = .none then s else s.closeMerges l [some 0]
  .next (s.modDie d (fun x => { x with loftScrub := Sparse.put 0 x.loftScrub slice.toNat ((k + 1) % 2 ^ 23) }))

/-- MEM_PATROL_SCRUB, R249: the next 64 bytes of a die's HBM or DDR. -/
def execMemPatrolScrub (d : DieIx) (ddr : Bool) (u : Upset) (s : State) : Host.Outcome State Fault Refusal :=
  if ddr then
    let n := (s.die d).ddrBytes / 64
    let k := (s.die d).ddrScrub
    if n = 0 then .next s
    else
      let s := s.scrub (.ddr d (64 * k)) 64 u
      .next (s.modDie d (fun x => { x with ddrScrub := (k + 1) % n }))
  else
    let k := (s.die d).hbmScrub
    let s := s.scrub (.hbm d (64 * k)) 64 u
    .next (s.modDie d (fun x => { x with hbmScrub := (k + 1) % (hbmSize / 64) }))

end Sys2Proof.Machine
end

