-- ==== Sys2Proof/Machine/Thaex.lean ====
section
/-! DEFINITION. The Thaex fabric: flit groups, ports, forwarding, streams and their acknowledgements, remote reads, reachability, time
synchronisation and discovery (R390 to R415). -/

namespace Sys2Proof.Machine

/-! ### Ports and groups (R393 to R398) -/

def State.port (s : State) (p : BitVec 4) : Port := Sparse.get {} s.fab.ports p.toNat

def State.modPort (s : State) (p : BitVec 4) (f : Port → Port) : State :=
  { s with fab := { s.fab with ports := Sparse.upd {} s.fab.ports p.toNat f } }

/-- Engine n sits on die n ÷ 4 (R390). -/
def portDie (p : BitVec 4) : DieIx := p.extractLsb' 2 2

/-- Whether a port is fitted (R393). -/
def State.fitted (s : State) (p : BitVec 4) : Bool := s.mod.o16 || decide (p.toNat < 8)

def Port.link (x : Port) (j : BitVec 2) : Link := Sparse.get {} x.links j.toNat

def Port.setLink (x : Port) (j : BitVec 2) (l : Link) : Port := { x with links := Sparse.put {} x.links j.toNat l }

/-- Lane groups disabled at either end (R398). -/
def Port.groupsOff (x : Port) : BitVec 4 := x.gdis ||| x.gpeer

/-- The sub-ports of a port's mode that may be up: in mode 1 those whose lane group is not disabled (R393, R398). -/
def Port.usable (x : Port) : BitVec 4 :=
  if x.mode = 0 then (if x.groupsOff = 15 then 0 else 1) else if x.mode = 1 then ~~~x.groupsOff else 0

/-- The logical lanes that carry the codewords of a link: 4 for a sub-port, else those of the lane groups that are not disabled (R394, R398). -/
def Port.width (x : Port) : Nat :=
  if x.mode = 1 then 4 else 4 * ((List.range 4).filter (fun g => !(x.groupsOff.getLsbD g))).length

/-- Groups sent and not acknowledged. -/
def Link.outstanding (l : Link) : Nat := (l.txNext - l.acked - 1).toNat

/-- The replay buffer of a link (R396). -/
def Port.replayGroups (x : Port) : Nat := if x.mode = 1 then 64 else 256

/-- The packets on a link that the peer has not acknowledged, in order. -/
def Link.packets (l : Link) : List (DieIx × Packet) := l.queue.map (fun e => e.2) ++ l.wait.map (fun e => (e.1, e.2.1))

/-- Bytes queued on a link in a traffic class (R402; log 19). -/
def Link.queued (l : Link) (tc : BitVec 2) : Nat :=
  (l.packets.filter (fun e => decide (e.2.tc = tc))).foldl (fun n e => n + linkBytes e.2) 0

/-- A packet takes its place on a link: a priority packet before every other whose first unit has not left (R401). -/
def Link.enqueue (l : Link) (d : DieIx) (k : Packet) : Link :=
  let ahead (e : DieIx × Packet × List (BitVec 256)) : Bool := decide (e.2.1.tc = 0 ∨ e.2.2.length < (Packet.units e.2.1).length)
  if k.tc = 0 then { l with wait := l.wait.takeWhile ahead ++ (d, k, Packet.units k) :: l.wait.dropWhile ahead }
  else { l with wait := l.wait ++ [(d, k, Packet.units k)] }

/-- The units of the next group, at most `room`: those taken, the packets that end among them, and what is left (R395). -/
def takeUnits : Nat → List (DieIx × Packet × List (BitVec 256)) →
    List (BitVec 256) × List (DieIx × Packet) × List (DieIx × Packet × List (BitVec 256))
  | _, [] => ([], [], [])
  | room, e :: w =>
    if e.2.2.length ≤ room then
      let r := takeUnits (room - e.2.2.length) w
      (e.2.2 ++ r.1, (e.1, e.2.1) :: r.2.1, r.2.2)
    else (e.2.2.take room, [], (e.1, e.2.1, e.2.2.drop room) :: w)

/-- Credit units of 256 B that a trailer returns for a buffer; a field holds at most 31 (R395). -/
def Link.creditOf (l : Link) (k : Nat) : Nat := min 31 (Sparse.get 0 l.owed k / 8)

/-- The credits that stay owed after a trailer. -/
def Link.owedAfter (l : Link) : Sparse Nat := (List.range 24).foldl (fun o k => Sparse.upd 0 o k (· - 8 * l.creditOf k)) l.owed

/-- The trailer of a group as it is sent now: its own REST, RCHG and CRED, and what this end now acknowledges, NAKs and disables (R395, R396, R422). -/
def Port.trailerOf (x : Port) (l : Link) (g : SentGroup) : BitVec 256 :=
  let t (crc : BitVec 32) : BitVec 256 := trailerBits g.gseq (l.rxNext - 1) l.nak g.rest g.rchg x.gdis g.cred crc
  t (groupCrc g.units (t 0))

/-- The next group of a link, filled up with idle fill, and the link after it. -/
def Link.nextGroup (l : Link) (rest : BitVec 5) : SentGroup × Link :=
  let r := takeUnits 63 l.wait
  let g : SentGroup := { gseq := l.txNext, units := r.1 ++ List.replicate (63 - r.1.length) idleUnit, rest := l.announce.getD rest,
                         rchg := l.announce.isSome, cred := (List.range 24).map (fun k => BitVec.ofNat 5 (l.creditOf k)) }
  (g, { l with txNext := l.txNext + 1, wait := r.2.2, queue := l.queue ++ r.2.1.map (fun e => (l.txNext, e)), sent := l.sent ++ [g],
               owed := l.owedAfter, announce := Option.none })

/-- A new group leaves a sub-port that is up; while the replay buffer is full none does (R396). -/
def State.sendGroup (s : State) (p : BitVec 4) (j : BitVec 2) : State :=
  let x := s.port p
  let l := x.link j
  if ¬ x.up.getLsbD j.toNat ∨ x.replayGroups ≤ l.outstanding then s
  else
    let r := l.nextGroup x.rest
    (s.modPort p (fun x => x.setLink j r.2)).emit (.group p j r.1.units (x.trailerOf l r.1))

/-- Sends groups while packets, or a rest lane to announce, wait. -/
def State.pumpFor : Nat → State → BitVec 4 → BitVec 2 → State
  | 0, s, _, _ => s
  | n + 1, s, p, j =>
    let l := (s.port p).link j
    if l.wait.isEmpty ∧ l.announce.isNone then s else State.pumpFor n (s.sendGroup p j) p j

def State.pump (s : State) (p : BitVec 4) (j : BitVec 2) : State :=
  State.pumpFor ((((s.port p).link j).wait.foldl (fun n e => n + e.2.2.length) 0) / 63 + 2) s p j

/-- Puts a packet on a sub-port that is up. -/
def State.sendOn (s : State) (d : DieIx) (p : BitVec 4) (j : BitVec 2) (k : Packet) : State :=
  if (s.port p).up.getLsbD j.toNat then (s.modPort p (fun x => x.setLink j ((x.link j).enqueue d k))).pump p j else s

def subPorts : List (BitVec 2) := [0, 1, 2, 3]
def allPorts : List (BitVec 4) := (List.range 16).map (BitVec.ofNat 4)

/-- Tells the peers of a port what its trailers now say of the disabled lane groups (R398). -/
def State.tellGdis (s : State) (p : BitVec 4) : State := subPorts.foldl (fun s j => s.sendGroup p j) s

/-- The transmitter of a port moves its rest lane: the next group of each of its sub-ports announces it (R391, R422). -/
def State.moveRest (s : State) (p : BitVec 4) (r : BitVec 5) : State :=
  let s := s.modPort p (fun x => { x with rest := r })
  subPorts.foldl (fun s j =>
    if (s.port p).up.getLsbD j.toNat then
      (s.modPort p (fun x => x.setLink j { x.link j with announce := some r })).pump p j
    else s) s

/-! ### Forwarding (R402) -/

/-- Every sub-port that is up, as bits 4p + j. -/
def State.upBits (s : State) : List Nat :=
  (List.range 64).filter (fun b => (Sparse.get ({} : Port) s.fab.ports (b / 4)).up.getLsbD (b % 4))

/-- Bytes queued toward sub-port bit `b` as a die counts them. -/
def State.bitLoad (s : State) (d : DieIx) (tc : BitVec 2) (b : Nat) : Nat :=
  let p : BitVec 4 := BitVec.ofNat 4 (b / 4)
  ((s.port p).link (BitVec.ofNat 2 (b % 4))).queued tc + (if portDie p = d then 0 else s.effective 0x2505 0)

/-- The bit with the least load; ties go to the lowest bit after the rotating pointer. -/
def State.pickBit (s : State) (d : DieIx) (tc : BitVec 2) (cands : List Nat) : Option Nat :=
  let r := Sparse.get 0 s.fab.rotPtrs d.toNat
  let order := ((List.range 64).map (fun i => (r + 1 + i) % 64)).filter cands.contains
  order.foldl (fun (best : Option Nat) b =>
    match best with
    | some c => if s.bitLoad d tc b < s.bitLoad d tc c then some b else some c
    | Option.none => some b) Option.none

/-- A module toward which a packet was discarded, or a neighbour whose port went down, is due for a probe (R408). -/
def State.probeDue (s : State) (m : BitVec 12) : State :=
  { s with fab := { s.fab with dropped := if s.fab.dropped.contains m then s.fab.dropped else s.fab.dropped ++ [m] } }

/-- Forwards a packet on the least-loaded up bit of its minimal mask, or of its alternate mask if no minimal bit is up, or discards it. -/
def State.route (s : State) (d : DieIx) (k : Packet) : State :=
  let e := Sparse.get (0 : BitVec 128) s.fab.routes k.dmod.toNat
  let up := s.upBits
  let minimal := up.filter (fun b => e.getLsbD b)
  let cands := if minimal.isEmpty then up.filter (fun b => e.getLsbD (64 + b)) else minimal
  match s.pickBit d k.tc cands with
  | Option.none => s.probeDue k.dmod
  | some b =>
    let p : BitVec 4 := BitVec.ofNat 4 (b / 4)
    let j : BitVec 2 := BitVec.ofNat 2 (b % 4)
    let s := s.sendOn d p j k
    { s with fab := { s.fab with rotPtrs := Sparse.upd 0 s.fab.rotPtrs d.toNat (fun r => (r + 1) % 64) } }

/-- PACKET_FORWARD, R402. A packet this module has not sent itself has taken one hop more; one that would need a ninth is discarded (R401). -/
def execPacketForward (d : DieIx) (k : Packet) (s : State) : Host.Outcome State Fault Refusal :=
  if k.dmod = s.mod.id ∨ k.kind = 15 then .next s
  else if k.smod = s.mod.id then .next (s.route d k)
  else if k.hop = 7 then .next (s.countDie d 0x632 1)
  else .next (s.route d (Packet.nextHop k))

/-! ### Ports going down and up (R396, R397, R403) -/

/-- Sets or clears the up bit of a sub-port in SZ_PORT_PEER; a change of the size table is announced (R19, R413). -/
def State.peerUp (s : State) (p : BitVec 4) (j : BitVec 2) (up : Bool) : State :=
  let v : Word := Sparse.get 0 s.fab.peers p.toNat
  let bit : Word := 1 <<< (16 * j.toNat + 15)
  let v' := if up then v ||| bit else v &&& ~~~bit
  if v' = v ∨ v &&& ~~~bit = 0 then s
  else { s with fab := { s.fab with peers := Sparse.put 0 s.fab.peers p.toNat v' } }.sizeChanged

/-- The neighbour at a sub-port. -/
def State.peerAt (s : State) (p : BitVec 4) (j : BitVec 2) : BitVec 12 :=
  (Sparse.get (0 : Word) s.fab.peers p.toNat).extractLsb' (16 * j.toNat) 12

/-- A port or sub-port goes down: its unacknowledged packets are forwarded again with HOP unchanged, and its neighbour is probed. -/
def State.portDown (s : State) (p : BitVec 4) (j : BitVec 2) : State :=
  let x := s.port p
  if ¬ x.up.getLsbD j.toNat then s
  else
    let again := (x.link j).packets
    let m := s.peerAt p j
    let s := s.modPort p (fun x => { x.setLink j {} with up := x.up &&& ~~~((1 : BitVec 4) <<< j.toNat) })
    let s := if m ≠ s.mod.id ∧ s.fab.reach.contains m then s.probeDue m else s
    (again.foldl (fun s e => s.route e.1 e.2) s).peerUp p j false

/-- Sub-ports that their mode or the disabled lane groups no longer allow go down (R397, R398). -/
def State.dropUnusable (s : State) (p : BitVec 4) : State :=
  subPorts.foldl (fun s j => if (s.port p).usable.getLsbD j.toNat then s else s.portDown p j) s

/-- Every port goes down (R431, R447). -/
def State.allPortsDown (s : State) : State := allPorts.foldl (fun s p => subPorts.foldl (fun s j => s.portDown p j) s) s

/-- PORT_DOWN, R397. -/
def execPortDown (p : BitVec 4) (j : BitVec 2) (s : State) : Host.Outcome State Fault Refusal := .next (s.portDown p j)

/-- Link training takes up the port's mode (R393): both directions start at rest lane 16, going downward, and
tracking starts from the selected records (R420, R421). -/
def State.trainPort (s : State) (p : BitVec 4) : State :=
  let mode : BitVec 2 := BitVec.ofNat 2 (s.effective 0x2501 p.toNat)
  let s := subPorts.foldl (fun s j => s.portDown p j) s
  if ¬ s.fitted p then s
  else
    s.modPort p (fun x =>
      { x with mode := mode, mismatch := false, trained := true, links := [], gpeer := 0, hold := false, recal := Option.none,
               recal3 := Option.none, gdis := if x.recal3.isSome then x.gdis &&& ~~~((1 : BitVec 4) <<< x.group.toNat) else x.gdis,
               heaters := (x.selected.map (fun e => (e.1, e.2.extractLsb' 112 16))).filter (fun e => e.2 ≠ 0),
               rest := if x.perm then x.rest else 16, rxRest := if x.perm then x.rxRest else 16, down := true, calibrated := true,
               rxCal := true })

def State.trainPorts (s : State) : State := allPorts.foldl State.trainPort s

def allDies : List DieIx := [0, 1, 2, 3]

/-- A fabric control packet, at priority (R400). -/
def State.controlPacket (s : State) (d : DieIx) (m : BitVec 12) (bytes : List Byte) : Packet :=
  Packet.seal { Packet.base 0 0 m s.mod.id d with payload := bytes }

/-- A fabric control operation: number, source die, module and a value (R400; layout: log 15). Operations: 0 probe, 1 probe reply, 2 UNREACH notice,
3 request to the peer's transmitter to rest a lane (R425), 4 discovery. -/
def controlBytes (op : Nat) (d : DieIx) (m : BitVec 12) (x : Nat) : List Byte :=
  [BitVec.ofNat 8 op, BitVec.ofNat 8 d.toNat] ++ toBytes m.toNat 2 ++ toBytes x 4

/-- What a discovery packet says of this module: serial number, requested ID and its neighbours (R412; layout: log 15). -/
def State.discoveryBytes (s : State) : List Byte :=
  controlBytes 4 0 s.mod.id 0 ++ toBytes Config.serial.toNat 8 ++ toBytes (s.effective 0x2500 0) 2 ++
    (List.range 16).flatMap (fun p => toBytes (Sparse.get (0 : Word) s.fab.peers p).toNat 8)

/-- PORT_RETRAIN, R397: sub-ports of a down port come up again, unless the two ends train in different modes, the mode disables the port,
the head groom has stopped (R447), or DEEPCAL holds every port down (R431). -/
def execPortRetrain (p : BitVec 4) (up : BitVec 4) (mismatch : Bool) (s : State) : Host.Outcome State Fault Refusal :=
  let x := s.port p
  if ¬ s.fitted p ∨ x.usable &&& ~~~x.up = 0 ∨ s.boot.headStopped ∨ ¬ s.boot.mainOn ∨ s.dict.ovlActive = 3 then .next s
  else
    let s := if x.trained then s else s.trainPort p
    if mismatch then .next (s.modPort p (fun x => { x with mismatch := true }))
    else
      let new := up &&& (s.port p).usable &&& ~~~(s.port p).up
      let s := s.modPort p (fun x => { x with up := x.up ||| new, mismatch := false })
      let k := s.controlPacket 0 0 s.discoveryBytes
      .next (subPorts.foldl (fun s j => if new.getLsbD j.toNat then (s.peerUp p j true).sendOn 0 p j k else s) s)

/-- Groups that pass what the trailer of the peer acknowledges. -/
def Link.ack (l : Link) (a : BitVec 16) : Link :=
  let n := (a - l.acked).toNat
  if n ≤ l.outstanding then
    { l with acked := a, queue := l.queue.filter (fun e => decide (n < (e.1 - l.acked).toNat)),
             sent := l.sent.filter (fun g => decide (n < (g.gseq - l.acked).toNat)) }
  else l

/-- Sends the groups of the replay buffer again, from the NAKed one on (R396): one resend for each NAK, however many trailers repeat it (log 19). -/
def State.groupReplay (s : State) (p : BitVec 4) (j : BitVec 2) (a : BitVec 16) : State :=
  let l := (s.port p).link j
  if l.nakSeen = some a then s
  else
    let n := l.sent.length
    let s := l.sent.foldl (fun s g => s.emit (.group p j g.units ((s.port p).trailerOf l g))) s
    let s := s.modPort p (fun x =>
      { x.setLink j { l with nakSeen := some a } with retry := BitVec.ofNat 24 (min (x.retry.toNat + n) 0xFFFFFF) })
    s.countDie (portDie p) 0x630 n

/-- The units of a group that arrived in order: the packets they complete leave the input buffers, whose credits are owed, and units of a packet that
goes on stay (R395, R401). The packets themselves come as PACKET_FORWARD and PACKET_DELIVER. -/
def Link.takeGroup (l : Link) (units : List (BitVec 256)) : Link :=
  let r := parseUnits l.part units
  { l with part := r.2,
           owed := r.1.foldl (fun o k => if k.tc.toNat < 3 then Sparse.upd 0 o (8 * k.tc.toNat + k.hop.toNat) (· + linkBytes k / 32) else o) l.owed }

/-- What the trailer of a good group that arrived in order says (R395, R398, R422). -/
def State.trailer (s : State) (p : BitVec 4) (j : BitVec 2) (g : GroupIn) : State :=
  let s := s.modPort p (fun x =>
    let l := ((x.link j).takeGroup g.units).ack g.ackseq
    let l := { l with rxNext := g.gseq + 1, nak := false, fails := 0 }
    let l := if g.nak then l else { l with nakSeen := Option.none }
    let moved := g.rchg && decide (x.rxRest ≠ g.rest ∧ g.rest.toNat ≤ 16)
    { x.setLink j l with gpeer := g.gdis, rxRest := if moved then g.rest else x.rxRest, rxCal := x.rxCal && !moved })
  let s := if g.nak then s.groupReplay p j g.ackseq else s
  (s.pump p j).dropUnusable p

/-- GROUP_RECEIVE, R396. A group with units of packets, one that ends a NAK, and one that is discarded are answered by a group of this end, whose
trailer acknowledges or NAKs (log 19). -/
def execGroupReceive (p : BitVec 4) (j : BitVec 2) (g : GroupIn) (s : State) : Host.Outcome State Fault Refusal :=
  let x := s.port p
  let l := x.link j
  let good := GroupIn.good g x.width
  if ¬ x.up.getLsbD j.toNat then .next s
  else if good ∧ g.gseq = l.rxNext then
    let s := s.trailer p j g
    .next (if l.nak || !(g.units.all isIdle) then s.sendGroup p j else s)
  else if good ∧ (g.gseq - l.rxNext).toNat ≥ 0x8000 then .next s
  else
    let fails := l.fails + b2n (decide (g.gseq = l.rxNext))
    let s := s.modPort p (fun x => x.setLink j { l with nak := true, fails := fails })
    .next (if s.effective 0x2504 0 < fails then s.portDown p j else s.sendGroup p j)

/-! ### Packets at their destination (R399, R400, R404, R405, R407, R446) -/

/-- Whether a die answers every packet to its memory and cores with an error: it, or the module, is in SAFEHOLD, or it is being reset. -/
def State.dieHeld (s : State) (d : DieIx) : Bool := s.boot.modSafe || s.boot.warming || (s.die d).safehold

/-- The place a remote access names: spaces 1 to 3, a control word only whole (R399, R581). -/
def State.remotePlace (s : State) (a : Word) (n : Nat) : Trap ⊕ Loc :=
  if adSpace a = 0 ∨ n = 0 then .inl (violation 1 a)
  else
    match s.ownPlace (adSpace a) (adDie a) (adOff a) n (decide (n = 8 ∧ a.toNat % 8 = 0)) a with
    | .inl t => .inl t
    | .inr l => .inr l

/-- The status of an acknowledgement that carries an error (log 15). -/
def ackError (code : Nat) : Nat := 0x1000 + code

def State.ackPacket (s : State) (k : Packet) (status : Nat) : State := s.sendAck k.smod k.sdie k.seq status

/-- Whether an older message of the same stream has not yet been committed or refused at a place's core (R272, R281). -/
def State.messageAhead (s : State) (k : Packet) (l : Loc) : Bool :=
  let at_ (c : CoreIx) : Bool := s.msgs.any (fun m => decide (m.source = .peer k.smod k.sdie ∧ m.phase = .flight ∧ idCore m.target = c))
  match l with
  | .ls c _ => at_ c
  | .ctl c _ => at_ c
  | _ => false

/-- A remote write (R405); absent while a DONE it makes waits for its fence, or an older message goes first. -/
def State.serveWrite (s : State) (k : Packet) : Option State :=
  if s.dieHeld (adDie k.addr) then some (s.ackPacket k (ackError 0))
  else
    match s.remotePlace k.addr k.payload.length with
    | .inl t => some (s.ackPacket k (ackError t.code.toNat))
    | .inr (.ctl c o) =>
      let v : Word := BitVec.ofNat 64 (leNat k.payload)
      if s.ctlWaits .window c o v || s.messageAhead k (.ctl c o) then Option.none else some ((s.ctlWrite .window c o v).ackPacket k 0)
    | .inr l => if s.messageAhead k l then Option.none else some ((s.perform l (k.payload.map some)).ackPacket k 0)

/-- The response to a remote read or atomic: data, or a trap code with its DETAIL (R400, R407; layout: log 15). -/
def State.respond (s : State) (k : Packet) (r : Trap ⊕ List Byte) : State :=
  let b := { Packet.base 10 2 k.smod s.mod.id k.sdie with seq := k.seq }
  match r with
  | .inl t => s.emit (.packet k.sdie (Packet.seal { b with aux := t.code.zeroExtend 32, oparg := t.detail }))
  | .inr bs => s.emit (.packet k.sdie (Packet.seal { b with payload := bs }))

/-- The trap a die in SAFEHOLD answers a read with: the spec names no code for it (log 5). -/
def State.heldTrap (s : State) : Trap × State :=
  let (f, s) := s.freeNat
  ({ code := BitVec.ofNat 8 f, detail := BitVec.ofNat 16 (f / 256) }, s)

/-- A remote read (R407); ECC finds `u` in the words it reads (R186, R196, R248). Absent while an older message goes first. -/
def State.serveRead (s : State) (k : Packet) (u : Upset) : Option State :=
  if s.dieHeld (adDie k.addr) then
    let (t, s) := s.heldTrap
    some (s.respond k (.inl t))
  else
    match s.remotePlace k.addr k.len.toNat with
    | .inl t => some (s.respond k (.inl t))
    | .inr (.ctl c o) =>
      if s.messageAhead k (.ctl c o) then Option.none
      else
        let (v, s) := s.ctlRead .window c o
        some (s.respond k (.inr (toBytes v.toNat 8)))
    | .inr l =>
      if s.messageAhead k l then Option.none
      else
        match s.senseEngine l k.len.toNat u with
        | (some e, s) => some (s.respond k (.inl { code := 0x0A, detail := BitVec.ofNat 16 e }))
        | (Option.none, s) => some (s.respond k (.inr (s.readLoc l k.len.toNat)))

/-- The atomic a packet asks for (R64, R407). -/
def remoteAtom (func : BitVec 16) : Option AtomKind :=
  if func = 0 then some .tas else if func = 5 then some .cas else if func = 6 then some .fadd else Option.none

/-- A remote atomic on a Loft word (R407). -/
def State.serveAtomic (s : State) (k : Packet) (u : Upset) : State :=
  if s.dieHeld (adDie k.addr) then
    let (t, s) := s.heldTrap
    s.respond k (.inl t)
  else
    match remoteAtom k.oparg with
    | Option.none => s.respond k (.inl (violation 4 k.addr))
    | some a =>
      if k.addr.toNat % a.size ≠ 0 then s.respond k (.inl (misaligned a.size k.addr))
      else
        match s.remotePlace k.addr a.size with
        | .inr (.loft d o) =>
          match s.senseEngine (.loft d o) a.size u with
          | (some e, s) => s.respond k (.inl { code := 0x0A, detail := BitVec.ofNat 16 e })
          | (Option.none, s) =>
            let x : Word := BitVec.ofNat 64 (leNat (k.payload.take 8))
            let y : Word := BitVec.ofNat 64 (leNat ((k.payload.drop 8).take 8))
            let (old, s) := s.atomDo ⟨0, 0⟩ (.loft d o) a x (if a = .cas then y else x)
            s.respond k (.inr (fitBytes old 8))
        | .inl t => s.respond k (.inl t)
        | _ => s.respond k (.inl (violation 4 k.addr))

/-- A station message of another module takes its place among the messages (R293, R295). -/
def State.serveMessage (s : State) (k : Packet) : State :=
  let target : BitVec 22 := k.addr.extractLsb' 0 22
  let word : Word := BitVec.ofNat 64 (leNat (k.payload.take 8))
  if ¬ s.mine target ∨ ¬ s.present (idCore target) then s.ackPacket k 4
  else
    let m : Msg := { seq := s.nextSeq, left := s.nextSeq, source := .peer k.smod k.sdie, origin := .peer k.smod k.sdie k.seq, kind := word.extractLsb' 62 2, thr := k.thr, sender := k.sid,
                     target := target, queue := k.oparg.extractLsb' 0 4, epoch := k.aux.extractLsb' 0 16, payload := k.payload.drop 8,
                     oneShot := true, limit := Option.none, phase := .flight, refusals := 0 }
    { s with msgs := s.msgs ++ [m] }.bumpSeq

/-- The contribution a packet of KIND 5 names (layout: log 15). -/
def contribOf (k : Packet) (seq : Nat) : Contrib :=
  let sum := BitVec.ofNat 32 (leNat ((k.payload.drop 1024).take 4))
  let exempt := decide ((k.payload.drop 1032).take 1 = [1])
  { seq := seq, sender := ⟨idCore k.sid, k.thr⟩, target := idCore (k.addr.extractLsb' 0 22), away := Option.none,
    from_ := some (k.sid, k.seq), ctx := k.addr.extractLsb' 24 4, epoch := k.addr.extractLsb' 32 16, gen := k.aux.extractLsb' 24 8,
    thinm1 := k.aux.extractLsb' 16 6, block := k.aux.extractLsb' 0 16, rank := k.oparg.extractLsb' 0 12,
    q := k.oparg.extractLsb' 12 2,
    data := (List.range (min (k.payload.length / 4) 256)).map (fun j => BitVec.ofNat 32 (leNat ((k.payload.drop (4 * j)).take 4))),
    sum := if exempt then Option.none else some sum, count := leNat ((k.payload.drop 1028).take 4), credit := false, slot := 0 }

/-- Whether two contributions name the same tile of the same sender. -/
def Contrib.same (n m : Contrib) : Bool :=
  decide (n.sender = m.sender ∧ n.target = m.target ∧ n.ctx = m.ctx ∧ n.gen = m.gen ∧ n.block = m.block ∧ n.rank = m.rank ∧ n.q = m.q) &&
    decide (n.from_.map (fun f => f.1) = m.from_.map (fun f => f.1))

/-- A contribution of another module (R350, R352): a request joins the tiles that wait for credit, a tile fills the one that was granted. -/
def State.serveContrib (s : State) (k : Packet) : State :=
  let n := contribOf k s.nextSeq
  if ¬ s.present n.target then s.ackPacket k 7
  else if k.payload.isEmpty then ({ s with contribs := s.contribs ++ [n] }.bumpSeq).ackPacket k 0
  else if s.contribs.any (fun m => m.credit && m.data.isEmpty && m.same n) then
    let fill (m : Contrib) : Contrib := { m with data := n.data, sum := n.sum, count := n.count, from_ := n.from_ }
    let all := replaceFirst (fun m => m.credit && m.data.isEmpty && m.same n) fill s.contribs
    { s with contribs := all }
  else s.ackPacket k 1

/-- An item or a record of a peer (R450, R459). Without a host domain nothing is performed and nothing acknowledged (R405, R507). -/
def State.serveItem (s : State) (k : Packet) : State :=
  if s.boot.headStopped ∨ ¬ s.boot.hostUp then s
  else
    let r : BitVec 6 := k.oparg.extractLsb' 0 6
    let s := if k.kind = 8 then s.submission k.smod r (k.addr.extractLsb' 0 10) (BitVec.ofNat 512 (leNat k.payload))
             else s.peerRecord k.smod r (BitVec.ofNat 256 (leNat k.payload))
    s.ackPacket k 0

/-- Delivers the next packet in order of its stream, if it can be performed yet. -/
def State.serve (s : State) (k : Packet) (u : Upset) : Option State :=
  let key := streamKey k.sdie k.smod
  let next (s : State) : State := { s with fab := { s.fab with rxNext := Sparse.put 0 s.fab.rxNext key (k.seq + 1) } }
  if k.kind = 1 then (s.serveWrite k).map next
  else if k.kind = 2 then (s.serveRead k u).map next
  else if k.kind = 3 then some (next (s.serveAtomic k u))
  else if k.kind = 4 then some (next (s.serveMessage k))
  else if k.kind = 5 then some (next (s.serveContrib k))
  else some (next (s.serveItem k))

/-- Delivers from the reorder buffer what is now in order. -/
def State.drainReorder : Nat → State → DieIx → BitVec 12 → State
  | 0, s, _, _ => s
  | n + 1, s, d, m =>
    let seq := Sparse.get 0 s.fab.rxNext (streamKey d m)
    match s.fab.reorder.find? (fun k => decide (k.sdie = d ∧ k.smod = m ∧ k.seq = seq)) with
    | Option.none => s
    | some k =>
      match s.serve k .none with
      | Option.none => s
      | some s =>
        State.drainReorder n { s with fab := { s.fab with reorder := s.fab.reorder.filter (fun y => decide (y ≠ k)) } } d m

/-- Bytes a die's reorder buffer holds. -/
def State.reorderBytes (s : State) (d : DieIx) : Nat :=
  (s.fab.reorder.filter (fun k => decide (k.sdie = d))).foldl (fun n k => n + linkBytes k) 0

/-- Kinds of request class (R400). -/
def requestKind (k : BitVec 4) : Bool := decide (1 ≤ k.toNat ∧ k.toNat ≤ 5) || decide (k = 8 ∨ k = 9)

/-- Delivers what a stream can deliver now. -/
def State.drain (s : State) (d : DieIx) (m : BitVec 12) : State := State.drainReorder s.fab.reorder.length s d m

/-- PACKET_DELIVER, R404: a request packet of a stream to this module. What other packets carry comes as commands of their own. A packet that cannot be performed yet stays in the reorder buffer. -/
def execPacketDeliver (a : PacketIn) (s : State) : Host.Outcome State Fault Refusal :=
  let k := a.pkt
  let key := streamKey k.sdie k.smod
  let next := Sparse.get 0 s.fab.rxNext key
  let ahead := (k.seq - next).toNat
  if k.dmod ≠ s.mod.id ∨ s.boot.headStopped ∨ k.kind = 15 then .next s
  else if ¬ Packet.e2eOk k ∨ k.kind = 12 ∨ k.kind = 13 ∨ k.kind = 14 then .next (s.countDie k.sdie 0x631 1)
  else if ¬ requestKind k.kind ∨ s.fab.unreach.contains k.smod ∨ k.sepoch ≠ Sparse.get 0 s.fab.rxEpoch key then .next s
  else if 0x800000 ≤ ahead ∨ s.fab.reorder.any (fun y => decide (y.sdie = k.sdie ∧ y.smod = k.smod ∧ y.seq = k.seq)) then
    .next ((s.countDie k.sdie 0x633 1).drain k.sdie k.smod)
  else if ahead = 0 then
    match s.serve k a.upset with
    | Option.none => .next { s with fab := { s.fab with reorder := s.fab.reorder ++ [k] } }
    | some s => .next (s.drain k.sdie k.smod)
  else if 0x200000 < s.reorderBytes k.sdie + linkBytes k then
    .next ((s.countDie k.sdie 0x634 1).sendAck k.smod k.sdie next 0x2000)
  else .next { s with fab := { s.fab with reorder := s.fab.reorder ++ [k] } }

/-! ### Acknowledgements and responses at the source (R405, R407) -/

/-- Ends a remote write: acknowledged with or without an error, or dropped toward a lost peer (R278, R280, R405). -/
def State.endWrite (s : State) (f : WFlight) (err : Option Nat) (lost : Option (BitVec 12)) : State :=
  let s := { s with writes := s.writes.filter (fun g => g.seq ≠ f.seq) }
  match f.src, f.dma with
  | some w, _ =>
    let s := match err, lost with
      | some code, _ => (s.modThread w (fun h => { h with lost := true })).failItems w stFault (faultCause 7 code) (locThread s w)
      | _, some m => s.lostAccess w m
      | _, _ => s
    s.acked (some w) Option.none
  | _, some d => s.dmaAck d (if err.isSome then some 6 else if lost.isSome then some 5 else Option.none)
  | _, _ => s.acked Option.none f.red

/-- What the acknowledgement of one packet does at its source; `status` is present where it carries an error, a refusal or a reason. -/
def State.ackOne (s : State) (x : OutPkt) (status : Option Nat) : State :=
  match x.pkt.kind.toNat with
  | 1 =>
    (match s.writes.find? (fun f => f.seq = x.flight) with
     | some f =>
       if status.isNone ∧ s.fab.store.any (fun y => decide (y.pkt.kind = 1 ∧ y.flight = x.flight)) then s
       else s.endWrite f (status.map (fun c => c % 4096)) Option.none
     | Option.none => s)
  | 4 =>
    (match s.msgs.find? (fun m => m.seq = x.flight ∧ m.phase = .flight) with
     | some m => s.answer m (BitVec.ofNat 3 (status.getD 0))
     | Option.none => s)
  | 5 =>
    (match s.contribs.find? (fun n => n.seq = x.flight) with
     | some n =>
       (match status with
        | some r => if r < 8 then s.redGone n (BitVec.ofNat 3 r) else s
        | Option.none => if x.pkt.payload.isEmpty then s else s.dropContrib n.seq)
     | Option.none => s)
  | 9 =>
    (match x.ring with
     | some (r, slot) => s.modLed r slot (fun l => { l with state := 0, unacked := false })
     | Option.none => s)
  | _ => s

/-- Sends the packets that waited for room in the send store and now fit, each stream in order (R406). -/
def State.releaseStore (s : State) (d : DieIx) : State :=
  (s.fab.store.filter (fun x => x.waits && decide (x.die = d))).foldl (fun s x =>
    let first := s.fab.store.find? (fun y => y.waits && decide (y.die = d ∧ y.pkt.dmod = x.pkt.dmod))
    if first = some x ∧ s.storeFits d x.pkt then
      { s with fab := { s.fab with store := s.fab.store.map (fun y => if y = x then { y with waits := false } else y) } }.emit (.packet d x.pkt)
    else s) s

/-- Sends again every unacknowledged packet of a stream that a test names (R404, R408). -/
def State.resend (s : State) (d : DieIx) (m : BitVec 12) (p : OutPkt → Bool) : State :=
  (s.fab.store.filter (fun x => decide (x.die = d ∧ x.pkt.dmod = m) && !x.waits && p x)).foldl (fun s x => s.emit (.packet x.die x.pkt)) s

/-- A status that answers a credit request after its packet was acknowledged: a refusal ends the contribution (R356, R357). -/
def State.lateAnswer (s : State) (d : DieIx) (m : BitVec 12) (e : BitVec 24 × BitVec 16) : State :=
  match s.contribs.find? (fun n => decide (n.req = some e.1 ∧ coreDie n.sender.core = d) && !n.credit &&
      (match n.away with | some t => decide (idModule t = m) | Option.none => false)) with
  | some n => if e.2.toNat < 8 then s.redGone n (BitVec.ofNat 3 e.2.toNat) else s
  | Option.none => s

/-- Whether a stored packet belongs to a stream and lies at or below a SEQ. -/
def OutPkt.upTo (x : OutPkt) (d : DieIx) (m : BitVec 12) (seq : BitVec 24) : Bool :=
  decide (x.die = d ∧ x.pkt.dmod = m ∧ (seq - x.pkt.seq).toNat < 0x800000)

/-- THAEX_ACK_ARRIVAL, R405: packets leave the send store in order, each with its status; a status of a packet that has left it answers a credit request,
and one that names the lowest SEQ a full reorder buffer lacks has the stream sent again from there (R404). An acknowledgement of an old epoch is
discarded (R410). -/
def execThaexAckArrival (d : DieIx) (m : BitVec 12) (epoch : BitVec 8) (upTo : BitVec 24) (errors : List (BitVec 24 × BitVec 16))
    (s : State) : Host.Outcome State Fault Refusal :=
  if epoch ≠ Sparse.get 0 s.fab.txEpoch (streamKey d m) then .next s
  else
    let covered := s.fab.store.filter (fun x => x.upTo d m upTo && !x.waits)
    let late := errors.filter (fun e => !(covered.any (fun x => decide (x.pkt.seq = e.1))))
    let s := covered.foldl (fun s x =>
      let s := { s with fab := { s.fab with store := s.fab.store.filter (fun y => decide (y ≠ x)) } }
      s.ackOne x ((errors.find? (fun e => e.1 = x.pkt.seq)).map (fun e => e.2.toNat))) s
    .next (late.foldl (fun s e =>
      if e.2 = 0x2000 then s.resend d m (fun x => decide ((x.pkt.seq - e.1).toNat < 0x800000)) else s.lateAnswer d m e) (s.releaseStore d))

/-- Ends a remote read of a thread, or answers one of an engine; `lost`: its peer has been declared unreachable (R583). -/
def State.endRead (s : State) (f : RFlight) (g : Got) (lost : Option (BitVec 12)) : State :=
  if f.engine.isSome then s.gotRead f.seq g
  else
    match g with
    | .bytes bs => (s.installFill f bs).deliver f.who f.seq (.data ((bs.drop f.skip).take f.take))
    | .trap t => s.deliver f.who f.seq (.fault { t with tval := f.addr } lost)
    | .no => s

/-- READ_RESPONSE, R407: data or a trap code for a read or an atomic in another module. -/
def execReadResponse (seq : Nat) (trap : Option (BitVec 8 × BitVec 16)) (data : List Byte) (s : State) :
    Host.Outcome State Fault Refusal :=
  match s.reads.find? (fun f => f.seq = seq) with
  | Option.none => .next s
  | some f =>
    (match f.loc with
     | .remote _ _ =>
       let s := { s with fab := { s.fab with store := s.fab.store.filter (fun x =>
         !(decide (x.flight = seq ∧ (x.pkt.kind = 2 ∨ x.pkt.kind = 3)))) } }
       let s := s.releaseStore (coreDie f.who.core)
       .next (s.endRead f (match trap with
         | some (c, d) => .trap { code := c, detail := d }
         | Option.none => .bytes (fitBytes data f.len)) Option.none)
     | _ => .next s)

/-! ### Reachability (R408 to R410, R466) -/

/-- PROBE_SEND, R408: the command reports that the oldest packet is old enough; a second probe is not sent while one is outstanding. -/
def execProbeSend (d : DieIx) (m : BitVec 12) (s : State) : Host.Outcome State Fault Refusal :=
  let due := s.fab.dropped.contains m || s.fab.store.any (fun x => !x.waits && decide (x.die = d ∧ x.pkt.dmod = m))
  if m = s.mod.id ∨ s.unreachable m ∨ s.fab.probes.contains (d, m) ∨ ¬ due then .next s
  else
    let s := { s with fab := { s.fab with probes := s.fab.probes ++ [(d, m)], dropped := s.fab.dropped.filter (fun k => k ≠ m) } }
    .next ((s.emit (.packet d (s.controlPacket d m (controlBytes 0 d m 0)))).countDie d 0x635 1)

/-- PROBE_REPLY, R408: every packet after the SEQ last delivered is sent again. -/
def execProbeReply (d : DieIx) (m : BitVec 12) (last : BitVec 24) (s : State) : Host.Outcome State Fault Refusal :=
  if ¬ s.fab.probes.contains (d, m) then .next s
  else
    let s := { s with fab := { s.fab with probes := s.fab.probes.filter (fun k => k ≠ (d, m)) } }
    .next (s.resend d m (fun x => !(x.upTo d m last)))

/-- PROBE_ARRIVAL, R408: the ingress answers with the last SEQ delivered. -/
def execProbeArrival (d : DieIx) (m : BitVec 12) (sdie : DieIx) (s : State) : Host.Outcome State Fault Refusal :=
  if s.boot.headStopped then .next s
  else
    let s := s.drain sdie m
    let next := Sparse.get 0 s.fab.rxNext (streamKey sdie m)
    .next (s.emit (.packet d (s.controlPacket d m (controlBytes 1 sdie s.mod.id (next - 1).toNat))))

/-- Drops what this module's threads and engines have sent toward a lost peer (R280, R311, R357, R583, R231). -/
def State.dropToward (s : State) (m : BitVec 12) : State :=
  let toward (l : Loc) : Bool := match l with | .remote k _ => decide (k = m) | _ => false
  let s := (s.writes.filter (fun f => toward f.loc)).foldl (fun s f => s.endWrite f Option.none (some m)) s
  let s := (s.reads.filter (fun f => toward f.loc && decide (f.got = .no))).foldl (fun s f =>
    s.endRead f (.trap (violation 5 f.addr)) (some m)) s
  let s := (s.msgs.filter (fun n => decide (idModule n.target = m) && !(s.mine n.target))).foldl (fun s n =>
    let s := match n.origin with
      | .thread w => s.lostAccess w m
      | _ => s
    s.answer n 4) s
  (s.contribs.filter (fun n => match n.away with | some t => decide (idModule t = m) | Option.none => false)).foldl (fun s n =>
    (s.redGone n 7).lostAccess n.sender m) s

/-- Discards what the lost peer had sent or asked for (R294, R409). -/
def State.dropFrom (s : State) (m : BitVec 12) : State :=
  let partialTile (n : Contrib) : Bool := n.data.isEmpty && (match n.from_ with | some (i, _) => decide (idModule i = m) | Option.none => false)
  { s with contribs := s.contribs.filter (fun n => !(partialTile n))
           fab := { s.fab with store := s.fab.store.filter (fun x => decide (x.pkt.dmod ≠ m))
                               reorder := s.fab.reorder.filter (fun k => decide (k.smod ≠ m)) } }

/-- The items of the lost peer's rings (R466): an outbound item ends FAILED_LINK, an inbound one closes without a record. -/
def State.dropRingItem (s : State) (m : BitVec 12) (r : BitVec 6) (slot : BitVec 10) : State :=
  let x := s.ring r
  let l := x.led slot
  if x.peer ≠ m ∨ l.state = 0 then s
  else if x.kind = 2 then
    if l.outstanding then s.endItem r slot stLink m.toNat (locOf 5 Option.none (m ++ (0 : BitVec 10))) else s
  else if x.kind = 1 then
    let s := (s.unbind l (handleOf r slot)).forgetDelivery r slot
    let s := s.modLed r slot (fun l => { l with state := 0, unacked := false })
    if l.outstanding then s.countMod 0x804 1 else s
  else s

def State.dropRings (s : State) (m : BitVec 12) : State := s.ledgerSlots.foldl (fun s k => s.dropRingItem m k.1 k.2) s

/-- A declaration (R409). -/
def State.declare (s : State) (m : BitVec 12) : State :=
  if m = s.mod.id ∨ s.fab.unreach.contains m then s
  else
    let there := s.fab.reach.contains m
    let s := { s with fab := { s.fab with unreach := s.fab.unreach ++ [m], reach := s.fab.reach.filter (fun k => k ≠ m),
                                          probes := s.fab.probes.filter (fun k => k.2 ≠ m), dropped := s.fab.dropped.filter (fun k => k ≠ m) } }
    let s := allDies.foldl State.releaseStore (((s.dropToward m).dropFrom m).dropRings m)
    let s := if there then { s with mod := { s.mod with modules := s.mod.modules - 1 } }.sizeChanged else s
    s.event 0x0006 0 m.toNat 1

/-- A declaration and the UNREACH notice that floods it on, once (R408). -/
def State.declareAndFlood (s : State) (m : BitVec 12) : State :=
  if m = s.mod.id ∨ s.fab.unreach.contains m then s
  else
    let s := allPorts.foldl (fun s p => subPorts.foldl (fun s j =>
      s.sendOn (portDie p) p j (s.controlPacket (portDie p) (s.peerAt p j) (controlBytes 2 0 m 0))) s) s
    s.declare m

/-- What of a peer reaches this module in the C-cycle of its declaration, which is what waits in the queue (log 63), is applied first: acknowledgements
(R410) and records (R467). -/
def State.beforeDeclared (s : State) (m : BitVec 12) : State :=
  let run (o : Host.Outcome State Fault Refusal) (s : State) : State := match o with | .next t => t | _ => s
  if m = s.mod.id ∨ s.fab.unreach.contains m then s
  else
    s.pending.foldl (fun s k =>
      match k with
      | .thaexAckArrival d k epoch upTo errors => if k = m then run (execThaexAckArrival d m epoch upTo errors s) s else s
      | .itemRecordArrival k r rc => if k = m then run (execItemRecordArrival m r rc s) s else s
      | .packetDeliver a => if a.pkt.smod = m ∧ a.pkt.kind = 9 then run (execPacketDeliver a s) s else s
      | _ => s) s

/-- PEER_UNREACH, R409: TH_PROBE_LIMIT has expired on an outstanding probe; a reply of the same C-cycle wins (R410). -/
def execPeerUnreach (m : BitVec 12) (s : State) : Host.Outcome State Fault Refusal :=
  .next (if s.fab.probes.any (fun k => decide (k.2 = m)) && !(s.replyWaits m) then (s.beforeDeclared m).declareAndFlood m else s)

/-- UNREACH_NOTICE, R408. -/
def execUnreachNotice (m : BitVec 12) (s : State) : Host.Outcome State Fault Refusal := .next ((s.beforeDeclared m).declareAndFlood m)

/-! ### Time synchronisation (R411) -/

/-- The time master: the reachable module with the lowest ID. -/
def Fabric.master (x : Fabric) (own : BitVec 12) : BitVec 12 :=
  x.reach.foldl (fun a m => if m < a then m else a) own

/-- The neighbour on a minimal route to the master with the lowest port number. -/
def State.upstreamPort (s : State) : Option (BitVec 4) :=
  let e := Sparse.get (0 : BitVec 128) s.fab.routes (s.fab.master s.mod.id).toNat
  if s.fab.master s.mod.id = s.mod.id then Option.none
  else ((s.upBits.filter (fun b => e.getLsbD b)).head?).map (fun b => BitVec.ofNat 4 (b / 4))

/-- UNSYNC stands on the upstream port alone, while the last offset exceeds 21 ns. -/
def State.markSync (s : State) : State :=
  let off := decide (21 < s.fab.offset.natAbs)
  allPorts.foldl (fun s p =>
    let mine := decide (s.fab.upstream = some p) && off
    if (s.port p).unsync = mine then s else s.modPort p (fun x => { x with unsync := mine })) s

/-- A time sync packet with the stamps t1 to t3 that its sender knows (R400; layout: log 15). -/
def State.timePacket (s : State) (d : DieIx) (m : BitVec 12) (t1 t2 t3 : Nat) : Packet :=
  Packet.seal { Packet.base 7 0 m s.mod.id d with payload := toBytes t1 8 ++ toBytes t2 8 ++ toBytes t3 8 ++ toBytes 0 8 }

/-- TIME_SYNC, R411: a request to the upstream, with this module's time t1. -/
def execTimeSync (upstream : BitVec 4) (s : State) : Host.Outcome State Fault Refusal :=
  if s.upstreamPort ≠ some upstream ∨ s.boot.headStopped then .next s
  else
    let s := { s with fab := { s.fab with upstream := some upstream } }.markSync
    .next (match subPorts.find? (fun j => (s.port upstream).up.getLsbD j.toNat) with
      | some j => s.sendOn (portDie upstream) upstream j (s.timePacket (portDie upstream) (s.peerAt upstream j) s.now 0 0)
      | Option.none => s)

/-- TIME_SYNC_REPLY, R411: the offset, which the module slews away at no more than 200 ppm. -/
def execTimeSyncReply (t1 t2 t3 t4 : Word) (s : State) : Host.Outcome State Fault Refusal :=
  if s.fab.upstream.isNone then .next s
  else
    let off : Int := (((t2.toNat : Int) - t1.toNat) - ((t4.toNat : Int) - t3.toNat)) / 2
    .next ({ s with fab := { s.fab with offset := off, slew := off * 65536 } }.markSync)

/-- TIME_SYNC_REQUEST_ARRIVAL, R411: the reply carries the time the request came and the time the reply leaves. -/
def execTimeSyncRequestArrival (m : BitVec 12) (t1 t2 t3 : Word) (s : State) : Host.Outcome State Fault Refusal :=
  if s.boot.headStopped then .next s
  else
    .next (s.emit (.packet 0 (s.timePacket 0 m t1.toNat t2.toNat t3.toNat)))

/-! ### Discovery (R412, R413) -/

/-- The neighbours of a module in the lists that were flooded. -/
def discLinks (nodes : List DiscNode) (a : BitVec 64) : List (BitVec 64) :=
  match nodes.find? (fun n => n.serial = a) with
  | some n => n.links.map (fun l => l.2.2)
  | Option.none => []

/-- The modules within some hops of one. -/
def discWithin (nodes : List DiscNode) : Nat → BitVec 64 → List (BitVec 64)
  | 0, a => [a]
  | n + 1, a =>
    let near := discWithin nodes n a
    (near.flatMap (discLinks nodes)).foldl (fun l b => if l.contains b then l else l ++ [b]) near

/-- Hops between two modules, up to 7. -/
def discHops (nodes : List DiscNode) (a b : BitVec 64) : Option Nat :=
  (List.range 8).find? (fun n => (discWithin nodes n a).contains b)

/-- The ID a module's serial number holds already. -/
def State.heldId (s : State) (n : DiscNode) : Option (BitVec 12) :=
  match s.fab.holders.find? (fun h => h.1 = n.serial) with
  | some h => some h.2
  | Option.none => n.held

/-- The requests of modules that hold no ID. -/
def State.idRequests (s : State) (nodes : List DiscNode) : List (BitVec 64 × BitVec 12) :=
  nodes.filterMap (fun n =>
    if (s.heldId n).isNone ∧ n.idReq.toNat ≤ 0xFFF then some (n.serial, n.idReq.extractLsb' 0 12) else Option.none)

/-- The lowest ID never assigned; if none is left, the lowest whose holder is unreachable (R412). -/
def lowestFree (taken : List (BitVec 64 × BitVec 12)) (here : List (BitVec 64)) : Option (BitVec 12) :=
  let ids := (List.range 4096).map (BitVec.ofNat 12)
  match ids.find? (fun i => !(taken.any (fun h => decide (h.2 = i)))) with
  | some i => some i
  | Option.none => ids.find? (fun i => taken.any (fun h => decide (h.2 = i)) && !(taken.any (fun h => decide (h.2 = i) && here.contains h.1)))

/-- Inserts a serial number in ascending order. -/
def insertSerial (a : BitVec 64) : List (BitVec 64) → List (BitVec 64)
  | [] => [a]
  | b :: l => if a < b then a :: b :: l else b :: insertSerial a l

/-- A new holder of an ID; an older claim to it is dropped. -/
def claimId (taken : List (BitVec 64 × BitVec 12)) (a : BitVec 64) (i : BitVec 12) : List (BitVec 64 × BitVec 12) :=
  taken.filter (fun h => decide (h.2 ≠ i ∧ h.1 ≠ a)) ++ [(a, i)]

/-- The IDs of the fabric after discovery: kept, requested, then the rest in ascending order of serial numbers. -/
def State.assignIds (s : State) (nodes : List DiscNode) : List (BitVec 64 × BitVec 12) :=
  let kept := nodes.foldl (fun t n => match s.heldId n with | some i => claimId t n.serial i | Option.none => t) s.fab.holders
  let asked := (s.idRequests nodes).foldl (fun t r => if t.any (fun h => decide (h.2 = r.2)) then t else claimId t r.1 r.2) kept
  let here := nodes.map (fun n => n.serial)
  let rest := (here.filter (fun a => !(asked.any (fun h => decide (h.1 = a))))).foldl (fun l a => insertSerial a l) []
  rest.foldl (fun t a => match lowestFree t here with | some i => claimId t a i | Option.none => t) asked

/-- Whether two modules request one ID, or two lie more than 7 hops apart. -/
def State.fabricInvalid (s : State) (nodes : List DiscNode) : Bool :=
  let asks := (s.idRequests nodes).map (fun r => r.2)
  asks.any (fun i => decide (1 < (asks.filter (· = i)).length)) ||
    nodes.any (fun a => nodes.any (fun b => (discHops nodes a.serial b.serial).isNone))

def idOf (ids : List (BitVec 64 × BitVec 12)) (a : BitVec 64) : BitVec 12 :=
  match ids.find? (fun h => h.1 = a) with
  | some h => h.2
  | Option.none => 0

/-- The route entry toward one module: the minimal mask, and the mask of the links one hop longer. -/
def routeEntry (nodes : List DiscNode) (me : DiscNode) (b : BitVec 64) : BitVec 128 :=
  match discHops nodes me.serial b with
  | Option.none => 0
  | some n =>
    me.links.foldl (fun (e : BitVec 128) l =>
      let bit := 4 * l.1.toNat + l.2.1.toNat
      match discHops nodes l.2.2 b with
      | some h => if h + 1 = n then e ||| (1 <<< bit) else if h = n then e ||| (1 <<< (64 + bit)) else e
      | Option.none => e) 0

/-- SZ_PORT_PEER of a port. -/
def peerWord (ids : List (BitVec 64 × BitVec 12)) (me : DiscNode) (p : Nat) : Word :=
  me.links.foldl (fun (v : Word) l =>
    if l.1.toNat = p then v ||| (((0x8000 : Word) ||| (idOf ids l.2.2).zeroExtend 64) <<< (16 * l.2.1.toNat)) else v) 0

/-- A rejoined peer's streams take SEPOCH + 1 and SEQ 0 (R410). -/
def State.rejoin (s : State) (m : BitVec 12) : State :=
  let keys := ([0, 1, 2, 3] : List DieIx).map (fun d => streamKey d m)
  keys.foldl (fun s k =>
    { s with fab := { s.fab with txEpoch := Sparse.upd 0 s.fab.txEpoch k (· + 1), rxEpoch := Sparse.upd 0 s.fab.rxEpoch k (· + 1)
                                 txSeq := Sparse.put 0 s.fab.txSeq k 0, rxNext := Sparse.put 0 s.fab.rxNext k 0 } }) s

/-- What a completed discovery leaves. -/
def State.discovered (s : State) (nodes : List DiscNode) (me : DiscNode) : State :=
  let ids := s.assignIds nodes
  let here := nodes.map (fun n => idOf ids n.serial)
  let back := here.filter (fun m => s.fab.unreach.contains m)
  let s := back.foldl State.rejoin s
  let hops := nodes.flatMap (fun a => nodes.map (fun b => (discHops nodes a.serial b.serial).getD 0))
  let routes := nodes.foldl (fun (r : Sparse (BitVec 128)) n =>
    if n.serial = me.serial then r else Sparse.put 0 r (idOf ids n.serial).toNat (routeEntry nodes me n.serial)) []
  let peers := (List.range 16).foldl (fun (t : Sparse Word) p => Sparse.put 0 t p (peerWord ids me p)) []
  let own := idOf ids me.serial
  { s with
    fab := { s.fab with holders := ids, reach := here, unreach := s.fab.unreach.filter (fun m => !(here.contains m)), routes := routes,
                        peers := peers, diameter := BitVec.ofNat 8 (hops.foldl max 0) }
    mod := { s.mod with id := own, provisional := false, everJoined := true, modules := BitVec.ofNat 16 nodes.length } }

/-- FABRIC_DISCOVERY, R412: the lists have not changed for 1 ms. A module alone in its lists stays as it is (R510). -/
def execFabricDiscovery (nodes : List DiscNode) (s : State) : Host.Outcome State Fault Refusal :=
  match nodes.find? (fun n => n.serial = Config.serial) with
  | Option.none => .next s
  | some me =>
    if nodes.length < 2 ∨ s.boot.headStopped then .next s
    else if s.fabricInvalid nodes then .next (s.event 0x0007 0 0 1)
    else
      let t := s.discovered nodes me
      let same := decide (t.mod = s.mod ∧ t.fab.routes = s.fab.routes ∧ t.fab.peers = s.fab.peers ∧ t.fab.reach = s.fab.reach ∧
        t.fab.diameter = s.fab.diameter)
      .next (if same then t else t.sizeChanged)

end Sys2Proof.Machine
end

