-- ==== Sys2Proof/Machine/Farrier.lean ====
section
/-! DEFINITION. Live calibration: power bands, records and their selection, rest-lane rotation, lane calibration and loss, the fallback
ladder, memory PHYs, droop detectors and DEEPCAL (R416 to R433). -/

namespace Sys2Proof.Machine

/-- The Farrier of a die works on its Groom; die 0's is the head groom (R427, R447, R525). -/
def State.farrierRuns (s : State) (d : DieIx) : Bool := !(s.boot.headStopped && decide (d = 0))

/-! ### Records (R417 to R419) -/

/-- A record from its fields (R418). -/
def recordBits (src band kind rate : Nat) (temp margin : BitVec 16) (time : Nat) (vals : BitVec 128) : BitVec 256 :=
  BitVec.ofNat 256 (2 ^ 255 + src * 2 ^ 253 + band * 2 ^ 251 + kind * 2 ^ 248 + rate * 2 ^ 240 + temp.toNat * 2 ^ 224 + margin.toNat * 2 ^ 208 +
    time % 2 ^ 64 * 2 ^ 64 * 2 ^ 64 + vals.toNat)

def recValid (r : BitVec 256) : Bool := r.getLsbD 255
def recRate (r : BitVec 256) : Nat := (r.extractLsb' 240 8).toNat
def recTemp (r : BitVec 256) : BitVec 16 := r.extractLsb' 224 16
def recTime (r : BitVec 256) : Nat := (r.extractLsb' 128 64).toNat
def recVals (r : BitVec 256) : BitVec 128 := r.extractLsb' 0 128

/-- Writes a record. -/
def State.putRecordAt (s : State) (index sub : Nat) (r : BitVec 256) : State :=
  { s with far := { s.far with recs := Sparse.set s.far.recs (256 * index + sub) r } }

/-- The temperature of a die as TEMP_DIE shows it. -/
def State.dieTemp (s : State) (d : DieIx) : BitVec 16 := Sparse.get 0 s.boot.tempDie d.toNat

/-- The record a unit uses, and whether the choice is stale-context (R417). `unit`: the low six bits of the sub-index. -/
def State.pickRecord (s : State) (d : DieIx) (index unit : Nat) : BitVec 256 × Bool :=
  let slot (b : Nat) : BitVec 256 := s.recordAt index (64 * b + unit)
  let fits (r : BitVec 256) : Bool := recValid r && decide (recRate r = (recordKind index unit).2)
  let cur := slot s.far.band.toNat
  if fits cur ∧ ((recTemp cur).toInt - (s.dieTemp d).toInt).natAbs ≤ 128 then (cur, false)
  else
    let best := ([0, 1, 2, 3].map slot).foldl (fun (a : Option (BitVec 256)) r =>
      if !(fits r) then a
      else match a with
        | some q => if recTime q < recTime r then some r else some q
        | Option.none => some r) Option.none
    (best.getD (factoryRecord index (64 + unit)), true)

/-- A selection that is flagged counts. -/
def State.countStale (s : State) (d : DieIx) (flag : Bool) : State := if flag then s.countDie d 0x641 1 else s

/-- An optical lane of a fitted port in one direction selects its record (R4, R417); its flag stands until a record is written for it in the
current band. -/
def State.selectLane (s : State) (p : BitVec 4) (tx : Bool) (lane : Nat) : State :=
  if ¬ s.fitted p then s
  else
  let (r, flag) := s.pickRecord (portDie p) (0x6100 + p.toNat) (32 * b2n tx + lane)
  let bit : BitVec 17 := if flag then (1 : BitVec 17) <<< lane else 0
  (s.modPort p (fun x =>
    let x := { x with selected := Sparse.put 0 x.selected (32 * b2n tx + lane) r }
    if tx then { x with staleTx := x.staleTx ||| bit } else { x with stale := x.stale ||| bit })).countStale (portDie p) flag

def memKey (u : MemUnit) : Nat :=
  match u with
  | .hbm st ch => 32 * st.toNat + ch.toNat
  | .ddr ch sb => 512 + 2 * ch.toNat + sb.toNat

/-- Index and unit of a memory unit's records, and its die. -/
def memRec (u : MemUnit) : Nat × Nat :=
  match u with
  | .hbm st ch => (0x6200 + st.toNat, ch.toNat)
  | .ddr ch sb => (0x6210 + ch.toNat, sb.toNat)

def memDie (u : MemUnit) : DieIx :=
  match u with
  | .hbm st _ => st.extractLsb' 2 2
  | .ddr ch _ => ch.extractLsb' 2 2

def State.memTrack (s : State) (u : MemUnit) : MemTrack := Sparse.get {} s.far.mem (memKey u)

def State.modMem (s : State) (u : MemUnit) (f : MemTrack → MemTrack) : State :=
  { s with far := { s.far with mem := Sparse.upd {} s.far.mem (memKey u) f } }

/-- Level 1 of a memory unit (R429): entering it counts. -/
def State.memLevel (s : State) (u : MemUnit) : State :=
  let x := s.memTrack u
  let fast := x.stale || x.below
  let s := s.modMem u (fun x => { x with fast := fast })
  if fast ∧ ¬ x.fast then s.countDie (memDie u) 0x644 1 else s

def State.selectMem (s : State) (u : MemUnit) : State :=
  let (r, flag) := s.pickRecord (memDie u) (memRec u).1 (memRec u).2
  ((s.modMem u (fun x => { x with selected := r, stale := x.stale || flag })).countStale (memDie u) flag).memLevel u

def State.selectDroop (s : State) (d : DieIx) (dom : Nat) : State :=
  let (r, flag) := s.pickRecord d (0x6300 + d.toNat) dom
  let k := 5 * d.toNat + dom
  let f := s.far
  ({ s with far := { f with droopSel := Sparse.put 0 f.droopSel k r,
                            droopStale := if flag then f.droopStale ||| ((1 : BitVec 20) <<< k) else f.droopStale } }).countStale d flag

/-- The memory units of a die. -/
def dieUnits (d : DieIx) : List MemUnit :=
  let fours := (List.range 4).map (fun k => d ++ BitVec.ofNat 2 k)
  fours.flatMap (fun st => (List.range 32).map (fun ch => MemUnit.hbm st (BitVec.ofNat 5 ch))) ++
    fours.flatMap (fun ch => [MemUnit.ddr ch 0, MemUnit.ddr ch 1])

/-- Every unit of a die selects again. -/
def State.reselect (s : State) (d : DieIx) : State :=
  let ports := (List.range 4).map (fun k => d ++ BitVec.ofNat 2 k)
  let s := ports.foldl (fun s p =>
    (List.range 17).foldl (fun s l => (s.selectLane p false l).selectLane p true l) s) s
  let s := (dieUnits d).foldl (fun s u => s.selectMem u) s
  (List.range 5).foldl (fun s k => s.selectDroop d k) s

/-- RECORD_RESELECT, R417: with the die's temperature now. -/
def execRecordReselect (d : DieIx) (temp : BitVec 16) (s : State) : Host.Outcome State Fault Refusal :=
  if ¬ s.farrierRuns d then .next s
  else
    let s := { s with boot := { s.boot with tempDie := Sparse.put 0 s.boot.tempDie d.toNat temp } }
    .next (s.reselect d)

/-- A live record of the current band is written, at the end of a lane's calibration (R423, R426). -/
def State.liveRecord (s : State) (p : BitVec 4) (tx : Bool) (lane : Nat) (margin temp : BitVec 16) (vals : BitVec 128) : State :=
  let unit := 32 * b2n tx + lane
  let band := s.far.band.toNat % 4
  let r := recordBits 1 band (if tx then 2 else 1) 1 temp margin s.now (vals &&& ~~~(BitVec.ofNat 128 (2 ^ 80 - 1)))
  let keep : BitVec 17 := ~~~((1 : BitVec 17) <<< lane)
  (s.putRecordAt (0x6100 + p.toNat) (64 * band + unit) r).modPort p (fun x =>
    let x := { x with selected := Sparse.put 0 x.selected unit r, heaters := Sparse.put 0 x.heaters unit ((recVals r).extractLsb' 112 16) }
    if tx then { x with staleTx := x.staleTx &&& keep } else { x with stale := x.stale &&& keep })

/-! ### Bands (R416) -/

/-- The band after a mean: it rises past an edge by 0.1 kW and falls 0.1 kW below it. -/
def bandAfter (band watts : Nat) : Nat :=
  let up := ((List.range 3).filter (fun k => decide (1200 * (k + 1) + 100 ≤ watts))).length
  let down := ((List.range 3).filter (fun k => decide (1200 * (k + 1) < watts + 100))).length
  max up (min band down)

/-- The power point after a 100 µs mean (R517): ten means above PWR_LIMIT lower it, a hundred below 90 % of it raise it. -/
def State.powerMean (s : State) (watts : Nat) : State :=
  let limit := s.effective 0x2701 0
  let above := if limit < watts then s.boot.above + 1 else 0
  let below := if 10 * watts < 9 * limit then s.boot.below + 1 else 0
  let b := s.boot
  let b := { b with above := if above = 10 then 0 else above, below := if below = 100 then 0 else below }
  let b := if above = 10 then { b with powerPt := min 2 (b.powerPt + 1) } else b
  let b := if below = 100 then { b with powerPt := b.powerPt - 1 } else b
  { s with boot := b }

/-- POWER_BAND_SAMPLE, R416. The input voltage measured with the power, PWR_VIN, is free (log 5). -/
def execPowerBandSample (watts : BitVec 32) (s : State) : Host.Outcome State Fault Refusal :=
  if s.boot.headStopped then .next s
  else
    let s := { s with boot := { s.boot with pwrIn := watts } }.powerMean watts.toNat
    let (v, s) := s.freeNat
    let s := { s with boot := { s.boot with pwrVin := BitVec.ofNat 32 v } }
    let band := bandAfter s.far.band.toNat watts.toNat
    if band = s.far.band.toNat then .next s
    else
      let s := { s with far := { s.far with band := BitVec.ofNat 8 band } }
      .next (allDies.foldl (fun s d => if s.farrierRuns d then s.reselect d else s) s)

/-! ### Rotation and tracking (R420, R421) -/

/-- The next rest lane and direction of the rotation (R421). -/
def restStep (r : BitVec 5) (down : Bool) : BitVec 5 × Bool :=
  if down then (if r = 0 then (1, false) else (r - 1, true))
  else if 16 ≤ r.toNat then (15, true) else (r + 1, false)

/-- REST_ROTATE, R421 and R422: the next group announces the move. Not while PERM is set, at level 2 or 3, or before the resting lane is calibrated (R398, R423, R426). -/
def execRestRotate (p : BitVec 4) (s : State) : Host.Outcome State Fault Refusal :=
  let x := s.port p
  if x.up = 0 ∨ x.perm ∨ 2 ≤ x.level s.now ∨ ¬ x.calibrated ∨ ¬ s.farrierRuns (portDie p) then .next s
  else
    let (r, down) := restStep x.rest x.down
    .next (((s.modPort p (fun x => { x with down := down, calibrated := false })).moveRest p r).countDie (portDie p) 0x640 1)

/-- A heater code moves toward what the loop asks for by at most 16 codes. -/
def heaterStep (old new : BitVec 16) : BitVec 16 :=
  if old ≤ new then (if new.toNat ≤ old.toNat + 16 then new else old + 16)
  else (if old.toNat ≤ new.toNat + 16 then new else old - 16)

/-- The lane group of a physical lane, while a given lane of its direction rests (R391, R398). -/
def laneGroup (rest lane : BitVec 5) : BitVec 2 := BitVec.ofNat 2 ((if lane.toNat < rest.toNat then lane.toNat else lane.toNat - 1) / 4)

/-- Whether a lane carries data: it does not rest, is not lost, and its group is not disabled (R391, R398, R420). -/
def Port.carries (x : Port) (tx : Bool) (lane : BitVec 5) : Bool :=
  let resting := if tx then x.rest else x.rxRest
  decide (lane.toNat ≤ 16 ∧ lane ≠ resting ∧ x.up ≠ 0) && (tx || !(x.lost.getLsbD lane.toNat)) &&
    !(x.groupsOff.getLsbD (laneGroup resting lane).toNat)

/-- HEATER_TRACK, R420: on a lane that carries data. -/
def execHeaterTrack (p : BitVec 4) (tx : Bool) (lane : BitVec 5) (code : BitVec 16) (s : State) : Host.Outcome State Fault Refusal :=
  if !((s.port p).carries tx lane) ∨ ¬ s.farrierRuns (portDie p) then .next s
  else .next (s.modPort p (fun x => { x with heaters := Sparse.upd 0 x.heaters (32 * b2n tx + lane.toNat) (fun h => heaterStep h code) }))

/-! ### Loss, ladder and calibration (R398, R422 to R426) -/

/-- The lane group that a receive lane's logical lane belongs to (R391, R398). -/
def Port.groupOf (x : Port) (lane : BitVec 5) : BitVec 2 := laneGroup x.rxRest lane

/-- Disables the lane group of a lane at this end. -/
def Port.disableGroup (x : Port) (lane : BitVec 5) : Port := { x with gdis := x.gdis ||| ((1 : BitVec 4) <<< (x.groupOf lane).toNat) }

/-- Enables again the lane group that a level-3 recalibration had disabled. -/
def Port.enableGroup (x : Port) : Port := { x with gdis := x.gdis &&& ~~~((1 : BitVec 4) <<< x.group.toNat) }

/-- Asks the peer's transmitter, over the first sub-port that is up, to rest a lane (R425). -/
def State.askRest (s : State) (p : BitVec 4) (lane : BitVec 5) : State :=
  match subPorts.find? (fun j => (s.port p).up.getLsbD j.toNat) with
  | some j => s.sendOn (portDie p) p j (s.controlPacket (portDie p) (s.peerAt p j) (controlBytes 3 (portDie p) s.mod.id lane.toNat))
  | Option.none => s

/-- A receive lane of a fitted port is lost for good (R398, R423, R424). While PERM is clear it becomes the rest lane, also if it was under level-3
recalibration, whose group is then enabled again; while PERM is set its group is disabled, or stays so. -/
def State.laneLost (s : State) (p : BitVec 4) (lane : BitVec 5) : State :=
  let x := s.port p
  if 16 < lane.toNat ∨ x.lost.getLsbD lane.toNat ∨ ¬ s.fitted p then s
  else
    let held := decide (x.recal3 = some lane)
    let s := s.modPort p (fun x =>
      { x with lost := x.lost ||| ((1 : BitVec 17) <<< lane.toNat), recal := if x.recal = some lane then Option.none else x.recal,
               recal3 := if x.recal3 = some lane then Option.none else x.recal3 })
    let s := s.event 0x0008 (portDie p) (p.toNat + 16 * lane.toNat) 1
    if ¬ x.perm then
      let s := if x.rxRest = lane then s else s.askRest p lane
      let s := s.modPort p (fun x => { x with perm := true, rxRest := lane, rxCal := true })
      if held then (s.modPort p (fun x => x.enableGroup)).tellGdis p else s
    else if held ∨ x.rxRest = lane then s
    else ((s.modPort p (fun x => x.disableGroup lane)).tellGdis p).dropUnusable p

/-- LANE_LOSS, R424. -/
def execLaneLoss (p : BitVec 4) (lane : BitVec 5) (s : State) : Host.Outcome State Fault Refusal := .next (s.laneLost p lane)

/-- Whether a receive lane's calibration ends in the same C-cycle with FAR_EYE_WARN reached: it waits in the queue (R426, log 63). -/
def State.calibrationWaits (s : State) (p : BitVec 4) (lane : BitVec 5) : Bool :=
  s.pending.any (fun c =>
    match c with
    | .laneCalibrate q tx k margin _ _ => decide (q = p ∧ k = lane ∧ s.effective 0x2601 0 ≤ margin.toNat) && !tx
    | _ => false)

/-- RECAL_LIMIT_EXPIRE, R423: of the lane that rests or is being recalibrated; a calibration that ends in the same C-cycle wins (R426). -/
def execRecalLimitExpire (p : BitVec 4) (lane : BitVec 5) (s : State) : Host.Outcome State Fault Refusal :=
  let x := s.port p
  if (x.recal = some lane ∨ x.recal3 = some lane ∨ (x.rxRest = lane ∧ ¬ x.rxCal)) ∧ !(s.calibrationWaits p lane) then .next (s.laneLost p lane)
  else .next s

/-- A margin as the port keeps it. -/
def Port.withMargin (x : Port) (lane : BitVec 5) (margin warn now : Nat) : Port :=
  let bit : BitVec 17 := (1 : BitVec 17) <<< lane.toNat
  { x with margins := Sparse.put 0 x.margins lane.toNat (BitVec.ofNat 6 (min margin 63)),
           below := if margin < warn then x.below ||| bit else x.below &&& ~~~bit,
           lastBelow := if margin < warn then some now else x.lastBelow }

/-- Whether the same sample finds a lower lane of the port below FAR_EYE_MIN, which then takes the rest position: its sample waits in the queue
(R426, log 63). -/
def State.lowerLaneFalls (s : State) (p : BitVec 4) (lane : BitVec 5) : Bool :=
  s.pending.any (fun c =>
    match c with
    | .eyeSample q k margin => decide (q = p ∧ k < lane ∧ margin.toNat < s.effective 0x2602 0) && (s.port p).carries false k
    | _ => false)

/-- A data-carrying receive lane falls below FAR_EYE_MIN (R425, R426): level 2, or level 3 where PERM is set, where a level-2 lane rests already or
where a lower lane of the same sample is to. -/
def State.ladder (s : State) (p : BitVec 4) (lane : BitVec 5) : State :=
  let x := s.port p
  if ¬ x.perm ∧ x.recal.isNone ∧ !(s.lowerLaneFalls p lane) then
    (s.modPort p (fun x => { x with recal := some lane })).askRest p lane
  else if x.recal = some lane ∨ x.recal3.isSome then s
  else
    let s := s.modPort p (fun x => { x.disableGroup lane with recal3 := some lane, group := x.groupOf lane })
    ((s.countDie (portDie p) 0x643 1).tellGdis p).dropUnusable p

/-- EYE_SAMPLE, R425. -/
def execEyeSample (p : BitVec 4) (lane : BitVec 5) (margin : BitVec 6) (s : State) : Host.Outcome State Fault Refusal :=
  let x := s.port p
  if 16 < lane.toNat ∨ x.lost.getLsbD lane.toNat ∨ x.up = 0 ∨ ¬ s.farrierRuns (portDie p) then .next s
  else
    let s := s.modPort p (fun x => x.withMargin lane margin.toNat (s.effective 0x2601 0) s.now)
    .next (if margin.toNat < s.effective 0x2602 0 ∧ x.carries false lane then s.ladder p lane else s)

/-- The end of a receive lane's calibration: with FAR_EYE_WARN regained its recalibration ends, and its group is enabled again. -/
def State.rxCalibrated (s : State) (p : BitVec 4) (lane : BitVec 5) (margin : Nat) : State :=
  let warn := s.effective 0x2601 0
  let s := s.modPort p (fun x => x.withMargin lane margin warn s.now)
  if margin < warn then s
  else
    let held := decide ((s.port p).recal3 = some lane)
    let s := s.modPort p (fun x =>
      let x := if held then { x.enableGroup with recal3 := Option.none } else x
      { x with recal := if x.recal = some lane then Option.none else x.recal, rxCal := x.rxCal || decide (x.rxRest = lane) })
    if held then s.tellGdis p else s

/-- LANE_CALIBRATE, R423. -/
def execLaneCalibrate (p : BitVec 4) (tx : Bool) (lane : BitVec 5) (margin temp : BitVec 16) (vals : BitVec 128) (s : State) :
    Host.Outcome State Fault Refusal :=
  let x := s.port p
  let resting := if tx then decide (lane = x.rest) else decide (lane = x.rxRest ∨ x.recal = some lane ∨ x.recal3 = some lane)
  if 16 < lane.toNat ∨ ¬ s.fitted p ∨ ¬ resting ∨ (¬ tx ∧ x.lost.getLsbD lane.toNat) ∨ ¬ s.farrierRuns (portDie p) then .next s
  else
    let s := s.liveRecord p tx lane.toNat margin temp vals
    if tx then .next (s.modPort p (fun x => { x with calibrated := true, hold := false }))
    else .next (s.rxCalibrated p lane margin.toNat)

/-- LEVEL_2_REQUEST, R425: this transmitter moves its rest lane straight to the named lane at the next group boundary, and the rotation holds. -/
def execLevel2Request (p : BitVec 4) (lane : BitVec 5) (s : State) : Host.Outcome State Fault Refusal :=
  let x := s.port p
  if 16 < lane.toNat ∨ x.up = 0 ∨ ¬ s.farrierRuns (portDie p) then .next s
  else .next (((s.modPort p (fun x => { x with hold := true, calibrated := false })).moveRest p lane).countDie (portDie p) 0x642 1)

/-! ### Memory PHYs and droop (R428 to R430) -/

/-- A delay moves by at most 1/64 UI. -/
def delayStep (old new : Nat) : Nat := if old < new then old + 1 else old - b2n (decide (new < old))

/-- The delays of a unit after one update; a DDR5 unit's oscillator count is read, not stepped. -/
def trackDelays (u : MemUnit) (old new : BitVec 128) : BitVec 128 :=
  let f (hi lo : Nat) : Nat := delayStep (bitsN old.toNat hi lo) (bitsN new.toNat hi lo) % 2 ^ 32 * 2 ^ lo
  match u with
  | .hbm _ _ => BitVec.ofNat 128 (f 127 96 + f 95 64 + f 63 32 + f 31 0)
  | .ddr _ _ => BitVec.ofNat 128 (f 127 96 + f 95 64 + bitsN new.toNat 63 48 * 2 ^ 48)

/-- ARG of FAR_NEED_DEEPCAL. -/
def needDeepcalArg (u : MemUnit) : Nat :=
  match u with
  | .hbm st ch => 3 + 256 * st.toNat + 65536 * ch.toNat
  | .ddr ch sb => 4 + 256 * ch.toNat + 65536 * sb.toNat

/-- MEM_PHY_TRACK, R428 and R429. -/
def execMemPhyTrack (u : MemUnit) (margin : BitVec 16) (delays : BitVec 128) (s : State) : Host.Outcome State Fault Refusal :=
  let x := s.memTrack u
  let low := s.effective 0x2602 0
  if ¬ s.farrierRuns (memDie u) then .next s
  else
    let s := s.modMem u (fun x =>
      { x with delays := trackDelays u x.delays delays, margin := margin, below := decide (margin.toNat < s.effective 0x2601 0) })
    let s := s.memLevel u
    .next (if margin.toNat < low ∧ low ≤ x.margin.toNat then s.event 0x0009 (memDie u) (needDeepcalArg u) 1 else s)

/-- DROOP_STRETCH, R430. -/
def execDroopStretch (d : DieIx) (dom : BitVec 3) (s : State) : Host.Outcome State Fault Refusal :=
  .next (if 4 < dom.toNat then s else s.modDie d (fun x => { x with stretch := x.stretch ||| ((1 : BitVec 5) <<< dom.toNat) }))

/-- DROOP_RELEASE, R430. -/
def execDroopRelease (d : DieIx) (dom : BitVec 3) (s : State) : Host.Outcome State Fault Refusal :=
  .next (if 4 < dom.toNat then s else s.modDie d (fun x => { x with stretch := x.stretch &&& ~~~((1 : BitVec 5) <<< dom.toNat) }))

/-! ### DEEPCAL and flash (R418, R431) -/

/-- Entry to DEEPCAL: every port goes down and every peer is declared unreachable. -/
def State.enterDeepcal (s : State) : State :=
  let s := { s with far := { s.far with calibrating := true } }.allPortsDown
  (s.fab.reach.filter (fun m => m ≠ s.mod.id)).foldl (fun s m => s.declareAndFlood m) s

/-- A DEEPCAL record, with the fields its place fixes. -/
def State.deepcalRecord (s : State) (index sub : Nat) (r : BitVec 256) : State :=
  match entryAt index sub with
  | .inl _ => s
  | .inr _ =>
    if index < 0x6100 ∨ 0x6303 < index then s
    else
      s.putRecordAt index sub (BitVec.ofNat 256 (2 ^ 255 + 2 * 2 ^ 253 + sub / 64 * 2 ^ 251 + (recordKind index sub).1 * 2 ^ 248 +
        (recordKind index sub).2 * 2 ^ 240 + recordFree (recordKind index sub).1 r.toNat))

/-- Whether a DEEPCAL record of a receive lane shows an eye of FAR_EYE_WARN + 8/64 UI (R431). -/
def State.eyeRegained (s : State) (recs : List (BitVec 16 × BitVec 8 × BitVec 256)) (p : BitVec 4) (lane : BitVec 5) : Bool :=
  recs.any (fun r => decide (r.1.toNat = 0x6100 + p.toNat ∧ r.2.1.toNat % 64 = lane.toNat ∧
    s.effective 0x2601 0 + 8 ≤ (r.2.2.extractLsb' 208 16).toNat))

/-- A lost lane that regained its eye is restored. -/
def State.restoreLane (s : State) (p : BitVec 4) (lane : BitVec 5) : State :=
  s.modPort p (fun x =>
    { x with lost := x.lost &&& ~~~((1 : BitVec 17) <<< lane.toNat), perm := false,
             gdis := x.gdis &&& ~~~((1 : BitVec 4) <<< (x.groupOf lane).toNat) })

/-- Every unit whose band-slot record was written is no longer stale-context. -/
def State.freshRecords (s : State) (recs : List (BitVec 16 × BitVec 8 × BitVec 256)) : State :=
  recs.foldl (fun s r =>
    let i := r.1.toNat
    let u := r.2.1.toNat % 64
    if r.2.1.toNat / 64 ≠ s.far.band.toNat then s
    else if 0x6100 ≤ i ∧ i < 0x6110 then
      s.modPort (BitVec.ofNat 4 (i - 0x6100)) (fun x =>
        let keep : BitVec 17 := ~~~((1 : BitVec 17) <<< (u % 32))
        if u / 32 = 0 then { x with stale := x.stale &&& keep } else { x with staleTx := x.staleTx &&& keep })
    else if 0x6200 ≤ i ∧ i < 0x6210 then s.modMem (.hbm (BitVec.ofNat 4 (i - 0x6200)) (BitVec.ofNat 5 u)) (fun x => { x with stale := false })
    else if 0x6210 ≤ i ∧ i < 0x6220 then s.modMem (.ddr (BitVec.ofNat 4 (i - 0x6210)) (BitVec.ofNat 1 u)) (fun x => { x with stale := false })
    else if 0x6300 ≤ i ∧ i < 0x6304 then
      { s with far := { s.far with droopStale := s.far.droopStale &&& ~~~((1 : BitVec 20) <<< (5 * (i - 0x6300) + u)) } }
    else s) s

/-- DEEPCAL_DONE, R431: the records of every band, the restored lanes, and ports that train with any new mode. -/
def execDeepcalDone (recs : List (BitVec 16 × BitVec 8 × BitVec 256)) (restored : List (BitVec 4 × BitVec 5)) (s : State) :
    Host.Outcome State Fault Refusal :=
  if ¬ s.far.calibrating then .next s
  else
    let s := recs.foldl (fun s r => s.deepcalRecord r.1.toNat r.2.1.toNat r.2.2) s
    let s := (s.freshRecords recs)
    let s := restored.foldl (fun s r => if s.eyeRegained recs r.1 r.2 then s.restoreLane r.1 r.2 else s) s
    let s := allDies.foldl (fun s d => s.reselect d) s
    let s := { s with far := { s.far with calibrating := false } }.trainPorts
    .next (s.event 0x000A 0 0 1)

/-- Writes every record to flash (R418). -/
def State.saveRecords (s : State) : State := { s with far := { s.far with flash := s.far.recs } }

/-- RECORD_FLASH_SAVE, R418. -/
def execRecordFlashSave (s : State) : Host.Outcome State Fault Refusal := .next (if s.boot.headStopped then s else s.saveRecords)

end Sys2Proof.Machine
end

