-- ==== Sys2Proof/Machine/Guard.lean ====
section
/-! DEFINITION. Containment: SAFEHOLD of a die and of the module, the checker self-test, monitors, the DONE hold, Groom lockstep and row
quiesces with their remap (R20 to R28, R437 to R449, R484). -/

namespace Sys2Proof.Machine

/-! ### SAFEHOLD (R443, R445, R484) -/

/-- Every thread of a core enters FENCED, its queues close and its channels end, as at a core fence, but it is not marked bad (R445). -/
def State.holdCore (s : State) (c : CoreIx) : State :=
  if (s.core c).fenced ∨ ¬ s.present c then s
  else
    let s := ((s.fenceThreads c).closeQueues c true).abortCoreDma c
    s.modCore c (fun x => { x with fenced := true, mq := [], retry := Option.none })

/-- Ends the items a test names. -/
def State.endItems (s : State) (p : BitVec 6 → Ledger → Bool) (status cause : Nat) (loc : BitVec 32) : State :=
  s.ledgerSlots.foldl (fun s k =>
    let l := (s.ring k.1).led k.2
    if l.outstanding && p k.1 l then s.endItem k.1 k.2 status cause loc else s) s

/-- LOC of a die. -/
def State.locDie (s : State) (d : DieIx) : BitVec 32 := locOf 3 Option.none (s.mod.id ++ (d ++ (0 : BitVec 8)))

/-- The emergency that every SAFEHOLD sends. -/
def State.safeholdEvent (s : State) (d : DieIx) : State := s.event 0x8003 d s.safeState 2

/-- Die SAFEHOLD. -/
def State.safeDie (s : State) (d : DieIx) : State :=
  if (s.die d).safehold then s
  else
    let s := (s.modDie d (fun x => { x with safehold := true })).countMod 0x805 1
    let s := s.endItems (fun _ l => s.itemOnDie d l) stFault (faultCause 4 0) (s.locDie d)
    ((dieCores d).foldl (fun s c => s.holdCore c) s).safeholdEvent d

/-- The overlay in effect changes, in one dictionary operation (R483, R484): a new page-table root drops the cached translations, DEEPCAL is
entered or left, and the module's SAFEHOLD ends with its overlay. -/
def State.setOverlay (s : State) (o : BitVec 8) : State :=
  let old := s.dict.ovlActive
  let root := s.ptRoot
  let s := { s with dict := { s.dict with ovlActive := o, ovlEpoch := s.dict.ovlEpoch + 1, ovlState := 0, ovlTarget := o, ovlResult := 0 },
                    boot := { s.boot with modSafe := s.boot.modSafe && decide (o = 5) } }
  let s := if s.ptRoot = root then s else s.xlInvAll
  let s := if o = 3 then s.enterDeepcal
           else if old = 3 then { s with far := { s.far with calibrating := false } }.trainPorts else s
  s.event 0x000C 0 (o.toNat + s.dict.ovlEpoch.toNat * 2 ^ 32) 1

/-- Whether the drain of a switch is complete: no item of the module is DELIVERED, taken, BOUND or in its DONE hold. -/
def State.drained (s : State) : Bool :=
  s.ledgerSlots.all (fun k =>
    let l := (s.ring k.1).led k.2
    !(l.outstanding && decide (l.state = 2 ∨ l.state = 3 ∨ l.state = 4 ∨ l.state = 5)))

/-- OVL_DRAIN_END, R483. -/
def execOvlDrainEnd (s : State) : Host.Outcome State Fault Refusal :=
  if s.dict.ovlState = 1 ∧ s.drained ∧ ¬ s.boot.headStopped then .next (s.setOverlay s.dict.ovlTarget) else .next s

/-- Module SAFEHOLD: the overlay without a drain, every die held, every item of the module ended (R445, R484). An outbound item runs on a
peer, whose record ends it. -/
def State.safeModule (s : State) : State :=
  if s.boot.modSafe ∨ s.boot.headStopped then s
  else
    let s := (if s.dict.ovlActive = 5 then s else s.setOverlay 5).saveRecords
    let s := { s with boot := { s.boot with modSafe := true } }.countMod 0x805 1
    let s := s.endItems (fun r _ => decide ((s.ring r).kind ≠ 2)) stFault (faultCause 4 0) s.locModule
    let s := allDies.foldl (fun s d =>
      (dieCores d).foldl (fun s c => s.holdCore c) (s.modDie d (fun x => { x with safehold := true }))) s
    s.safeholdEvent 0

/-! ### Monitors and the DONE hold (R439, R440, R443, R485) -/

/-- LOC of the level a monitor event is contained at (R445). -/
def State.locMonitor (s : State) (m : MonScope) : BitVec 32 :=
  match m with
  | .die d => s.locDie d
  | .shared => s.locModule

/-- MONITOR_EVENT, R443: items in their DONE hold end with SOURCE 5, then the die or the module enters SAFEHOLD. -/
def execMonitorEvent (m : MonScope) (s : State) : Host.Outcome State Fault Refusal :=
  let s := s.endItems (fun _ l => decide (l.state = 4)) stFault (faultCause 5 0) (s.locMonitor m)
  match m with
  | .die d => .next ((s.modDie d (fun x => { x with monitor := true })).safeDie d)
  | .shared => .next { s with boot := { s.boot with monShared := true } }.safeModule

/-- MONITOR_EVENT_END, R485. -/
def execMonitorEventEnd (m : MonScope) (s : State) : Host.Outcome State Fault Refusal :=
  match m with
  | .die d => .next (s.modDie d (fun x => { x with monitor := false }))
  | .shared => .next { s with boot := { s.boot with monShared := false } }

/-- Whether a monitor event of the module persists. -/
def State.monitorUp (s : State) : Bool := s.boot.monShared || allDies.any (fun d => (s.die d).monitor)

/-- Whether a monitor event falls into the same C-cycle: it waits in the queue, and wins (R440, log 63). -/
def State.monitorWaits (s : State) : Bool :=
  s.pending.any (fun c => match c with | .monitorEvent _ => true | _ => false)

/-- DONE_HOLD_END, R439 and R440: 2 µs after the command. -/
def execDoneHoldEnd (r : BitVec 6) (slot : BitVec 10) (s : State) : Host.Outcome State Fault Refusal :=
  let l := (s.ring r).led slot
  if l.state ≠ 4 ∨ l.unacked ∨ s.now < l.holdEnd ∨ s.monitorWaits then .next s
  else .next (s.closeItem r slot stDone 0 (s.itemLoc l))

/-! ### Lockstep and self-test (R441, R442, R447) -/

/-- A lockstep mismatch: the die in SAFEHOLD, or the head groom stopped with every port down. -/
def State.lockstep (s : State) (d : DieIx) : State :=
  if d ≠ 0 then s.safeDie d
  else if s.boot.headStopped then s
  else
    let s := (s.countMod 0x805 1).event 0x8002 0 0 2
    { s with boot := { s.boot with headStopped := true } }.allPortsDown

/-- LOCKSTEP_MISMATCH, R447. -/
def execLockstepMismatch (d : DieIx) (s : State) : Host.Outcome State Fault Refusal := .next (s.lockstep d)

/-- SAFE_SELFTEST (R442, R479): system time, die, checker kind (1 core, 2 die, 3 Thaex, 4 lockstep), core ID; places: log 20. -/
def State.selftestWord (s : State) (d : DieIx) (kind : Nat) (core : Nat) : BitVec 128 :=
  BitVec.ofNat 128 (s.now % 2 ^ 64 * 2 ^ 64 + d.toNat * 2 ^ 56 + kind * 2 ^ 48 + core)

/-- A checker fails: what it guards is taken out of service. -/
def State.checkerFailed (s : State) (d : DieIx) (k : Checker) : State :=
  let note (s : State) (kind core : Nat) : State :=
    let x := s.selftestWord d kind core
    { s with mod := { s.mod with selftest := x } }.event 0x8001 d x.toNat 2
  match k with
  | .core c => (note s 1 (s.coreId c).toNat).fenceCore c 0 Option.none
  | .die e => (note s 2 0).safeDie e
  | .thaex p => subPorts.foldl (fun s j => s.portDown p j) ((note s 3 0).countMod 0x805 1)
  | .lockstep e => (note s 4 0).lockstep e

/-- Whether a checker lies on a die. -/
def checkerOnDie (k : Checker) (d : DieIx) : Bool :=
  match k with
  | .core c => decide (coreDie c = d)
  | .die e => decide (e = d)
  | .thaex p => decide (portDie p = d)
  | .lockstep e => decide (e = d)

/-- Whether a retry runs on a core's checker: the self-test does not interrupt it (R158). -/
def State.testWaits (s : State) (k : Checker) : Bool :=
  match k with
  | .core c => (s.core c).retry.isSome
  | _ => false

/-- CHECKER_SELFTEST, R441. -/
def execCheckerSelftest (d : DieIx) (failed : Option Checker) (s : State) : Host.Outcome State Fault Refusal :=
  match failed with
  | some k => .next (if checkerOnDie k d && !(s.testWaits k) then s.checkerFailed d k else s)
  | Option.none => .next s

/-! ### Remaps (R20 to R28) -/

/-- The bad physical columns of a row. -/
def State.badCols (s : State) (d : DieIx) (r : BitVec 4) : List Nat :=
  let base := 272 * d.toNat + 17 * r.toNat
  (List.range 17).filter (fun p => s.mod.badFuse.contains (base + p) || s.mod.badRun.contains (base + p))

/-- The physical columns that carry logical columns 0, 1, … of a row (R22, R27, R28). -/
def rowPlan (bad : List Nat) : List Nat :=
  if 3 ≤ bad.length then [] else ((List.range 17).filter (fun p => !(bad.contains p))).take 16

/-- SZ_ROW_COLS of a row with so many carried columns. -/
def colMask (n : Nat) : BitVec 16 := BitVec.ofNat 16 (2 ^ n - 1)

/-- The core of a row at a logical column. -/
def rowCore (d : DieIx) (r : BitVec 4) (k : Nat) : CoreIx := d ++ (r ++ BitVec.ofNat 4 k)

/-- Station and lane entries that name a core of this module lose their mapping: KIND 0 in the entry, V = 0 in the lane; their other fields
stay (R27, R304). -/
def State.unmapCore (s : State) (c : CoreIx) : State :=
  let id := s.coreId c
  { s with cores := Sparse.mapVals {} (fun _ x =>
      { x with stnEntry := Sparse.mapVals 0 (fun _ (e : Word) =>
                 if e.extractLsb' 62 2 = 1 ∧ e.extractLsb' 38 22 = id then (e.extractLsb' 0 62).zeroExtend 64 else e) x.stnEntry,
               stnLane := Sparse.mapVals 0 (fun _ (e : Word) =>
                 if e.getLsbD 63 ∧ e.extractLsb' 38 22 = id then (e.extractLsb' 0 63).zeroExtend 64 else e) x.stnLane }) s.cores }

/-- The remap of a row (R21, R22, R27, R28): a logical core keeps its contents; those of a column that becomes absent are gone. -/
def State.remapRow (s : State) (d : DieIx) (r : BitVec 4) : State :=
  let plan := rowPlan (s.badCols d r)
  let row := 16 * d.toNat + r.toNat
  let s := { s with mod := { s.mod with rowMap := Sparse.put (List.range 16) s.mod.rowMap row plan,
                                        rowCols := Sparse.put 0xFFFF s.mod.rowCols row (colMask plan.length) } }
  ((List.range 16).drop plan.length).foldl (fun s k => (s.setCore (rowCore d r k) {}).unmapCore (rowCore d r k)) s

/-! ### Row quiesce (R448, R449) -/

/-- ROW_QUIESCE, R448: discarded while a quiesce runs on the die. -/
def execRowQuiesce (p : Path) (val : BitVec 16) (s : State) : Host.Outcome State Fault Refusal :=
  let code := s.writeCode p 0x4220 0 3 2 true
  if code ≠ 0 then .next (s.report p code)
  else
    let d : DieIx := val.extractLsb' 8 2
    let s := if (s.die d).quiesce.isSome then s else s.modDie d (fun x => { x with quiesce := some { row := val.extractLsb' 0 4 } })
    .next (s.report p 0)

/-- A thread that still runs when the drain limit expires is fenced, and its items end FAILED_ABORT. -/
def State.drainThread (s : State) (w : Who) : State :=
  let h := s.thread w
  if h.state = .run ∨ h.state = .wait ∨ h.state = .halt then
    let s := ((s.leftWait w).failItems w stAbort 2 (locThread s w)).stopStreams w false
    let s := s.modThread w (fun h => { h with state := .fenced, hold := .none, memHold := .none, loads := [], stepping := false })
    s.modCore w.core (fun x =>
      { x with mq := x.mq.filter (fun m => m.thr ≠ w.thr),
               retry := match x.retry with | some r => if r.thr = w.thr then Option.none else some r | Option.none => Option.none })
  else s

/-- The threads of a row that end in the C-cycle in which the drain limit expires, which are those whose end waits in the queue (log 63), have ended
before it (R449). -/
def State.endsInTime (s : State) (d : DieIx) (r : BitVec 4) : State :=
  s.pending.foldl (fun s c =>
    match c with
    | .endThread i rs1 =>
      if coreDie i.who.core = d ∧ coreRow i.who.core = r then
        match execEndThread i rs1 s with
        | .next t => t
        | _ => s
      else s
    | _ => s) s

/-- The streams of a relay chain are disabled (R383). -/
def State.dropRelay (s : State) (w : Who) : State :=
  allStreams.foldl (fun s k => if (s.stream w k).mode = 0 then s else s.stopStream w k false) s

/-- A core of a row that reopens: its fenced threads are FREE again (log 21). -/
def State.reopen (s : State) (c : CoreIx) : State :=
  s.modCore c (fun x =>
    { x with fenced := false,
             threads := Sparse.mapVals {} (fun _ h => if h.state = .fenced then { h with state := .free } else h) x.threads })

/-- The QUEUED items for a queue of a row stay held until the runtime has opened the queue again. -/
def State.holdItems (s : State) (d : DieIx) (r : BitVec 4) : State :=
  let away (l : Ledger) : Bool :=
    match (s.core s.resolver).resolve (l.entry.extractLsb' 128 8) (l.entry.extractLsb' 136 8) with
    | some (target, _, _) => s.mine target && decide (coreDie (idCore target) = d ∧ coreRow (idCore target) = r)
    | Option.none => false
  { s with rings := Sparse.mapVals {} (fun _ x =>
      { x with ledger := Sparse.mapVals {} (fun _ l => if l.state = 1 ∧ away l then { l with held := true } else l) x.ledger }) s.rings }

/-- The words of local store that the Groom finds uncorrectable as it copies the shifted cores of a row are written with poison (R25); `lost`
names them by logical column and word. The error log takes them as the Groom finds them (R444). -/
def State.copyPoison (s : State) (d : DieIx) (r : BitVec 4) (moved : List Nat) (lost : List (BitVec 4 × Nat)) : State :=
  lost.foldl (fun s e =>
    if moved.contains e.1.toNat ∧ e.2 < 0x100000 then
      (s.logError d 1 1 (s.coreId (rowCore d r e.1.toNat)).toNat).modCore (rowCore d r e.1.toNat)
        (fun x => { x with lsPoison := Sparse.put false x.lsPoison e.2 true })
    else s) s

/-- The logical columns of a row that a remap has moved to another physical column and that are still present. -/
def State.movedCols (was s : State) (d : DieIx) (r : BitVec 4) : List Nat :=
  (List.range 16).filter (fun k => s.present (rowCore d r k) && decide (was.physCol (rowCore d r k) ≠ s.physCol (rowCore d r k)))

/-- QUIESCE_DRAIN_END, R448: once every thread of the row is FREE or DONE, or at the limit (R449). -/
def execQuiesceDrainEnd (d : DieIx) (drain : DrainEnd) (s : State) : Host.Outcome State Fault Refusal :=
  match (s.die d).quiesce with
  | Option.none => .next s
  | some q =>
    let s := if drain.limit then s.endsInTime d q.row else s
    let cores := ((List.range 16).map (rowCore d q.row)).filter s.present
    let busy := (cores.flatMap whos).any (fun w => decide ((s.thread w).state = .run ∨ (s.thread w).state = .wait ∨ (s.thread w).state = .halt))
    if busy ∧ ¬ drain.limit then .next s
    else
      let s := (cores.flatMap whos).foldl (fun s w => (s.drainThread w).dropRelay w) s
      let s := cores.foldl (fun s c => s.closeQueues c false) (s.holdItems d q.row)
      let was := s.mod.rowCols
      let old := s
      let s := s.remapRow d q.row
      let s := s.copyPoison d q.row (old.movedCols s d q.row) drain.lost
      let s := (cores.filter s.present).foldl (fun s c => s.reopen c) s
      let s := s.modDie d (fun x => { x with quiesce := Option.none })
      .next (if s.mod.rowCols = was then s else s.sizeChanged)

end Sys2Proof.Machine
end

