-- ==== Sys2Proof/Machine/Boot.lean ====
section
/-! DEFINITION. Power, clocks, resets, secure boot, operating points, thermal control and attestation (R506 to R535, R566 to R568). -/

namespace Sys2Proof.Machine

/-! ### Sideband pins (R519, R566) -/

/-- ALERT_N is low. -/
def State.alert (s : State) : Bool :=
  decide (s.boot.stage = 1 ∨ s.boot.stage = 7 ∨ s.boot.stage = 8) || s.boot.modSafe || s.boot.headStopped

/-- THERM_TRIP_N is low. -/
def State.thermTripLow (s : State) : Bool := s.boot.thermTrip

/-! ### Secure boot (R526 to R530) -/

/-- The 64-byte header of an image whose reserved fields are zero (R527). -/
def imageHeader (x : Image) : List Byte :=
  toBytes (x.magic.toNat * 2 ^ 480 + x.version.toNat * 2 ^ 448 + x.svn.toNat * 2 ^ 432 + b2n x.advance * 2 ^ 428 +
    x.bodyLen % 2 ^ 32 * 2 ^ 384 + x.bodyHash.toNat * 2 ^ 128) 64

/-- Whether the boot ROM accepts an image (R527, R528). -/
def State.accepts (s : State) (x : Image) : Bool :=
  decide (x.magic = 0x4B344657) && x.zeros && decide (x.header = imageHeader x) && decide (x.bodyLen = x.body.length) &&
    decide (x.pubKey.length = 60 ∧ x.sig.length = 3284) &&
    decide (x.header.length + x.pubKey.length + x.sig.length + x.body.length ≤ 12 * 2 ^ 20) &&
    decide (Config.sha256 x.pubKey = Config.keyHash) &&
    Config.hssVerify x.pubKey (x.header ++ x.pubKey ++ x.body) x.sig &&
    decide (Config.sha256 x.body = x.bodyHash) && decide (s.minSvn ≤ x.svn.toNat)

/-- What a bank holds of a verified image. -/
def Image.bank (x : Image) : Bank := { version := x.version, svn := x.svn, advance := x.advance }

def State.verified (s : State) (x : Option Image) : Option Bank :=
  match x with
  | some i => if s.accepts i then some (Image.bank i) else Option.none
  | Option.none => Option.none

def State.bankAt (s : State) (b : BitVec 1) : Option Bank := if b = 0 then s.boot.bankA else s.boot.bankB

/-- The bank to boot (R529): the pointer's, unless it holds no good image or has failed twice to reach READY. -/
def State.bootBank (s : State) : Option (BitVec 1) :=
  let first := s.boot.pointer
  if (s.bankAt first).isSome ∧ s.boot.attempts < 2 then some first
  else if (s.bankAt (first + 1)).isSome then some (first + 1)
  else Option.none

/-- The main-domain rails start once PWR_EN is asserted, the module stands by, the reference is present and no trip holds them off
(R508, R509, R519). -/
def State.tryMain (s : State) : State :=
  if s.boot.pwrEn ∧ s.boot.stage = 2 ∧ s.boot.refClk ∧ ¬ s.boot.tripped then { s with boot := { s.boot with mainOn := true } } else s

/-- The dictionary after a cold reset: persistent entries from flash, every other entry at its default (R477). -/
def Dict.cold (x : Dict) : Dict := { vals := x.flash, flash := x.flash, ownSeq := x.flashSeq, flashSeq := x.flashSeq }

/-- STANDBY_START, R508: the Grooms leave reset; what is stored in flash and fuses stands. -/
def execStandbyStart (s : State) : Host.Outcome State Fault Refusal :=
  if s.boot.aon ∧ s.boot.stage ≠ 1 then .next s
  else
    .next { s with
      boot := { s.boot with aon := true, stage := 1, headStopped := false }
      dict := s.dict.cold
      rings := [] }

/-- FIRMWARE_VERIFY, R528 and R529. -/
def execFirmwareVerify (imgA imgB : Option Image) (s : State) : Host.Outcome State Fault Refusal :=
  if ¬ s.boot.aon ∨ s.boot.stage ≠ 1 then .next s
  else
    let a := s.verified imgA
    let b := s.verified imgB
    let s := { s with boot := { s.boot with bankA := a, bankB := b } }
    match s.bootBank with
    | some k => .next { s with boot := { s.boot with booted := k, stage := 2 } }.tryMain
    | Option.none => .next { s with boot := { s.boot with stage := 7 } }

/-- REFERENCE_CLOCK_PRESENT, R508. -/
def execReferenceClockPresent (s : State) : Host.Outcome State Fault Refusal :=
  .next { s with boot := { s.boot with refClk := true } }.tryMain

/-! ### The main domain (R506, R509, R511, R519, R568) -/

/-- What a die keeps of its state while its main domain is reset: its Groom's. -/
def Die.groomPart (x : Die) : Die :=
  { errlog := x.errlog, monitor := x.monitor, ddrBytes := x.ddrBytes, safehold := x.safehold }

/-- The cores, teams and everything on its way are lost. -/
def State.clearCores (s : State) : State :=
  { s with cores := [], teams := [], writes := [], acks := [], reads := [], msgs := [], contribs := [], relays := [] }

/-- The main domain loses its contents. -/
def State.mainReset (s : State) : State :=
  let s := s.clearCores
  let b := s.boot
  { s with dies := Sparse.mapVals {} (fun _ x => Die.groomPart x) s.dies, fab := {},
           boot := { b with clocks := false, warming := false, change := Option.none, nextChange := Option.none } }

/-- The main domain switches off. -/
def State.mainOff (s : State) (stage : BitVec 8) : State :=
  let s := s.mainReset
  { s with boot := { s.boot with mainOn := false, rails := false, stage := stage } }

/-- PWR_EN_ASSERT, R509. -/
def execPwrEnAssert (s : State) : Host.Outcome State Fault Refusal :=
  if ¬ s.boot.aon then .next s else .next { s with boot := { s.boot with pwrEn := true } }.tryMain

/-- Whether the rails are rising. -/
def State.starting (s : State) : Bool := s.boot.mainOn && !s.boot.rails

/-- RAIL_FAULT, R511: during the start. -/
def execRailFault (rail : BitVec 16) (s : State) : Host.Outcome State Fault Refusal :=
  if ¬ s.boot.mainOn ∨ 6 ≤ s.boot.stage.toNat then .next s
  else
    let fail := BitVec.ofNat 32 (rail.toNat * 256 + s.boot.stage.toNat)
    let s := s.mainOff 8
    .next { s with boot := { s.boot with fail := fail } }

/-- Every outstanding item ends FAILED_FAULT with SOURCE 4 (R519, R568). -/
def State.endAllItems (s : State) : State := s.endItems (fun _ _ => true) stFault (faultCause 4 0) s.locModule

/-- BOOT_STAGE once the main domain is off. -/
def State.standbyStage (s : State) : BitVec 8 := if s.boot.stage = 1 ∨ s.boot.stage = 7 then s.boot.stage else 2

/-- PWR_EN_DEASSERT, R511 and R568. -/
def execPwrEnDeassert (s : State) : Host.Outcome State Fault Refusal :=
  let s := if s.boot.mainOn then s.endAllItems else s
  let s := s.mainOff s.standbyStage
  .next { s with boot := { s.boot with pwrEn := false, tripped := false } }

/-- INPUT_UNDERVOLT, R506. -/
def execInputUndervolt (s : State) : Host.Outcome State Fault Refusal :=
  .next (if s.boot.mainOn then s.mainOff s.standbyStage else s)

/-! ### Cold reset (R507, R509, R521, R522, R534) -/

def allRows : List (DieIx × BitVec 4) := allDies.flatMap (fun d => (List.range 16).map (fun r => (d, BitVec.ofNat 4 r)))

/-- The remap of every row (R21, R22). -/
def State.remapAll (s : State) : State := allRows.foldl (fun s r => s.remapRow r.1 r.2) s

/-- ACC_SPLIT.MODE takes its default in the cores of a list (R107). -/
def State.splitDefault (s : State) (cs : List CoreIx) : State :=
  let m : BitVec 2 := BitVec.ofNat 2 (s.effective 0x2210 0)
  if m = 0 then s else (cs.filter s.present).foldl (fun s c => s.modCore c (fun x => { x with mode := m })) s

/-- SZ_ROW_COLS after a remap; a change is announced (R19). -/
def State.remapped (s : State) : State :=
  let was := s.mod.rowCols
  let s := s.remapAll.splitDefault (allDies.flatMap dieCores)
  if s.mod.rowCols = was then s else s.sizeChanged

/-- The signature counter at cold reset (R534): the greater of the stored value and the blown fuses times 2^28; with no readable value the next
fuse is blown and its block starts. -/
def Boot.counterResume (b : Boot) : Boot :=
  match b.attStored with
  | some v => { b with attCount := max v (b.attFuses * 2 ^ 28) }
  | Option.none => { b with attCount := b.attFuses * 2 ^ 28, attFuses := b.attFuses + 1 }

/-- The boot words at the start of a cold reset: an attempt of the pointer's bank is recorded until READY (R529). -/
def Boot.cold (b : Boot) (bank : BitVec 1) : Boot :=
  { b with hostUp := true, clocks := true, headStopped := false, warming := false, stage := 4, fail := 0, modSafe := false,
           change := Option.none, nextChange := Option.none, powerPt := 0, thermPt := 0, above := 0, below := 0, hot := 0, hotAt2 := 0,
           cool := 0, thermHalf := false, pwrIn := 0, pwrVin := 0, tempDie := [], tempHbm := [], booted := bank,
           attempts := if bank = b.pointer then b.attempts + 1 else b.attempts, attLast := Option.none, report := [] }

/-- The module's own registers at cold reset: what fuses, the order code and the bad-core list fix stays; SZ_GENERATION and every other entry
take their defaults (R477). -/
def Module.cold (m : Module) : Module :=
  { o16 := m.o16, badFuse := m.badFuse, badRun := m.badRun, rowMap := m.rowMap, rowCols := m.rowCols, dimm := m.dimm }

/-- The records as they are loaded from flash: one that fails its flash check has VALID = 0 (R418, log 66). -/
def loadRecords (flash : Sparse (BitVec 256)) (now : Nat) : Sparse (BitVec 256) :=
  flash.map (fun e => if Config.flashFails e.1 now then (e.1, (e.2.extractLsb' 0 255).zeroExtend 256) else e)

/-- Cold reset. SZ_MODULES and SZ_MODULE_ID fall back to their defaults; if that changes them, the change is announced (R19). -/
def State.coldReset (s : State) : State :=
  let s := s.mainReset
  let was := (s.mod.modules, s.mod.id)
  let bank := (s.bootBank).getD s.boot.booted
  let f := s.far
  let s := { s with
    dies := Sparse.mapVals {} (fun _ (x : Die) => ({ monitor := x.monitor, ddrBytes := x.ddrBytes } : Die)) s.dies
    dict := s.dict.cold
    rings := []
    far := { recs := loadRecords f.flash s.time, flash := f.flash }
    mod := s.mod.cold
    boot := (s.boot.cold bank).counterResume
    time := 0 }
  let s := s.remapped
  if was = (s.mod.modules, s.mod.id) then s else s.sizeChanged

/-- COLD_RESET, R521: the release of RESET_N, applied at rails good if it comes earlier (R567). -/
def execColdReset (s : State) : Host.Outcome State Fault Refusal :=
  if ¬ s.boot.aon then .next s
  else
    let s := { s with boot := { s.boot with resetN := true } }
    .next (if s.boot.rails ∧ s.boot.stage = 3 then s.coldReset else s)

/-- RAILS_GOOD, R509. -/
def execRailsGood (s : State) : Host.Outcome State Fault Refusal :=
  if ¬ s.starting ∨ s.boot.stage ≠ 2 then .next s
  else
    let s := { s with boot := { s.boot with rails := true, stage := 3 } }
    .next (if s.boot.resetN then s.coldReset else s)

/-- RESET_N_ASSERT, R507: the main and the host domain are held in reset; the ledger stays readable over the field network (R465). -/
def execResetNAssert (s : State) : Host.Outcome State Fault Refusal :=
  let s := { s with boot := { s.boot with resetN := false, hostUp := false } }
  let s := s.mainReset
  .next (if s.boot.rails then { s with boot := { s.boot with stage := 3 } } else s)

/-! ### Memory, READY (R244 to R246, R509, R510, R530) -/

/-- Whether a DIMM may be used (R244). -/
def Dimm.eligible (x : Dimm) : Bool :=
  x.rdimm && decide (8000 ≤ x.mts) && x.ecc && decide (x.width = 1 ∨ x.width = 2) && decide (1 ≤ x.cap.toNat ∧ x.cap.toNat ≤ 3)

/-- The eligible DIMMs of a die, by channel. -/
def dieDimms (dimms : List (Option Dimm)) (d : DieIx) : List (Nat × Dimm) :=
  (List.range 4).filterMap (fun k =>
    match dimms[4 * d.toNat + k]? with
    | some (some x) => if Dimm.eligible x then some (k, x) else Option.none
    | _ => Option.none)

/-- Whether a die's population is one of R245. -/
def popValid (xs : List (Nat × Dimm)) : Bool :=
  (decide (xs.map Prod.fst = []) || decide (xs.map Prod.fst = [0, 1]) || decide (xs.map Prod.fst = [0, 1, 2, 3])) &&
    xs.all (fun a => xs.all (fun b => decide (a.2.cap = b.2.cap ∧ a.2.width = b.2.width)))

/-- SZ_DDR_BYTES of a die. -/
def popBytes (xs : List (Nat × Dimm)) : Nat :=
  if popValid xs then (xs.map (fun a => 2 ^ (a.2.cap.toNat + 35))).foldl (· + ·) 0 else 0

/-- DDR_DIMM_INFO of a channel (R246); a refused DIMM reads STATUS 2 with no width and no capacity (R244). -/
def dimmInfo (dimms : List (Option Dimm)) (ch : Nat) : BitVec 32 :=
  match dimms[ch]? with
  | some (some x) =>
    if ¬ Dimm.eligible x then 0x200
    else
      let status := if popValid (dieDimms dimms (BitVec.ofNat 2 (ch / 4))) then 1 else 3
      BitVec.ofNat 32 (status * 256 + x.width.toNat * 16 + x.cap.toNat)
  | _ => 0

/-- The DIMM population as the Grooms read it (R244 to R246). -/
def State.populate (s : State) (dimms : List (Option Dimm)) : State :=
  let m := s.mod
  let was := s
  let info := (List.range 16).foldl (fun t ch => Sparse.put 0 t ch (dimmInfo dimms ch)) ([] : Sparse (BitVec 32))
  let s := { s with mod := { m with dimm := info } }
  let s := allDies.foldl (fun s d => s.modDie d (fun x => { x with ddrBytes := popBytes (dieDimms dimms d) })) s
  let s := if allDies.all (fun d => (s.die d).ddrBytes = (was.die d).ddrBytes) then s else s.sizeChanged
  allDies.foldl (fun s d => if popValid (dieDimms dimms d) then s else s.event 0x0002 d 0 1) s

/-- MEMORY_TRAINED, R509: the records select, the ports train, and BOOT_STAGE is FABRIC. -/
def execMemoryTrained (dimms : List (Option Dimm)) (s : State) : Host.Outcome State Fault Refusal :=
  if s.boot.stage ≠ 4 then .next s
  else
    let s := allDies.foldl (fun s d => s.reselect d) (s.populate dimms)
    .next { s.trainPorts with boot := { s.trainPorts.boot with stage := 5 } }

/-- Every port is down. -/
def State.noPortUp (s : State) : Bool := s.fab.ports.all (fun e => decide (e.2.up = 0))

/-- The fused SVN rises with an image that asks for it (R530). -/
def State.svnAdvance (s : State) : State :=
  match s.bankAt s.boot.booted with
  | some x => if x.advance then { s with boot := { s.boot with minSvn := if s.boot.minSvn ≤ x.svn then x.svn else s.boot.minSvn } } else s
  | Option.none => s

/-- READY, R510: after discovery, or with every port down 1 s after reset. -/
def execReady (s : State) : Host.Outcome State Fault Refusal :=
  if s.boot.stage ≠ 5 ∨ ¬ (s.boot.warming ∨ s.mod.everJoined ∨ s.noPortUp) then .next s
  else
    let b := s.boot
    let m := s.mod
    .next { s with
      boot := { b with stage := 6, warming := false, attempts := if b.booted = b.pointer then 0 else b.attempts }
      mod := { m with provisional := !m.everJoined } }.svnAdvance

/-! ### Warm and die reset (R521 to R524) -/

/-- Every ring is disabled, and its items end. -/
def State.abortRings (s : State) : State :=
  s.rings.foldl (fun s e => (s.abortRing (BitVec.ofNat 6 e.1)).modRing (BitVec.ofNat 6 e.1) (fun x => x.withCfg 0)) s

/-- The dictionary after a warm reset: persistent entries and the Groom's exchanges stand; the overlay is SERVE (R522). -/
def Dict.warm (x : Dict) : Dict :=
  { x with vals := x.vals.filter (fun e => match entryAt (e.1 / 256) (e.1 % 256) with | .inr t => persistent (e.1 / 256) t | .inl _ => false),
           ovlActive := 0, ovlState := 0, ovlTarget := 0, ovlResult := 0, ovlEpoch := if x.ovlActive = 0 then x.ovlEpoch else x.ovlEpoch + 1,
           evtLog := [], evtSeq := 0, evtRead := 0, evtOvf := false, zeroizing := false }

/-- What a die keeps over a warm reset. -/
def Die.warm (x : Die) : Die :=
  { hbm := x.hbm, hbmPoison := x.hbmPoison, hbmScrub := x.hbmScrub, ddr := x.ddr, ddrPoison := x.ddrPoison, ddrScrub := x.ddrScrub,
    ddrBytes := x.ddrBytes, monitor := x.monitor, op := x.op }

/-- Warm reset: the records, then the main domain with its memories kept in self-refresh. -/
def State.warmReset (s : State) : State :=
  let deep := decide (s.dict.ovlActive = 3)
  let s := s.abortRings.clearCores
  let m := s.mod
  let b := s.boot
  let s := { s with
    dies := Sparse.mapVals {} (fun _ x => Die.warm x) s.dies
    dict := s.dict.warm
    mod := { m with quietLast := [], selftest := 0, snapT := 0, snapReq := Option.none, dbgStatus := 0, dbgData := 0, dbgAddr := 0, dbgOp := 0 }
    boot := { b with warming := true, stage := 5, modSafe := false, fail := 0, pwrIn := 0, pwrVin := 0, tempDie := [], tempHbm := [], report := [] } }
  let s := if deep then { s with far := { s.far with calibrating := false } }.trainPorts else s
  s.remapped

/-- A reset runs: a cold or warm reset before READY, or a die reset that waits. -/
def State.resetRuns (s : State) : Bool := decide (s.boot.stage ≠ 6) || allDies.any (fun d => (s.die d).resetWait)

/-- The code with which a warm reset is refused (R521). -/
def State.warmCode (s : State) : Nat := if s.monitorUp then 9 else if s.resetRuns then 10 else 0

/-- Step 5 of an overlay switch that falls into the Groom cycle of a warm reset request, which is one that waits in the queue (log 63), completes first
(R524). -/
def State.switchFirst (s : State) : State :=
  if s.pending.contains .ovlDrainEnd then match execOvlDrainEnd s with | .next t => t | _ => s else s

/-- A request for a warm reset. -/
def State.warmRequest (s : State) : Nat × State := if s.warmCode ≠ 0 then (s.warmCode, s) else (0, s.switchFirst.warmReset)

/-- WARM_RESET, R523. -/
def execWarmReset (p : Path) (s : State) : Host.Outcome State Fault Refusal :=
  let code := s.writeCode p 0x4202 0 3 2 true
  if code ≠ 0 then .next (s.report p code)
  else .next (s.warmRequest.2.report p s.warmRequest.1)

/-- PCIE_HOT_RESET, R521: a warm reset without a result code. -/
def execPcieHotReset (s : State) : Host.Outcome State Fault Refusal :=
  .next (if s.boot.hostUp ∧ ¬ s.boot.headStopped then s.warmRequest.2 else s)

/-- A queue after a die reset (R292). -/
def Queue.dieReset (x : Queue) : Queue := { x with opn := false, epoch := x.epoch + 1 }

/-- A core after a die reset: local store and rings are kept; a core marked bad stays fenced until the remap (R21, R201). -/
def Core.dieReset (x : Core) (bad : Bool) : Core :=
  let qs := (List.range 16).foldl (fun m q => Sparse.upd {} m q Queue.dieReset) x.queues
  let ths : Sparse Thread := if bad then (List.range 4).map (fun t => (t, { state := .fenced })) else []
  { threads := ths, fenced := bad, ls := x.ls, lsPoison := x.lsPoison, lsScrub := x.lsScrub, queues := qs }

/-- Whether the physical core of a logical core is marked bad. -/
def State.markedBad (s : State) (c : CoreIx) : Bool := (s.badCols (coreDie c) (coreRow c)).contains (s.physCol c)

/-- What is on its way for a die's cores is no longer theirs. -/
def State.disownDie (s : State) (d : DieIx) : State :=
  let ours (c : CoreIx) : Bool := decide (coreDie c = d)
  let teamOurs (t : BitVec 8) : Bool := decide (t.extractLsb' 6 2 = d)
  let srcOf (w : Option Who) : Option Who := match w with | some x => if ours x.core then Option.none else w | Option.none => Option.none
  let redOf (r : Option (CoreIx × BitVec 4 × Nat)) : Option (CoreIx × BitVec 4 × Nat) :=
    match r with | some x => if ours x.1 then Option.none else r | Option.none => Option.none
  let dmaOf (r : Option (BitVec 8 × BitVec 3 × Nat × Nat)) : Option (BitVec 8 × BitVec 3 × Nat × Nat) :=
    match r with | some x => if teamOurs x.1 then Option.none else r | Option.none => Option.none
  let lose (o : MsgFrom) : MsgFrom :=
    match o with
    | .thread w => if ours w.core then .lost else o
    | .dma t _ => if teamOurs t then .lost else o
    | .red c _ => if ours c then .lost else o
    | _ => o
  { s with
    writes := s.writes.map (fun f => { f with src := srcOf f.src, dma := dmaOf f.dma, red := redOf f.red })
    acks := s.acks.map (fun f => { f with src := srcOf f.src, red := redOf f.red })
    reads := s.reads.filter (fun f => !(ours f.who.core))
    msgs := s.msgs.map (fun m => { m with origin := lose m.origin })
    contribs := s.contribs.filter (fun f => f.credit || f.from_.isSome || !(ours f.sender.core))
    relays := s.relays.filter (fun f => !(ours f.core)) }

/-- Die reset (R524): the die's cores, teams and harness; its memories, its ports and the ledger stay. -/
def State.dieReset (s : State) (d : DieIx) : State :=
  let s := s.disownDie d
  let s := (dieCores d).foldl (fun s c => if s.present c then s.setCore c ((s.core c).dieReset (s.markedBad c)) else s) s
  let s := { s with teams := s.teams.filter (fun t => !(decide (t.1 / 64 = d.toNat))) }
  let s := s.modDie d (fun x =>
    { x with merges := [], walkL1 := [], barriers := [], quiesce := Option.none, safehold := false, halfDuty := false, resetWait := false })
  s.splitDefault (dieCores d)

/-- The code with which a die reset is refused (R521). -/
def State.dieCode (s : State) (d : DieIx) : Nat :=
  if ¬ (s.die d).safehold ∧ s.dict.ovlActive ≠ 4 then 9 else if s.resetRuns then 10 else 0

/-- A request for a die reset: it waits while an operating-point change is pending. -/
def State.dieRequest (s : State) (d : DieIx) : Nat × State :=
  if s.dieCode d ≠ 0 then (s.dieCode d, s)
  else if s.boot.change.isSome then (0, s.modDie d (fun x => { x with resetWait := true }))
  else (0, s.dieReset d)

/-- DIE_RESET, R524. -/
def execDieReset (p : Path) (d : DieIx) (s : State) : Host.Outcome State Fault Refusal :=
  let code := s.writeCode p 0x4202 0 3 2 true
  if code ≠ 0 then .next (s.report p code)
  else .next ((s.dieRequest d).2.report p (s.dieRequest d).1)

/-- A write of RST_REQUEST; a KIND other than 1 and 2 is refused. -/
def State.rstRequest (s : State) (val : BitVec 16) : Nat × State :=
  if val.extractLsb' 0 2 = 1 then s.warmRequest
  else if val.extractLsb' 0 2 = 2 then s.dieRequest (val.extractLsb' 8 2)
  else (9, s)

/-! ### Operating points (R514 to R516) -/

/-- The point the head groom sets. -/
def State.targetOp (s : State) : Nat := max (s.effective 0x2700 0) (max s.boot.powerPt s.boot.thermPt)

/-- OP_CHANGE_REQUEST, R514 and R515. -/
def execOpChangeRequest (op : BitVec 2) (t : Word) (s : State) : Host.Outcome State Fault Refusal :=
  if op.toNat ≠ s.targetOp ∨ t.toNat < s.now + 50000 ∨ ¬ s.boot.clocks ∨ s.boot.headStopped then .next s
  else
    let b := s.boot
    let c : OpChange := { op := op, at_ := t.toNat, left := allDies }
    match b.change with
    | Option.none => .next { s with boot := { b with change := some c } }
    | some old =>
      if s.now < old.at_ then .next { s with boot := { b with change := some c } }
      else .next { s with boot := { b with nextChange := some c } }

/-- The end of a change: the waiting one stands, and waiting die resets run. -/
def State.changeDone (s : State) : State :=
  let s := { s with boot := { s.boot with change := s.boot.nextChange, nextChange := Option.none } }
  if s.boot.change.isSome then s
  else allDies.foldl (fun s d => if (s.die d).resetWait then s.dieReset d else s) s

/-- OP_SWITCH, R514. -/
def execOpSwitch (d : DieIx) (s : State) : Host.Outcome State Fault Refusal :=
  match s.boot.change with
  | Option.none => .next s
  | some c =>
    if s.now < c.at_ ∨ ¬ c.left.contains d then .next s
    else
      let s := s.modDie d (fun x => { x with op := c.op })
      let left := c.left.filter (· ≠ d)
      if left.isEmpty then .next s.changeDone
      else .next { s with boot := { s.boot with change := some { c with left := left } } }

/-! ### Power and thermal control (R517 to R520) -/

/-- POWER_SAMPLE_GATE, R517. -/
def execPowerSampleGate (d : DieIx) (watts : BitVec 32) (s : State) : Host.Outcome State Fault Refusal :=
  .next (s.modDie d (fun x =>
    { x with halfDuty := if 6000 < watts.toNat then true else if watts.toNat < 5400 then false else x.halfDuty }))

/-- The thermal point after a sample that is too hot: it falls at once and every 10 ms, and at point 2 the arrays go to half duty after
10 ms. -/
def Boot.hotSample (b : Boot) (op : BitVec 2) : Boot :=
  let at2 := if op = 2 then b.hotAt2 + 1 else 0
  { b with thermPt := if b.hot % 100 = 0 then min 2 (b.thermPt + 1) else b.thermPt, hot := b.hot + 1, hotAt2 := at2, cool := 0,
           thermHalf := b.thermHalf || decide (100 ≤ at2) }

/-- A cool sample: every 100 ms of them the point rises. -/
def Boot.coolSample (b : Boot) : Boot :=
  { b with hot := 0, hotAt2 := 0, thermHalf := false, cool := (b.cool + 1) % 1000,
           thermPt := if b.cool + 1 = 1000 then b.thermPt - 1 else b.thermPt }

/-- THERMAL_SAMPLE, R518: the hottest sensor of each die and each stack, in 1/16 °C. -/
def execThermalSample (dies : Vector (BitVec 16) 4) (stk : Vector (BitVec 16) 16) (s : State) : Host.Outcome State Fault Refusal :=
  if s.boot.headStopped then .next s
  else
    let hot := dies.toList.any (fun t => decide (16 * 105 ≤ t.toInt)) || stk.toList.any (fun t => decide (16 * 100 ≤ t.toInt))
    let cool := dies.toList.all (fun t => decide (t.toInt ≤ 16 * 100)) && stk.toList.all (fun t => decide (t.toInt ≤ 16 * 95))
    let list (xs : List (BitVec 16)) : Sparse (BitVec 16) :=
      (List.range xs.length).foldl (fun m k => Sparse.put 0 m k (xs.getD k 0)) []
    let b := { s.boot with tempDie := list dies.toList, tempHbm := list stk.toList }
    let b := if hot then b.hotSample (s.die 0).op
             else if cool then b.coolSample
             else { b with hot := 0, hotAt2 := 0, thermHalf := false, cool := 0 }
    .next { s with boot := b }

/-- THERM_TRIP, R519. -/
def execThermTrip (dies : BitVec 4) (s : State) : Host.Outcome State Fault Refusal :=
  if dies = 0 ∨ ¬ s.boot.mainOn then .next s
  else
    let s := (s.endAllItems).event 0x8004 0 dies.toNat 2
    let s := s.mainOff s.standbyStage
    .next { s with boot := { s.boot with tripped := true, thermTrip := true } }

/-- THERM_TRIP_RELEASE, R519: THERM_TRIP_N only; the main domain waits for PWR_EN. -/
def execThermTripRelease (s : State) : Host.Outcome State Fault Refusal :=
  .next { s with boot := { s.boot with thermTrip := false } }

/-- ALWAYS_ON_POWER_LOSS, R506: what remains is in flash and fuses, or outside the module. -/
def execAlwaysOnPowerLoss (s : State) : Host.Outcome State Fault Refusal :=
  let b := s.boot
  let d := s.dict
  .next {
    dict := { flash := d.flash, flashSeq := d.flashSeq }
    far := { flash := s.far.flash }
    boot := { aon := false, refClk := b.refClk, pwrEn := b.pwrEn, resetN := b.resetN, bankA := b.bankA, bankB := b.bankB, pointer := b.pointer,
              attempts := b.attempts, minSvn := b.minSvn, attFuses := b.attFuses, attStored := b.attStored, monShared := b.monShared }
    mod := { o16 := s.mod.o16, badFuse := s.mod.badFuse }
    outbox := s.outbox
    nextSeq := s.nextSeq
    free := s.free
    pending := s.pending }

/-! ### Firmware update and attestation (R531 to R534) -/

/-- The code with which the firmware entries are refused outside maintenance. -/
def State.fwCode (s : State) (code : Nat) : Nat := if code = 0 ∧ ¬ s.maintenance ∧ s.boot.stage ≠ 7 then 5 else code

/-- The write of FW_UPDATE: a verified image goes to the bank not booted. -/
def State.fwStore (s : State) (x : Image) : Nat × State :=
  let b := s.boot
  if ¬ s.accepts x then (9, s)
  else (0, { s with boot := if b.booted = 0 then { b with bankB := some (Image.bank x) } else { b with bankA := some (Image.bank x) } })

/-- FW_UPDATE, R531. -/
def execFwUpdate (p : Path) (img : Image) (s : State) : Host.Outcome State Fault Refusal :=
  let len := img.header.length + img.pubKey.length + img.sig.length + img.body.length
  let code := s.fwCode (s.writeCode p 0x8040 0 12 len true)
  if code ≠ 0 then .next (s.report p code)
  else .next ((s.fwStore img).2.report p (s.fwStore img).1)

/-- The write of FW_ACTIVATE. -/
def State.fwSelect (s : State) (bank : BitVec 8) : Nat × State :=
  let k : BitVec 1 := bank.extractLsb' 0 1
  if 1 < bank.toNat ∨ (s.bankAt k).isNone then (9, s)
  else (0, { s with boot := { s.boot with pointer := k, attempts := 0 } })

/-- FW_ACTIVATE, R531. -/
def execFwActivate (p : Path) (bank : BitVec 8) (s : State) : Host.Outcome State Fault Refusal :=
  let code := s.fwCode (s.writeCode p 0x8041 0 2 1 true)
  if code ≠ 0 then .next (s.report p code)
  else .next ((s.fwSelect bank).2.report p (s.fwSelect bank).1)

/-- What an attestation report says before its signature (R533; order and widths: log 22). -/
def State.attBody (s : State) (nonce : BitVec 256) : List Byte :=
  toBytes Config.serial.toNat 8 ++ toBytes s.fwActive 4 ++ toBytes (Bank.word s.boot.bankA) 4 ++ toBytes (Bank.word s.boot.bankB) 4 ++
    toBytes s.minSvn 2 ++ toBytes (Config.sha256 (storedIn s.dict.vals 0x8010 0)).toNat 32 ++ toBytes s.dict.ovlActive.toNat 1 ++
    toBytes nonce.toNat 32 ++ toBytes s.boot.attCount 8

/-- The write of ATT_NONCE: the counter is stored, and a fuse blown at a new block, before the signature (R534). -/
def State.attest (s : State) (nonce : BitVec 256) : Nat × State :=
  let b := s.boot
  let soon : Bool := match b.attLast with | some t => decide (s.now < t + 100000000) | Option.none => false
  if soon then (10, s)
  else if 2 ^ 35 ≤ b.attCount then (9, s)
  else
    let body := s.attBody nonce
    let fuses := max b.attFuses (b.attCount / 2 ^ 28 + 1)
    (0, { s with boot := { b with attStored := some (b.attCount + 1), attFuses := fuses, attCount := b.attCount + 1, attLast := some s.now,
                                  report := body ++ Config.hssSign b.attCount body } })

/-- ATT_NONCE, R533. -/
def execAttNonce (p : Path) (nonce : BitVec 256) (s : State) : Host.Outcome State Fault Refusal :=
  let code := s.writeCode p 0x8050 0 13 32 true
  if code ≠ 0 then .next (s.report p code)
  else .next ((s.attest nonce).2.report p (s.attest nonce).1)

/-! ### The clock (R411, R513) -/

/-- The C-cycle period in 2^-16 ns. -/
def cyclePeriod (op : BitVec 2) : Nat := if op = 0 then 0x10000 else if op = 1 then 0x14000 else 0x1AAAB

/-- One C-cycle of the head groom's die: system time advances, slewed by at most 200 ppm toward the time master's. -/
def State.tick (s : State) : State :=
  if ¬ s.boot.clocks then s
  else
    let period := cyclePeriod (s.die 0).op
    let most : Int := (period / 5000 : Nat)
    let slew := max (-most) (min most s.fab.slew)
    { s with time := ((s.time + period : Nat) + slew).toNat, fab := { s.fab with slew := s.fab.slew - slew } }

end Sys2Proof.Machine
end

