-- ==== Sys2Proof/Machine/Branch.lean ====
section
/-! DEFINITION. Branches, calls and returns (R47, R61, R579). -/

namespace Sys2Proof.Machine

/-- A load of a wrong path (R49, R286): it may read its own module and fill a line of the data cache; nothing else of it stays. A page that the
translation cache does not hold it leaves alone. -/
def State.wrongLoad (s : State) (w : Who) (a : Word) : State :=
  match s.resolve w.core .read false a 1 with
  | .at_ (.remote _ _) _ => s
  | .at_ l _ =>
    let tag := s.lineTag a
    let line := l.moveTo (l.off / 64 * 64)
    if !(cacheable a l) || (Sparse.find (s.core w.core).dcache tag).isSome || s.behind (.port w.core) (l.dest s) s.nextSeq false then s
    else
      let (bs, bad, s) := s.engineBytes line 64
      if bad then s else s.cacheInstall w.core tag (BitVec.ofNat 512 (leNat bs))
  | _ => s

/-- BP, R47: bit 0 of the predicate is compared with SENSE; a wrong prediction counts in PMC_MISPRED and leaves no other trace than the lines that
loads of the wrong path have filled. -/
def execBp (i : Iss) (pred : BitVec 3) (sense : Bool) (off : BitVec 22) (predicted : Predicted) (s : State) :
    Host.Outcome State Fault Refusal :=
  issue i 0x20 false {} (fun s =>
    let h := s.thread i.who
    let taken := decide (((h.pred pred).getLsbD 0) = sense)
    let s := if taken = predicted.taken then s
      else predicted.wrong.foldl (fun s a => s.wrongLoad i.who a) ((s.countCore i.who.core 0x105 1).countWasted i.who.core predicted.wrong.length)
    if taken then .jump s (h.pc + (off.signExtend 64) * 4) else .done s) s

/-- JAL, R61: the register receives the address of the next instruction. -/
def execJal (i : Iss) (rd : BitVec 5) (off : BitVec 21) (s : State) : Host.Outcome State Fault Refusal :=
  issue i 0x21 false { reads := false } (fun s =>
    let pc := (s.thread i.who).pc
    .jump (s.modThread i.who (fun h => h.setReg rd (pc + 4))) (pc + (off.signExtend 64) * 4)) s

/-- JALR, R579: continues at the address in the source; a misaligned one traps 0x05 at its fetch (R36). -/
def execJalr (i : Iss) (rd rs1 : BitVec 5) (s : State) : Host.Outcome State Fault Refusal :=
  issue i 0x22 false {} (fun s =>
    let h := s.thread i.who
    .jump (s.modThread i.who (fun h => h.setReg rd (h.pc + 4))) (h.reg rs1)) s

end Sys2Proof.Machine
end

