-- ==== Sys2Proof/Machine/Dict.lean ====
section
/-! DEFINITION. The object dictionary at work: the entries' own rules and effects, overlays, write sets, the PCIe window and block buffer, and
Forniti (R203, R251, R471 to R505). -/

namespace Sys2Proof.Machine

/-! ### The entries' own rules (R393, R432, R479, R481, R494, R535) -/

/-- Whether FAR_EYE_MIN lies below FAR_EYE_WARN in every overlay (R432). -/
def eyeOk (vals : Sparse (List Byte)) : Bool :=
  (List.range 6).all (fun o => decide (effectiveIn vals o 0x2602 0 < effectiveIn vals o 0x2601 0))

/-- The rule of a scalar on its value alone. -/
def valueOk (index v : Nat) : Bool :=
  if index = 0x2210 ∨ index = 0x2501 ∨ index = 0x2700 then decide (v ≤ 2)
  else if index = 0x2600 then decide (1000 ≤ v ∧ v ≤ 100000)
  else if index = 0x2701 then decide (1500 ≤ v ∧ v ≤ 4800)
  else if index = 0x9000 then decide ((1 ≤ v ∧ v ≤ 31) ∨ v = 0xFF)
  else if index = 0x9001 then decide (1 ≤ v ∧ v ≤ 32)
  else true

/-- The result of a scalar's own rules: code 8 for a BOOL that is neither 0 nor 1 (R472). -/
def State.scalarCode (s : State) (index sub : Nat) (e : Entry) (v : Nat) : Nat :=
  if e.type = 1 ∧ 1 < v then 8
  else if !valueOk index v then 9
  else if (index = 0x2601 ∨ index = 0x2602) ∧ !eyeOk (Sparse.set s.dict.vals (256 * index + sub) (toBytes v e.size)) then 9
  else 0

/-- Whether a body entry in use names a scalar RW or RWM entry of 0x2000 to 0x2FFF with a valid value (R481). -/
def bodyTargetOk (b : Nat) : Bool :=
  let index := bitsN b 119 104
  match entryAt index (bitsN b 103 96) with
  | .inl _ => false
  | .inr e =>
    decide (0x2000 ≤ index ∧ index ≤ 0x2FFF) && e.scalar && decide (e.cls = .rw ∨ e.cls = .rwm) &&
      decide (b % 2 ^ 64 < 2 ^ (8 * e.size)) && !(decide (e.type = 1 ∧ 1 < b % 2 ^ 64)) && valueOk index (b % 2 ^ 64)

/-- The entries in use of a body, as targets. -/
def bodyTargets (vals : Sparse (List Byte)) (overlay : Nat) : List Nat :=
  (List.range 64).filterMap (fun k =>
    let b := leNat (storedIn vals (0x3100 + overlay) k)
    if bitsN b 127 127 = 1 then some (bitsN b 119 96) else Option.none)

/-- Whether every body names an entry at most once. -/
def bodiesOk (vals : Sparse (List Byte)) : Bool := (List.range 6).all (fun o => decide (bodyTargets vals o).Nodup)

/-- The write of a body entry: not of the active overlay, nor of the one a pending request names (R487). -/
def State.bodyWrite (s : State) (index sub b : Nat) : Nat × State :=
  let o := index - 0x3100
  if o = s.dict.ovlActive.toNat ∨ (s.dict.ovlState ≠ 0 ∧ o = s.dict.ovlTarget.toNat) then (9, s)
  else if bitsN b 127 127 = 1 ∧ !bodyTargetOk b then (9, s)
  else (0, s.dictStore index sub (toBytes (bitsN b 127 127 * 2 ^ 127 + bitsN b 119 96 * 2 ^ 96 + b % 2 ^ 64) 16))

/-! ### Persistence (R477) -/

/-- The stored values whose entries a test names. -/
def keepVals (vals : Sparse (List Byte)) (p : Nat → Entry → Bool) : Sparse (List Byte) :=
  vals.filter (fun e => match entryAt (e.1 / 256) (e.1 % 256) with | .inr t => p (e.1 / 256) t | .inl _ => false)

/-- CFG_SAVE. -/
def State.cfgSave (s : State) : State := { s with dict := { s.dict with flash := keepVals s.dict.vals persistent } }

/-- A new page-table root invalidates every cached translation (R251). -/
def State.rootChanged (s : State) (old : Word) : State := if s.ptRoot = old then s else s.xlInvAll

/-- CFG_DEFAULTS: persistent RW and RWM entries, in effect and in flash. -/
def State.cfgDefaults (s : State) : State :=
  let keep (index : Nat) (e : Entry) : Bool := !(persistent index e) || decide (e.cls = .own)
  let root := s.ptRoot
  { s with dict := { s.dict with vals := keepVals s.dict.vals keep, flash := keepVals s.dict.flash keep } }.rootChanged root

/-! ### Overlays (R483 to R486) -/

/-- A request for an overlay. -/
def State.overlayRequest (s : State) (o : BitVec 8) : Nat × State :=
  let set (st : BitVec 2) : State := { s with dict := { s.dict with ovlState := st, ovlTarget := o, ovlResult := 0 } }
  if o = 5 then (0, if s.dict.ovlActive = 5 ∧ s.boot.modSafe then s else s.safeModule)
  else if s.dict.ovlState ≠ 0 then (10, s)
  else if 5 < o.toNat then (9, s)
  else if o = s.dict.ovlActive then (0, set 0)
  else if s.dict.ovlActive = 5 ∧ s.monitorUp then (9, s)
  else (0, set 1)

/-- Whether the drain is complete once the ends of items have run that wait in the queue, and so fall into the same C-cycle (R486, log 63). -/
def State.drainsNow (s : State) : Bool :=
  let run (o : Host.Outcome State Fault Refusal) (t : State) : State := match o with | .next u => u | _ => t
  (s.pending.foldl (fun t c =>
    match c with
    | .doneHoldEnd r slot => run (execDoneHoldEnd r slot t) t
    | .itmFail w h k => run (execItmFail w h k t) t
    | .itmDbAbort r slot => run (execItmDbAbort r slot t) t
    | .itemDeadline r slot => run (execItemDeadline r slot t) t
    | _ => t) s).drained

/-- OVL_DRAIN_TIMEOUT, R483: a drain that ends with the limit succeeds (R486). -/
def execOvlDrainTimeout (s : State) : Host.Outcome State Fault Refusal :=
  if s.dict.ovlState ≠ 1 ∨ s.drained ∨ s.drainsNow ∨ s.boot.headStopped then .next s
  else
    let arg := s.dict.ovlTarget.toNat + 10 * 256
    .next ({ s with dict := { s.dict with ovlState := 0, ovlResult := 10 } }.event 0x000D 0 arg 1)

/-- SAFEHOLD_ENTERED, R484: an unrecoverable module fault. -/
def execSafeholdEntered (s : State) : Host.Outcome State Fault Refusal := .next s.safeModule

/-! ### ZEROIZE (R203) -/

/-- Every local store and every Loft is cleared. -/
def State.zeroizeStart (s : State) : State :=
  let d := s.dict
  let s := s.clearResv (fun l => match l with | .ls _ _ => true | .loft _ _ => true | _ => false)
  { s with dict := { d with zeroizing := true },
           cores := Sparse.mapVals {} (fun _ x => { x with ls := [], lsPoison := [] }) s.cores,
           dies := Sparse.mapVals {} (fun _ x => { x with loft := [], loftPoison := [], merges := [] }) s.dies }

/-- A write of ZEROIZE that may be made. -/
def State.zeroizeWrite (s : State) (v : Nat) : Nat × State :=
  if 1 < v then (8, s)
  else if v = 0 then (0, s)
  else if s.dict.ovlActive = 4 ∨ s.dict.ovlActive = 5 then (0, s.zeroizeStart)
  else (9, s)

/-- ZEROIZE_DONE, R203. -/
def execZeroizeDone (s : State) : Host.Outcome State Fault Refusal :=
  if ¬ s.dict.zeroizing then .next s
  else .next ({ s with dict := { s.dict with zeroizing := false } }.event 0x000B 0 0 1)

/-! ### A write of any entry -/

/-- An image as a byte string (R527): header, 60-byte key, signature, body. -/
def parseImage (bs : List Byte) : Image :=
  let h := leNat (bs.take 64)
  let body := bitsN h 415 384
  let rest := bs.drop 124
  { magic := BitVec.ofNat 32 (bitsN h 511 480), version := BitVec.ofNat 32 (bitsN h 479 448), svn := BitVec.ofNat 16 (bitsN h 447 432),
    advance := decide (bitsN h 428 428 = 1), zeros := decide (bitsN h 431 429 = 0 ∧ bitsN h 427 416 = 0 ∧ bitsN h 127 0 = 0),
    bodyLen := body, bodyHash := BitVec.ofNat 256 (bitsN h 383 128), header := bs.take 64, pubKey := (bs.drop 64).take 60,
    sig := rest.take (rest.length - body), body := rest.drop (rest.length - body) }

/-- A write of DBG_ACCESS, laid out as DBGACC (R558, R560): an OP other than 1 and 2 starts no access. -/
def State.dbgAccess (s : State) (v : Nat) : Nat × State :=
  if ¬ s.debugOn then (9, s)
  else if bitsN v 1 0 = 1 ∨ bitsN v 1 0 = 2 then
    (0, s.debugRun (decide (bitsN v 1 0 = 2)) (BitVec.ofNat 64 (bitsN v 71 8)) (BitVec.ofNat 64 (bitsN v 135 72)))
  else (0, s)

/-- ROW_QUIESCE (R448). -/
def State.quiesceWrite (s : State) (v : BitVec 16) : State :=
  let d : DieIx := v.extractLsb' 8 2
  if (s.die d).quiesce.isSome then s else s.modDie d (fun x => { x with quiesce := some { row := v.extractLsb' 0 4 } })

/-- OWN_KEY: empty or 60 bytes (R500). -/
def State.keyWrite (s : State) (bs : List Byte) : Nat × State :=
  if bs.length = 0 ∨ bs.length = 60 then (0, s.dictStore 0x8010 0 bs) else (9, s)

/-- A scalar whose value is simply stored, after its own rules; a write of XL_PT_ROOT invalidates every cached translation (R251). -/
def State.scalarWrite (s : State) (index sub : Nat) (e : Entry) (v : Nat) : Nat × State :=
  let code := s.scalarCode index sub e v
  if code ≠ 0 then (code, s)
  else
    let s := s.dictStore index sub (toBytes (valueMask index v) e.size)
    (0, if index = 0x2300 then s.xlInvAll else s)

/-- A BOOL whose write of 1 does something. -/
def State.boolWrite (s : State) (v : Nat) (f : State → State) : Nat × State :=
  if 1 < v then (8, s) else (0, if v = 1 then f s else s)

/-- The own rule and the effect of a write that has passed the tests of R472 to R475. OWN_WRITESET is not among them. -/
def State.applyEntry (s : State) (index sub : Nat) (bs : List Byte) : Nat × State :=
  let v := leNat bs
  match entryAt index sub with
  | .inl c => (c, s)
  | .inr e =>
    if index = 0x2000 then s.boolWrite v State.cfgSave
    else if index = 0x2001 then (if s.maintenance then s.boolWrite v State.cfgDefaults else (5, s))
    else if index = 0x3001 then s.overlayRequest (BitVec.ofNat 8 v)
    else if 0x3100 ≤ index ∧ index ≤ 0x3105 then s.bodyWrite index sub v
    else if 0x4100 ≤ index ∧ index ≤ 0x413F then s.ringWrite (BitVec.ofNat 6 (index - 0x4100)) (BitVec.ofNat 256 v)
    else if index = 0x4202 then s.rstRequest (BitVec.ofNat 16 v)
    else if index = 0x4220 then (0, s.quiesceWrite (BitVec.ofNat 16 v))
    else if index = 0x7F00 then s.pmcSnapTime (BitVec.ofNat 64 v)
    else if index = 0x7F01 then s.boolWrite v State.pmcClearShared
    else if index = 0x8010 then s.keyWrite bs
    else if index = 0x8020 then s.zeroizeWrite v
    else if index = 0x8030 then (9, s)
    else if index = 0x8040 then (if s.fwCode 0 ≠ 0 then (5, s) else s.fwStore (parseImage bs))
    else if index = 0x8041 then (if s.fwCode 0 ≠ 0 then (5, s) else s.fwSelect (BitVec.ofNat 8 v))
    else if index = 0x8050 then s.attest (BitVec.ofNat 256 v)
    else if index = 0x8060 then (if 1 < v then (8, s) else (0, s.debugEnable (decide (v = 1))))
    else if index = 0xF100 then s.dbgAccess v
    else s.scalarWrite index sub e v

/-- A write of an entry, but for OWN_WRITESET. -/
def State.writePlain (s : State) (p : Path) (index sub type : Nat) (bs : List Byte) (block : Bool) : Nat × State :=
  let code := s.writeCode p index sub type bs.length block
  if code ≠ 0 then (code, s) else s.applyEntry index sub bs

/-! ### Write sets (R501 to R504) -/

/-- An entry of a write set. -/
structure SetEntry where
  index : Nat
  sub   : Nat
  type  : Nat
  bytes : List Byte
  deriving DecidableEq, Repr

/-- The entries of a write set: exactly so many, with zero padding and nothing after them. -/
def parseEntries : Nat → List Byte → Option (List SetEntry)
  | 0, bs => if bs.isEmpty then some [] else Option.none
  | n + 1, bs =>
    let h := leNat (bs.take 16)
    let len := bitsN h 95 64
    let rest := bs.drop 16
    let room := (len + 7) / 8 * 8
    if bs.length < 16 ∨ h % 2 ^ 64 ≠ 0 ∨ rest.length < room ∨ ((rest.take room).drop len).any (fun b => decide (b ≠ 0)) then Option.none
    else
      match parseEntries n (rest.drop room) with
      | some es => some ({ index := bitsN h 127 112, sub := bitsN h 111 104, type := bitsN h 103 96, bytes := rest.take len } :: es)
      | Option.none => Option.none

/-- The fields of a write set's header that later tests use. -/
structure SetHeader where
  target : Nat
  seq    : Nat
  body   : Nat
  deriving DecidableEq, Repr

/-- The format test (R502). -/
def parseSet (bs : List Byte) : Option (SetHeader × List SetEntry) :=
  let h := leNat (bs.take 64)
  let count := bitsN h 463 448
  let body := bitsN h 319 288
  if bs.length < 64 ∨ 65536 < bs.length ∨ bitsN h 511 480 ≠ 0x4B575331 ∨ bitsN h 479 464 ≠ 1 ∨ count = 0 ∨ 256 < count ∨
      bitsN h 255 0 ≠ 0 ∨ 64 + body + bitsN h 287 256 ≠ bs.length then Option.none
  else
    match parseEntries count ((bs.drop 64).take body) with
    | some es => some ({ target := bitsN h 447 384, seq := bitsN h 383 320, body := body }, es)
    | Option.none => Option.none

/-- The entries in the order of the set, up to the first that is refused. -/
def State.applySet (s : State) : List SetEntry → Nat × State
  | [] => (0, s)
  | e :: es =>
    let r := s.writePlain .writeSet e.index e.sub e.type e.bytes true
    if r.1 ≠ 0 then r else State.applySet r.2 es

/-- The OWN entries of a set as flash holds them. -/
def State.storeOwn (s : State) (es : List SetEntry) : State :=
  es.foldl (fun s e =>
    match entryAt e.index e.sub with
    | .inr t =>
      if t.cls = .own ∧ persistent e.index t ∧ e.index ≠ 0x8020 then
        { s with dict := { s.dict with flash := Sparse.set s.dict.flash (256 * e.index + e.sub) (storedIn s.dict.vals e.index e.sub) } }
      else s
    | .inl _ => s) s

/-- A write set is submitted: its tests in order, then all of it or nothing. -/
def State.submitSet (s : State) (bs : List Byte) : Nat × State :=
  if s.now < s.dict.pauseUntil then (10, s)
  else
    match parseSet bs with
    | Option.none => (14, s)
    | some (h, es) =>
      let key := storedIn s.dict.vals 0x8010 0
      if h.target ≠ 0 ∧ h.target ≠ Config.serial.toNat then (13, s)
      else if h.seq ≤ s.dict.ownSeq.toNat then (12, s)
      else if key.isEmpty ∨ ¬ Config.hssVerify key (bs.take (64 + h.body)) (bs.drop (64 + h.body)) then
        (11, { s with dict := { s.dict with pauseUntil := s.now + 1000000000 } })
      else
        let r := s.applySet es
        if r.1 ≠ 0 then (r.1, s)
        else if !bodiesOk r.2.dict.vals ∨ !eyeOk r.2.dict.vals then (9, s)
        else
          let t := r.2.storeOwn es
          let seq := BitVec.ofNat 64 h.seq
          (0, { t with dict := { t.dict with ownSeq := seq, flashSeq := seq } })

/-- A write of any entry. -/
def State.writeEntry (s : State) (p : Path) (index sub type : Nat) (bs : List Byte) (block : Bool) : Nat × State :=
  if index = 0x8030 ∧ p ≠ .writeSet then
    let code := s.writeCode p index sub type bs.length block
    if code ≠ 0 then (code, s) else s.submitSet bs
  else s.writePlain p index sub type bs block

/-- A write whose result its path reports. -/
def State.writeReport (s : State) (p : Path) (index sub type : Nat) (bs : List Byte) (block : Bool) : State :=
  let r := s.writeEntry p index sub type bs block
  r.2.report p r.1

/-! ### Entries with a row of their own -/

/-- XL_PT_ROOT_WRITE, R251. -/
def execXlPtRootWrite (p : Path) (val : Word) (s : State) : Host.Outcome State Fault Refusal :=
  .next (s.writeReport p 0x2300 0 5 (toBytes val.toNat 8) false)

/-- CFG_SAVE, R477. -/
def execCfgSave (p : Path) (val : Byte) (s : State) : Host.Outcome State Fault Refusal := .next (s.writeReport p 0x2000 0 1 [val] false)

/-- CFG_DEFAULTS, R477. -/
def execCfgDefaults (p : Path) (val : Byte) (s : State) : Host.Outcome State Fault Refusal := .next (s.writeReport p 0x2001 0 1 [val] false)

/-- OVL_REQUEST, R483. -/
def execOvlRequest (p : Path) (code : BitVec 8) (s : State) : Host.Outcome State Fault Refusal :=
  .next (s.writeReport p 0x3001 0 2 [code] false)

/-- ZEROIZE, R203. -/
def execZeroize (p : Path) (val : Byte) (s : State) : Host.Outcome State Fault Refusal := .next (s.writeReport p 0x8020 0 1 [val] false)

/-- OWN_WRITESET, R502: by the host; a field node's comes as segments. -/
def execOwnWriteset (bytes : List Byte) (s : State) : Host.Outcome State Fault Refusal :=
  .next (s.writeReport .host 0x8030 0 12 bytes true)

/-- OWN_KEY_CLAIM, R500. -/
def execOwnKeyClaim (p : Path) (key : List Byte) (s : State) : Host.Outcome State Fault Refusal :=
  .next (s.writeReport p 0x8010 0 12 key true)

/-! ### The PCIe window (R489 to R493) -/

/-- The value of a scalar as the window shows it: zero- or sign-extended. -/
def Entry.extend (e : Entry) (v : Nat) : Word :=
  if e.signed ∧ 2 ^ (8 * e.size - 1) ≤ v then BitVec.ofInt 64 ((v : Int) - 2 ^ (8 * e.size)) else BitVec.ofNat 64 v

/-- Index and sub-index of a place in the scalar window. -/
def State.windowEntry (s : State) (off : BitVec 24) : Nat × Nat :=
  (s.dict.page.toNat * 0x1000 + off.toNat / 8 / 256, off.toNat / 8 % 256)

/-- The block buffer's offset of a place in BAR2. -/
def bufOff (off : BitVec 24) : Nat := off.toNat - 0x800000

/-- A read in the scalar window: result code and value. -/
def State.windowValue (s : State) (index sub : Nat) : Nat × Word :=
  match entryAt index sub, s.dictRead index sub with
  | .inr e, r => if r.1 ≠ 0 then (r.1, 0) else if !e.scalar then (16, 0) else (0, e.extend (leNat r.2.2))
  | .inl c, r => (if r.1 ≠ 0 then r.1 else c, 0)

/-- WINDOW_READ, R490; in the upper half of BAR2, of the block buffer. -/
def execWindowRead (off : BitVec 24) (s : State) : Host.Outcome State Fault Refusal :=
  if !s.dictUp .host || decide (off.toNat % 8 ≠ 0) then .next s
  else if 0x800000 ≤ off.toNat then
    .next { s with dict := { s.dict with rdata := BitVec.ofNat 64 (leNat (readMem s.dict.buf (bufOff off) 8)) } }
  else
    let (index, sub) := s.windowEntry off
    let r := s.windowValue index sub
    .next { s with dict := { s.dict with rdata := r.2, code := BitVec.ofNat 8 r.1 } }

/-- A write in the scalar window: 8 bytes that extend the value as a read would. -/
def State.windowStore (s : State) (index sub : Nat) (eight : Bool) (val : Word) : State :=
  match entryAt index sub with
  | .inl c => s.report .host c
  | .inr e =>
    let v := val.toNat % 2 ^ (8 * e.size)
    if !e.scalar then s.report .host 16
    else if !eight ∨ e.extend v ≠ val then s.report .host 8
    else s.writeReport .host index sub e.type (toBytes v e.size) false

/-- WINDOW_WRITE, R490; in the upper half of BAR2, of the block buffer. -/
def execWindowWrite (off : BitVec 24) (eight : Bool) (val : Word) (s : State) : Host.Outcome State Fault Refusal :=
  if !s.dictUp .host || decide (off.toNat % (if eight then 8 else 4) ≠ 0) then .next s
  else if 0x800000 ≤ off.toNat then
    let bs := (toBytes val.toNat (if eight then 8 else 4)).map some
    .next { s with dict := { s.dict with buf := writeMem s.dict.buf (bufOff off) bs } }
  else
    let (index, sub) := s.windowEntry off
    .next (s.windowStore index sub eight val)

/-- DICT_STAT. -/
def Dict.stat (x : Dict) : Word :=
  packW [(b2n x.busy.isSome, 63), (b2n x.done, 62), (b2n x.werr, 61), (x.code.toNat, 48), (x.len.toNat, 0)]

/-- A block operation starts, or is discarded while one runs. -/
def State.blockStart (s : State) (op : BlockOp) : State :=
  if !s.dictUp .host then s
  else if s.dict.busy.isSome then { s with dict := { s.dict with werr := true } }
  else { s with dict := { s.dict with busy := some op } }

/-- DICT_CMD_READ, R491. -/
def execDictCmdRead (index : BitVec 16) (sub : BitVec 8) (s : State) : Host.Outcome State Fault Refusal :=
  .next (s.blockStart (.read index sub))

/-- DICT_CMD_WRITE, R491. -/
def execDictCmdWrite (type : BitVec 4) (index : BitVec 16) (sub : BitVec 8) (len : BitVec 32) (s : State) :
    Host.Outcome State Fault Refusal :=
  .next (s.blockStart (.write type index sub len.toNat))

/-- A block operation ends: DONE, its code and length, and vector 1. -/
def State.blockEnd (s : State) (code len : Nat) : State :=
  { s with dict := { s.dict with busy := Option.none, done := true, code := BitVec.ofNat 8 code, len := BitVec.ofNat 32 len } }.emit (.msix 1)

/-- DICT_CMD_ABORT, R492. -/
def State.blockAbort (s : State) : State := if s.dict.busy.isSome ∧ s.dictUp .host then s.blockEnd 15 0 else s

def execDictCmdAbort (s : State) : Host.Outcome State Fault Refusal := .next s.blockAbort

/-- The block operation under way is performed. -/
def State.blockRun (s : State) (op : BlockOp) : State :=
  match op with
  | .read index sub =>
    let r := s.dictRead index.toNat sub.toNat
    { s with dict := { s.dict with buf := writeMem s.dict.buf 0 (r.2.2.map some) } }.blockEnd r.1 r.2.2.length
  | .write type index sub len =>
    if 2 ^ 23 < len then { s with dict := { s.dict with werr := true } }.blockEnd 8 0
    else
      let r := s.writeEntry .host index.toNat sub.toNat type.toNat (readMem s.dict.buf 0 len) true
      let t := r.2
      { t with dict := { t.dict with werr := t.dict.werr || decide (r.1 ≠ 0) } }.blockEnd r.1 (if r.1 = 0 then len else 0)

/-- DICT_CMD_COMPLETE, R492. -/
def execDictCmdComplete (s : State) : Host.Outcome State Fault Refusal :=
  match s.dict.busy with
  | some op => .next (if s.dictUp .host then s.blockRun op else s)
  | Option.none => .next s

/-- The oldest event that the host has not read. -/
def Dict.unread (x : Dict) : Option (BitVec 256) := x.evtLog.find? (fun e => decide (x.evtRead.toNat < (e.extractLsb' 128 32).toNat))

/-- EVT_POP, R489: a read by the debug path changes nothing (R559). -/
def execEvtPop (v : Via) (s : State) : Host.Outcome State Fault Refusal :=
  if !s.boot.hostUp then .next s
  else
    match s.dict.unread with
    | Option.none => .next { s with dict := { s.dict with rdata := 0 } }
    | some e =>
      let seq : BitVec 32 := e.extractLsb' 128 32
      let x := packW [(1, 63), (b2n s.dict.evtOvf, 62), ((e.extractLsb' 176 16).toNat, 32), (seq.toNat, 0)]
      let d := { s.dict with rdata := x }
      .next { s with dict := if v = .debug then d else { d with evtRead := seq, evtOvf := false } }

/-- A write of DICT_CMD as a word. -/
def State.dictCmd (s : State) (val : Word) : State :=
  let op := (val.extractLsb' 60 4).toNat
  if op = 1 then s.blockStart (.read (val.extractLsb' 40 16) (val.extractLsb' 32 8))
  else if op = 2 then s.blockStart (.write (val.extractLsb' 56 4) (val.extractLsb' 40 16) (val.extractLsb' 32 8) (val.extractLsb' 0 32).toNat)
  else if op = 3 then s.blockAbort
  else s

/-- A write to a word of BAR0; a read-only word and an undefined offset ignore it. -/
def State.bar0Write (s : State) (off : Nat) (val : Word) : State :=
  if !s.boot.hostUp then s
  else if off = 0x08 then { s with dict := { s.dict with page := val.extractLsb' 0 4 } }
  else if off = 0x10 then s.dictCmd val
  else if off = 0x18 then
    { s with dict := { s.dict with done := s.dict.done && !(val.getLsbD 62), werr := s.dict.werr && !(val.getLsbD 61) } }
  else s

/-- What a read of a word of BAR0 other than EVT_POP returns. -/
def State.bar0Read (s : State) (off : Nat) : Word :=
  if off = 0x00 then s.devStat
  else if off = 0x08 then s.dict.page.zeroExtend 64
  else if off = 0x18 then s.dict.stat
  else 0

/-! ### Forniti (R494 to R498; payload layouts: log 23) -/

/-- Whether the field network is up (R494, R508): in RECOVERY and from STANDBY on. -/
def State.fieldUp (s : State) : Bool := s.boot.aon && !s.boot.headStopped && decide (s.boot.stage ≠ 1)

/-- Sends a frame with the module's own frame sequence. -/
def State.sendFrame (s : State) (dest : BitVec 8) (type : Nat) (response : Bool) (tid : BitVec 16) (payload : List Byte) : State :=
  let d := s.dict
  let s := { s with dict := { d with txSeq := d.txSeq + 1 } }
  s.emit (.frame dest (s.frameBytes type response tid s.dict.txSeq payload))

/-- Answers a request; the last four answers to each node are kept (R497). -/
def State.fnAnswer (s : State) (n : BitVec 8) (type : Nat) (tid : BitVec 16) (payload : List Byte) : State :=
  let s := s.sendFrame n type true tid payload
  let bytes := s.frameBytes type true tid s.dict.txSeq payload
  { s with dict := { s.dict with answers := Sparse.upd [] s.dict.answers n.toNat (fun l => ((tid, bytes) :: l).take 4) } }

/-- A request of a node: one that repeats a TID receives the stored answer and is not performed again. -/
def State.request (s : State) (n : BitVec 8) (tid : BitVec 16) (f : State → State) : State :=
  if !s.fieldUp then s
  else
    match (Sparse.get [] s.dict.answers n.toNat).find? (fun a => a.1 = tid) with
    | some a => s.emit (.frame n a.2)
    | Option.none => f s

/-- A read by a field node: 0xF000 to 0xFFFF answer an allowed node only (R474, R496). -/
def State.nodeRead (s : State) (n : BitVec 8) (mac : BitVec 48) (index sub : Nat) : Nat × Nat × List Byte :=
  let r := s.dictRead index sub
  if 0xF000 ≤ index ∧ !(s.nodeAllowed n mac) ∧ r.1 = 0 then (5, r.2.1, []) else r

/-- FORNITI_READ, R495: a value longer than 1016 bytes goes by blocks only. -/
def execFornitiRead (n : BitVec 8) (mac : BitVec 48) (tid : BitVec 16) (index : BitVec 16) (sub : BitVec 8) (s : State) :
    Host.Outcome State Fault Refusal :=
  .next (s.request n tid (fun s =>
    let r := s.nodeRead n mac index.toNat sub.toNat
    let big := decide (1016 < r.2.2.length)
    s.fnAnswer n 0x01 tid (toBytes (if big then 8 else r.1) 1 ++ toBytes r.2.1 1 ++ [0, 0] ++ toBytes r.2.2.length 4 ++ (if big then [] else r.2.2))))

/-- FORNITI_WRITE, R496. -/
def execFornitiWrite (n : BitVec 8) (mac : BitVec 48) (tid : BitVec 16) (index : BitVec 16) (sub : BitVec 8) (type : BitVec 4)
    (bytes : List Byte) (s : State) : Host.Outcome State Fault Refusal :=
  .next (s.request n tid (fun s =>
    let r := s.writeEntry (.node n mac) index.toNat sub.toNat type.toNat bytes false
    r.2.fnAnswer n 0x02 tid (toBytes r.1 1)))

/-- Drops a node's running transfer. -/
def State.dropTransfer (s : State) (n : BitVec 8) : State :=
  { s with dict := { s.dict with transfers := s.dict.transfers.filter (fun t => t.1 ≠ n.toNat) } }

/-- Starts a transfer: result code and total length. -/
def State.startTransfer (s : State) (n : BitVec 8) (mac : BitVec 48) (write : Bool) (index : BitVec 16) (sub : BitVec 8) (type : BitVec 4)
    (total : Nat) : Nat × Nat × State :=
  let s := s.dropTransfer n
  let run (k : Nat) (bs : List Byte) : State :=
    let x : Transfer := { write := write, index := index, sub := sub, type := type, total := k, seg := 0, buf := bs }
    { s with dict := { s.dict with transfers := Sparse.set s.dict.transfers n.toNat x } }
  if write then
    let code := s.writeCode (.node n mac) index.toNat sub.toNat type.toNat total true
    if code ≠ 0 then (code, 0, s) else (0, total, run total [])
  else
    let r := s.nodeRead n mac index.toNat sub.toNat
    if r.1 ≠ 0 then (r.1, 0, s) else (0, r.2.2.length, run r.2.2.length r.2.2)

/-- BLOCK_INIT, R497. -/
def execBlockInit (n : BitVec 8) (mac : BitVec 48) (tid : BitVec 16) (write : Bool) (index : BitVec 16) (sub : BitVec 8) (type : BitVec 4)
    (total : BitVec 32) (s : State) : Host.Outcome State Fault Refusal :=
  .next (s.request n tid (fun s =>
    let r := s.startTransfer n mac write index sub type total.toNat
    r.2.2.fnAnswer n 0x03 tid (toBytes r.1 1 ++ [0, 0, 0] ++ toBytes r.2.1 4)))

/-- One segment of a write: the last one applies the whole value. -/
def State.segWrite (s : State) (n : BitVec 8) (mac : BitVec 48) (t : Transfer) (bytes : List Byte) : Nat × State :=
  if bytes.length ≠ min 1024 (t.total - 1024 * t.seg) then (15, s.dropTransfer n)
  else
    let buf := t.buf ++ bytes
    if buf.length < t.total then
      (0, { s with dict := { s.dict with transfers := Sparse.set s.dict.transfers n.toNat { t with seg := t.seg + 1, buf := buf } } })
    else (s.dropTransfer n).writeEntry (.node n mac) t.index.toNat t.sub.toNat t.type.toNat buf true

/-- The transfer after one segment of a read. -/
def State.segRead (s : State) (n : BitVec 8) (t : Transfer) : State :=
  if t.total ≤ 1024 * (t.seg + 1) then s.dropTransfer n
  else { s with dict := { s.dict with transfers := Sparse.set s.dict.transfers n.toNat { t with seg := t.seg + 1 } } }

/-- BLOCK_SEG, R497: a segment out of turn aborts the transfer with code 15. -/
def execBlockSeg (n : BitVec 8) (mac : BitVec 48) (tid : BitVec 16) (num : BitVec 16) (bytes : List Byte) (s : State) :
    Host.Outcome State Fault Refusal :=
  .next (s.request n tid (fun s =>
    match Sparse.find s.dict.transfers n.toNat with
    | Option.none => s.fnAnswer n 0x04 tid [15]
    | some t =>
      if t.seg ≠ num.toNat then (s.dropTransfer n).fnAnswer n 0x04 tid [15]
      else if t.write then
        let r := s.segWrite n mac t bytes
        r.2.fnAnswer n 0x04 tid (toBytes r.1 1)
      else (s.segRead n t).fnAnswer n 0x04 tid (0 :: (t.buf.drop (1024 * t.seg)).take 1024)))

/-- BLOCK_TRANSFER_TIMEOUT, R497. -/
def execBlockTransferTimeout (n : BitVec 8) (s : State) : Host.Outcome State Fault Refusal :=
  .next (if s.fieldUp then s.dropTransfer n else s)

/-- HEARTBEAT, R498: six words of 8 bytes. -/
def execHeartbeat (s : State) : Host.Outcome State Fault Refusal :=
  if !s.fieldUp then .next s
  else
    let open_ := (s.ledgerSlots.filter (fun k => ((s.ring k.1).led k.2).outstanding)).length
    .next (s.sendFrame 0xFF 0x11 false 0
      (toBytes Config.serial.toNat 8 ++ toBytes s.mod.id.toNat 8 ++ toBytes s.devStat.toNat 8 ++ toBytes s.now 8 ++
        toBytes s.dict.evtSeq.toNat 8 ++ toBytes open_ 8))

/-- EMERGENCY_RESEND, R499: the next emergency that is due, with its SEQ; also after a stop of the head groom (R447). -/
def execEmergencyResend (s : State) : Host.Outcome State Fault Refusal :=
  match s.dict.emerg with
  | [] => .next s
  | (e, k) :: rest =>
    if ¬ s.boot.aon then .next s
    else
      let s := { s with dict := { s.dict with emerg := if k ≤ 1 then rest else rest ++ [(e, k - 1)] } }
      .next (s.emit (.frame 0xFF (s.frameBytes 0x12 false 0 (e.extractLsb' 128 32) (toBytes e.toNat 32))))

/-! ### Words and entries without a row of their own (R11) -/

/-- REGISTER_WRITE, R11. The debug path writes a control word only while debug is enabled; a DONE that waits for its fence is sent again. -/
def execRegisterWrite (target : RegTarget) (val : Word) (s : State) : Host.Outcome State Fault Refusal :=
  match target with
  | .control v c off =>
    if off.toNat % 8 ≠ 0 ∨ ¬ s.boot.mainOn ∨ ¬ s.present c ∨ (v = .debug ∧ ¬ s.debugOn) ∨ s.ctlWaits v c off.toNat val then .next s
    else .next (s.ctlWrite v c off.toNat val)
  | .bar0 off => .next (s.bar0Write off.toNat val)
  | .entry p index sub type bytes => .next (s.writeReport p index.toNat sub.toNat type.toNat bytes true)

end Sys2Proof.Machine
end

