-- ==== Sys2Proof/Machine/Scalar.lean ====
section
/-! DEFINITION. Scalar integer, fixed-point, compare, predicate and immediate instructions (OPC 0x00 to 0x02 and 0x04 to 0x09; R61, R69 to
R71, R580). -/

namespace Sys2Proof.Machine

/-- A register-register operation that writes rd (R580). -/
def alu (i : Iss) (opc : Nat) (rd rs1 rs2 : BitVec 5) (f : Word → Word → Word) (s : State) : Host.Outcome State Fault Refusal :=
  issue i opc false { residue := true } (fun s =>
    .done (s.modThread i.who (fun h => h.setReg rd (f (h.reg rs1) (h.reg rs2))))) s

/-- A register-immediate operation that writes rd (R61). -/
def aluImm (i : Iss) (opc : Nat) (rd rs1 : BitVec 5) (v : Word) (f : Word → Word → Word) (s : State) :
    Host.Outcome State Fault Refusal :=
  issue i opc false { residue := true } (fun s =>
    .done (s.modThread i.who (fun h => h.setReg rd (f (h.reg rs1) v)))) s

/-- A compare into a predicate; the predicate field is 5 bits, of which the upper two must be 0, and p0 may not be named (R61). -/
def cmpOp (i : Iss) (rd : BitVec 5) (rs1 rs2 : BitVec 5) (f : Word → Word → Bool) (s : State) : Host.Outcome State Fault Refusal :=
  issue i 0x02 false { residue := true } (fun s =>
    if rd = 0 ∨ 8 ≤ rd.toNat then .trap s (illegal 0x02)
    else .done (s.modThread i.who (fun h => h.setPred (rd.extractLsb' 0 3) (predOf (f (h.reg rs1) (h.reg rs2)))))) s

/-- A predicate operation on all 64 bits (R580). -/
def predOp (i : Iss) (rd : BitVec 5) (f : Thread → Word) (s : State) : Host.Outcome State Fault Refusal :=
  issue i 0x02 false { residue := true } (fun s =>
    if rd = 0 ∨ 8 ≤ rd.toNat then .trap s (illegal 0x02)
    else .done (s.modThread i.who (fun h => h.setPred (rd.extractLsb' 0 3) (f h)))) s

/-- High half of the signed and of the unsigned product (R580). -/
def mulHigh (a b : Word) : Word := wordOfInt ((a.toInt * b.toInt) / 2 ^ 64)
def mulHighU (a b : Word) : Word := BitVec.ofNat 64 (a.toNat * b.toNat / 2 ^ 64)

/-- Signed division (R580): toward zero; a zero divisor gives all ones and the dividend. -/
def divS (a b : Word) : Word := if b = 0 then BitVec.allOnes 64 else wordOfInt (a.toInt.tdiv b.toInt)
def remS (a b : Word) : Word := if b = 0 then a else wordOfInt (a.toInt.tmod b.toInt)
def divU (a b : Word) : Word := if b = 0 then BitVec.allOnes 64 else BitVec.ofNat 64 (a.toNat / b.toNat)
def remU (a b : Word) : Word := if b = 0 then a else BitVec.ofNat 64 (a.toNat % b.toNat)

/-- ADD, R580. -/
def execAddR (i : Iss) (rd rs1 rs2 : BitVec 5) (s : State) : Host.Outcome State Fault Refusal :=
  alu i 0x00 rd rs1 rs2 (fun a b => a + b) s

/-- SUB, R580. -/
def execSubR (i : Iss) (rd rs1 rs2 : BitVec 5) (s : State) : Host.Outcome State Fault Refusal :=
  alu i 0x00 rd rs1 rs2 (fun a b => a - b) s

/-- AND, R580. -/
def execAndR (i : Iss) (rd rs1 rs2 : BitVec 5) (s : State) : Host.Outcome State Fault Refusal :=
  alu i 0x00 rd rs1 rs2 (fun a b => a &&& b) s

/-- OR, R580. -/
def execOrR (i : Iss) (rd rs1 rs2 : BitVec 5) (s : State) : Host.Outcome State Fault Refusal :=
  alu i 0x00 rd rs1 rs2 (fun a b => a ||| b) s

/-- XOR, R580. -/
def execXorR (i : Iss) (rd rs1 rs2 : BitVec 5) (s : State) : Host.Outcome State Fault Refusal :=
  alu i 0x00 rd rs1 rs2 (fun a b => a ^^^ b) s

/-- SHL, R580. -/
def execShl (i : Iss) (rd rs1 rs2 : BitVec 5) (s : State) : Host.Outcome State Fault Refusal :=
  alu i 0x00 rd rs1 rs2 (fun a b => a <<< (b.extractLsb' 0 6).toNat) s

/-- SHR, R580. -/
def execShr (i : Iss) (rd rs1 rs2 : BitVec 5) (s : State) : Host.Outcome State Fault Refusal :=
  alu i 0x00 rd rs1 rs2 (fun a b => a >>> (b.extractLsb' 0 6).toNat) s

/-- SRA, R580. -/
def execSra (i : Iss) (rd rs1 rs2 : BitVec 5) (s : State) : Host.Outcome State Fault Refusal :=
  alu i 0x00 rd rs1 rs2 (fun a b => a.sshiftRight (b.extractLsb' 0 6).toNat) s

/-- MUL, R580. -/
def execMulR (i : Iss) (rd rs1 rs2 : BitVec 5) (s : State) : Host.Outcome State Fault Refusal :=
  alu i 0x00 rd rs1 rs2 (fun a b => a * b) s

/-- MULH, R580. -/
def execMulh (i : Iss) (rd rs1 rs2 : BitVec 5) (s : State) : Host.Outcome State Fault Refusal :=
  alu i 0x00 rd rs1 rs2 mulHigh s

/-- MULHU, R580. -/
def execMulhu (i : Iss) (rd rs1 rs2 : BitVec 5) (s : State) : Host.Outcome State Fault Refusal :=
  alu i 0x00 rd rs1 rs2 mulHighU s

/-- DIV, R580. -/
def execDivR (i : Iss) (rd rs1 rs2 : BitVec 5) (s : State) : Host.Outcome State Fault Refusal :=
  alu i 0x00 rd rs1 rs2 divS s

/-- DIVU, R580. -/
def execDivu (i : Iss) (rd rs1 rs2 : BitVec 5) (s : State) : Host.Outcome State Fault Refusal :=
  alu i 0x00 rd rs1 rs2 divU s

/-- REM, R580. -/
def execRemR (i : Iss) (rd rs1 rs2 : BitVec 5) (s : State) : Host.Outcome State Fault Refusal :=
  alu i 0x00 rd rs1 rs2 remS s

/-- REMU, R580. -/
def execRemu (i : Iss) (rd rs1 rs2 : BitVec 5) (s : State) : Host.Outcome State Fault Refusal :=
  alu i 0x00 rd rs1 rs2 remU s

/-- MIN, R580. -/
def execMinR (i : Iss) (rd rs1 rs2 : BitVec 5) (s : State) : Host.Outcome State Fault Refusal :=
  alu i 0x00 rd rs1 rs2 (fun a b => if a.toInt ≤ b.toInt then a else b) s

/-- MAX, R580. -/
def execMaxR (i : Iss) (rd rs1 rs2 : BitVec 5) (s : State) : Host.Outcome State Fault Refusal :=
  alu i 0x00 rd rs1 rs2 (fun a b => if a.toInt ≤ b.toInt then b else a) s

/-! ### Scalar fixed point (R69 to R71) -/

/-- The fixed-point source: Q1.15 of bits 15:0 or Q1.31 of bits 31:0 (R69). -/
def fxSource (wide : Bool) (v : Word) : Int := if wide then signedOf 32 v.toNat else signedOf 16 v.toNat

def fxBits (wide : Bool) : Nat := if wide then 32 else 16

/-- The selected accumulator as an integer in units of 2^-63 (R69). -/
def Thread.ga (h : Thread) (one : Bool) : Int := (if one then h.ga1 else h.ga0).toInt

def Thread.setGa (h : Thread) (one : Bool) (v : BitVec 72) : Thread := if one then { h with ga1 := v } else { h with ga0 := v }

/-- A fixed-point operation into a register, with its flag. -/
def fxToReg (i : Iss) (rd : BitVec 5) (f : Thread → Int × Fit) (s : State) : Host.Outcome State Fault Refusal :=
  issue i 0x01 false { residue := true } (fun s =>
    .done (s.modThread i.who (fun h => let r := f h; (h.setReg rd (wordOfInt r.1)).fxFlag r.2))) s

/-- QADD, R71. -/
def execQadd (i : Iss) (rd rs1 rs2 : BitVec 5) (a : FxAux) (s : State) : Host.Outcome State Fault Refusal :=
  fxToReg i rd (fun h => fitSigned a.sat (fxBits a.wide) (fxSource a.wide (h.reg rs1) + fxSource a.wide (h.reg rs2))) s

/-- QSUB, R71. -/
def execQsub (i : Iss) (rd rs1 rs2 : BitVec 5) (a : FxAux) (s : State) : Host.Outcome State Fault Refusal :=
  fxToReg i rd (fun h => fitSigned a.sat (fxBits a.wide) (fxSource a.wide (h.reg rs1) - fxSource a.wide (h.reg rs2))) s

/-- QMUL, R71: the exact product, rounded once to the source format. -/
def execQmul (i : Iss) (rd rs1 rs2 : BitVec 5) (a : FxAux) (s : State) : Host.Outcome State Fault Refusal :=
  fxToReg i rd (fun h =>
    fitSigned a.sat (fxBits a.wide)
      (roundShift a.rnd (fxSource a.wide (h.reg rs1) * fxSource a.wide (h.reg rs2)) (fxBits a.wide - 1))) s

/-- QMAC, R71: the exact product added to the selected accumulator at its binary point. -/
def execQmac (i : Iss) (rs1 rs2 : BitVec 5) (a : FxAux) (s : State) : Host.Outcome State Fault Refusal :=
  issue i 0x01 false { residue := true } (fun s =>
    .done (s.modThread i.who (fun h =>
      let p := fxSource a.wide (h.reg rs1) * fxSource a.wide (h.reg rs2) * 2 ^ (63 - 2 * (fxBits a.wide - 1))
      let r := fitSigned a.sat 72 (h.ga a.ga + p)
      (h.setGa a.ga (BitVec.ofInt 72 r.1)).fxFlag r.2))) s

/-- QEXT, R71: the selected accumulator rounded once to Q1.15 or Q1.31. -/
def execQext (i : Iss) (rd : BitVec 5) (a : FxAux) (s : State) : Host.Outcome State Fault Refusal :=
  fxToReg i rd (fun h => fitSigned a.sat (fxBits a.wide) (roundShift a.rnd (h.ga a.ga) (64 - fxBits a.wide))) s

/-- QCLR, R71. -/
def execQclr (i : Iss) (a : FxAux) (s : State) : Host.Outcome State Fault Refusal :=
  issue i 0x01 false { residue := true } (fun s => .done (s.modThread i.who (fun h => h.setGa a.ga 0))) s

/-- GA_LO, R71. -/
def execGaLo (i : Iss) (rd : BitVec 5) (a : FxAux) (s : State) : Host.Outcome State Fault Refusal :=
  issue i 0x01 false { residue := true } (fun s =>
    .done (s.modThread i.who (fun h => h.setReg rd ((if a.ga then h.ga1 else h.ga0).extractLsb' 0 64)))) s

/-- GA_HI, R71. -/
def execGaHi (i : Iss) (rd : BitVec 5) (a : FxAux) (s : State) : Host.Outcome State Fault Refusal :=
  issue i 0x01 false { residue := true } (fun s =>
    .done (s.modThread i.who (fun h => h.setReg rd (((if a.ga then h.ga1 else h.ga0).extractLsb' 64 8).signExtend 64)))) s

/-- GA_WR, R71. -/
def execGaWr (i : Iss) (rs1 rs2 : BitVec 5) (a : FxAux) (s : State) : Host.Outcome State Fault Refusal :=
  issue i 0x01 false { residue := true } (fun s =>
    .done (s.modThread i.who (fun h => h.setGa a.ga ((h.reg rs2).extractLsb' 0 8 ++ h.reg rs1)))) s

/-! ### Compares and predicates (R580) -/

/-- CMP_EQ, R580. -/
def execCmpEq (i : Iss) (rd rs1 rs2 : BitVec 5) (s : State) : Host.Outcome State Fault Refusal :=
  cmpOp i rd rs1 rs2 (fun a b => decide (a = b)) s

/-- CMP_NE, R580. -/
def execCmpNe (i : Iss) (rd rs1 rs2 : BitVec 5) (s : State) : Host.Outcome State Fault Refusal :=
  cmpOp i rd rs1 rs2 (fun a b => decide (a ≠ b)) s

/-- CMP_LT, R580. -/
def execCmpLt (i : Iss) (rd rs1 rs2 : BitVec 5) (s : State) : Host.Outcome State Fault Refusal :=
  cmpOp i rd rs1 rs2 (fun a b => decide (a.toInt < b.toInt)) s

/-- CMP_LTU, R580. -/
def execCmpLtu (i : Iss) (rd rs1 rs2 : BitVec 5) (s : State) : Host.Outcome State Fault Refusal :=
  cmpOp i rd rs1 rs2 (fun a b => decide (a.toNat < b.toNat)) s

/-- CMP_GE, R580. -/
def execCmpGe (i : Iss) (rd rs1 rs2 : BitVec 5) (s : State) : Host.Outcome State Fault Refusal :=
  cmpOp i rd rs1 rs2 (fun a b => decide (b.toInt ≤ a.toInt)) s

/-- CMP_GEU, R580. -/
def execCmpGeu (i : Iss) (rd rs1 rs2 : BitVec 5) (s : State) : Host.Outcome State Fault Refusal :=
  cmpOp i rd rs1 rs2 (fun a b => decide (b.toNat ≤ a.toNat)) s

/-- PAND, R580. -/
def execPand (i : Iss) (rd : BitVec 5) (ps1 ps2 : BitVec 3) (s : State) : Host.Outcome State Fault Refusal :=
  predOp i rd (fun h => h.pred ps1 &&& h.pred ps2) s

/-- POR, R580. -/
def execPor (i : Iss) (rd : BitVec 5) (ps1 ps2 : BitVec 3) (s : State) : Host.Outcome State Fault Refusal :=
  predOp i rd (fun h => h.pred ps1 ||| h.pred ps2) s

/-- PNOT, R580. -/
def execPnot (i : Iss) (rd : BitVec 5) (ps1 : BitVec 3) (s : State) : Host.Outcome State Fault Refusal :=
  predOp i rd (fun h => ~~~(h.pred ps1)) s

/-! ### Immediates (R61) -/

/-- ADDI, R61: the immediate is sign-extended. -/
def execAddi (i : Iss) (rd rs1 : BitVec 5) (imm : BitVec 16) (s : State) : Host.Outcome State Fault Refusal :=
  aluImm i 0x04 rd rs1 (imm.signExtend 64) (fun a b => a + b) s

/-- ANDI, R61: the immediate is zero-extended. -/
def execAndi (i : Iss) (rd rs1 : BitVec 5) (imm : BitVec 16) (s : State) : Host.Outcome State Fault Refusal :=
  aluImm i 0x05 rd rs1 (imm.zeroExtend 64) (fun a b => a &&& b) s

/-- ORI, R61. -/
def execOri (i : Iss) (rd rs1 : BitVec 5) (imm : BitVec 16) (s : State) : Host.Outcome State Fault Refusal :=
  aluImm i 0x06 rd rs1 (imm.zeroExtend 64) (fun a b => a ||| b) s

/-- XORI, R61. -/
def execXori (i : Iss) (rd rs1 : BitVec 5) (imm : BitVec 16) (s : State) : Host.Outcome State Fault Refusal :=
  aluImm i 0x07 rd rs1 (imm.zeroExtend 64) (fun a b => a ^^^ b) s

/-- SHLI, R580: bits 15:6 of the immediate must be 0 (R61). -/
def execShli (i : Iss) (rd rs1 : BitVec 5) (imm : BitVec 16) (s : State) : Host.Outcome State Fault Refusal :=
  issue i 0x08 false { residue := true } (fun s =>
    if imm.extractLsb' 6 10 ≠ 0 then .trap s (illegal 0x08)
    else .done (s.modThread i.who (fun h => h.setReg rd (h.reg rs1 <<< (imm.extractLsb' 0 6).toNat)))) s

/-- LUI, R61: IMM16 × 65536, sign-extended from bit 31. -/
def execLui (i : Iss) (rd : BitVec 5) (imm : BitVec 16) (s : State) : Host.Outcome State Fault Refusal :=
  issue i 0x09 false { reads := false, residue := true } (fun s =>
    .done (s.modThread i.who (fun h => h.setReg rd ((imm ++ (0 : BitVec 16)).signExtend 64)))) s

end Sys2Proof.Machine
end

