-- ==== Sys2Proof/Machine/Special.lean ====
section
/-! DEFINITION. The special functions (R177): exact or high-precision results, the error within its bound that the device leaves open (log 7),
and the listed cases. -/

namespace Sys2Proof.Machine

/-! ### Fixed-point evaluation, 160 fraction bits -/

def fixP : Nat := 160

/-- ln 2 and log2 e in units of 2^-160. -/
def fixLn2 : Nat := 1013035739299659071135698605846798551586536899366
def fixLog2e : Nat := 2108501164428393954197770173035669514763056903505

/-- A finite number in units of 2^-160; FP32 numbers are exact in them. -/
def fixOf (neg : Bool) (m : Nat) (e : Int) : Int :=
  let v : Int := if -160 ≤ e then (m : Int) * 2 ^ (e + 160).toNat else (m : Int) / 2 ^ (-160 - e).toNat
  if neg then -v else v

/-- Terms of the exponential series. -/
def expTerms (y : Nat) : Nat → Nat → Nat → Nat
  | 0, _, acc => acc
  | n + 1, term, acc => expTerms y n (term * y / 2 ^ fixP / (45 - n)) (acc + term)

/-- 2^x for a fixed-point x: a significand in [1, 2) in units of 2^-160, and its exponent. -/
def fixExp2 (x : Int) : Nat × Int :=
  let one : Int := 2 ^ fixP
  let n := x / one
  let f := (x % one).toNat
  (expTerms (f * fixLn2 / 2 ^ fixP) 45 (2 ^ fixP) 0, n)

/-- Fraction bits of log2 of a significand in [1, 2) in units of 2^-200. -/
def log2Bits : Nat → Nat → Nat → Nat
  | 0, _, acc => acc
  | n + 1, x, acc =>
    let s := x * x / 2 ^ 200
    if 2 ^ 201 ≤ s then log2Bits n (s / 2) (2 * acc + 1) else log2Bits n s (2 * acc)

/-- The integer square root, from its top bit down. -/
def isqrt (n : Nat) : Nat → Nat → Nat
  | 0, r => r
  | b + 1, r => isqrt n b (if (r + 2 ^ b) * (r + 2 ^ b) ≤ n then r + 2 ^ b else r)

/-- Values of the functions on a positive finite argument, or of vexp2 and vsigm on any. -/
def exp2Num (neg : Bool) (m : Nat) (e : Int) : Num :=
  if 8 < leadExp m e then .fin false 1 (if neg then -600 else 600)
  else
    let r := fixExp2 (fixOf neg m e)
    .fin false r.1 (r.2 - fixP)

def log2Num (m : Nat) (e : Int) : Num :=
  let f := log2Bits 110 (m * 2 ^ (201 - bitLen m)) 0
  numOfInt (leadExp m e * 2 ^ 110 + (f : Int)) (-110) false

def rcpNum (neg : Bool) (m : Nat) (e : Int) : Num :=
  let q := 2 ^ 120 / m
  .fin neg (2 * q + b2n (decide (2 ^ 120 % m ≠ 0))) (-121 - e)

def rsqrtNum (m : Nat) (e : Int) : Num :=
  let odd := decide (e % 2 ≠ 0)
  let m := if odd then 2 * m else m
  let e := if odd then e - 1 else e
  let q := isqrt (2 ^ 240 / m) 130 0
  .fin false (2 * q + b2n (decide (q * q * m ≠ 2 ^ 240))) (-121 - e / 2)

def tanhNum (neg : Bool) (m : Nat) (e : Int) : Num :=
  let t : Int := 2 * fixOf false m e * (fixLog2e : Int) / 2 ^ fixP
  let r := fixExp2 t
  let y := r.1 * 2 ^ r.2.toNat
  .fin neg ((y - 2 ^ fixP) * 2 ^ fixP / (y + 2 ^ fixP)) (-160)

def sigmNum (neg : Bool) (m : Nat) (e : Int) : Num :=
  if neg ∧ 8 ≤ leadExp m e then .fin false 1 (-400)
  else
    let t : Int := -(fixOf neg m e * (fixLog2e : Int)) / 2 ^ fixP
    let r := fixExp2 t
    let up := r.2.toNat
    let down := (-r.2).toNat
    .fin false (2 ^ fixP * 2 ^ down * 2 ^ (fixP + up) / (2 ^ fixP * 2 ^ down + r.1 * 2 ^ up)) (-160 - (up : Int))

/-! ### Rounding with a bounded error -/

/-- An integer held to ±b. -/
def clampErr (b : Nat) (d : Int) : Int := max (-(b : Int)) (min b d)

/-- Rounds a positive magnitude to FP32 and moves it by `d` units in the last place. -/
def sfuPack (x : Num) (d : Int) : F32 × BitVec 9 :=
  match x with
  | .fin neg m e =>
    let r := roundSig 24 m e
    let up := 24 - bitLen r.1
    let sig := ((r.1 * 2 ^ up : Nat) : Int) + d
    let p := packIeee 24 neg (rneShift sig.toNat (bitLen sig.toNat - 24)) (r.2 - up + (bitLen sig.toNat - 24 : Nat))
    (BitVec.ofNat 32 p.1, p.2)
  | y => toF32 y

/-- Units in the last place that an absolute error below 2^-22 allows a nonzero logarithm, less its own rounding. -/
def log2Slack (x : Num) : Nat :=
  match x with
  | .fin _ m e => 2 ^ (1 - leadExp m e).toNat - 1
  | _ => 0

def oneF32 : F32 := 0x3F800000
def infF32 (neg : Bool) : F32 := if neg then 0xFF800000 else 0x7F800000

/-- Whether a magnitude is a power of two. -/
def isPow2 (m : Nat) : Bool := decide (m = 2 ^ (bitLen m - 1))

/-- Compares a positive magnitude with an integer or power of two: m × 2^e < n × 2^k. -/
def magBelow (m : Nat) (e : Int) (n : Nat) (k : Int) : Bool := Num.below (.fin false m e) (.fin false n k)

/-- vexp2. -/
def sfuExp2 (x : F32) : F32 × BitVec 9 :=
  let (v, fl) := ofF32 x
  let r : F32 × BitVec 9 := match v with
    | .nan => (nanF32, 0)
    | .inf neg => (if neg then 0 else infF32 false, 0)
    | .fin neg m e =>
      if !neg && !(magBelow m e 1 7) then (infF32 false, fpFovf)
      else
        let y := exp2Num neg m e
        let whole := decide (m = 0) || decide (fixOf neg m e % 2 ^ fixP = 0)
        sfuPack y (if whole then 0 else clampErr 1 (Config.sfuError 0x08 x))
  (r.1, fl ||| r.2)

/-- vlog2. -/
def sfuLog2 (x : F32) : F32 × BitVec 9 :=
  let (v, fl) := ofF32 x
  let r : F32 × BitVec 9 := match v with
    | .nan => (nanF32, 0)
    | .inf neg => (if neg then nanF32 else infF32 false, 0)
    | .fin neg m e =>
      if m = 0 then (infF32 true, 0)
      else if neg then (nanF32, 0)
      else
        let y := log2Num m e
        if isPow2 m then toF32 y
        else
          let near := magBelow 1 (-1) m e && magBelow m e 1 1
          sfuPack y (clampErr (if near then log2Slack y else 2) (Config.sfuError 0x09 x))
  (r.1, fl ||| r.2)

/-- vrcp. -/
def sfuRcp (x : F32) : F32 × BitVec 9 :=
  let (v, fl) := ofF32 x
  let r : F32 × BitVec 9 := match v with
    | .nan => (nanF32, 0)
    | .inf neg => toF32 (.fin neg 0 0)
    | .fin neg m e =>
      if m = 0 then (infF32 neg, 0)
      else sfuPack (rcpNum neg m e) (if isPow2 m then 0 else clampErr 1 (Config.sfuError 0x0A x))
  (r.1, fl ||| r.2)

/-- vrsqrt. -/
def sfuRsqrt (x : F32) : F32 × BitVec 9 :=
  let (v, fl) := ofF32 x
  let r : F32 × BitVec 9 := match v with
    | .nan => (nanF32, 0)
    | .inf neg => (if neg then nanF32 else 0, 0)
    | .fin neg m e =>
      if m = 0 then (infF32 neg, 0)
      else if neg then (nanF32, 0)
      else sfuPack (rsqrtNum m e)
        (if isPow2 m ∧ leadExp m e % 2 = 0 then 0 else clampErr 2 (Config.sfuError 0x0B x))
  (r.1, fl ||| r.2)

/-- vtanh. -/
def sfuTanh (x : F32) : F32 × BitVec 9 :=
  let (v, fl) := ofF32 x
  let one (neg : Bool) : F32 × BitVec 9 := toF32 (.fin neg 1 0)
  let r : F32 × BitVec 9 := match v with
    | .nan => (nanF32, 0)
    | .inf neg => one neg
    | .fin neg m e =>
      if m = 0 ∨ magBelow m e 1 (-12) then toF32 v
      else if !(magBelow m e 9 0) then one neg
      else sfuPack (tanhNum neg m e) (clampErr 3 (Config.sfuError 0x0C x))
  (r.1, fl ||| r.2)

/-- vsigm. Below −87 the table bounds nothing: the error is free (log 7) as far as the result is not below 2^-126, which makes it zero with FTZ. -/
def sfuSigm (x : F32) : F32 × BitVec 9 :=
  let (v, fl) := ofF32 x
  let r : F32 × BitVec 9 := match v with
    | .nan => (nanF32, 0)
    | .inf neg => (if neg then 0 else oneF32, 0)
    | .fin neg m e =>
      if !neg && !(magBelow m e 17 0) then (oneF32, 0)
      else
        let d := Config.sfuError 0x0D x
        let y := sigmNum neg m e
        sfuPack y (if (toF32 y).1 = 0 then 0 else if neg && magBelow 87 0 m e then max (1 - 2 ^ 23) d else clampErr 3 d)
  (r.1, fl ||| r.2)

end Sys2Proof.Machine
end

