-- ==== Sys2Proof/Machine/Vector.lean ====
section
/-! DEFINITION. The vector unit (R165 to R181): lanes and predication, arithmetic, compares, fixed point, reductions, the online-softmax step,
conversions, vld and vst. -/

namespace Sys2Proof.Machine

/-! ### Lanes (R165, R166) -/

/-- Bits of a lane for an FMT code: the container of the wide formats. -/
def laneBits (fmt : BitVec 4) : Nat :=
  if fmt = 1 ∨ fmt = 2 then 16 else if fmt = 5 then 64 else 32

def laneCount (fmt : BitVec 4) : Nat := 1024 / laneBits fmt

/-- Lane `l` of width `w`. -/
def laneOf (v : Vec) (w l : Nat) : Nat := v.toNat / 2 ^ (w * l) % 2 ^ w

/-- A register from its lanes. -/
def vecOf (w : Nat) (xs : List Nat) : Vec := BitVec.ofNat 1024 (packElems w xs)

def Thread.active (h : Thread) (f : VecF) (l : Nat) : Bool := (h.pred f.pred).getLsbD l

/-- A destination under predication: active lanes take the new value, the others keep theirs or become zero. -/
def Thread.putLanes (h : Thread) (f : VecF) (w : Nat) (new : List Nat) : Thread :=
  let old := h.vec f.vd
  h.setVec f.vd (vecOf w (new.zipIdx.map (fun p => if h.active f p.2 then p.1 else if f.zm then 0 else laneOf old w p.2)))

/-- The flags of the active lanes. -/
def Thread.laneFlags (h : Thread) (f : VecF) (fs : List (BitVec 9)) : BitVec 9 :=
  fs.zipIdx.foldl (fun a p => if h.active f p.2 then a ||| p.1 else a) 0

/-- The number in a floating-point lane, with IDZ. -/
def laneNum (fmt : BitVec 4) (x : Nat) : Num × BitVec 9 := if fmt = 1 then ofBf16 (BitVec.ofNat 16 x) else ofF32 (BitVec.ofNat 32 x)

/-- Rounds an exact result to a lane (R136, R172). -/
def laneRound (fmt : BitVec 4) (x : Num) : Nat × BitVec 9 := roundNum (if fmt = 1 then 8 else 24) x

/-! ### Issue -/

def fmtFloat (f : VecF) : Bool := decide (f.fmt = 0 ∨ f.fmt = 1)
def fmtNarrow (f : VecF) : Bool := decide (f.fmt = 2 ∨ f.fmt = 3)
def fmtAny (f : VecF) : Bool := decide (f.fmt.toNat ≤ 3)
def fmtWide (f : VecF) : Bool := decide (f.fmt = 4 ∨ f.fmt = 5)
def evenReg (r : BitVec 5) : Bool := !(r.getLsbD 0)

/-- A vector instruction: 0x01 for an encoding R167, R168 or R174 refuses, else its effect on the thread; `fp` says whether the duplicated
sign and exponent cover it (R438). DESIGN CHOICE (log 65): its flags stand in THR_FPSTAT at once, so that a csr.r without a sync.e before it sees those of
every older vector instruction (R140). -/
def vecOp (i : Iss) (opc : Nat) (fp ok : Bool) (body : Thread → Thread) (s : State) : Host.Outcome State Fault Refusal :=
  issue i opc true { residue := fp } (fun s => if ok then .done (s.modThread i.who body) else .trap s (illegal opc)) s

/-- A lane operation on up to three floating-point sources, rounded once. -/
def vecFloat (i : Iss) (f : VecF) (op : Num → Num → Num → Num) (two three : Bool) (s : State) : Host.Outcome State Fault Refusal :=
  vecOp i 0x38 true (fmtFloat f && decide (f.imm = 0)) (fun h =>
    let w := laneBits f.fmt
    let rs := (List.range (laneCount f.fmt)).map (fun l =>
      let a := laneNum f.fmt (laneOf (h.vec f.vs1) w l)
      let b := laneNum f.fmt (laneOf (h.vec f.vs2) w l)
      let c := laneNum f.fmt (laneOf (h.vec f.vs3) w l)
      let r := laneRound f.fmt (op a.1 b.1 c.1)
      (r.1, r.2 ||| a.2 ||| (if two then b.2 else 0) ||| (if three then c.2 else 0)))
    (h.putLanes f w (rs.map (fun r => r.1))).fpFlag (h.laneFlags f (rs.map (fun r => r.2)))) s

/-- VADD, R172. -/
def execVadd (i : Iss) (f : VecF) (s : State) : Host.Outcome State Fault Refusal := vecFloat i f (fun a b _ => a.add b) true false s

/-- VSUB, R172. -/
def execVsub (i : Iss) (f : VecF) (s : State) : Host.Outcome State Fault Refusal := vecFloat i f (fun a b _ => a.add b.neg) true false s

/-- VMUL, R172. -/
def execVmul (i : Iss) (f : VecF) (s : State) : Host.Outcome State Fault Refusal := vecFloat i f (fun a b _ => a.mul b) true false s

/-- VFMA, R172. -/
def execVfma (i : Iss) (f : VecF) (s : State) : Host.Outcome State Fault Refusal := vecFloat i f (fun a b c => (a.mul b).add c) true true s

/-- A lane operation on two sources of any of the four narrow formats. -/
def vecOrder (i : Iss) (f : VecF) (op : Num → Num → Num) (q : Int → Int → Int) (s : State) : Host.Outcome State Fault Refusal :=
  if fmtNarrow f then
    vecOp i 0x38 false (decide (f.imm = 0)) (fun h =>
      let w := laneBits f.fmt
      h.putLanes f w ((List.range (laneCount f.fmt)).map (fun l =>
        let r := q (signedOf w (laneOf (h.vec f.vs1) w l)) (signedOf w (laneOf (h.vec f.vs2) w l))
        (r % 2 ^ w).toNat))) s
  else vecFloat i f (fun a b _ => op a b) true false s

/-- VMAX, R135. -/
def execVmax (i : Iss) (f : VecF) (s : State) : Host.Outcome State Fault Refusal := vecOrder i f Num.max (fun a b => max a b) s

/-- VMIN, R135. -/
def execVmin (i : Iss) (f : VecF) (s : State) : Host.Outcome State Fault Refusal := vecOrder i f Num.min (fun a b => min a b) s

/-- An operation on the bits of floating-point lanes. DESIGN CHOICE (log 64): a subnormal lane keeps its fraction and sets no IDZ, as R168 has these
operations touch the sign bit alone, although R116 reads a subnormal input as zero. -/
def vecBits (i : Iss) (f : VecF) (op : Nat → Nat → Nat) (s : State) : Host.Outcome State Fault Refusal :=
  vecOp i 0x38 true (fmtFloat f && decide (f.imm = 0)) (fun h =>
    let w := laneBits f.fmt
    h.putLanes f w ((List.range (laneCount f.fmt)).map (fun l => op w (laneOf (h.vec f.vs1) w l)))) s

/-- VABS, R168: the sign bit only. -/
def execVabs (i : Iss) (f : VecF) (s : State) : Host.Outcome State Fault Refusal := vecBits i f (fun w x => x % 2 ^ (w - 1)) s

/-- VNEG, R168: the sign bit only. -/
def execVneg (i : Iss) (f : VecF) (s : State) : Host.Outcome State Fault Refusal := vecBits i f (fun w x => (x + 2 ^ (w - 1)) % 2 ^ w) s

/-! ### Compares, broadcast, extract (R168) -/

/-- A compare into a predicate p1 to p7. -/
def vecCmp (i : Iss) (f : VecF) (op : Num → Num → Bool) (q : Int → Int → Bool) (s : State) : Host.Outcome State Fault Refusal :=
  vecOp i 0x38 (fmtFloat f) (fmtAny f && decide (f.imm = 0 ∧ f.vd.toNat < 8 ∧ f.vd ≠ 0)) (fun h =>
    let w := laneBits f.fmt
    let p : BitVec 3 := f.vd.extractLsb' 0 3
    let old := h.pred p
    let rs := (List.range (laneCount f.fmt)).map (fun l =>
      let x := laneOf (h.vec f.vs1) w l
      let y := laneOf (h.vec f.vs2) w l
      if fmtNarrow f then (q (signedOf w x) (signedOf w y), (0 : BitVec 9))
      else
        let a := laneNum f.fmt x
        let b := laneNum f.fmt y
        (op a.1 b.1, a.2 ||| b.2))
    let bits := rs.zipIdx.map (fun r => b2n (if h.active f r.2 then r.1.1 else !f.zm && old.getLsbD r.2))
    (h.setPred p (BitVec.ofNat 64 (packElems 1 bits))).fpFlag (h.laneFlags f (rs.map (fun r => r.2)))) s

/-- VCMP_EQ, R168. -/
def execVcmpEq (i : Iss) (f : VecF) (s : State) : Host.Outcome State Fault Refusal := vecCmp i f Num.same (fun a b => decide (a = b)) s

/-- Less than, as numbers: the zeros are equal. -/
def Num.less (x y : Num) : Bool := x.below y && !(x.same y)

/-- VCMP_LT, R168. -/
def execVcmpLt (i : Iss) (f : VecF) (s : State) : Host.Outcome State Fault Refusal := vecCmp i f Num.less (fun a b => decide (a < b)) s

/-- VCMP_LE, R168. -/
def execVcmpLe (i : Iss) (f : VecF) (s : State) : Host.Outcome State Fault Refusal :=
  vecCmp i f (fun a b => a.less b || a.same b) (fun a b => decide (a ≤ b)) s

/-- VBCAST, R168. -/
def execVbcast (i : Iss) (f : VecF) (s : State) : Host.Outcome State Fault Refusal :=
  vecOp i 0x38 false (fmtAny f && decide (f.imm = 0)) (fun h =>
    let w := laneBits f.fmt
    h.putLanes f w (List.replicate (laneCount f.fmt) ((h.reg f.gs).toNat % 2 ^ w))) s

/-- VEXT, R168: into the scalar destination gd. -/
def execVext (i : Iss) (f : VecF) (s : State) : Host.Outcome State Fault Refusal :=
  let l := (f.imm.extractLsb' 0 6).toNat
  vecOp i 0x38 false (fmtAny f && decide (f.imm.toNat < 64 ∧ l < laneCount f.fmt)) (fun h =>
    h.setReg f.vs3 (BitVec.ofNat 64 (laneOf (h.vec f.vs1) (laneBits f.fmt) l))) s

/-! ### Fixed point (R175, R176) -/

/-- A narrow fixed-point lane operation, as the scalar one of R71. -/
def vecQ (i : Iss) (f : VecF) (op : Nat → Int → Int → Int) (s : State) : Host.Outcome State Fault Refusal :=
  vecOp i 0x38 false (fmtNarrow f && decide (f.imm = 0)) (fun h =>
    let w := laneBits f.fmt
    let rs := (List.range (laneCount f.fmt)).map (fun l =>
      fitSigned f.sat w (op w (signedOf w (laneOf (h.vec f.vs1) w l)) (signedOf w (laneOf (h.vec f.vs2) w l))))
    let fs := (rs.zipIdx.filter (fun r => h.active f r.2)).map (fun r => r.1.2)
    (h.putLanes f w (rs.map (fun r => (r.1 % 2 ^ w).toNat))).fxFlags fs) s

/-- VQ_ADD, R168. -/
def execVqAdd (i : Iss) (f : VecF) (s : State) : Host.Outcome State Fault Refusal := vecQ i f (fun _ a b => a + b) s

/-- VQ_SUB, R168. -/
def execVqSub (i : Iss) (f : VecF) (s : State) : Host.Outcome State Fault Refusal := vecQ i f (fun _ a b => a - b) s

/-- VQ_MUL, R168. -/
def execVqMul (i : Iss) (f : VecF) (s : State) : Host.Outcome State Fault Refusal :=
  vecQ i f (fun w a b => roundShift f.rnd (a * b) (w - 1)) s

/-- Widths of a wide format (R175): narrow lane, wide lane, container. -/
def wideOf (fmt : BitVec 4) : Nat × Nat × Nat := if fmt = 4 then (16, 24, 32) else (32, 40, 64)

/-- Lane `l` of the pair that starts at a register. -/
def Thread.wideLane (h : Thread) (fmt : BitVec 4) (r : BitVec 5) (l : Nat) : Int :=
  let (_, w, c) := wideOf fmt
  let n := 1024 / c
  signedOf w (if l < n then laneOf (h.vec r) c l else laneOf (h.vec (r + 1)) c (l - n))

/-- Writes the lanes of a pair under predication. -/
def Thread.putWide (h : Thread) (f : VecF) (new : List Int) : Thread :=
  let (_, _, c) := wideOf f.fmt
  let n := 1024 / c
  let xs := new.zipIdx.map (fun p =>
    let v : Int := if h.active f p.2 then p.1 else if f.zm then 0 else h.wideLane f.fmt f.vd p.2
    (v % 2 ^ c).toNat)
  (h.setVec f.vd (vecOf c (xs.take n))).setVec (f.vd + 1) (vecOf c (xs.drop n))

/-- VQ_MAC, R175. -/
def execVqMac (i : Iss) (f : VecF) (s : State) : Host.Outcome State Fault Refusal :=
  vecOp i 0x38 false (fmtWide f && evenReg f.vd && decide (f.imm = 0)) (fun h =>
    let (b, w, _) := wideOf f.fmt
    let rs := (List.range (1024 / b)).map (fun l =>
      let p := roundShift f.rnd (signedOf b (laneOf (h.vec f.vs1) b l) * signedOf b (laneOf (h.vec f.vs2) b l)) (b - 1)
      fitSigned f.sat w (h.wideLane f.fmt f.vd l + p))
    let fs := (rs.zipIdx.filter (fun r => h.active f r.2)).map (fun r => r.1.2)
    (h.putWide f (rs.map (fun r => r.1))).fxFlags fs) s

/-- VQ_EXT, R175. -/
def execVqExt (i : Iss) (f : VecF) (s : State) : Host.Outcome State Fault Refusal :=
  vecOp i 0x38 false (fmtWide f && evenReg f.vs1 && decide (f.imm = 0)) (fun h =>
    let (b, _, _) := wideOf f.fmt
    let rs := (List.range (1024 / b)).map (fun l => fitSigned f.sat b (h.wideLane f.fmt f.vs1 l))
    let fs := (rs.zipIdx.filter (fun r => h.active f r.2)).map (fun r => r.1.2)
    (h.putLanes f b (rs.map (fun r => (r.1 % 2 ^ b).toNat))).fxFlags fs) s

/-- VQ_CLR, R175. -/
def execVqClr (i : Iss) (f : VecF) (s : State) : Host.Outcome State Fault Refusal :=
  vecOp i 0x38 false (fmtWide f && evenReg f.vd && decide (f.imm = 0)) (fun h =>
    h.putWide f (List.replicate (1024 / (wideOf f.fmt).1) 0)) s

/-! ### Reductions (R178, R179) -/

/-- A value and the flags it brought. -/
abbrev Flagged := Num × BitVec 9

/-- One level of the pairwise tree: a missing lane is skipped. -/
def treeLevel (op : Num → Num → Flagged) : List (Option Flagged) → List (Option Flagged)
  | a :: b :: xs =>
    (match a, b with
     | some x, some y => let r := op x.1 y.1; some (r.1, x.2 ||| y.2 ||| r.2)
     | some x, Option.none => some x
     | Option.none, y => y) :: treeLevel op xs
  | xs => xs

/-- The fixed pairwise tree over up to 2^n lanes. -/
def treeReduce (op : Num → Num → Flagged) : Nat → List (Option Flagged) → Option Flagged
  | 0, xs => xs.headD Option.none
  | n + 1, xs => treeReduce op n (treeLevel op xs)

/-- A rounded sum of two lanes. -/
def sumRound (fmt : BitVec 4) (x y : Num) : Flagged :=
  let r := laneRound fmt (x.add y)
  ((laneNum fmt r.1).1, r.2)

/-- A reduction of the active lanes into lane 0 and gd. -/
def vecRed (i : Iss) (f : VecF) (op : Num → Num → Flagged) (empty : Num) (s : State) : Host.Outcome State Fault Refusal :=
  vecOp i 0x38 true (fmtFloat f && decide (f.imm = 0)) (fun h =>
    let w := laneBits f.fmt
    let xs := (List.range (laneCount f.fmt)).map (fun l =>
      if h.active f l then some (laneNum f.fmt (laneOf (h.vec f.vs1) w l)) else Option.none)
    let r := (treeReduce op 6 xs).getD (empty, 0)
    let bits := (laneRound f.fmt r.1).1
    let g := if f.fmt = 1 then bits * 65536 else bits
    ((h.setVec f.vd (BitVec.ofNat 1024 bits)).setReg f.vs3 (BitVec.ofNat 64 g)).fpFlag r.2) s

/-- VRED_SUM, R178. -/
def execVredSum (i : Iss) (f : VecF) (s : State) : Host.Outcome State Fault Refusal :=
  vecRed i f (sumRound f.fmt) (.fin false 0 0) s

/-- VRED_MAX, R178. -/
def execVredMax (i : Iss) (f : VecF) (s : State) : Host.Outcome State Fault Refusal :=
  vecRed i f (fun x y => (x.max y, 0)) (.inf true) s

/-- VRED_MIN, R178. -/
def execVredMin (i : Iss) (f : VecF) (s : State) : Host.Outcome State Fault Refusal :=
  vecRed i f (fun x y => (x.min y, 0)) (.inf false) s

/-! ### The online-softmax step (R180, R181) -/

/-- What vsmx computes: the lanes p, the new maximum, the new sum, the factor, the flags. -/
structure Softmax where
  p  : List F32
  m  : F32
  l  : F32
  c  : F32
  fl : BitVec 9
  deriving DecidableEq, Repr

/-- Rounds to FP32 and reads the result back, with the flags of the rounding. -/
def roundBack (x : Num) : F32 × Num × BitVec 9 := let r := toF32 x; (r.1, (ofF32 r.1).1, r.2)

/-- The step over the active scores (absent lanes are inactive). -/
def softmax (scores : List (Option F32)) (factor m l : F32) : Softmax :=
  let s := ofF32 factor
  let ts := scores.map (fun x => x.map (fun x =>
    let a := ofF32 x
    let r := roundBack (s.1.mul a.1)
    (r.2.1, a.2 ||| r.2.2)))
  let m0 := ofF32 m
  let m1 := ts.foldl (fun a t => match t with | some t => a.max t.1 | Option.none => a) m0.1
  let fl0 := ts.foldl (fun a t => match t with | some t => a ||| t.2 | Option.none => a) (s.2 ||| m0.2)
  let mBits := (toF32 m1).1
  match m1 with
  | .inf true => { p := scores.map (fun _ => 0), m := mBits, l := l, c := oneF32, fl := fl0 }
  | .inf false =>
    { p := scores.map (fun x => if x.isSome then nanF32 else 0), m := mBits, l := nanF32, c := nanF32, fl := fl0 }
  | _ =>
    let e2 (x : Num) : F32 × BitVec 9 :=
      let d := toF32 (x.add m1.neg)
      let r := sfuExp2 d.1
      (r.1, d.2 ||| r.2)
    let ps := ts.map (fun t => t.map (fun t => e2 t.1))
    let c := e2 m0.1
    let sum := (treeReduce (sumRound 0) 5 (ps.map (fun p => p.map (fun p => ofF32 p.1)))).getD (.fin false 0 0, 0)
    let l0 := ofF32 l
    let r := toF32 ((l0.1.mul (ofF32 c.1).1).add sum.1)
    let fl1 := ps.foldl (fun a p => match p with | some p => a ||| p.2 | Option.none => a) fl0
    { p := ps.map (fun p => match p with | some p => p.1 | Option.none => 0), m := mBits, l := r.1, c := c.1,
      fl := fl1 ||| c.2 ||| sum.2 ||| l0.2 ||| r.2 }

/-- Replaces a 32-bit lane. -/
def putLane32 (v : Vec) (l : Nat) (x : F32) : Vec :=
  vecOf 32 ((List.range 32).map (fun k => if k = l then x.toNat else laneOf v 32 k))

/-- VSMX, R180. -/
def execVsmx (i : Iss) (f : VecF) (s : State) : Host.Outcome State Fault Refusal :=
  vecOp i 0x38 true (decide (f.fmt = 0 ∧ f.imm.toNat < 16)) (fun h =>
    let r := 2 * f.imm.toNat
    let st := h.vec f.vs2
    let scores := (List.range 32).map (fun l =>
      if h.active f l then some (BitVec.ofNat 32 (laneOf (h.vec f.vs1) 32 l)) else Option.none)
    let x := softmax scores ((h.reg f.gs).extractLsb' 0 32) (BitVec.ofNat 32 (laneOf st 32 r)) (BitVec.ofNat 32 (laneOf st 32 (r + 1)))
    let h := h.setVec f.vd (vecOf 32 (x.p.map BitVec.toNat))
    let h := h.setVec f.vs2 (putLane32 (putLane32 (h.vec f.vs2) r x.m) (r + 1) x.l)
    (h.setReg f.vs3 (x.c.zeroExtend 64)).fpFlag x.fl) s

/-! ### Special functions and conversions (R174, R177) -/

/-- A special function of each lane. -/
def vecSfu (i : Iss) (f : VecF) (fn : F32 → F32 × BitVec 9) (s : State) : Host.Outcome State Fault Refusal :=
  vecOp i 0x39 true (decide (f.fmt = 0 ∧ f.imm = 0)) (fun h =>
    let rs := (List.range 32).map (fun l => fn (BitVec.ofNat 32 (laneOf (h.vec f.vs1) 32 l)))
    (h.putLanes f 32 (rs.map (fun r => r.1.toNat))).fpFlag (h.laneFlags f (rs.map (fun r => r.2)))) s

/-- VEXP2, R177. -/
def execVexp2 (i : Iss) (f : VecF) (s : State) : Host.Outcome State Fault Refusal := vecSfu i f sfuExp2 s

/-- VLOG2, R177. -/
def execVlog2 (i : Iss) (f : VecF) (s : State) : Host.Outcome State Fault Refusal := vecSfu i f sfuLog2 s

/-- VRCP, R177. -/
def execVrcp (i : Iss) (f : VecF) (s : State) : Host.Outcome State Fault Refusal := vecSfu i f sfuRcp s

/-- VRSQRT, R177. -/
def execVrsqrt (i : Iss) (f : VecF) (s : State) : Host.Outcome State Fault Refusal := vecSfu i f sfuRsqrt s

/-- VTANH, R177. -/
def execVtanh (i : Iss) (f : VecF) (s : State) : Host.Outcome State Fault Refusal := vecSfu i f sfuTanh s

/-- VSIGM, R177. -/
def execVsigm (i : Iss) (f : VecF) (s : State) : Host.Outcome State Fault Refusal := vecSfu i f sfuSigm s

/-- VCVT, R174: the target code must be that of the other format; only BF16 → FP32 has a half select. -/
def execVcvt (i : Iss) (f : VecF) (s : State) : Host.Outcome State Fault Refusal :=
  let ok := (decide (f.fmt = 0) && decide (f.imm = 0)) || (decide (f.fmt = 1) && decide (f.imm = 0x7000 ∨ f.imm = 0x7001))
  vecOp i 0x39 true ok (fun h =>
    if f.fmt = 0 then
      let rs := (List.range 64).map (fun l =>
        let x := ofF32 (BitVec.ofNat 32 (if l < 32 then laneOf (h.vec f.vs1) 32 l else laneOf (h.vec f.vs2) 32 (l - 32)))
        let r := roundNum 8 x.1
        (r.1, x.2 ||| r.2))
      (h.putLanes f 16 (rs.map (fun r => r.1))).fpFlag (h.laneFlags f (rs.map (fun r => r.2)))
    else
      let rs := (List.range 32).map (fun l =>
        let x := ofBf16 (BitVec.ofNat 16 (laneOf (h.vec f.vs1) 16 (32 * (f.imm.toNat % 2) + l)))
        let r := roundNum 24 x.1
        (r.1, x.2 ||| r.2))
      (h.putLanes f 32 (rs.map (fun r => r.1))).fpFlag (h.laneFlags f (rs.map (fun r => r.2)))) s

/-- VQUANT, R174: one block of 32 lanes into a scaled format; inactive lanes enter as +0. -/
def execVquant (i : Iss) (f : VecF) (s : State) : Host.Outcome State Fault Refusal :=
  let code : BitVec 4 := f.imm.extractLsb' 12 4
  vecOp i 0x39 true (decide (f.fmt = 0 ∧ f.imm.toNat % 4096 = 0 ∧ 1 ≤ code.toNat ∧ code.toNat ≤ 6)) (fun h =>
    let xs := (List.range 32).map (fun l =>
      if h.active f l then ofF32 (BitVec.ofNat 32 (laneOf (h.vec f.vs1) 32 l)) else (.fin false 0 0, 0))
    let (es, sc, fl) := quantise code f.sat (xs.map (fun x => x.1))
    let w := match fmtInfo code with | some y => y.width | Option.none => 8
    let h := h.setVec f.vd (vecOf w es)
    (h.setReg f.vs3 (BitVec.ofNat 64 sc)).fpFlag (xs.foldl (fun a x => a ||| x.2) fl)) s

/-! ### vld and vst (R173) -/

/-- G and POST. -/
def vmemG (f : VecF) : Bool := f.vs2.getLsbD 0
def vmemPost (f : VecF) : Bool := f.vs2.getLsbD 1

/-- Whether a vld or vst encoding is legal: FMT listed, VS1 and bits 9:7 zero. -/
def vmemOk (f : VecF) : Bool := decide (f.fmt.toNat ≤ 5 ∧ f.vs1 = 0 ∧ f.vs2.extractLsb' 2 3 = 0)

/-- The address, and the base register's new value with POST. -/
def vmemAddr (h : Thread) (f : VecF) : Word × Option Word :=
  let step := h.reg f.gs + f.imm.signExtend 64 * 128
  if vmemPost f then (h.reg f.gs, some step) else (step, Option.none)

/-- The bits of the active lanes; with a wide FMT a lane is a container of the one register moved. -/
def Thread.laneMask (h : Thread) (f : VecF) : Vec :=
  let w := laneBits f.fmt
  vecOf w ((List.range (laneCount f.fmt)).map (fun l => if h.active f l then 2 ^ w - 1 else 0))

/-- Asks for the pieces of a vld, cut at lines. -/
def State.askVec (s : State) (w : Who) (l : Loc) (page : Option Nat) : List (Word × Nat) → Nat → List LoadPart → List LoadPart × State
  | [], _, acc => (acc, s)
  | (a, n) :: ps, off, acc =>
    let piece : Loc := match l with
      | .ls c o => .ls c (o + off)
      | .ctl c o => .ctl c (o + off)
      | .loft d o => .loft d (o + off)
      | .hbm d o => .hbm d (o + off)
      | .ddr d o => .ddr d (o + off)
      | .remote m b => .remote m (b + BitVec.ofNat 64 off)
    let (p, s) := s.startRead w piece n a page Option.none 0 n Option.none
    State.askVec s w l page ps (off + n) (acc ++ [p])

/-- VLD, R173. -/
def execVld (i : Iss) (f : VecF) (s : State) : Host.Outcome State Fault Refusal :=
  issue i 0x39 true { mem := true, load := true, needs := [f.gs], residue := true } (fun s =>
    let w := i.who
    let h := s.thread w
    let (a, upd) := vmemAddr h f
    if !(vmemOk f) then .trap s (illegal 0x39)
    else
      match s.watchpoint w (vmemG f) a 128 true false with
      | some (k, act) => matched s (4 + k) act
      | Option.none =>
        if a.toNat % 128 ≠ 0 then .trap s (misaligned 128 a)
        else
          match s.place w (vmemG f) .read false a 128 with
          | .bad t => .trap s t
          | .miss page => .wait (s.missHold w { page, long := true, tval := a })
          | .at_ l page =>
            let pieces := match l with
              | .loft _ _ => linePieces 3 a 128
              | _ => [(a, 128)]
            let (ps, s) := s.askVec w l page pieces 0 []
            .sent (s.pushLoad w { pc := h.pc, long := true, kind := .vector f.vd (h.laneMask f) f.zm, parts := ps,
                                  upd := upd.map (fun v => (f.gs, v)) })) s

/-- VST, R173: active lanes only. -/
def execVst (i : Iss) (f : VecF) (s : State) : Host.Outcome State Fault Refusal :=
  issue i 0x39 true { mem := true, residue := true } (fun s =>
    let w := i.who
    let h := s.thread w
    let (a, upd) := vmemAddr h f
    if !(vmemOk f) then .trap s (illegal 0x39)
    else
      match s.watchpoint w (vmemG f) a 128 false true with
      | some (k, act) => matched s (4 + k) act
      | Option.none =>
        if a.toNat % 128 ≠ 0 then .trap s (misaligned 128 a)
        else
          match s.place w (vmemG f) .write false a 128 with
          | .bad t => .trap s t
          | .miss page => .wait (s.missHold w { page, write := true, long := true, tval := a })
          | .at_ l page =>
            let bytes := toBytes (h.vec f.vd).toNat 128
            let mask := toBytes (h.laneMask f).toNat 128
            let bs := (bytes.zip mask).map (fun p => if p.2 = 0 then Option.none else some p.1)
            let s := if bs.all Option.isNone then s else s.store w l page bs
            .done (s.modThread w (fun h => match upd with | some v => h.setReg f.gs v | Option.none => h))) s

end Sys2Proof.Machine
end

