-- ==== Sys2Proof/Machine/Dispatch.lean ====
section
/-! DEFINITION. One arm for each command: the meaning it calls. -/

namespace Sys2Proof.Machine

def exec (i : Instr) (s : State) : Host.Outcome State Fault Refusal :=
  match i with
  | .coreStart v c addr => Sys2Proof.Machine.execCoreStart v c addr s
  | .fork is rd rs1 rs2 => Sys2Proof.Machine.execFork is rd rs1 rs2 s
  | .join is rd rs1 => Sys2Proof.Machine.execJoin is rd rs1 s
  | .endThread is rs1 => Sys2Proof.Machine.execEndThread is rs1 s
  | .nop is => Sys2Proof.Machine.execNop is s
  | .tret is found => Sys2Proof.Machine.execTret is found s
  | .brk is => Sys2Proof.Machine.execBrk is s
  | .syncE is mask => Sys2Proof.Machine.execSyncE is mask s
  | .fenceT is => Sys2Proof.Machine.execFenceT is s
  | .fenceR is => Sys2Proof.Machine.execFenceR is s
  | .fenceD is => Sys2Proof.Machine.execFenceD is s
  | .fenceM is => Sys2Proof.Machine.execFenceM is s
  | .fenceS is => Sys2Proof.Machine.execFenceS is s
  | .cacheInv is rs1 rs2 => Sys2Proof.Machine.execCacheInv is rs1 rs2 s
  | .cacheInvall is => Sys2Proof.Machine.execCacheInvall is s
  | .cacheIinv is => Sys2Proof.Machine.execCacheIinv is s
  | .addR is rd rs1 rs2 => Sys2Proof.Machine.execAddR is rd rs1 rs2 s
  | .subR is rd rs1 rs2 => Sys2Proof.Machine.execSubR is rd rs1 rs2 s
  | .andR is rd rs1 rs2 => Sys2Proof.Machine.execAndR is rd rs1 rs2 s
  | .orR is rd rs1 rs2 => Sys2Proof.Machine.execOrR is rd rs1 rs2 s
  | .xorR is rd rs1 rs2 => Sys2Proof.Machine.execXorR is rd rs1 rs2 s
  | .shl is rd rs1 rs2 => Sys2Proof.Machine.execShl is rd rs1 rs2 s
  | .shr is rd rs1 rs2 => Sys2Proof.Machine.execShr is rd rs1 rs2 s
  | .sra is rd rs1 rs2 => Sys2Proof.Machine.execSra is rd rs1 rs2 s
  | .mulR is rd rs1 rs2 => Sys2Proof.Machine.execMulR is rd rs1 rs2 s
  | .mulh is rd rs1 rs2 => Sys2Proof.Machine.execMulh is rd rs1 rs2 s
  | .mulhu is rd rs1 rs2 => Sys2Proof.Machine.execMulhu is rd rs1 rs2 s
  | .divR is rd rs1 rs2 => Sys2Proof.Machine.execDivR is rd rs1 rs2 s
  | .divu is rd rs1 rs2 => Sys2Proof.Machine.execDivu is rd rs1 rs2 s
  | .remR is rd rs1 rs2 => Sys2Proof.Machine.execRemR is rd rs1 rs2 s
  | .remu is rd rs1 rs2 => Sys2Proof.Machine.execRemu is rd rs1 rs2 s
  | .minR is rd rs1 rs2 => Sys2Proof.Machine.execMinR is rd rs1 rs2 s
  | .maxR is rd rs1 rs2 => Sys2Proof.Machine.execMaxR is rd rs1 rs2 s
  | .qadd is rd rs1 rs2 a => Sys2Proof.Machine.execQadd is rd rs1 rs2 a s
  | .qsub is rd rs1 rs2 a => Sys2Proof.Machine.execQsub is rd rs1 rs2 a s
  | .qmul is rd rs1 rs2 a => Sys2Proof.Machine.execQmul is rd rs1 rs2 a s
  | .qmac is rs1 rs2 a => Sys2Proof.Machine.execQmac is rs1 rs2 a s
  | .qext is rd a => Sys2Proof.Machine.execQext is rd a s
  | .qclr is a => Sys2Proof.Machine.execQclr is a s
  | .gaLo is rd a => Sys2Proof.Machine.execGaLo is rd a s
  | .gaHi is rd a => Sys2Proof.Machine.execGaHi is rd a s
  | .gaWr is rs1 rs2 a => Sys2Proof.Machine.execGaWr is rs1 rs2 a s
  | .cmpEq is rd rs1 rs2 => Sys2Proof.Machine.execCmpEq is rd rs1 rs2 s
  | .cmpNe is rd rs1 rs2 => Sys2Proof.Machine.execCmpNe is rd rs1 rs2 s
  | .cmpLt is rd rs1 rs2 => Sys2Proof.Machine.execCmpLt is rd rs1 rs2 s
  | .cmpLtu is rd rs1 rs2 => Sys2Proof.Machine.execCmpLtu is rd rs1 rs2 s
  | .cmpGe is rd rs1 rs2 => Sys2Proof.Machine.execCmpGe is rd rs1 rs2 s
  | .cmpGeu is rd rs1 rs2 => Sys2Proof.Machine.execCmpGeu is rd rs1 rs2 s
  | .pand is rd ps1 ps2 => Sys2Proof.Machine.execPand is rd ps1 ps2 s
  | .por is rd ps1 ps2 => Sys2Proof.Machine.execPor is rd ps1 ps2 s
  | .pnot is rd ps1 => Sys2Proof.Machine.execPnot is rd ps1 s
  | .csrR is rd off => Sys2Proof.Machine.execCsrR is rd off s
  | .csrW is rs1 off => Sys2Proof.Machine.execCsrW is rs1 off s
  | .addi is rd rs1 imm => Sys2Proof.Machine.execAddi is rd rs1 imm s
  | .andi is rd rs1 imm => Sys2Proof.Machine.execAndi is rd rs1 imm s
  | .ori is rd rs1 imm => Sys2Proof.Machine.execOri is rd rs1 imm s
  | .xori is rd rs1 imm => Sys2Proof.Machine.execXori is rd rs1 imm s
  | .shli is rd rs1 imm => Sys2Proof.Machine.execShli is rd rs1 imm s
  | .lui is rd imm => Sys2Proof.Machine.execLui is rd imm s
  | .ldB is rd rb m => Sys2Proof.Machine.execLdB is rd rb m s
  | .ldBU is rd rb m => Sys2Proof.Machine.execLdBU is rd rb m s
  | .ldH is rd rb m => Sys2Proof.Machine.execLdH is rd rb m s
  | .ldHU is rd rb m => Sys2Proof.Machine.execLdHU is rd rb m s
  | .ldW is rd rb m => Sys2Proof.Machine.execLdW is rd rb m s
  | .ldWU is rd rb m => Sys2Proof.Machine.execLdWU is rd rb m s
  | .ldD is rd rb m => Sys2Proof.Machine.execLdD is rd rb m s
  | .stB is rd rb m => Sys2Proof.Machine.execStB is rd rb m s
  | .stH is rd rb m => Sys2Proof.Machine.execStH is rd rb m s
  | .stW is rd rb m => Sys2Proof.Machine.execStW is rd rb m s
  | .stD is rd rb m => Sys2Proof.Machine.execStD is rd rb m s
  | .tas is rd ra rs2 => Sys2Proof.Machine.execTas is rd ra rs2 s
  | .lrW is rd ra rs2 => Sys2Proof.Machine.execLrW is rd ra rs2 s
  | .lrD is rd ra rs2 => Sys2Proof.Machine.execLrD is rd ra rs2 s
  | .scW is rd ra rs2 => Sys2Proof.Machine.execScW is rd ra rs2 s
  | .scD is rd ra rs2 => Sys2Proof.Machine.execScD is rd ra rs2 s
  | .casD is rd ra rs2 => Sys2Proof.Machine.execCasD is rd ra rs2 s
  | .faddL is rd ra rs2 => Sys2Proof.Machine.execFaddL is rd ra rs2 s
  | .reservationTimeout w => Sys2Proof.Machine.execReservationTimeout w s
  | .bp is pred sense off predicted => Sys2Proof.Machine.execBp is pred sense off predicted s
  | .jal is rd off => Sys2Proof.Machine.execJal is rd off s
  | .jalr is rd rs1 => Sys2Proof.Machine.execJalr is rd rs1 s
  | .cacheFillReturn seq found => Sys2Proof.Machine.execCacheFillReturn seq found s
  | .tld is f => Sys2Proof.Machine.execTld is f s
  | .tldSc is f => Sys2Proof.Machine.execTldSc is f s
  | .tst is f => Sys2Proof.Machine.execTst is f s
  | .tstSc is f => Sys2Proof.Machine.execTstSc is f s
  | .trel is td => Sys2Proof.Machine.execTrel is td s
  | .tldDrop is => Sys2Proof.Machine.execTldDrop is s
  | .tldRowReturn seq u => Sys2Proof.Machine.execTldRowReturn seq u s
  | .mm is f => Sys2Proof.Machine.execMm is f s
  | .mmX2 is f => Sys2Proof.Machine.execMmX2 is f s
  | .mmX3 is f => Sys2Proof.Machine.execMmX3 is f s
  | .matrixQueueIssue c flip => Sys2Proof.Machine.execMatrixQueueIssue c flip s
  | .checkpoint c => Sys2Proof.Machine.execCheckpoint c s
  | .accSpill is acc rx keep => Sys2Proof.Machine.execAccSpill is acc rx keep s
  | .accFill is acc rx => Sys2Proof.Machine.execAccFill is acc rx s
  | .accSend is acc rx => Sys2Proof.Machine.execAccSend is acc rx s
  | .accChk is acc => Sys2Proof.Machine.execAccChk is acc s
  | .accRow is acc vd row => Sys2Proof.Machine.execAccRow is acc vd row s
  | .accRmax is acc vd => Sys2Proof.Machine.execAccRmax is acc vd s
  | .checkRetry c found => Sys2Proof.Machine.execCheckRetry c found s
  | .accSplitWrite v c val => Sys2Proof.Machine.execAccSplitWrite v c val s
  | .vadd is f => Sys2Proof.Machine.execVadd is f s
  | .vsub is f => Sys2Proof.Machine.execVsub is f s
  | .vmul is f => Sys2Proof.Machine.execVmul is f s
  | .vfma is f => Sys2Proof.Machine.execVfma is f s
  | .vmax is f => Sys2Proof.Machine.execVmax is f s
  | .vmin is f => Sys2Proof.Machine.execVmin is f s
  | .vabs is f => Sys2Proof.Machine.execVabs is f s
  | .vneg is f => Sys2Proof.Machine.execVneg is f s
  | .vcmpEq is f => Sys2Proof.Machine.execVcmpEq is f s
  | .vcmpLt is f => Sys2Proof.Machine.execVcmpLt is f s
  | .vcmpLe is f => Sys2Proof.Machine.execVcmpLe is f s
  | .vbcast is f => Sys2Proof.Machine.execVbcast is f s
  | .vext is f => Sys2Proof.Machine.execVext is f s
  | .vqAdd is f => Sys2Proof.Machine.execVqAdd is f s
  | .vqSub is f => Sys2Proof.Machine.execVqSub is f s
  | .vqMul is f => Sys2Proof.Machine.execVqMul is f s
  | .vqMac is f => Sys2Proof.Machine.execVqMac is f s
  | .vqExt is f => Sys2Proof.Machine.execVqExt is f s
  | .vqClr is f => Sys2Proof.Machine.execVqClr is f s
  | .vredSum is f => Sys2Proof.Machine.execVredSum is f s
  | .vredMax is f => Sys2Proof.Machine.execVredMax is f s
  | .vredMin is f => Sys2Proof.Machine.execVredMin is f s
  | .vsmx is f => Sys2Proof.Machine.execVsmx is f s
  | .vld is f => Sys2Proof.Machine.execVld is f s
  | .vst is f => Sys2Proof.Machine.execVst is f s
  | .vexp2 is f => Sys2Proof.Machine.execVexp2 is f s
  | .vlog2 is f => Sys2Proof.Machine.execVlog2 is f s
  | .vrcp is f => Sys2Proof.Machine.execVrcp is f s
  | .vrsqrt is f => Sys2Proof.Machine.execVrsqrt is f s
  | .vtanh is f => Sys2Proof.Machine.execVtanh is f s
  | .vsigm is f => Sys2Proof.Machine.execVsigm is f s
  | .vcvt is f => Sys2Proof.Machine.execVcvt is f s
  | .vquant is f => Sys2Proof.Machine.execVquant is f s
  | .sndQ is tmo lenm1 gd vr gs => Sys2Proof.Machine.execSndQ is tmo lenm1 gd vr gs s
  | .selQ is tmo mask rot gd vr => Sys2Proof.Machine.execSelQ is tmo mask rot gd vr s
  | .pollQ is q gd vr => Sys2Proof.Machine.execPollQ is q gd vr s
  | .messageCommit seq => Sys2Proof.Machine.execMessageCommit seq s
  | .sendAnswer seq => Sys2Proof.Machine.execSendAnswer seq s
  | .sendRetry seq => Sys2Proof.Machine.execSendRetry seq s
  | .sndTimeout w => Sys2Proof.Machine.execSndTimeout w s
  | .selWakeTake w u => Sys2Proof.Machine.execSelWakeTake w u s
  | .selTimeout w => Sys2Proof.Machine.execSelTimeout w s
  | .queOpen v c q => Sys2Proof.Machine.execQueOpen v c q s
  | .queClose v c q => Sys2Proof.Machine.execQueClose v c q s
  | .queReset v c q => Sys2Proof.Machine.execQueReset v c q s
  | .queConfigWrite v c q ctl val => Sys2Proof.Machine.execQueConfigWrite v c q ctl val s
  | .queDropRead v c q => Sys2Proof.Machine.execQueDropRead v c q s
  | .stnEntryWrite v c sn val => Sys2Proof.Machine.execStnEntryWrite v c sn val s
  | .stnLaneWrite v c n val => Sys2Proof.Machine.execStnLaneWrite v c n val s
  | .lsWindowWrite v c bound val => Sys2Proof.Machine.execLsWindowWrite v c bound val s
  | .feedEnable v c tt sn val => Sys2Proof.Machine.execFeedEnable v c tt sn val s
  | .feedDisable v c tt sn => Sys2Proof.Machine.execFeedDisable v c tt sn s
  | .outriderFill c tt sn => Sys2Proof.Machine.execOutriderFill c tt sn s
  | .outriderFillReturn c tt sn u => Sys2Proof.Machine.execOutriderFillReturn c tt sn u s
  | .feedRelayWrite v c tt sn val => Sys2Proof.Machine.execFeedRelayWrite v c tt sn val s
  | .relaySend c tt sn => Sys2Proof.Machine.execRelaySend c tt sn s
  | .relayTileArrival seq => Sys2Proof.Machine.execRelayTileArrival seq s
  | .lsPatrolScrub c u => Sys2Proof.Machine.execLsPatrolScrub c u s
  | .loftPatrolScrub d slice u => Sys2Proof.Machine.execLoftPatrolScrub d slice u s
  | .memPatrolScrub d ddr u => Sys2Proof.Machine.execMemPatrolScrub d ddr u s
  | .loftReadArrival seq => Sys2Proof.Machine.execLoftReadArrival seq s
  | .mergeEntryClose d line => Sys2Proof.Machine.execMergeEntryClose d line s
  | .writeArrival seq => Sys2Proof.Machine.execWriteArrival seq s
  | .writeAckArrival seq => Sys2Proof.Machine.execWriteAckArrival seq s
  | .dmaGo v c ch val => Sys2Proof.Machine.execDmaGo v c ch val s
  | .dmaChannelStart team granules => Sys2Proof.Machine.execDmaChannelStart team granules s
  | .dmaChannelDone team => Sys2Proof.Machine.execDmaChannelDone team s
  | .dmaBusError team u => Sys2Proof.Machine.execDmaBusError team u s
  | .dmaResume v c => Sys2Proof.Machine.execDmaResume v c s
  | .dmaSkip v c => Sys2Proof.Machine.execDmaSkip v c s
  | .dmaAbort v c => Sys2Proof.Machine.execDmaAbort v c s
  | .xlInvTeam v c val => Sys2Proof.Machine.execXlInvTeam v c val s
  | .xlInvModule v c val => Sys2Proof.Machine.execXlInvModule v c val s
  | .xlInvComplete c => Sys2Proof.Machine.execXlInvComplete c s
  | .xlPtRootWrite p val => Sys2Proof.Machine.execXlPtRootWrite p val s
  | .translationWalk w => Sys2Proof.Machine.execTranslationWalk w s
  | .walkComplete w => Sys2Proof.Machine.execWalkComplete w s
  | .busyRewalk w => Sys2Proof.Machine.execBusyRewalk w s
  | .busyLimit w => Sys2Proof.Machine.execBusyLimit w s
  | .hbArrive is rd rs1 => Sys2Proof.Machine.execHbArrive is rd rs1 s
  | .hbWait is rd rs1 rs2 => Sys2Proof.Machine.execHbWait is rd rs1 rs2 s
  | .hbReport d b remote => Sys2Proof.Machine.execHbReport d b remote s
  | .hbRelease d b => Sys2Proof.Machine.execHbRelease d b s
  | .hbTimeout d b => Sys2Proof.Machine.execHbTimeout d b s
  | .hbCfgWrite v c b val => Sys2Proof.Machine.execHbCfgWrite v c b val s
  | .hbSysWrite v c b val => Sys2Proof.Machine.execHbSysWrite v c b val s
  | .quiescent d b => Sys2Proof.Machine.execQuiescent d b s
  | .redArm v c x gen => Sys2Proof.Machine.execRedArm v c x gen s
  | .redDisarm v c x => Sys2Proof.Machine.execRedDisarm v c x s
  | .redTileArrival seq => Sys2Proof.Machine.execRedTileArrival seq s
  | .redCreditGrant seq => Sys2Proof.Machine.execRedCreditGrant seq s
  | .redAdd c x => Sys2Proof.Machine.execRedAdd c x s
  | .redForward c x => Sys2Proof.Machine.execRedForward c x s
  | .redDone c x => Sys2Proof.Machine.execRedDone c x s
  | .redDeadline c x => Sys2Proof.Machine.execRedDeadline c x s
  | .redLimitExpire c x => Sys2Proof.Machine.execRedLimitExpire c x s
  | .redCreditTimeout seq => Sys2Proof.Machine.execRedCreditTimeout seq s
  | .groupReceive p j g => Sys2Proof.Machine.execGroupReceive p j g s
  | .portDown p j => Sys2Proof.Machine.execPortDown p j s
  | .portRetrain p up mismatch => Sys2Proof.Machine.execPortRetrain p up mismatch s
  | .packetForward d k => Sys2Proof.Machine.execPacketForward d k s
  | .packetDeliver k => Sys2Proof.Machine.execPacketDeliver k s
  | .thaexAckArrival d m epoch upTo errors => Sys2Proof.Machine.execThaexAckArrival d m epoch upTo errors s
  | .readResponse seq trap data => Sys2Proof.Machine.execReadResponse seq trap data s
  | .probeSend d m => Sys2Proof.Machine.execProbeSend d m s
  | .probeReply d m last => Sys2Proof.Machine.execProbeReply d m last s
  | .peerUnreach m => Sys2Proof.Machine.execPeerUnreach m s
  | .unreachNotice m => Sys2Proof.Machine.execUnreachNotice m s
  | .timeSync upstream => Sys2Proof.Machine.execTimeSync upstream s
  | .timeSyncReply t1 t2 t3 t4 => Sys2Proof.Machine.execTimeSyncReply t1 t2 t3 t4 s
  | .fabricDiscovery nodes => Sys2Proof.Machine.execFabricDiscovery nodes s
  | .restRotate p => Sys2Proof.Machine.execRestRotate p s
  | .laneCalibrate p tx lane margin temp vals => Sys2Proof.Machine.execLaneCalibrate p tx lane margin temp vals s
  | .recalLimitExpire p lane => Sys2Proof.Machine.execRecalLimitExpire p lane s
  | .laneLoss p lane => Sys2Proof.Machine.execLaneLoss p lane s
  | .heaterTrack p tx lane code => Sys2Proof.Machine.execHeaterTrack p tx lane code s
  | .eyeSample p lane margin => Sys2Proof.Machine.execEyeSample p lane margin s
  | .powerBandSample watts => Sys2Proof.Machine.execPowerBandSample watts s
  | .recordReselect d temp => Sys2Proof.Machine.execRecordReselect d temp s
  | .memPhyTrack u margin delays => Sys2Proof.Machine.execMemPhyTrack u margin delays s
  | .droopStretch d dom => Sys2Proof.Machine.execDroopStretch d dom s
  | .deepcalDone recs restored => Sys2Proof.Machine.execDeepcalDone recs restored s
  | .recordFlashSave => Sys2Proof.Machine.execRecordFlashSave s
  | .checkerSelftest d failed => Sys2Proof.Machine.execCheckerSelftest d failed s
  | .monitorEvent m => Sys2Proof.Machine.execMonitorEvent m s
  | .doneHoldEnd r slot => Sys2Proof.Machine.execDoneHoldEnd r slot s
  | .lockstepMismatch d => Sys2Proof.Machine.execLockstepMismatch d s
  | .rowQuiesce p val => Sys2Proof.Machine.execRowQuiesce p val s
  | .quiesceDrainEnd d drain => Sys2Proof.Machine.execQuiesceDrainEnd d drain s
  | .itmRingCfgWrite p r val => Sys2Proof.Machine.execItmRingCfgWrite p r val s
  | .itmDbTail r slot area => Sys2Proof.Machine.execItmDbTail r slot area s
  | .itmDbAbort r slot => Sys2Proof.Machine.execItmDbAbort r slot s
  | .itemDeliver r slot => Sys2Proof.Machine.execItemDeliver r slot s
  | .itemSubmissionArrival m r slot e => Sys2Proof.Machine.execItemSubmissionArrival m r slot e s
  | .itemRecordArrival m r rec => Sys2Proof.Machine.execItemRecordArrival m r rec s
  | .itmBind w handle => Sys2Proof.Machine.execItmBind w handle s
  | .itmDone w handle => Sys2Proof.Machine.execItmDone w handle s
  | .itmFail w handle cause => Sys2Proof.Machine.execItmFail w handle cause s
  | .ledgerAudit => Sys2Proof.Machine.execLedgerAudit s
  | .itemDeadline r slot => Sys2Proof.Machine.execItemDeadline r slot s
  | .windowRead off => Sys2Proof.Machine.execWindowRead off s
  | .windowWrite off eight val => Sys2Proof.Machine.execWindowWrite off eight val s
  | .dictCmdRead index sub => Sys2Proof.Machine.execDictCmdRead index sub s
  | .dictCmdWrite type index sub len => Sys2Proof.Machine.execDictCmdWrite type index sub len s
  | .dictCmdAbort => Sys2Proof.Machine.execDictCmdAbort s
  | .dictCmdComplete => Sys2Proof.Machine.execDictCmdComplete s
  | .evtPop v => Sys2Proof.Machine.execEvtPop v s
  | .cfgSave p val => Sys2Proof.Machine.execCfgSave p val s
  | .cfgDefaults p val => Sys2Proof.Machine.execCfgDefaults p val s
  | .ovlRequest p code => Sys2Proof.Machine.execOvlRequest p code s
  | .ovlDrainEnd => Sys2Proof.Machine.execOvlDrainEnd s
  | .ovlDrainTimeout => Sys2Proof.Machine.execOvlDrainTimeout s
  | .safeholdEntered => Sys2Proof.Machine.execSafeholdEntered s
  | .zeroize p val => Sys2Proof.Machine.execZeroize p val s
  | .zeroizeDone => Sys2Proof.Machine.execZeroizeDone s
  | .ownWriteset bytes => Sys2Proof.Machine.execOwnWriteset bytes s
  | .ownKeyClaim p key => Sys2Proof.Machine.execOwnKeyClaim p key s
  | .fornitiRead n mac tid index sub => Sys2Proof.Machine.execFornitiRead n mac tid index sub s
  | .fornitiWrite n mac tid index sub type bytes => Sys2Proof.Machine.execFornitiWrite n mac tid index sub type bytes s
  | .blockInit n mac tid write index sub type total => Sys2Proof.Machine.execBlockInit n mac tid write index sub type total s
  | .blockSeg n mac tid num bytes => Sys2Proof.Machine.execBlockSeg n mac tid num bytes s
  | .blockTransferTimeout n => Sys2Proof.Machine.execBlockTransferTimeout n s
  | .heartbeat => Sys2Proof.Machine.execHeartbeat s
  | .emergencyResend => Sys2Proof.Machine.execEmergencyResend s
  | .standbyStart => Sys2Proof.Machine.execStandbyStart s
  | .firmwareVerify imgA imgB => Sys2Proof.Machine.execFirmwareVerify imgA imgB s
  | .pwrEnAssert => Sys2Proof.Machine.execPwrEnAssert s
  | .railsGood => Sys2Proof.Machine.execRailsGood s
  | .railFault rail => Sys2Proof.Machine.execRailFault rail s
  | .pwrEnDeassert => Sys2Proof.Machine.execPwrEnDeassert s
  | .coldReset => Sys2Proof.Machine.execColdReset s
  | .resetNAssert => Sys2Proof.Machine.execResetNAssert s
  | .memoryTrained dimms => Sys2Proof.Machine.execMemoryTrained dimms s
  | .ready => Sys2Proof.Machine.execReady s
  | .inputUndervolt => Sys2Proof.Machine.execInputUndervolt s
  | .warmReset p => Sys2Proof.Machine.execWarmReset p s
  | .pcieHotReset => Sys2Proof.Machine.execPcieHotReset s
  | .dieReset p d => Sys2Proof.Machine.execDieReset p d s
  | .opChangeRequest op tt => Sys2Proof.Machine.execOpChangeRequest op tt s
  | .opSwitch d => Sys2Proof.Machine.execOpSwitch d s
  | .powerSampleGate d watts => Sys2Proof.Machine.execPowerSampleGate d watts s
  | .thermalSample dies stk => Sys2Proof.Machine.execThermalSample dies stk s
  | .thermTrip dies => Sys2Proof.Machine.execThermTrip dies s
  | .fwUpdate p img => Sys2Proof.Machine.execFwUpdate p img s
  | .fwActivate p bank => Sys2Proof.Machine.execFwActivate p bank s
  | .attNonce p nonce => Sys2Proof.Machine.execAttNonce p nonce s
  | .pmcClear v c val => Sys2Proof.Machine.execPmcClear v c val s
  | .pmcClearShared p val => Sys2Proof.Machine.execPmcClearShared p val s
  | .pmcSnapTime p tt => Sys2Proof.Machine.execPmcSnapTime p tt s
  | .pmcSnapshot d => Sys2Proof.Machine.execPmcSnapshot d s
  | .pmcAggregateUpdate => Sys2Proof.Machine.execPmcAggregateUpdate s
  | .dbgHalt v c tt => Sys2Proof.Machine.execDbgHalt v c tt s
  | .dbgResume v c tt => Sys2Proof.Machine.execDbgResume v c tt s
  | .dbgStep v c tt => Sys2Proof.Machine.execDbgStep v c tt s
  | .debugAccess tap write addr data => Sys2Proof.Machine.execDebugAccess tap write addr data s
  | .registerWindowWrite v c off val => Sys2Proof.Machine.execRegisterWindowWrite v c off val s
  | .dbgEnableWrite p val => Sys2Proof.Machine.execDbgEnableWrite p val s
  | .registerWrite target val => Sys2Proof.Machine.execRegisterWrite target val s
  | .loadDataReturn seq u => Sys2Proof.Machine.execLoadDataReturn seq u s
  | .atomicArrival a => Sys2Proof.Machine.execAtomicArrival a s
  | .probeArrival d m sdie => Sys2Proof.Machine.execProbeArrival d m sdie s
  | .timeSyncRequestArrival m t1 t2 t3 => Sys2Proof.Machine.execTimeSyncRequestArrival m t1 t2 t3 s
  | .level2Request p lane => Sys2Proof.Machine.execLevel2Request p lane s
  | .droopRelease d dom => Sys2Proof.Machine.execDroopRelease d dom s
  | .thermTripRelease => Sys2Proof.Machine.execThermTripRelease s
  | .referenceClockPresent => Sys2Proof.Machine.execReferenceClockPresent s
  | .monitorEventEnd m => Sys2Proof.Machine.execMonitorEventEnd m s
  | .alwaysOnPowerLoss => Sys2Proof.Machine.execAlwaysOnPowerLoss s

end Sys2Proof.Machine
end

