-- ==== Sys2Proof/WellFormed.lean ====
section
/-! DEFINITION. What a command of the spec can look like beyond the types of its operands: which lanes a port has, how long a payload may be,
which window addresses exist. No meaning asks for it: a command that is not well formed is one that nothing sends. -/

namespace Sys2Proof

/-- The issuing thread of an instruction, and whether it is 64 bits long (R60); a command that is no instruction has none. -/
def Instr.issued (c : Instr) : Option (Iss × Bool) :=
  match c with
  | .fork i .. | .join i .. | .endThread i .. | .nop i | .tret i .. | .brk i | .syncE i .. | .fenceT i | .fenceR i | .fenceD i | .fenceM i
  | .fenceS i | .cacheInv i .. | .cacheInvall i | .cacheIinv i | .addR i .. | .subR i .. | .andR i .. | .orR i .. | .xorR i .. | .shl i ..
  | .shr i .. | .sra i .. | .mulR i .. | .mulh i .. | .mulhu i .. | .divR i .. | .divu i .. | .remR i .. | .remu i .. | .minR i .. | .maxR i ..
  | .qadd i .. | .qsub i .. | .qmul i .. | .qmac i .. | .qext i .. | .qclr i .. | .gaLo i .. | .gaHi i .. | .gaWr i .. | .cmpEq i ..
  | .cmpNe i .. | .cmpLt i .. | .cmpLtu i .. | .cmpGe i .. | .cmpGeu i .. | .pand i .. | .por i .. | .pnot i .. | .csrR i .. | .csrW i ..
  | .addi i .. | .andi i .. | .ori i .. | .xori i .. | .shli i .. | .lui i .. | .ldB i .. | .ldBU i .. | .ldH i .. | .ldHU i .. | .ldW i ..
  | .ldWU i .. | .ldD i .. | .stB i .. | .stH i .. | .stW i .. | .stD i .. | .tas i .. | .lrW i .. | .lrD i .. | .scW i .. | .scD i ..
  | .casD i .. | .faddL i .. | .bp i .. | .jal i .. | .jalr i .. | .hbArrive i .. | .hbWait i .. => some (i, false)
  | .tld i .. | .tldSc i .. | .tst i .. | .tstSc i .. | .trel i .. | .tldDrop i | .mm i .. | .mmX2 i .. | .mmX3 i .. | .accSpill i ..
  | .accFill i .. | .accSend i .. | .accChk i .. | .accRow i .. | .accRmax i .. | .vadd i .. | .vsub i .. | .vmul i .. | .vfma i .. | .vmax i ..
  | .vmin i .. | .vabs i .. | .vneg i .. | .vcmpEq i .. | .vcmpLt i .. | .vcmpLe i .. | .vbcast i .. | .vext i .. | .vqAdd i .. | .vqSub i ..
  | .vqMul i .. | .vqMac i .. | .vqExt i .. | .vqClr i .. | .vredSum i .. | .vredMax i .. | .vredMin i .. | .vsmx i .. | .vld i .. | .vst i ..
  | .vexp2 i .. | .vlog2 i .. | .vrcp i .. | .vrsqrt i .. | .vtanh i .. | .vsigm i .. | .vcvt i .. | .vquant i .. | .sndQ i .. | .selQ i ..
  | .pollQ i .. => some (i, true)
  | _ => Option.none

/-- A port has 17 lanes in each direction, 0 to 16 (R390). -/
def laneOk (lane : BitVec 5) : Bool := decide (lane.toNat ≤ 16)

/-- A packet carries at most 4096 payload bytes, and its length field names what it carries, a read request excepted (R399). -/
def packetOk (k : Packet) : Bool :=
  decide (k.payload.length ≤ 4096) && decide (k.kind = 2 ∨ k.len.toNat = k.payload.length)

/-- A flit group carries 63 units, and its trailer 24 credit fields (R395). -/
def groupOk (g : GroupIn) : Bool := decide (g.units.length = 63 ∧ g.cred.length = 24)

/-- Whether a command is one that the module's surroundings can give. -/
def Instr.wellFormed : Instr → Bool
  | .coreStart .. | .fork .. | .join .. | .endThread .. | .nop .. | .tret .. | .brk .. | .syncE .. | .fenceT .. | .fenceR ..
  | .fenceD .. | .fenceM .. | .fenceS .. | .cacheInv .. | .cacheInvall .. | .cacheIinv .. | .addR .. | .subR .. | .andR ..
  | .orR .. | .xorR .. | .shl .. | .shr .. | .sra .. | .mulR .. | .mulh .. | .mulhu .. | .divR .. | .divu .. | .remR .. | .remu ..
  | .minR .. | .maxR .. | .qadd .. | .qsub .. | .qmul .. | .qmac .. | .qext .. | .qclr .. | .gaLo .. | .gaHi .. | .gaWr ..
  | .cmpEq .. | .cmpNe .. | .cmpLt .. | .cmpLtu .. | .cmpGe .. | .cmpGeu .. | .pand .. | .por .. | .pnot .. | .csrR .. | .csrW ..
  | .addi .. | .andi .. | .ori .. | .xori .. | .shli .. | .lui .. | .ldB .. | .ldBU .. | .ldH .. | .ldHU .. | .ldW .. | .ldWU ..
  | .ldD .. | .stB .. | .stH .. | .stW .. | .stD .. | .tas .. | .lrW .. | .lrD .. | .scW .. | .scD .. | .casD .. | .faddL ..
  | .reservationTimeout .. | .bp .. | .jal .. | .jalr .. | .cacheFillReturn .. | .tld .. | .tldSc .. | .tst .. | .tstSc ..
  | .trel .. | .tldDrop .. | .tldRowReturn .. | .mm .. | .mmX2 .. | .mmX3 .. | .matrixQueueIssue .. | .checkpoint ..
  | .accSpill .. | .accFill .. | .accSend .. | .accChk .. | .accRow .. | .accRmax .. | .checkRetry .. | .accSplitWrite ..
  | .vadd .. | .vsub .. | .vmul .. | .vfma .. | .vmax .. | .vmin .. | .vabs .. | .vneg .. | .vcmpEq .. | .vcmpLt .. | .vcmpLe ..
  | .vbcast .. | .vext .. | .vqAdd .. | .vqSub .. | .vqMul .. | .vqMac .. | .vqExt .. | .vqClr .. | .vredSum .. | .vredMax ..
  | .vredMin .. | .vsmx .. | .vld .. | .vst .. | .vexp2 .. | .vlog2 .. | .vrcp .. | .vrsqrt .. | .vtanh .. | .vsigm .. | .vcvt ..
  | .vquant .. | .sndQ .. | .selQ .. | .pollQ .. | .messageCommit .. | .sendAnswer .. | .sendRetry .. | .sndTimeout ..
  | .selWakeTake .. | .selTimeout .. | .queOpen .. | .queClose .. | .queReset .. | .queConfigWrite .. | .queDropRead ..
  | .stnEntryWrite .. | .stnLaneWrite .. | .lsWindowWrite .. | .feedEnable .. | .feedDisable .. | .outriderFill ..
  | .outriderFillReturn .. | .feedRelayWrite .. | .relaySend .. | .relayTileArrival .. | .lsPatrolScrub .. | .loftPatrolScrub ..
  | .memPatrolScrub .. | .loftReadArrival .. | .mergeEntryClose .. | .writeArrival .. | .writeAckArrival .. | .dmaGo ..
  | .dmaChannelStart .. | .dmaChannelDone .. | .dmaBusError .. | .dmaResume .. | .dmaSkip .. | .dmaAbort .. | .xlInvTeam ..
  | .xlInvModule .. | .xlInvComplete .. | .xlPtRootWrite .. | .translationWalk .. | .walkComplete .. | .busyRewalk ..
  | .busyLimit .. | .hbArrive .. | .hbWait .. | .hbReport .. | .hbRelease .. | .hbTimeout .. | .hbCfgWrite .. | .hbSysWrite ..
  | .quiescent .. | .redArm .. | .redDisarm .. | .redTileArrival .. | .redCreditGrant .. | .redAdd .. | .redForward ..
  | .redDone .. | .redDeadline .. | .redLimitExpire .. | .redCreditTimeout .. => true
  | .groupReceive _ _ g => groupOk g
  | .portDown .. | .portRetrain .. => true
  | .packetForward _ k => packetOk k
  | .packetDeliver k => packetOk k.pkt
  | .thaexAckArrival .. => true
  | .readResponse _ _ data => decide (data.length ≤ 4096)
  | .probeSend .. | .probeReply .. | .peerUnreach .. | .unreachNotice .. | .timeSync .. | .timeSyncReply .. | .fabricDiscovery ..
  | .restRotate .. => true
  | .laneCalibrate _ _ lane _ _ _ => laneOk lane
  | .recalLimitExpire _ lane => laneOk lane
  | .laneLoss _ lane => laneOk lane
  | .heaterTrack _ _ lane _ => laneOk lane
  | .eyeSample _ lane _ => laneOk lane
  | .powerBandSample .. | .recordReselect .. | .memPhyTrack .. => true
  | .droopStretch _ dom => decide (dom.toNat ≤ 4)
  | .deepcalDone _ restored => restored.all (fun r => laneOk r.2)
  | .recordFlashSave .. | .checkerSelftest .. | .monitorEvent .. | .doneHoldEnd .. | .lockstepMismatch .. | .rowQuiesce ..
  | .quiesceDrainEnd .. | .itmRingCfgWrite .. | .itmDbTail .. | .itmDbAbort .. | .itemDeliver .. | .itemSubmissionArrival ..
  | .itemRecordArrival .. | .itmBind .. | .itmDone .. | .itmFail .. | .ledgerAudit .. | .itemDeadline .. => true
  | .windowRead off => decide (off.toNat % 8 = 0)
  | .windowWrite off eight _ => decide (off.toNat % (if eight then 8 else 4) = 0)
  | .dictCmdRead .. | .dictCmdWrite .. | .dictCmdAbort .. | .dictCmdComplete .. | .evtPop .. | .cfgSave .. | .cfgDefaults ..
  | .ovlRequest .. | .ovlDrainEnd .. | .ovlDrainTimeout .. | .safeholdEntered .. | .zeroize .. | .zeroizeDone .. => true
  | .ownWriteset bytes => decide (bytes.length ≤ 65536)
  | .ownKeyClaim .. | .fornitiRead .. => true
  | .fornitiWrite _ _ _ _ _ _ bytes => decide (bytes.length ≤ 1016)
  | .blockInit .. => true
  | .blockSeg _ _ _ _ bytes => decide (bytes.length ≤ 1024)
  | .blockTransferTimeout .. | .heartbeat .. | .emergencyResend .. | .standbyStart .. | .firmwareVerify .. | .pwrEnAssert ..
  | .railsGood .. | .railFault .. | .pwrEnDeassert .. | .coldReset .. | .resetNAssert .. => true
  | .memoryTrained dimms => decide (dimms.length = 16)
  | .ready .. | .inputUndervolt .. | .warmReset .. | .pcieHotReset .. | .dieReset .. | .opChangeRequest .. | .opSwitch ..
  | .powerSampleGate .. | .thermalSample .. => true
  | .thermTrip dies => decide (dies ≠ 0)
  | .fwUpdate .. | .fwActivate .. | .attNonce .. | .pmcClear .. | .pmcClearShared .. | .pmcSnapTime .. | .pmcSnapshot ..
  | .pmcAggregateUpdate .. | .dbgHalt .. | .dbgResume .. | .dbgStep .. | .debugAccess .. | .registerWindowWrite ..
  | .dbgEnableWrite .. | .registerWrite .. | .loadDataReturn .. | .atomicArrival .. | .probeArrival ..
  | .timeSyncRequestArrival .. => true
  | .level2Request _ lane => laneOk lane
  | .droopRelease _ dom => decide (dom.toNat ≤ 4)
  | .thermTripRelease .. | .referenceClockPresent .. | .monitorEventEnd .. | .alwaysOnPowerLoss .. => true

end Sys2Proof
end

