-- ==== Sys2Proof/Safety.lean ====
section
/-! DEFINITION. The terms in which claims are stated: a thread that can take an instruction, what the completion of an instruction leaves, reading
one byte of memory, and what a change of one thread, one core or the memory leaves alone. -/

namespace Sys2Proof.Machine

/-- The next instruction of a thread lies in a line that the instruction cache of its core holds, and its fetch meets no breakpoint, trap or walk
(R36, R72). `FetchReady` in the obligations says that a fetch which meets none of them either and only installs its line leads here. -/
def State.fetchHits (s : State) (w : Who) (long : Bool) : Bool :=
  let pc := (s.thread w).pc
  (s.breakpoint w).isNone && decide (pc.toNat % 4 = 0 ∧ adSpace pc ≠ 3) &&
    (match s.resolve w.core .fetch false pc (if long ∧ pc.toNat % 8 = 0 then 8 else 4) with
     | .at_ _ _ => (s.core w.core).icache.contains (s.lineTag pc)
     | _ => false)

/-- A thread can take an instruction as far as its own state goes: it is RUN, nothing holds it or its younger accesses, no load is outstanding, no halt
or single step is asked of it, its core runs no retry, the instruction is well encoded and the core's own checks find nothing (R37, R56, R60). -/
def State.steady (s : State) (i : Iss) (long : Bool) : Bool :=
  let h := s.thread i.who
  decide (h.state = .run ∧ h.hold = .none ∧ h.memHold = .none ∧ h.loads = [] ∧ h.haltReq = Option.none ∧ h.stepping = false) &&
    decide ((s.core i.who.core).retry = Option.none) && decide (i.rsv = Option.none ∧ i.found = .clean) &&
    !(long && decide (h.pc.toNat % 8 = 4))

/-- A thread stands at an instruction that meets nothing at its fetch and is well encoded. -/
def State.ready (s : State) (i : Iss) (long : Bool) : Bool :=
  s.steady i long && s.fetchHits i.who long

/-- The state after an instruction of `len` bytes that changes only its thread: the thread is changed, the program counter is past the instruction,
and the counters of retired instructions and issue slots have counted it (R47, R541, R544). -/
def State.retired (s : State) (w : Who) (len : Nat) (f : Thread → Thread) : State :=
  (s.modThread w (fun h => (f h).advance len)).countRetired w

/-- The same for an instruction that continues at an address of its own. -/
def State.went (s : State) (w : Who) (pc : Word) (f : Thread → Thread) : State :=
  (s.modThread w (fun h => { f h with pc := pc, given := Option.none })).countRetired w

/-- A place in memory of this module: neither a control word nor a place of another module. -/
def Loc.here : Loc → Bool
  | .ctl _ _ => false
  | .remote _ _ => false
  | _ => true

/-- A scalar access of a thread computes address `a` (and a new value of its base register), meets no watchpoint, is aligned, and resolves to place
`l` (R31, R62, R63, R188, R250). `rd` is the destination of a load. -/
def State.reaches (s : State) (w : Who) (rb : BitVec 5) (rd : Option (BitVec 5)) (m : MemF) (k : Access) (size : Nat) (a : Word)
    (upd : Option Word) (l : Loc) (page : Option Nat) : Prop :=
  memAddr (s.thread w) rb rd m = some (a, upd) ∧ s.watchpoint w m.g a size (decide (k = .read)) (decide (k = .write)) = Option.none ∧
    a.toNat % size = 0 ∧ s.place w m.g k (decide (size = 8)) a size = .at_ l page

/-- The low bytes of a register, as a store writes them: little-endian. -/
def lowBytes (v : Word) (size : Nat) : List (Option Byte) := (List.range size).map (fun k => some (v.extractLsb' (8 * k) 8))

/-- A loaded scalar as R62 extends it. -/
def widen (bs : List Byte) (size : Nat) (signed : Bool) : Word :=
  let x : BitVec (8 * size) := BitVec.ofNat (8 * size) (leNat bs)
  if signed then x.signExtend 64 else x.zeroExtend 64

/-- Updates the base register of an access that has one to update (R62). -/
def Thread.rebase (h : Thread) (rb : BitVec 5) (upd : Option Word) : Thread :=
  match upd with
  | some v => h.setReg rb v
  | Option.none => h

/-- One byte of memory; control words and other modules read as zero here. -/
def State.byteAt (s : State) (l : Loc) : Byte := (s.readLoc l 1).getD 0 0

/-- Every byte of memory is what it was. -/
def State.sameMemory (s t : State) : Prop := ∀ l : Loc, t.byteAt l = s.byteAt l

/-- Nothing but cores and event counters differs, and of the cores only one. -/
def State.onlyCore (s t : State) (c : CoreIx) : Prop :=
  t = { s with cores := t.cores, mod := { s.mod with agg := t.mod.agg } } ∧ ∀ e, e ≠ c → t.core e = s.core e

/-- Nothing but one thread and event counters differs. -/
def State.onlyThread (s t : State) (w : Who) : Prop :=
  s.onlyCore t w.core ∧ (∀ v, v ≠ w → t.thread v = s.thread v) ∧
    t.core w.core = { s.core w.core with threads := (t.core w.core).threads, pmc := (t.core w.core).pmc, pmcSat := (t.core w.core).pmcSat }

/-- Lane `l` of width `w` of a vector register (R165). -/
def lane (v : Vec) (w l : Nat) : BitVec w := v.extractLsb' (w * l) w

/-- A completed 64-bit instruction changed its thread only, and of that thread's vector and general registers only those listed. -/
def State.vectorDone (s t : State) (w : Who) (vs gs : List (BitVec 5)) : Prop :=
  s.onlyThread t w ∧ (t.thread w).pc = (s.thread w).pc + 8 ∧ (∀ v, v ∉ vs → (t.thread w).vec v = (s.thread w).vec v) ∧
    ∀ r, r ∉ gs → (t.thread w).reg r = (s.thread w).reg r

/-- Nothing but one receive queue differs. -/
def State.onlyQueue (s t : State) (c : CoreIx) (q : BitVec 4) : Prop :=
  t = { s with cores := t.cores } ∧ (∀ e, e ≠ c → t.core e = s.core e) ∧ t.core c = { s.core c with queues := (t.core c).queues } ∧
    ∀ p, p ≠ q → t.queue c p = s.queue c p

/-- Neither a halt nor a single step is asked of a thread (R550, R551). -/
def Thread.undisturbed (h : Thread) : Prop := h.haltReq = Option.none ∧ h.stepping = false

/-- A thread went on from a wait in a 64-bit queue instruction with a status or result in `gd` (R307). -/
def State.wokeWith (s t : State) (w : Who) (gd : BitVec 5) (v : Word) : Prop :=
  (t.thread w).state = .run ∧ (t.thread w).hold = .none ∧ (t.thread w).pc = (s.thread w).pc + 8 ∧
    ∀ r, (t.thread w).reg r = if r = gd ∧ r ≠ 0 then v else (s.thread w).reg r

/-- Nothing but one stream of a thread differs. -/
def State.onlyStream (s t : State) (w : Who) (k : BitVec 3) : Prop :=
  t = { s with cores := t.cores } ∧ (∀ e, e ≠ w.core → t.core e = s.core e) ∧
    t.core w.core = { s.core w.core with threads := (t.core w.core).threads } ∧ (∀ v, v ≠ w → t.thread v = s.thread v) ∧
    t.thread w = { s.thread w with streams := (t.thread w).streams } ∧ ∀ j, j ≠ k → t.stream w j = s.stream w j

/-- Of memory, exactly the bytes of a write at `l` differ, and they hold what it wrote. -/
def State.wrote (s t : State) (l : Loc) (bs : List (Option Byte)) : Prop :=
  ∀ m : Loc, t.byteAt m = ((if m.sameUnit l then byteFor l.off bs m.off else Option.none).getD (s.byteAt m))

/-- The canonical form of a memory: addresses strictly rising, no byte listed that reads as an unlisted one. -/
abbrev Memory.wf (m : Sparse Byte) : Bool := Sparse.wf 0 m

/-- Every memory of the module, and the tables of its cores and dies, are in canonical form. -/
def State.memoryWf (s : State) : Bool :=
  Sparse.wf {} s.cores && Sparse.wf {} s.dies && s.cores.all (fun e => Memory.wf e.2.ls) &&
    s.dies.all (fun e => Memory.wf e.2.loft && Memory.wf e.2.hbm && Memory.wf e.2.ddr)

end Sys2Proof.Machine
end

