-- ==== Sys2Proof/Certificates/Slice0/Obligations.lean ====
section
/-! DEFINITION. The statements for the provers, each about every state and every operand that its hypotheses allow; a docstring names the rules a
statement rests on and the log entries whose choices it takes over. -/

open Sys2Proof Sys2Proof.Machine

/-- R580: each integer register form of OPC 0x00, issued by a thread that is ready, answers the state in which rd holds the result of the two
sources, the program counter is 4 bytes on and one more instruction has been counted. A write of g0 is discarded (R35).
R61, R580: the immediate forms; addi sign-extends its immediate, andi, ori and xori zero-extend it, lui gives IMM16 × 65536 sign-extended from
bit 31, and shli with a shift above 63 raises trap 0x01.
The model's own choices in it: log 13. -/
def Obligations.IntegerResults : Prop :=
  (∀ (s : State) (i : Iss) (rd rs1 rs2 : BitVec 5), s.ready i false = true →
    let a := (s.thread i.who).reg rs1
    let b := (s.thread i.who).reg rs2
    let n := b.toNat % 64
    let gives (c : Instr) (v : Word) : Prop := exec c s = .next (s.retired i.who 4 (fun h => h.setReg rd v))
    gives (.addR i rd rs1 rs2) (a + b) ∧ gives (.subR i rd rs1 rs2) (a - b) ∧ gives (.andR i rd rs1 rs2) (a &&& b) ∧
    gives (.orR i rd rs1 rs2) (a ||| b) ∧ gives (.xorR i rd rs1 rs2) (a ^^^ b) ∧
    gives (.shl i rd rs1 rs2) (a <<< n) ∧ gives (.shr i rd rs1 rs2) (a >>> n) ∧ gives (.sra i rd rs1 rs2) (a.sshiftRight n) ∧
    gives (.mulR i rd rs1 rs2) (a * b) ∧
    gives (.mulh i rd rs1 rs2) ((a.signExtend 128 * b.signExtend 128).extractLsb' 64 64) ∧
    gives (.mulhu i rd rs1 rs2) ((a.zeroExtend 128 * b.zeroExtend 128).extractLsb' 64 64) ∧
    gives (.divR i rd rs1 rs2) (if b = 0 then BitVec.allOnes 64 else a.sdiv b) ∧
    gives (.divu i rd rs1 rs2) (if b = 0 then BitVec.allOnes 64 else a / b) ∧
    gives (.remR i rd rs1 rs2) (if b = 0 then a else a.srem b) ∧
    gives (.remu i rd rs1 rs2) (if b = 0 then a else a % b) ∧
    gives (.minR i rd rs1 rs2) (if a.slt b then a else b) ∧ gives (.maxR i rd rs1 rs2) (if a.slt b then b else a)) ∧
  (∀ (s : State) (i : Iss) (rd rs1 : BitVec 5) (imm : BitVec 16), s.ready i false = true →
    let a := (s.thread i.who).reg rs1
    let gives (c : Instr) (v : Word) : Prop := exec c s = .next (s.retired i.who 4 (fun h => h.setReg rd v))
    gives (.addi i rd rs1 imm) (a + imm.signExtend 64) ∧ gives (.andi i rd rs1 imm) (a &&& imm.zeroExtend 64) ∧
    gives (.ori i rd rs1 imm) (a ||| imm.zeroExtend 64) ∧ gives (.xori i rd rs1 imm) (a ^^^ imm.zeroExtend 64) ∧
    gives (.lui i rd imm) (BitVec.ofInt 64 (imm.toInt * 65536)) ∧
    (imm.toNat < 64 → gives (.shli i rd rs1 imm) (a <<< imm.toNat)) ∧
    (64 ≤ imm.toNat → exec (.shli i rd rs1 imm) s = .next (s.settle i.who false (.trap s { code := 0x01, detail := 0x08 }))))

/-- R580, R61: the compares and the predicate operations write all 64 bits of p1 to p7; a destination field of 0 or above 7 raises trap 0x01.
R69 to R71: the scalar fixed-point forms. A source is the low 16 or 32 bits as a signed number; a result that does not fit is clamped under SAT,
setting THR_FXSTAT.SAT, or wrapped, setting WRAP; qmul rounds the exact product once by RND, qmac adds it to the 72-bit accumulator at its binary point,
qext rounds the accumulator once.
The model's own choices in it: log 13. -/
def Obligations.PredicateAndFixedPointResults : Prop :=
  (∀ (s : State) (i : Iss) (rd rs1 rs2 : BitVec 5) (ps1 ps2 : BitVec 3), s.ready i false = true →
    let a := (s.thread i.who).reg rs1
    let b := (s.thread i.who).reg rs2
    let p := (s.thread i.who).pred ps1
    let q := (s.thread i.who).pred ps2
    let gives (c : Instr) (v : Word) : Prop :=
      exec c s = .next (if 1 ≤ rd.toNat ∧ rd.toNat ≤ 7 then s.retired i.who 4 (fun h => h.setPred (rd.truncate 3) v)
                        else s.settle i.who false (.trap s { code := 0x01, detail := 0x02 }))
    let cmp (c : Instr) (holds : Bool) : Prop := gives c (if holds then BitVec.allOnes 64 else 0)
    cmp (.cmpEq i rd rs1 rs2) (a == b) ∧ cmp (.cmpNe i rd rs1 rs2) (a != b) ∧ cmp (.cmpLt i rd rs1 rs2) (a.slt b) ∧
    cmp (.cmpLtu i rd rs1 rs2) (a.ult b) ∧ cmp (.cmpGe i rd rs1 rs2) (b.sle a) ∧ cmp (.cmpGeu i rd rs1 rs2) (b.ule a) ∧
    gives (.pand i rd ps1 ps2) (p &&& q) ∧ gives (.por i rd ps1 ps2) (p ||| q) ∧ gives (.pnot i rd ps1) (p ^^^ BitVec.allOnes 64)) ∧
  (∀ (s : State) (i : Iss) (rd rs1 rs2 : BitVec 5) (x : FxAux), s.ready i false = true →
    let bits := if x.wide then 32 else 16
    let src (r : BitVec 5) : Int := (((s.thread i.who).reg r).extractLsb' 0 bits).toInt
    let acc : BitVec 72 := if x.ga then (s.thread i.who).ga1 else (s.thread i.who).ga0
    let wr (h : Thread) (v : BitVec 72) : Thread := if x.ga then { h with ga1 := v } else { h with ga0 := v }
    let does (c : Instr) (f : Thread → Thread) : Prop := exec c s = .next (s.retired i.who 4 f)
    let fit (w : Nat) (v : Int) := fitSigned x.sat w v
    let res (v : Int) (h : Thread) : Thread := (h.setReg rd (BitVec.ofInt 64 (fit bits v).1)).fxFlag (fit bits v).2
    does (.qadd i rd rs1 rs2 x) (res (src rs1 + src rs2)) ∧ does (.qsub i rd rs1 rs2 x) (res (src rs1 - src rs2)) ∧
    does (.qmul i rd rs1 rs2 x) (res (roundShift x.rnd (src rs1 * src rs2) (bits - 1))) ∧
    (let v := acc.toInt + src rs1 * src rs2 * (if x.wide then 2 else 2 ^ 33)
     does (.qmac i rs1 rs2 x) (fun h => (wr h (BitVec.ofInt 72 (fit 72 v).1)).fxFlag (fit 72 v).2)) ∧
    does (.qext i rd x) (res (roundShift x.rnd acc.toInt (64 - bits))) ∧ does (.qclr i x) (fun h => wr h 0) ∧
    does (.gaLo i rd x) (fun h => h.setReg rd (acc.extractLsb' 0 64)) ∧
    does (.gaHi i rd x) (fun h => h.setReg rd ((acc.extractLsb' 64 8).signExtend 64)) ∧
    does (.gaWr i rs1 rs2 x) (fun h => wr h (((s.thread i.who).reg rs2).extractLsb' 0 8 ++ (s.thread i.who).reg rs1)))

/-- R35, R61, R69 to R71, R580 (frame): an integer, fixed-point, compare, predicate or immediate form of a ready thread that completes changes that thread only, and of it the program counter,
the counters, and what the form names: a general register, a predicate, or the accumulators and THR_FXSTAT. Every other register of the thread, every byte of memory and every other thread, core and
word of the module stays.
The model's own choices in it: log 13. -/
def Obligations.RegisterFrame : Prop :=
  ∀ (s : State) (i : Iss) (rd rs1 rs2 : BitVec 5) (ps1 ps2 : BitVec 3) (imm : BitVec 16) (x : FxAux), s.ready i false = true →
    let h := s.thread i.who
    let kept (t : State) (g : Thread) : Prop := s.onlyThread t i.who ∧ s.sameMemory t ∧ g = { h with g := g.g, p := g.p, ga0 := g.ga0, ga1 := g.ga1, fxstat := g.fxstat, pc := h.pc + 4, pmc := g.pmc, given := Option.none }
    let regs (g : Thread) : Prop := ∀ r, r ≠ rd → g.reg r = h.reg r
    let only (c : Instr) (P : Thread → Prop) : Prop := ∃ t, exec c s = .next t ∧ kept t (t.thread i.who) ∧ (t.thread i.who).reg 0 = 0 ∧ P (t.thread i.who)
    (∀ c ∈ [Instr.addR i rd rs1 rs2, .subR i rd rs1 rs2, .andR i rd rs1 rs2, .orR i rd rs1 rs2, .xorR i rd rs1 rs2, .shl i rd rs1 rs2, .shr i rd rs1 rs2, .sra i rd rs1 rs2,
        .mulR i rd rs1 rs2, .mulh i rd rs1 rs2, .mulhu i rd rs1 rs2, .divR i rd rs1 rs2, .divu i rd rs1 rs2, .remR i rd rs1 rs2, .remu i rd rs1 rs2, .minR i rd rs1 rs2,
        .maxR i rd rs1 rs2, .addi i rd rs1 imm, .andi i rd rs1 imm, .ori i rd rs1 imm, .xori i rd rs1 imm, .lui i rd imm, .gaLo i rd x, .gaHi i rd x],
      only c (fun g => regs g ∧ g.p = h.p ∧ g.ga0 = h.ga0 ∧ g.ga1 = h.ga1 ∧ g.fxstat = h.fxstat)) ∧
    (imm.toNat < 64 → only (.shli i rd rs1 imm) (fun g => regs g ∧ g.p = h.p ∧ g.ga0 = h.ga0 ∧ g.ga1 = h.ga1 ∧ g.fxstat = h.fxstat)) ∧
    (∀ c ∈ [Instr.qadd i rd rs1 rs2 x, .qsub i rd rs1 rs2 x, .qmul i rd rs1 rs2 x, .qext i rd x], only c (fun g => regs g ∧ g.p = h.p ∧ g.ga0 = h.ga0 ∧ g.ga1 = h.ga1)) ∧
    (∀ c ∈ [Instr.qmac i rs1 rs2 x, .qclr i x, .gaWr i rs1 rs2 x], only c (fun g => g.g = h.g ∧ g.p = h.p ∧ (x.ga = true → g.ga0 = h.ga0) ∧ (x.ga = false → g.ga1 = h.ga1))) ∧
    (1 ≤ rd.toNat → rd.toNat ≤ 7 → ∀ c ∈ [Instr.cmpEq i rd rs1 rs2, .cmpNe i rd rs1 rs2, .cmpLt i rd rs1 rs2, .cmpLtu i rd rs1 rs2, .cmpGe i rd rs1 rs2, .cmpGeu i rd rs1 rs2,
        .pand i rd ps1 ps2, .por i rd ps1 ps2, .pnot i rd ps1],
      only c (fun g => g.g = h.g ∧ (∀ p, p.toNat ≠ rd.toNat → g.pred p = h.pred p) ∧ g.ga0 = h.ga0 ∧ g.ga1 = h.ga1 ∧ g.fxstat = h.fxstat))

/-- R36, R60, R72, R196, R252, R583: the fetch of an instruction. A line that the instruction cache holds is not read again: the instruction issues at once. A line that it does not hold is
read from the place its address resolves to and installed first, and the instruction issues as if the cache had held it. An address that is not a multiple of 4 traps 0x05 with DETAIL 4, one in
space 3 traps 0x07 with DETAIL 1, a poisoned word traps 0x0A with DETAIL 5 and an address that resolves to nothing traps as it says, before the instruction does anything; a translation that is
not there is waited for.
R47, R49, R61, R579: bp continues at its offset exactly when bit 0 of the predicate equals SENSE; a wrong prediction counts in PMC_MISPRED, its
wrong-path loads as wasted slots, and it leaves no other trace than the lines those loads fill; jal and
jalr write the address of the next instruction and continue at the target, jalr at the value its source had before the write.
R74, R269, R276: nop only completes; cache.inv drops from the data cache the lines its range touches, or the whole cache if they are more than 1024,
cache.invall the whole cache, cache.iinv every line of the instruction cache; a fence holds the thread's younger accesses while its matrix work or a write, an acknowledgement or a message of
its scope is still out, and sync.e while the units its mask names work.
The model's own choices in it: logs 4, 5, 13, 52. -/
def Obligations.ControlFlow : Prop :=
  (∀ (s : State) (i : Iss) (long : Bool) (opc : Nat) (c : Cls) (body : State → Res) (l : Loc) (page : Option Nat) (x : Trap) (n : Nat),
    s.steady i long = true → s.breakpoint i.who = Option.none →
    let pc := (s.thread i.who).pc
    let tag := s.lineTag pc
    let place := s.resolve i.who.core .fetch false pc (if long ∧ pc.toNat % 8 = 0 then 8 else 4)
    let size : Nat := if long ∧ pc.toNat % 8 = 0 then 8 else 4
    let reads := place = .at_ l page ∧ l.here = true ∧ s.poisoned l size = false
    let right := pc.toNat % 4 = 0 ∧ adSpace pc ≠ 3
    let first (r : Res) : Prop := issue i opc long c body s = .next (s.settle i.who false r)
    (right → reads → tag ∈ (s.core i.who.core).icache → issue i opc long c body s = .next (s.settle i.who long (body s))) ∧
    (right → reads → tag ∉ (s.core i.who.core).icache → let t := s.icacheInstall i.who.core tag
      t.steady i long = true ∧ tag ∈ (t.core i.who.core).icache ∧ issue i opc long c body s = .next (t.settle i.who long (body t))) ∧
    (pc.toNat % 4 ≠ 0 → first (.trap s { code := 0x05, detail := 4, tval := pc })) ∧
    (pc.toNat % 4 = 0 → adSpace pc = 3 → first (.trap s { code := 0x07, detail := 1, tval := pc })) ∧
    (right → place = .bad x → first (.trap s x)) ∧
    (right → place = .miss n → first (.wait (s.missHold i.who { page := n, fetch := true, tval := pc }))) ∧
    (right → place = .at_ l page → l.here = true → s.poisoned l size = true → tag ∉ (s.core i.who.core).icache → first (.trap s { code := 0x0A, detail := 5, tval := pc }))) ∧
  (∀ (s : State) (i : Iss) (rd rs1 : BitVec 5) (off : BitVec 21), s.ready i false = true →
    (∀ (p : BitVec 3) (sense predicted : Bool) (boff : BitVec 22) (wrong : List Word),
      let taken := ((s.thread i.who).pred p).getLsbD 0 == sense
      let s' := if taken = predicted then s
        else wrong.foldl (fun u a => u.wrongLoad i.who a) ((s.countCore i.who.core 0x105 1).countWasted i.who.core wrong.length)
      exec (.bp i p sense boff ⟨predicted, wrong⟩) s = .next
        (if taken then s'.went i.who ((s.thread i.who).pc + boff.signExtend 64 * 4) id else s'.retired i.who 4 id)) ∧
    exec (.jal i rd off) s = .next (s.went i.who ((s.thread i.who).pc + off.signExtend 64 * 4)
      (fun h => h.setReg rd ((s.thread i.who).pc + 4))) ∧
    exec (.jalr i rd rs1) s = .next (s.went i.who ((s.thread i.who).reg rs1) (fun h => h.setReg rd ((s.thread i.who).pc + 4)))) ∧
  (∀ (s : State) (i : Iss) (rs1 rs2 : BitVec 5) (mask : BitVec 5), s.ready i false = true →
    let w := i.who
    let c := w.core
    let a := (s.thread w).reg rs1
    let len := ((s.thread w).reg rs2).toNat
    let base := s.lineTag a * 64 + a.toNat % 64
    let n := (base + len - 1) / 64 - base / 64 + 1
    let done (t : State) : Host.Outcome State Fault Refusal := .next (t.retired w 4 id)
    let fence (cm : Instr) (lvl : BitVec 3) : Prop :=
      let out := s.matrixBusy w s.nextSeq = true ∨ (∃ x ∈ s.writes, x.src = some w ∧ x.seq < s.nextSeq ∧ inScope lvl c x.loc = true) ∨
        (∃ x ∈ s.acks, x.src = some w ∧ x.seq < s.nextSeq ∧ inScope lvl c x.loc = true) ∨
        (∃ m ∈ s.msgs, m.origin = .thread w ∧ m.seq < s.nextSeq ∧ inScope lvl c (s.msgLoc m) = true)
      (¬out → exec cm s = .next (s.retired w 4 id)) ∧
      (out → exec cm s = .next (s.retired w 4 (fun h => { h with memHold := .fence lvl s.nextSeq })))
    exec (.nop i) s = done s ∧ exec (.cacheIinv i) s = done (s.modCore c (fun x => { x with icache := [] })) ∧
    exec (.cacheInvall i) s = done (s.cacheInv c (fun _ => true)) ∧
    (len = 0 → exec (.cacheInv i rs1 rs2) s = done s) ∧
    (len ≠ 0 → 1024 < n → exec (.cacheInv i rs1 rs2) s = done (s.cacheInv c (fun _ => true))) ∧
    (len ≠ 0 → n ≤ 1024 →
      exec (.cacheInv i rs1 rs2) s = done (s.cacheInv c (fun t => decide (base / 64 ≤ t ∧ t ≤ (base + len - 1) / 64)))) ∧
    fence (.fenceT i) 0 ∧ fence (.fenceR i) 1 ∧ fence (.fenceD i) 2 ∧ fence (.fenceM i) 3 ∧ fence (.fenceS i) 4 ∧
    (let dma := mask.getLsbD 4 = true ∧ s.dmaQuiet w = false
     let busy := (mask.getLsbD 2 = true ∧ s.matrixBusy w s.nextSeq = true) ∨ (mask.getLsbD 3 = true ∧ s.fillsInFlight w = true)
     (dma → exec (.syncE i mask) s = .next (s.modThread w (fun h => { h with state := .wait, hold := .syncDma mask }))) ∧
     let s1 : State := { s with nextSeq := s.nextSeq + 1 }
     (¬dma → busy → exec (.syncE i mask) s = .next (s1.retired w 4 (fun h => { h with memHold := .syncE mask s.nextSeq }))) ∧
     (¬dma → ¬busy → exec (.syncE i mask) s =
       done (if mask.getLsbD 3 then (s1.modThread w id).syncStreams w else s1))))

/-- R62: the four addressing modes. Mode 0 adds the signed displacement, modes 1 and 2 read at the base and step it upward after, or step it downward
before, mode 3 adds a register index times 1, 2, 4, 8 or THR_PITCH; the named encodings raise trap 0x01, whatever the access.
R62, R63, R72: a scalar load that reaches a place of this module leaves as a read of its bytes, or of their 64-byte line where the data cache
may hold it and does not; a line that the cache holds answers at once. The thread goes on behind the load.
R75, R268: the data of a scalar load that waits for its one read comes back. The thread receives the loaded value, extended to 64 bits, and its base
register's new value, and the load is counted. A fetched line is installed while its set holds fewer than four others, unless the fill was
cancelled; one that comes back with a parity error is counted and fetched again (R76).
The model's own choices in it: logs 13, 24, 35. -/
def Obligations.ScalarLoads : Prop :=
  (∀ (s : State) (i : Iss) (rd rb : BitVec 5) (m : MemF), s.ready i false = true →
    let h := s.thread i.who
    let b := h.reg rb
    let ix := m.disp.extractLsb' 7 5
    let sc := (m.disp.extractLsb' 4 3).toNat
    let gives (x : Option (Word × Option Word)) : Prop := ∀ lr, (lr = Option.none ∨ lr = some rd) → memAddr h rb lr m = x
    let bad (opc : Nat) : Host.Outcome State Fault Refusal :=
      .next (s.settle i.who false (.trap s { code := 0x01, detail := BitVec.ofNat 16 opc }))
    let isBad : Prop := (m.nc = true ∧ m.g = false) ∨ (m.mode = 3 ∧ (m.disp.extractLsb' 0 4 ≠ 0 ∨ 4 < sc)) ∨
      ((m.mode = 1 ∨ m.mode = 2) ∧ rb = 0)
    ((m.nc = true → m.g = true) →
      (m.mode = 0 → gives (some (b + m.disp.signExtend 64, Option.none))) ∧
      (m.mode = 1 → rb ≠ 0 → memAddr h rb Option.none m = some (b, some (b + m.disp.zeroExtend 64))) ∧
      (m.mode = 2 → rb ≠ 0 →
        memAddr h rb Option.none m = some (b - m.disp.zeroExtend 64, some (b - m.disp.zeroExtend 64))) ∧
      (m.mode = 3 → m.disp.extractLsb' 0 4 = 0 → sc < 4 → gives (some (b + h.reg ix * BitVec.ofNat 64 (2 ^ sc), Option.none))) ∧
      (m.mode = 3 → m.disp.extractLsb' 0 4 = 0 → sc = 4 → gives (some (b + h.reg ix * h.pitch, Option.none)))) ∧
    (isBad →
      exec (.stB i rd rb m) s = bad 0x18 ∧ exec (.stH i rd rb m) s = bad 0x19 ∧ exec (.stW i rd rb m) s = bad 0x1A ∧
      exec (.stD i rd rb m) s = bad 0x1B) ∧
    (isBad ∨ ((m.mode = 1 ∨ m.mode = 2) ∧ rb = rd) →
      exec (.ldB i rd rb m) s = bad 0x10 ∧ exec (.ldBU i rd rb m) s = bad 0x11 ∧ exec (.ldH i rd rb m) s = bad 0x12 ∧
      exec (.ldHU i rd rb m) s = bad 0x13 ∧ exec (.ldW i rd rb m) s = bad 0x14 ∧ exec (.ldWU i rd rb m) s = bad 0x15 ∧
      exec (.ldD i rd rb m) s = bad 0x16)) ∧
  (∀ (s : State) (i : Iss) (rd rb : BitVec 5) (m : MemF) (a : Word) (upd : Option Word) (l : Loc) (page : Option Nat),
    s.ready i false = true → l.here = true →
    let hit := Sparse.find (s.core i.who.core).dcache (s.lineTag a)
    let cached := m.g = true ∧ m.nc = false ∧ cacheable a l = true
    let load (c : Instr) (size : Nat) (signed : Bool) : Prop :=
      s.reaches i.who rb (some rd) m .read size a upd l page →
        let asks (at_ : Loc) (len skip : Nat) (fill : Option (Nat × Bool)) : Prop :=
          let f : RFlight := { seq := s.nextSeq, who := i.who, loc := at_, len, addr := a, page, fill, skip, take := size, atom := Option.none, got := .no }
          exec c s = .next ({ s with reads := s.reads ++ [f], nextSeq := s.nextSeq + 1 }.modThread i.who (fun h =>
            { h with pc := h.pc + 4, given := Option.none,
                     loads := [{ pc := h.pc, long := false, kind := .scalar rd size signed, parts := [.wait s.nextSeq],
                                 upd := upd.map (fun v => (rb, v)) }] }))
        (¬cached → asks l size 0 Option.none) ∧
        (cached → hit = Option.none → asks l.lineStart 64 (a.toNat % 64) (some (s.lineTag a, true))) ∧
        (cached → ∀ v, hit = some v → exec c s = .next (s.retired i.who 4 (fun h =>
          (h.setReg rd (widen (toBytes (v.toNat / 2 ^ (8 * (a.toNat % 64))) size) size signed)).rebase rb upd)))
    load (.ldB i rd rb m) 1 true ∧ load (.ldBU i rd rb m) 1 false ∧ load (.ldH i rd rb m) 2 true ∧ load (.ldHU i rd rb m) 2 false ∧
    load (.ldW i rd rb m) 4 true ∧ load (.ldWU i rd rb m) 4 false ∧ load (.ldD i rd rb m) 8 false) ∧
  (∀ (s : State) (f : RFlight) (rd : BitVec 5) (size : Nat) (signed : Bool) (op : LoadOp),
    f ∈ s.reads → (∀ g ∈ s.reads, g.seq = f.seq → g = f) → (f.loc.here = true ∧ ∀ d o, f.loc ≠ .loft d o) → f.atom = Option.none →
    f.engine = Option.none → s.readReady f = true → s.poisoned f.part f.take = false → (s.thread f.who).loads = [op] →
    op.kind = .scalar rd size signed → op.parts = [.wait f.seq] → (size = 1 ∨ size = 2 ∨ size = 4 ∨ size = 8) → f.take = size →
    f.skip + size ≤ f.len → (s.thread f.who).haltReq = Option.none → (s.thread f.who).stepping = false →
    let bs := s.readLoc f.loc f.len
    let v := widen ((bs.drop f.skip).take size) size signed
    let done (s : State) : State :=
      (({ s with reads := s.reads.filter (fun g => g.seq ≠ f.seq) }).modThread f.who (fun h =>
        let h := { h.setReg rd v with loads := [] }
        match op.upd with
        | some (r, u) => h.setReg r u
        | Option.none => h)).countRetired f.who
    (f.fill = Option.none → exec (.loadDataReturn f.seq .none) s = .next (done s)) ∧
    (∀ t, f.fill = some (t, false) → exec (.cacheFillReturn f.seq ⟨.none, false⟩) s = .next (done s)) ∧
    (∀ t, f.fill = some (t, true) → s.poisoned f.loc f.len = false →
      ((s.core f.who.core).dcache.filter (fun e => e.1 % 256 = t % 256 ∧ e.1 ≠ t)).length < 4 →
      exec (.cacheFillReturn f.seq ⟨.none, false⟩) s = .next (done (s.modCore f.who.core (fun x =>
        { x with dcache := Sparse.set x.dcache t (BitVec.ofNat 512 (leNat bs)) })))) ∧
    (f.fill.isSome = true → exec (.cacheFillReturn f.seq ⟨.none, true⟩) s = .next
      ({ s with reads := s.reads.map (fun (g : RFlight) => if g.seq = f.seq then { g with got := .no } else g) }.countCore f.who.core 0x111 1)))

/-- R62, R63, R73, R266: a scalar store that reaches its own core's local store writes the low bytes of the register there at once; one that reaches
another place of this module leaves as a write in flight, which the thread counts in THR_PEND. The base register takes its new value.
The model's own choices in it: logs 13, 48. -/
def Obligations.ScalarStores : Prop :=
  ∀ (s : State) (i : Iss) (rd rb : BitVec 5) (m : MemF) (a : Word) (upd : Option Word) (l : Loc) (page : Option Nat),
    s.ready i false = true → l.here = true →
    let store (c : Instr) (size : Nat) : Prop :=
      s.reaches i.who rb Option.none m .write size a upd l page →
        let bytes := lowBytes ((s.thread i.who).reg rd) size
        ((∃ o, l = .ls i.who.core o) → exec c s = .next ((s.perform l bytes).retired i.who 4 (fun h => h.rebase rb upd))) ∧
        ((∀ o, l ≠ .ls i.who.core o) →
          let x : WFlight := { seq := s.nextSeq, source := .port i.who.core, src := some i.who, dma := Option.none, loc := l, bytes, page, red := Option.none }
          let s' := (s.cacheNote i.who.core l page bytes)
          let s' := match l with | .ls _ _ => s | _ => s'
          exec c s = .next ({ s' with writes := s.writes ++ [x], nextSeq := s.nextSeq + 1 }.retired i.who 4 (fun h =>
            { h with pend := h.pend + 1 }.rebase rb upd)))
    store (.stB i rd rb m) 1 ∧ store (.stH i rd rb m) 2 ∧ store (.stW i rd rb m) 4 ∧ store (.stD i rd rb m) 8

/-- R64, R65: the atomics on the own core's local store are performed as they issue: tas writes 1, lr reserves, sc writes only while the reservation
stands and clears it. rd receives the old value, for sc 0 where it wrote and 1 where it did not. The data cache drops the line of the address.
R64, R68: an atomic on a Loft of this module leaves as one request with its operands and counts in THR_PEND; lr and sc reach only the Loft of the
own die. At the slice, once nothing older of its core is under way to it, it is performed as one operation and its answer recorded; one that meets
poison performs nothing and answers the trap (R52, R196).
R65: 4096 A-cycles after it was made, a thread's reservation is cleared, unless an sc of the thread is on its way; nothing else changes.
The model's own choices in it: logs 13, 24. -/
def Obligations.Atomics : Prop :=
  (∀ (s : State) (i : Iss) (rd ra rs : BitVec 5) (o : Nat) (page : Option Nat), s.ready i false = true →
    let a := (s.thread i.who).reg ra
    let l : Loc := .ls i.who.core o
    let s1 := s.cacheInv i.who.core (fun t => decide (t = s.lineTag a))
    let v := (s.thread i.who).reg rs
    let held := (s.thread i.who).resv.any (fun r => r.sameUnit l && decide (r.off / 64 = o / 64))
    let at_ (size : Nat) (wr : Bool) : Prop := adSpace a = 3 ∧ a.toNat % size = 0 ∧ s.watchpoint i.who true a size true wr = Option.none ∧
      s.resolve i.who.core .atomic true a size = .at_ l page ∧ s.poisoned l size = false
    let old (size : Nat) : Word := BitVec.ofNat 64 (leNat (s.readLoc l size))
    let does (c : Instr) (t : State) (res : Word) (f : Thread → Thread) : Prop :=
      exec c s = .next (t.retired i.who 4 (fun h => (f h).setReg rd res))
    let s2 := s1.modThread i.who (fun h => { h with resv := Option.none })
    let takes (h : Thread) : Thread := { h with resv := some l }
    (at_ 1 true → does (.tas i rd ra rs) (s1.perform l [some 1]) (old 1) id) ∧
    (at_ 4 false → does (.lrW i rd ra rs) s1 (old 4) takes) ∧ (at_ 8 false → does (.lrD i rd ra rs) s1 (old 8) takes) ∧
    (at_ 4 true → does (.scW i rd ra rs) (if held then s2.perform l (lowBytes v 4) else s2) (if held then 0 else 1) id) ∧
    (at_ 8 true → does (.scD i rd ra rs) (if held then s2.perform l (lowBytes v 8) else s2) (if held then 0 else 1) id)) ∧
  (∀ (s : State) (i : Iss) (rd ra rs : BitVec 5) (d : DieIx) (o : Nat) (page : Option Nat),
    let a := (s.thread i.who).reg ra
    let l : Loc := .loft d o
    let sends (c : Instr) (k : AtomKind) (size : Nat) : Prop :=
      s.ready i false = true → a.toNat % size = 0 → s.watchpoint i.who true a size true (decide (k ≠ .lrw ∧ k ≠ .lrd)) = Option.none →
      s.resolve i.who.core .atomic true a size = .at_ l page → (k = .lrw ∨ k = .lrd ∨ k = .scw ∨ k = .scd → d = coreDie i.who.core) →
        let f : RFlight := { seq := s.nextSeq, who := i.who, loc := l, len := size, addr := a, page, fill := Option.none, skip := 0, take := size,
                             atom := some (k, (s.thread i.who).reg rd, (s.thread i.who).reg rs), got := .no }
        let s1 := s.cacheInv i.who.core (fun t => decide (t = s.lineTag a))
        exec c s = .next ({ s1 with reads := s1.reads ++ [f], nextSeq := s.nextSeq + 1 }.modThread i.who (fun h =>
          { h with pc := h.pc + 4, given := Option.none, pend := h.pend + 1, loads := [{ pc := h.pc, long := false, kind := .atomic rd, parts := [.wait s.nextSeq] }] }))
    sends (.tas i rd ra rs) .tas 1 ∧ sends (.lrW i rd ra rs) .lrw 4 ∧ sends (.lrD i rd ra rs) .lrd 8 ∧ sends (.scW i rd ra rs) .scw 4 ∧
    sends (.scD i rd ra rs) .scd 8 ∧ sends (.casD i rd ra rs) .cas 8 ∧ sends (.faddL i rd ra rs) .fadd 8 ∧
    (∀ (f : RFlight) (k : AtomKind) (x y : Word), s.reads.find? (fun g => g.seq = f.seq) = some f → f.loc = l → f.atom = some (k, x, y) →
      f.got = .no → s.atomBlocked f = false → s.poisoned l f.len = false → (k = .cas ∨ k = .fadd ∨ k = .tas → f.len = k.size) →
        let old := s.readLoc l k.size
        let w : Word := BitVec.ofNat 64 (leNat old)
        let s1 := s.closeMerges l (old.map some)
        let answers (t : State) : Prop :=
          exec (.atomicArrival ⟨f.seq, .none⟩) s =
            .next { t with reads := t.reads.map (fun g => if g.seq = f.seq then { g with got := .bytes old } else g) }
        (k = .tas → answers (s1.perform l [some 1])) ∧ (k = .fadd → answers (s1.perform l (lowBytes (w + y) 8))) ∧
        (k = .cas → w = x → answers (s1.perform l (lowBytes y 8))) ∧ (k = .cas → w ≠ x → answers s1)) ∧
    (∀ (f : RFlight) (k : AtomKind) (x y : Word), s.reads.find? (fun g => g.seq = f.seq) = some f → f.loc = l → f.atom = some (k, x, y) →
      f.got = .no → s.atomBlocked f = false → s.poisoned l f.len = true →
        exec (.atomicArrival ⟨f.seq, .none⟩) s = .next { s with reads := s.reads.map (fun g =>
          if g.seq = f.seq then { g with got := .trap { code := 0x0A, detail := 5, tval := f.addr } } else g) })) ∧
  (∀ (s : State) (w : Who),
    let scOut := ∃ f ∈ s.reads, f.who = w ∧ ∃ k x y, f.atom = some (k, x, y) ∧ (k = .scw ∨ k = .scd)
    (¬scOut → exec (.reservationTimeout w) s = .next (s.modThread w (fun h => { h with resv := Option.none }))) ∧
    (scOut → exec (.reservationTimeout w) s = .next s))

/-- R38, R578: CORE_START through the core window starts a FREE thread 0 of a present core at the address, with every register zero, every tile empty
and the THR_ words at their reset values, without a parent. If thread 0 is not FREE, or the write comes from a thread of the core, it is discarded and
PMC_START_DROP counts.
R39, R43: fork starts the lowest FREE thread of the core at the first source, with the second in g1, its number in g2, THR_TVEC and THR_PITCH inherited
and its other registers zero, and answers its number, or all ones when no thread is FREE. join of a DONE child answers its EXIT sign-extended and frees it;
of one that still runs it waits; of any other number it traps 0x0D with that number.
R41, R43, R109: end leaves the low 32 bits of its source in EXIT, the tiles empty, no reservation, nothing in the matrix queue and the slots of its
share EMPTY; the thread is FREE if it was an orphan and DONE otherwise, and a parent that waits for it in join receives EXIT and frees it. While the thread
has matrix instructions in the queue, end waits.
The model's own choices in it: logs 4, 5, 25, 42. -/
def Obligations.ThreadLife : Prop :=
  (∀ (s : State) (v : Via) (c : CoreIx) (addr : Word), s.boot.mainOn = true → s.present c = true →
    let outside := ∀ t, v ≠ .thread ⟨c, t⟩
    (outside → (s.thread ⟨c, 0⟩).state = .free →
      let t := (s.disown ⟨c, 0⟩).modThread ⟨c, 0⟩ (fun h => { h.started addr with orphan := true })
      exec (.coreStart v c addr) s = .next t ∧
      (let h := t.thread ⟨c, 0⟩
       h.state = .run ∧ h.pc = addr ∧ h.orphan = true ∧ h.parent = 0 ∧ (∀ r, h.reg r = 0) ∧ (∀ p, p ≠ 0 → h.pred p = 0) ∧ (∀ r, h.vec r = 0) ∧
       h.ga0 = 0 ∧ h.ga1 = 0 ∧ (∀ k, (h.tile k).state = .empty) ∧ h.tvec = 0 ∧ h.pitch = 64 ∧ h.inTrap = false ∧ h.tldPend = false ∧ h.exit = 0 ∧
       h.resv = Option.none ∧ h.streams = (s.thread ⟨c, 0⟩).streams) ∧
      (∀ w, w ≠ ⟨c, 0⟩ → t.thread w = s.thread w) ∧ s.sameMemory t) ∧
    (¬(outside ∧ (s.thread ⟨c, 0⟩).state = .free) → exec (.coreStart v c addr) s = .next (s.countCore c 0x110 1))) ∧
  (∀ (s : State) (i : Iss) (rd rs1 rs2 : BitVec 5), s.ready i false = true →
    let w := i.who
    let h := s.thread w
    let sib (t : ThrIx) : Who := ⟨w.core, t⟩
    (∀ k : ThrIx, (s.thread (sib k)).state = .free → (∀ j, j.toNat < k.toNat → (s.thread (sib j)).state ≠ .free) →
      let t := ((({ s with free := s.free + 4 } : State).disown (sib k)).modThread (sib k) (fun x =>
        x.forked h w.thr k (h.reg rs1) (h.reg rs2) s.free)).retired w 4 (fun h => h.setReg rd (k.zeroExtend 64))
      exec (.fork i rd rs1 rs2) s = .next t ∧
        (let x := t.thread (sib k)
         x.state = .run ∧ x.pc = h.reg rs1 ∧ x.reg 1 = h.reg rs2 ∧ x.reg 2 = k.zeroExtend 64 ∧ (∀ r, r ≠ 1 → r ≠ 2 → x.reg r = 0) ∧
         (∀ p, p ≠ 0 → x.pred p = 0) ∧ (∀ r, x.vec r = 0) ∧ (∀ j, (x.tile j).state = .empty) ∧ x.parent = w.thr ∧ x.orphan = false ∧
         x.tvec = h.tvec ∧ x.pitch = h.pitch ∧ x.inTrap = false) ∧
        (t.thread w).pc = h.pc + 4 ∧ (∀ r, (t.thread w).reg r = if r = rd ∧ r ≠ 0 then k.zeroExtend 64 else h.reg r) ∧
        (∀ v, v ≠ w → v ≠ sib k → t.thread v = s.thread v) ∧ s.sameMemory t) ∧
    ((∀ j, (s.thread (sib j)).state ≠ .free) →
      exec (.fork i rd rs1 rs2) s = .next (s.retired w 4 (fun h => h.setReg rd (BitVec.allOnes 64)))) ∧
    (let v := h.reg rs1
     let k : ThrIx := v.truncate 2
     let c := s.thread (sib k)
     let child := v.toNat < 4 ∧ k ≠ w.thr ∧ c.parent = w.thr ∧ c.orphan = false ∧ c.state ≠ .free ∧ c.joined = false
     (child → c.state = .done → exec (.join i rd rs1) s =
       .next ((s.modThread (sib k) (fun x => { x with state := .free, joined := true })).retired w 4 (fun h => h.setReg rd (c.exit.signExtend 64)))) ∧
     (child → c.state ≠ .done → exec (.join i rd rs1) s =
       .next (s.modThread w (fun h => { h with state := .wait, hold := .join k rd }))) ∧
     (¬child → exec (.join i rd rs1) s = .next (s.settle w false (.trap s { code := 0x0D, detail := v.truncate 16 }))))) ∧
  (∀ (s : State) (i : Iss) (rs1 : BitVec 5), s.ready i false = true → Sparse.wf {} (s.core i.who.core).slots = true →
    let w := i.who
    let h := s.thread w
    let x : BitVec 32 := (h.reg rs1).truncate 32
    let p : Who := ⟨w.core, h.parent⟩
    (s.mmQueued w = true → exec (.endThread i rs1) s = .next s) ∧
    (s.mmQueued w = false → exec (.endThread i rs1) s = .next ((s.countRetired w).endThreadOp w x (faultCause 6 0))) ∧
    (s.mmQueued w = false → h.bound = [] → h.taken = [] →
      let t := (s.countRetired w).endThreadOp w x (faultCause 6 0)
      (t.thread w).exit = x ∧ (t.thread w).tiles = [] ∧ (t.thread w).resv = Option.none ∧ (t.thread w).loads = [] ∧ (t.thread w).tldPend = false ∧
      (∀ k, (slotShare (s.core w.core).mode w.thr).1 ≤ k → k < (slotShare (s.core w.core).mode w.thr).1 + (slotShare (s.core w.core).mode w.thr).2 →
        ((s.core w.core).slot k).sending = 0 → (t.core w.core).slot k = {}) ∧
      (∀ m ∈ (t.core w.core).mq, m.thr ≠ w.thr) ∧ s.sameMemory t ∧
      (h.orphan = true → (t.thread w).state = .free) ∧
      (h.orphan = false → h.parent ≠ w.thr → (∀ rd, (s.thread p).hold ≠ .join w.thr rd) → (t.thread w).state = .done) ∧
      (∀ rd, h.orphan = false → h.parent ≠ w.thr → (s.thread p).hold = .join w.thr rd → (s.thread p).haltReq = Option.none →
        (s.thread p).stepping = false →
        (t.thread w).state = .free ∧ (t.thread p).state = .run ∧ (t.thread p).hold = .none ∧ (t.thread p).pc = (s.thread p).pc + 4 ∧
        ∀ r, (t.thread p).reg r = if r = rd ∧ r ≠ 0 then x.signExtend 64 else (s.thread p).reg r)))

/-- R53, R54, R57, R58: a trap that reaches a handler saves the address of the instruction in THR_EPC, its code, its DETAIL and LONG in THR_CAUSE and the faulting
address in THR_TVAL, sets INTRAP, clears the reservation and continues at THR_TVEC; its own slot counts as wasted. brk takes trap 0x0B with DETAIL 0xFFFF. Without a vector, or inside a
handler, the thread ends with exit value -1 instead.
R55, R93: tret clears INTRAP and continues at THR_EPC. While TLD_PEND is set it resumes the tile load that stands at THR_EPC from the cursor's row, and traps 0x02 with DETAIL 6
as a new trap if what stands there is no tile load or not the one the cursor names.
The model's own choices in it: logs 13, 54. -/
def Obligations.Traps : Prop :=
  (∀ (s : State) (i : Iss), s.ready i false = true → s.mmQueued i.who = false →
    let h := s.thread i.who
    let enters (long : Bool) (t : Trap) : State := (s.countWasted i.who.core 1).modThread i.who (fun h =>
      { h.unclaim with epc := h.pc, cause := t.detail ++ (if long then 1 else 0 : BitVec 8) ++ t.code, tval := t.tval, inTrap := true,
                       resv := Option.none, pc := h.tvec, given := Option.none })
    (h.inTrap = false → h.tvec ≠ 0 → exec (.brk i) s = .next (enters false { code := 0x0B, detail := 0xFFFF }) ∧
      ∀ (long : Bool) (t : Trap), t.code ≠ 0x08 → ¬(t.code = 0x0A ∧ t.detail = 1) → s.settle i.who long (.trap s t) = enters long t) ∧
    (h.inTrap = true ∨ h.tvec = 0 → h.bound = [] → h.taken = [] → ∃ t, exec (.brk i) s = .next t ∧ (t.thread i.who).exit = 0xFFFFFFFF ∧
      (t.thread i.who).cause = 0xFFFF000B ∧ ((t.thread i.who).state = .done ∨ (t.thread i.who).state = .free) ∧ s.sameMemory t)) ∧
  (∀ (s : State) (i : Iss) (found : BitVec 64) (u : Upset), s.ready i false = true →
    let h := s.thread i.who
    (h.tldPend = false → exec (.tret i ⟨found, u⟩) s = .next (s.went i.who h.epc (fun h => { h with inTrap := false }))) ∧
    (h.tldPend = true → s.mmQueued i.who = false →
      let s1 := (s.countRetired i.who).modThread i.who (fun h => { h with inTrap := false, pc := h.epc })
      let long := decide (found.extractLsb' 29 3 = 7)
      let same (f : TileF) (sc : Bool) : Prop := sc = h.cursor.sc ∧ f.td = h.cursor.tile ∧ f.src = h.cursor.src ∧ f.strm = h.cursor.strm
      ∀ s2, s1.fetchCheck i.who long (Upset.found u) = .ok s2 →
      ((tileLoadOf i.who found = Option.none ∨ ∃ f sc, tileLoadOf i.who found = some (f, sc) ∧ ¬same f sc) → h.tvec ≠ 0 →
        exec (.tret i ⟨found, u⟩) s = .next ((s2.countWasted i.who.core 1).modThread i.who (fun h =>
          { h.unclaim with epc := h.epc, cause := (6 : BitVec 16) ++ (if long then 1 else 0 : BitVec 8) ++ (2 : BitVec 8), tval := 0, inTrap := true,
                           resv := Option.none, pc := h.tvec, given := Option.none }))) ∧
      (∀ f sc, tileLoadOf i.who found = some (f, sc) → same f sc → tileShape f sc false = Option.none → tileSkew h f sc = false →
        let t := s2.tileStart i.who h.epc f sc h.cursor.row.toNat h.cursor.prior [] (if f.src then some false else Option.none)
        exec (.tret i ⟨found, u⟩) s = .next (t.retire (t.thread i.who).loads.length i.who))))

/-- R90: what trel does to its tile and to a pending interrupted load. -/
def Obligations.TileRelease : Prop :=
  ∀ (s : State) (i : Iss) (td : BitVec 3), s.ready i true = true → s.tileRead i.who td = false →
    ∃ t, exec (.trel i td) s = .next t ∧
      (let h := s.thread i.who
       let h' := t.thread i.who
       (h'.tile td).state = .empty ∧ (h'.tile td).rows = [] ∧ (h'.tile td).side = [] ∧ (∀ k, k ≠ td → h'.tile k = h.tile k) ∧
       h'.tldPend = (h.tldPend && decide (h.cursor.tile ≠ td)) ∧ h'.pc = h.pc + 8 ∧ (∀ r, h'.reg r = h.reg r) ∧ (∀ r, h'.vec r = h.vec r)) ∧
      (∀ v, v ≠ i.who → t.thread v = s.thread v) ∧ s.sameMemory t

/-- R85 to R88, R92, R96, R99, R210: a tile load from memory sends one read for each piece of each row, in ascending order, from row address base + row × stride;
the thread goes on behind it. A filled tile of a MODE 0 stream that matches completes the load at once. An encoding that contradicts SRC, or a stream that is
disabled, at its end or of the other kind, traps 0x01, a shape fault 0x02 with the lowest DETAIL, a skewed base or stride 0x05; a load behind an mm that reads its
tile waits and claims its stream's tile (R210). tld.drop abandons a pending load.
R79, R87, R91, R92: the last row of a tile load returns: every row stands in the tile, its further bytes are what they were, and the tile is FULL, or
for tld.sc in its state before. If the row is uncorrectable instead, the tile is PARTIAL, TLD_PEND is set with the cursor at that row, and the load traps 0x0A.
The model's own choices in it: logs 10, 13, 24, 27, 55, 57. -/
def Obligations.TileLoads : Prop :=
  (∀ (s : State) (i : Iss) (f : TileF) (sc : Bool), s.ready i true = true →
    let w := i.who
    let h := s.thread w
    let load : Instr := if sc then .tldSc i f else .tld i f
    let n := tileRowBytes f sc
    let row (r : Nat) : Word := h.reg f.rb + BitVec.ofNat 64 r * h.reg f.rs
    let pieces : List (Word × Word × Nat) := (List.range (f.rows.toNat + 1)).flatMap (fun r =>
      (if f.g then linePieces 3 (row r) n else [(row r, n)]).map (fun p => (row r, p.1, p.2)))
    let at_ (p : Word × Word × Nat) : Loc × Option Nat :=
      match s.place w f.g .read false p.2.1 p.2.2 with | .at_ l page => (l, page) | _ => (.remote 0 0, Option.none)
    let read (p : Word × Word × Nat) (k : Nat) : RFlight :=
      ⟨s.nextSeq + 1 + k, w, (at_ p).1, p.2.2, p.1, (at_ p).2, Option.none, 0, p.2.2, Option.none, .no, Option.none⟩
    let traps (code : BitVec 8) (d : Nat) : Prop := exec load s = .next (s.settle w true (.trap s { code := code, detail := BitVec.ofNat 16 d }))
    (tileIllegal f = true → traps 0x01 0x3B) ∧
    (let x := s.stream w f.strm
     let refused := f.src = true ∧ (x.en = false ∨ x.count = 0 ∨ x.sc ≠ sc)
     let open_ := f.src = true → x.en = true ∧ x.count ≠ 0 ∧ x.sc = sc ∧ x.mode = 0
     (tileIllegal f = false → refused → traps 0x01 0x3B) ∧
     (tileIllegal f = false → open_ → s.watchRows w f sc true false = Option.none →
       (∀ d, tileShape f sc h.tldPend = some d → traps 0x02 d) ∧
       (tileShape f sc h.tldPend = Option.none → f.src = false → sc = false → (h.reg f.rb).toNat % 8 ≠ 0 ∨ (h.reg f.rs).toNat % 8 ≠ 0 →
         exec load s = .next (s.settle w true (.trap s { code := 0x05, detail := 8, tval := h.reg f.rb })))) ∧
     (tileIllegal f = false → open_ → tileShape f sc h.tldPend = Option.none →
       (f.src = false → sc = false → (h.reg f.rb).toNat % 8 = 0 ∧ (h.reg f.rs).toNat % 8 = 0) → s.tileRead w f.td = true →
       exec load s = .next (if f.src then s.modStream w f.strm (fun x => { x with claim := true }) else s))) ∧
    (f.src = false → tileIllegal f = false → tileShape f sc h.tldPend = Option.none → s.tileRead w f.td = false →
      (sc = false → (h.reg f.rb).toNat % 8 = 0 ∧ (h.reg f.rs).toNat % 8 = 0) →
      (∀ p ∈ pieces, s.watchpoint w f.g p.2.1 p.2.2 true false = Option.none ∧ (at_ p).1.here = true ∧
        s.place w f.g .read false p.2.1 p.2.2 = .at_ (at_ p).1 (at_ p).2) →
      ∃ t, exec load s = .next t ∧
        t.reads = s.reads ++ pieces.zipIdx.map (fun x => read x.1 x.2) ∧
        (t.thread w).pc = h.pc + 8 ∧
        (t.thread w).loads = [{ pc := h.pc, long := true, kind := .tile f sc 0 (h.tile f.td).state.code Option.none,
                                parts := pieces.zipIdx.map (fun x => .wait (s.nextSeq + 1 + x.2)) }] ∧
        (∀ r, (t.thread w).reg r = h.reg r) ∧ s.sameMemory t) ∧
    (let x := s.stream w f.strm
     f.src = true → tileIllegal f = false → tileShape f sc h.tldPend = Option.none → s.tileRead w f.td = false → x.en = true → x.count ≠ 0 → x.sc = sc →
      x.mode = 0 → f.rows = x.rowsf → f.fmt = x.fmt → f.kf = x.kf →
      ∀ t0, x.tiles.find? (fun t => !t.consumed) = some t0 → t0.ready = true → t0.defer = Option.none → t0.rows.length = f.rows.toNat + 1 →
        (∀ b ∈ t0.rows, b.length = n) →
        ∃ t, exec load s = .next t ∧ (t.thread w).loads = [] ∧ (t.thread w).pc = h.pc + 8 ∧
          ((t.thread w).tile f.td).state = (if sc then (h.tile f.td).state else .full) ∧
          (∀ r, r ≤ f.rows.toNat →
            (if sc then (toBytes (Sparse.get (0 : BitVec 32) ((t.thread w).tile f.td).side r).toNat 4).take n
             else (toBytes (Sparse.get (0 : BitVec 512) ((t.thread w).tile f.td).rows r).toNat 64).take n) = t0.rows.getD r []) ∧
          (t.stream w f.strm).count = (if x.count = 0xFFFFFFFF then x.count else x.count - 1) ∧ s.sameMemory t) ∧
    (let h := s.thread w
     exec (.tldDrop i) s = .next (s.retired w 8 (fun h => { h with tldPend := false, cursor := {} })) ∧
     ∀ t, exec (.tldDrop i) s = .next t → t.thread w = { h with tldPend := false, cursor := {}, pc := h.pc + 8, given := Option.none, pmc := (t.thread w).pmc })) ∧
  (∀ (s : State) (g : RFlight) (op : LoadOp) (f : TileF) (sc : Bool) (prior : BitVec 2) (bs : List Byte) (ps : List LoadPart),
    g ∈ s.reads → (∀ k ∈ s.reads, k.seq = g.seq → k = g) → g.loc.here = true → (∀ d o, g.loc ≠ .loft d o) → g.atom = Option.none → s.readReady g = true →
    (s.thread g.who).loads = [op] → op.kind = .tile f sc 0 prior Option.none → op.long = true → op.parts = ps ++ [.wait g.seq] →
    scanParts ps [] = .all bs → (∀ p ∈ ps, p ≠ .wait g.seq) →
    bs.length = f.rows.toNat * tileRowBytes f sc → g.len = tileRowBytes f sc → 0 < tileRowBytes f sc → tileRowBytes f sc ≤ (if sc then 4 else 64) →
    (s.thread g.who).haltReq = Option.none → (s.thread g.who).stepping = false → (s.thread g.who).tldPend = false →
    let w := g.who
    let n := tileRowBytes f sc
    let all := bs ++ s.readLoc g.loc g.len
    let bytes (t : State) (r : Nat) : List Byte :=
      if sc then toBytes (Sparse.get (0 : BitVec 32) ((t.thread w).tile f.td).side r).toNat 4
      else toBytes (Sparse.get (0 : BitVec 512) ((t.thread w).tile f.td).rows r).toNat 64
    (s.poisoned g.loc g.len = false → ∃ t, exec (.tldRowReturn g.seq .none) s = .next t ∧
      (t.thread w).loads = [] ∧ (t.thread w).pc = (s.thread w).pc ∧
      ((t.thread w).tile f.td).state = (if sc then tileStateOf prior else .full) ∧
      (∀ r, r ≤ f.rows.toNat → (bytes t r).take n = (all.drop (r * n)).take n ∧ (bytes t r).drop n = (bytes s r).drop n) ∧
      (∀ r, f.rows.toNat < r → bytes t r = bytes s r) ∧ t.reads = s.reads.filter (fun k => k.seq ≠ g.seq) ∧ s.sameMemory t) ∧
    (s.mmQueued w = false → (∀ c o, g.loc ≠ .ls c o) → (s.thread w).tvec ≠ 0 → (s.thread w).inTrap = false →
      ∃ t, exec (.tldRowReturn g.seq .uncorrectable) s = .next t ∧ (t.thread w).loads = [] ∧ ((t.thread w).tile f.td).state = .partial_ ∧
        (t.thread w).tldPend = true ∧ (t.thread w).cursor.row = f.rows ∧ (t.thread w).cursor.tile = f.td ∧ (t.thread w).cursor.sc = sc ∧
        (t.thread w).epc = op.pc ∧ (t.thread w).cause.extractLsb' 0 9 = 0x10A ∧ (t.thread w).tval = g.addr ∧ (t.thread w).pc = (s.thread w).tvec ∧
        (t.thread w).inTrap = true))

/-- R80, R86, R87, R89, R99: a tile store writes the first bytes of each row, or of the row's scales, at base + row × stride in ascending order, once every row
has been checked, past the data cache; of an EMPTY or PARTIAL tile it traps 0x09 with the tile's number, and on a skewed base or stride 0x05. SRC = 1 is no tile
store and traps 0x01.
The model's own choices in it: logs 13, 48. -/
def Obligations.TileStores : Prop :=
  ∀ (s : State) (i : Iss) (f : TileF) (sc : Bool), s.ready i true = true →
    let w := i.who
    let h := s.thread w
    let x := h.tile f.td
    let store : Instr := if sc then .tstSc i f else .tst i f
    let n := tileRowBytes f sc
    let row (r : Nat) : Word := h.reg f.rb + BitVec.ofNat 64 r * h.reg f.rs
    let bytes (r : Nat) : List (Option Byte) :=
      ((if sc then toBytes (Sparse.get (0 : BitVec 32) x.side r).toNat 4 else toBytes (Sparse.get (0 : BitVec 512) x.rows r).toNat 64).take n).map some
    let pieces : List (Word × List (Option Byte)) := (List.range (f.rows.toNat + 1)).flatMap (fun r =>
      splitBytes (if f.g then pagePieces (row r) n else [(row r, n)]) (bytes r))
    let at_ (p : Word × List (Option Byte)) : Loc × Option Nat :=
      match s.place w f.g .write false p.1 p.2.length with | .at_ l page => (l, page) | _ => (.remote 0 0, Option.none)
    let traps (code : BitVec 8) (d : Nat) : Prop := exec store s = .next (s.settle w true (.trap s { code := code, detail := BitVec.ofNat 16 d }))
    (f.src = true ∨ tileIllegal f = true → traps 0x01 0x3B) ∧
    (f.src = false → tileIllegal f = false → s.watchRows w f sc false true = Option.none → ∀ d, tileShape f sc false = some d → traps 0x02 d) ∧
    (f.src = false → tileIllegal f = false → s.watchRows w f sc false true = Option.none → tileShape f sc false = Option.none →
      (x.state = .empty ∨ x.state = .partial_ → traps 0x09 f.td.toNat) ∧
      (x.state ≠ .empty → x.state ≠ .partial_ → sc = false → (h.reg f.rb).toNat % 8 ≠ 0 ∨ (h.reg f.rs).toNat % 8 ≠ 0 →
        exec store s = .next (s.settle w true (.trap s { code := 0x05, detail := 8, tval := h.reg f.rb }))) ∧
      (x.state ≠ .empty → x.state ≠ .partial_ → (sc = false → (h.reg f.rb).toNat % 8 = 0 ∧ (h.reg f.rs).toNat % 8 = 0) →
        n ≤ (if sc then 4 else 64) →
        (∀ p ∈ pieces, (at_ p).1.here = true ∧ s.place w f.g .write false p.1 p.2.length = .at_ (at_ p).1 (at_ p).2) →
        exec store s = .next ((pieces.foldl (fun u p => u.storePast w (at_ p).1 (at_ p).2 p.2) s).retired w 8 id)))

/-- R80, R98 to R100, R103, R108: an mm form that passes M1 joins the end of its core's matrix queue; with eight waiting it waits. Before that, the lowest shape
fault traps 0x02, a slot outside the thread's share 0x03, and an EMPTY or PARTIAL operand tile 0x09.
R101, R117 to R122, R131, R148, R150, R153: the head of the matrix queue runs on its slot. Each element of the M × N result is its steps taken in order, the
first without the accumulator where OVW is set; the others keep their values. The slot is live and unchecked, and its log holds one entry more. The head waits
during a retry, while an acc.send streams the slot, and while its log is full; a full log is compared first, and passes into an empty one.
The model's own choices in it: logs 32, 33. -/
def Obligations.MatrixProducts : Prop :=
  (∀ (s : State) (i : Iss) (f : MatF), s.ready i true = true →
    let w := i.who
    let h := s.thread w
    let share := (slotShare (s.core w.core).mode w.thr).2
    let bad (t : BitVec 3) : Prop := (h.tile t).state = .empty ∨ (h.tile t).state = .partial_
    let form (c : Instr) (func : BitVec 2) : Prop :=
      let traps (code : BitVec 8) (d : BitVec 16) : Prop := exec c s = .next (s.settle w true (.trap s { code := code, detail := d }))
      (∀ d, matShape func f = some d → traps 0x02 (BitVec.ofNat 16 d)) ∧
      (matShape func f = Option.none →
        (share ≤ f.acc.toNat → traps 0x03 (f.acc.zeroExtend 16)) ∧
        (f.acc.toNat < share →
          (bad f.ta → traps 0x09 (f.ta.zeroExtend 16)) ∧ (¬bad f.ta → bad f.tb → traps 0x09 (f.tb.zeroExtend 16)) ∧
          (¬bad f.ta → ¬bad f.tb → 8 ≤ (s.core w.core).mq.length → exec c s = .next s) ∧
          (¬bad f.ta → ¬bad f.tb → (s.core w.core).mq.length < 8 →
            exec c s = .next ((({ s with nextSeq := s.nextSeq + 1 } : State).modCore w.core (fun x =>
              { x with mq := x.mq ++ [{ seq := s.nextSeq, thr := w.thr, func := func, f := f }] })).retired w 8 id))))
    form (.mm i f) 0 ∧ form (.mmX2 i f) 1 ∧ form (.mmX3 i f) 2) ∧
  (∀ (s : State) (c : CoreIx) (op : MatOp) (rest : List MatOp),
    (s.core c).mq = op :: rest → op.f.acc.toNat < (slotShare (s.core c).mode op.thr).2 →
    let w : Who := ⟨c, op.thr⟩
    let k := (slotShare (s.core c).mode op.thr).1 + op.f.acc.toNat
    let x := (s.core c).slot k
    let a := (s.thread w).tile op.f.ta
    let b := (s.thread w).tile op.f.tb
    let steps (i j : Nat) := elementSteps op.func op.f { rows := a.rows, side := a.side } { rows := b.rows, side := b.side } i j
    let value (i j : Nat) : F32 := (steps i j).zipIdx.foldl (fun y t =>
      (evalStep t.1 (if t.2 = 0 ∧ op.f.ovw = true then Option.none else some (ofF32 y).1)).y) (Sparse.get 0 x.el (32 * i + j))
    let blocked := (s.core c).retry.isSome = true ∨ x.sending ≠ 0
    (blocked ∨ 64 ≤ x.log.length → exec (.matrixQueueIssue c Option.none) s = .next s) ∧
    (¬blocked → x.log.length < 64 → (s.thread w).loads = [] → (s.thread w).haltReq = Option.none → (∀ u, (s.thread w).hold ≠ .due u) →
      ∃ t, exec (.matrixQueueIssue c Option.none) s = .next t ∧ (t.core c).mq = rest ∧
        (let y := (t.core c).slot k
         y.live = true ∧ y.unchk = true ∧ y.log.length = x.log.length + 1 ∧
         (∀ i j, i < 32 → j < 32 → Sparse.get 0 y.el (32 * i + j) =
           if i ≤ op.f.mf.toNat ∧ j ≤ op.f.nf.toNat then value i j else Sparse.get 0 x.el (32 * i + j))) ∧
        (∀ j, j ≠ k → (t.core c).slot j = (s.core c).slot j) ∧ (t.thread w).pc = (s.thread w).pc ∧
        (∀ r, (t.thread w).reg r = (s.thread w).reg r) ∧ s.sameMemory t) ∧
    ((s.core c).retry = Option.none → x.log.length < 64 → exec (.checkpoint c) s = .next s) ∧
    ((s.core c).retry = Option.none → 64 ≤ x.log.length → x.compare = Option.none →
      ∃ t, exec (.checkpoint c) s = .next t ∧ (t.core c).mq = op :: rest ∧ ((t.core c).slot k).log = [] ∧ ((t.core c).slot k).el = x.el ∧
        ((t.core c).slot k).unchk = false ∧ s.sameMemory t))

/-- R108, R111, R112, R146, R150, R152: the acc instructions on a slot that passes its comparison, or that needs none. acc.chk clears UNCHK; acc.row reads a row
into a vector register, lane j = column j; acc.rmax the maximum of each row; acc.spill writes the 4 KiB of the slot and leaves it EMPTY, or with keep as a new
baseline; acc.fill loads the slot from 4 KiB of local store; acc.send hands four tiles of 8 rows to the reduction its handle names. A slot outside the share
traps 0x03.
R107: what a write of ACC_SPLIT does.
R150, R154, R156, R157, R159: on the first mismatch the slot is recomputed from its last baseline. If the recomputed slot passes, the instruction that waited completes
and ACC_CHKSTAT records outcome 0b01; if it does not, the owner takes trap 0x08: the core is fenced with the recomputed slot in place, and outcome 0b10 stands in
ACC_CHKSTAT. A shadow that ECC cannot correct is outcome 0b11 (R156).
The model's own choices in it: logs 4, 26, 32, 46. -/
def Obligations.Accumulators : Prop :=
  (∀ (s : State) (i : Iss) (acc : BitVec 4) (rx vd row : BitVec 5) (keep : Bool), s.ready i true = true →
    let w := i.who
    let c := w.core
    let h := s.thread w
    let sh := slotShare (s.core c).mode w.thr
    let k := sh.1 + acc.toNat
    let x := (s.core c).slot k
    let off := (h.reg rx).toNat
    let l : Loc := .ls c ((s.core c).lsBase.toNat * 4096 + off)
    let el (t : State) (r j : Nat) : F32 := Sparse.get 0 ((t.core c).slot k).el (32 * r + j)
    let after (t : State) : Prop := (t.thread w).pc = h.pc + 8 ∧ (∀ r, (t.thread w).reg r = h.reg r) ∧ (∀ j, j ≠ k → (t.core c).slot j = (s.core c).slot j)
    (sh.2 ≤ acc.toNat → ∀ cm ∈ [Instr.accSpill i acc rx keep, .accFill i acc rx, .accSend i acc rx, .accChk i acc, .accRow i acc vd row, .accRmax i acc vd],
      exec cm s = .next (s.settle w true (.trap s { code := 0x03, detail := acc.zeroExtend 16 }))) ∧
    (acc.toNat < sh.2 → s.slotBusy w acc k = false →
      (x.compare = Option.none →
        (∃ t, exec (.accChk i acc) s = .next t ∧ after t ∧ ((t.core c).slot k).unchk = false ∧ ((t.core c).slot k).live = x.live ∧
          ((t.core c).slot k).el = x.el ∧ ((t.core c).slot k).log = [] ∧ s.sameMemory t)) ∧
      (x.compare = Option.none ∨ x.unchk = false →
        (∃ t, exec (.accRow i acc vd row) s = .next t ∧ after t ∧ ((t.core c).slot k).el = x.el ∧ ((t.core c).slot k).unchk = false ∧
          (∀ j, j < 32 → ((t.thread w).vec vd).extractLsb' (32 * j) 32 = el s row.toNat j) ∧ (∀ v, v ≠ vd → (t.thread w).vec v = h.vec v) ∧
          s.sameMemory t) ∧
        (∃ t, exec (.accRmax i acc vd) s = .next t ∧ after t ∧ ((t.core c).slot k).el = x.el ∧
          (∀ r, r < 32 → ((t.thread w).vec vd).extractLsb' (32 * r) 32 =
            (toF32 (((List.range 32).map (fun j => (ofF32 (el s r j)).1)).foldl Num.max .nan)).1) ∧ s.sameMemory t)) ∧
      (x.compare = Option.none → off % 64 = 0 → off + 4096 ≤ (s.core c).lsLimit.toNat * 4096 →
        s.watchpoint w false (h.reg rx) 4096 false true = Option.none → Sparse.wf {} s.cores = true →
        ∃ t, exec (.accSpill i acc rx keep) s = .next t ∧ after t ∧
          (t.readLoc l 4096) = (List.range 1024).flatMap (fun e => toBytes (Sparse.get (0 : F32) x.el e).toNat 4) ∧
          (∀ l', ¬(l'.sameUnit l = true ∧ l.off ≤ l'.off ∧ l'.off < l.off + 4096) → t.byteAt l' = s.byteAt l') ∧
          (if keep then ((t.core c).slot k).el = x.el ∧ ((t.core c).slot k).live = x.live else (t.core c).slot k = {})) ∧
      (off % 64 = 0 → off + 4096 ≤ (s.core c).lsLimit.toNat * 4096 → s.watchpoint w false (h.reg rx) 4096 true false = Option.none →
        s.poisoned l 4096 = false →
        ∃ t, exec (.accFill i acc rx) s = .next t ∧ after t ∧ ((t.core c).slot k).live = true ∧ ((t.core c).slot k).unchk = false ∧
          (∀ r j, r < 32 → j < 32 → el t r j = BitVec.ofNat 32 (leNat (s.readLoc (.ls c ((s.core c).lsBase.toNat * 4096 + off + 128 * r + 4 * j)) 4))) ∧
          s.sameMemory t) ∧
      (∀ (target : BitVec 22) (ctx : BitVec 4) (epoch : BitVec 16), x.compare = Option.none → handleBad (h.reg rx) = false →
        (s.core c).resolve ((h.reg rx).extractLsb' 0 8) ((h.reg rx).extractLsb' 8 8) = some (target, ctx, epoch) →
        s.mine target = true → s.present (idCore target) = true →
        ∃ t, exec (.accSend i acc rx) s = .next t ∧ after t ∧ ((t.core c).slot k).sending = 4 ∧ s.sameMemory t ∧
          ∃ q0 q1 q2 q3, t.contribs = s.contribs ++ [q0, q1, q2, q3] ∧
            (∀ p ∈ [(q0, 0), (q1, 1), (q2, 2), (q3, 3)], p.1.sender = w ∧ p.1.target = idCore target ∧ p.1.ctx = ctx ∧ p.1.epoch = epoch ∧
              p.1.q = BitVec.ofNat 2 p.2 ∧ p.1.block = (h.reg rx).extractLsb' 32 16 ∧ p.1.rank = (h.reg rx).extractLsb' 16 12 ∧
              p.1.gen = (h.reg rx).extractLsb' 56 8 ∧ p.1.data = (List.range 256).map (fun e => Sparse.get 0 x.el (256 * p.2 + e)))))) ∧
  (∀ (s : State) (v : Via) (c : CoreIx) (val : Word),
    let x := s.core c
    let mode : BitVec 2 := val.extractLsb' 0 2
    let err := x.splitErr && !(val.getLsbD 8)
    let idle := (∀ k, x.slot k = {}) ∧ x.mq = []
    (Sparse.wf {} x.slots = true →
      (mode = x.mode → exec (.accSplitWrite v c val) s = .next (s.modCore c (fun x => { x with splitErr := err }))) ∧
      (mode ≠ x.mode → mode ≠ 3 → idle →
        exec (.accSplitWrite v c val) s = .next (s.modCore c (fun x => { x with splitErr := err, mode := mode }))) ∧
      (mode ≠ x.mode → mode = 3 ∨ ¬idle → exec (.accSplitWrite v c val) s = .next (s.modCore c (fun x => { x with splitErr := true }))))) ∧
  (∀ (s : State) (c : CoreIx) (r : Retry), (s.core c).retry = some r →
    let w : Who := ⟨c, r.thr⟩
    let x := (s.core c).slot r.slot
    let fresh : Slot := Slot.baseline { x with el := x.shadow }
    let kept := (s.core c).chkstat.extractLsb' 14 2 = 2 ∨ (s.core c).chkstat.extractLsb' 14 2 = 3
    let stat (outcome : Nat) : BitVec 17 := BitVec.ofNat 17 (2 ^ 16 + outcome * 2 ^ 14 + r.thr.toNat * 2 ^ 12 + r.slot * 2 ^ 8 + b2n r.col * 2 ^ 5 + r.line.toNat)
    let fails (cm : Instr) (el : Sparse F32) (outcome : Nat) : Prop := ∃ t, exec cm s = .next t ∧ (t.core c).fenced = true ∧
      (t.core c).retry = Option.none ∧ (∀ j, (t.thread ⟨c, j⟩).state = .fenced) ∧ (t.thread w).cause.extractLsb' 0 8 = 0x08 ∧
      ((t.core c).slot r.slot).el = el ∧ (t.core c).chkstat = (if kept then (s.core c).chkstat else stat outcome)
    (∀ (flip : Option Flip) (u : Upset), (s.core c).fenced = false → fails (.checkRetry c ⟨flip, true, u⟩) x.el 3) ∧
    ∀ (flip : Option Flip) (y : Slot) (fl : BitVec 9), s.replay c r.slot flip 0 .none 0 x.log (.going fresh 0 0) = (.going y fl 0, s) →
      (y.compare = Option.none → r.flush = .chk → (s.thread w).haltReq = Option.none → (s.thread w).stepping = false →
        ∃ t, exec (.checkRetry c ⟨flip, false, .none⟩) s = .next t ∧ (t.core c).retry = Option.none ∧ ((t.core c).slot r.slot).el = y.el ∧
          ((t.core c).slot r.slot).unchk = false ∧ (t.thread w).pc = (s.thread w).pc + 8 ∧
          (t.core c).chkstat = (if kept then (s.core c).chkstat else stat 1) ∧ s.sameMemory t) ∧
      (y.compare ≠ Option.none → (s.core c).fenced = false → fails (.checkRetry c ⟨flip, false, .none⟩) y.el 2))

/-- R134 to R136, R165, R166, R168, R172: the lane operations. Each active lane takes the exact result of its operation rounded once to the lane's format, an
integer maximum or minimum for the fixed-point formats, or the source with its sign bit cleared or inverted; the others keep their value or become zero. The flags of
the active lanes are added to THR_FPSTAT. A format the operation does not list traps 0x01.
R175, R176: the vector fixed-point operations. Narrow lanes act as the scalar operations of R71; the wide formats keep lane l of the pair VD, VD + 1 in
containers of 32 or 64 bits, 24 or 40 bits wide. The active lanes' clamps and wraps are recorded in THR_FXSTAT. An odd pair traps 0x01.
The model's own choices in it: logs 13, 64, 65. -/
def Obligations.VectorArithmetic : Prop :=
  (∀ (s : State) (i : Iss) (f : VecF), s.ready i true = true → f.imm = 0 →
    let h := s.thread i.who
    let fl := f.fmt = 0 ∨ f.fmt = 1
    let fx := f.fmt = 2 ∨ f.fmt = 3
    let w := if f.fmt = 0 ∨ f.fmt = 3 then 32 else 16
    let n := if f.fmt = 0 ∨ f.fmt = 3 then 32 else 64
    let on (l : Nat) : Bool := (h.pred f.pred).getLsbD l
    let src (r : BitVec 5) (l : Nat) : Sys2Proof.Machine.Num × BitVec 9 := laneNum f.fmt (lane (h.vec r) w l).toNat
    let int (r : BitVec 5) (l : Nat) : Int := (lane (h.vec r) w l).toInt
    let gives (c : Instr) (val : Nat → BitVec w) (flags : Nat → BitVec 9) : Prop := ∃ t, exec c s = .next t ∧
      s.vectorDone t i.who [f.vd] [] ∧
      (∀ l, l < n → lane ((t.thread i.who).vec f.vd) w l = if on l then val l else if f.zm then 0 else lane (h.vec f.vd) w l) ∧
      (t.thread i.who).fpstat = ((List.range n).filter on).foldl (fun a l => a ||| flags l) h.fpstat
    let num (c : Instr) (op : Nat → Sys2Proof.Machine.Num) (flags : Nat → BitVec 9) : Prop :=
      gives c (fun l => BitVec.ofNat w (laneRound f.fmt (op l)).1) (fun l => (laneRound f.fmt (op l)).2 ||| flags l)
    let two (l : Nat) : BitVec 9 := (src f.vs1 l).2 ||| (src f.vs2 l).2
    let bad (c : Instr) : Prop := exec c s = .next (s.settle i.who true (.trap s { code := 0x01, detail := 0x38 }))
    (fl → num (.vadd i f) (fun l => (src f.vs1 l).1.add (src f.vs2 l).1) two ∧ num (.vsub i f) (fun l => (src f.vs1 l).1.add (src f.vs2 l).1.neg) two ∧
      num (.vmul i f) (fun l => (src f.vs1 l).1.mul (src f.vs2 l).1) two ∧
      num (.vfma i f) (fun l => ((src f.vs1 l).1.mul (src f.vs2 l).1).add (src f.vs3 l).1) (fun l => two l ||| (src f.vs3 l).2) ∧
      num (.vmax i f) (fun l => (src f.vs1 l).1.max (src f.vs2 l).1) two ∧ num (.vmin i f) (fun l => (src f.vs1 l).1.min (src f.vs2 l).1) two ∧
      gives (.vabs i f) (fun l => lane (h.vec f.vs1) w l &&& ~~~(BitVec.ofNat w (2 ^ (w - 1)))) (fun _ => 0) ∧
      gives (.vneg i f) (fun l => lane (h.vec f.vs1) w l ^^^ BitVec.ofNat w (2 ^ (w - 1))) (fun _ => 0)) ∧
    (fx → gives (.vmax i f) (fun l => BitVec.ofInt w (max (int f.vs1 l) (int f.vs2 l))) (fun _ => 0) ∧
      gives (.vmin i f) (fun l => BitVec.ofInt w (min (int f.vs1 l) (int f.vs2 l))) (fun _ => 0)) ∧
    (¬fl → bad (.vadd i f) ∧ bad (.vsub i f) ∧ bad (.vmul i f) ∧ bad (.vfma i f) ∧ bad (.vabs i f) ∧ bad (.vneg i f)) ∧
    (¬fl → ¬fx → bad (.vmax i f) ∧ bad (.vmin i f))) ∧
  (∀ (s : State) (i : Iss) (f : VecF), s.ready i true = true → f.imm = 0 →
    let h := s.thread i.who
    let on (l : Nat) : Bool := (h.pred f.pred).getLsbD l
    let bad (c : Instr) : Prop := exec c s = .next (s.settle i.who true (.trap s { code := 0x01, detail := 0x38 }))
    let flags (n : Nat) (r : Nat → Int × Fit) (t : State) : Prop :=
      (t.thread i.who).fxstat = ((List.range n).filter on).foldl (fun a l =>
        match (r l).2 with | .fits => a | .clamped => a ||| 2 | .wrapped => a ||| 1) h.fxstat
    let narrow (c : Instr) (op : Nat → Int → Int → Int) : Prop :=
      let w := if f.fmt = 3 then 32 else 16
      let n := if f.fmt = 3 then 32 else 64
      let r (l : Nat) := fitSigned f.sat w (op w (lane (h.vec f.vs1) w l).toInt (lane (h.vec f.vs2) w l).toInt)
      (f.fmt = 2 ∨ f.fmt = 3 → ∃ t, exec c s = .next t ∧ s.vectorDone t i.who [f.vd] [] ∧ flags n r t ∧
        ∀ l, l < n → lane ((t.thread i.who).vec f.vd) w l =
          if on l then BitVec.ofInt w (r l).1 else if f.zm then 0 else lane (h.vec f.vd) w l) ∧
      (f.fmt ≠ 2 → f.fmt ≠ 3 → bad c)
    let b := if f.fmt = 4 then 16 else 32
    let k := if f.fmt = 4 then 24 else 40
    let c := 2 * b
    let n := 1024 / b
    let wide (h : Thread) (r : BitVec 5) (l : Nat) : BitVec k :=
      (if l < 512 / b then lane (h.vec r) c l else lane (h.vec (r + 1)) c (l - 512 / b)).truncate k
    let pair (cm : Instr) (new : Nat → Int) : State → Prop := fun t => exec cm s = .next t ∧ s.vectorDone t i.who [f.vd, f.vd + 1] [] ∧
      ∀ l, l < n → wide (t.thread i.who) f.vd l = if on l then BitVec.ofInt k (new l) else if f.zm then 0 else wide h f.vd l
    let even (r : BitVec 5) := r.getLsbD 0 = false
    let wf := f.fmt = 4 ∨ f.fmt = 5
    narrow (.vqAdd i f) (fun _ x y => x + y) ∧ narrow (.vqSub i f) (fun _ x y => x - y) ∧
    narrow (.vqMul i f) (fun w x y => roundShift f.rnd (x * y) (w - 1)) ∧
    (let r (l : Nat) := fitSigned f.sat k ((wide h f.vd l).toInt +
       roundShift f.rnd ((lane (h.vec f.vs1) b l).toInt * (lane (h.vec f.vs2) b l).toInt) (b - 1))
     wf → even f.vd → ∃ t, pair (.vqMac i f) (fun l => (r l).1) t ∧ flags n r t) ∧
    (let r (l : Nat) := fitSigned f.sat b (wide h f.vs1 l).toInt
     wf → even f.vs1 → ∃ t, exec (.vqExt i f) s = .next t ∧ s.vectorDone t i.who [f.vd] [] ∧ flags n r t ∧
       ∀ l, l < n → lane ((t.thread i.who).vec f.vd) b l = if on l then BitVec.ofInt b (r l).1 else if f.zm then 0 else lane (h.vec f.vd) b l) ∧
    (wf → even f.vd → ∃ t, pair (.vqClr i f) (fun _ => 0) t) ∧
    (¬wf ∨ ¬even f.vd → bad (.vqMac i f) ∧ bad (.vqClr i f)) ∧ (¬wf ∨ ¬even f.vs1 → bad (.vqExt i f)))

/-- R165, R166, R168: the vector compares write one bit of a predicate p1 to p7 for each active lane, vbcast copies a scalar into the active lanes, vext reads
the lane its immediate names into a general register. Naming p0, a lane beyond the last or a wide format traps 0x01.
R178: a reduction takes the active lanes through the fixed pairwise tree, rounding each sum, into lane 0 of VD, whose other lanes become zero, and into
the scalar destination, a BF16 result as FP32.
The model's own choices in it: logs 13, 34. -/
def Obligations.VectorReductions : Prop :=
  (∀ (s : State) (i : Iss) (f : VecF), s.ready i true = true →
    let h := s.thread i.who
    let fx := f.fmt = 2 ∨ f.fmt = 3
    let w := if f.fmt = 0 ∨ f.fmt = 3 then 32 else 16
    let n := if f.fmt = 0 ∨ f.fmt = 3 then 32 else 64
    let on (l : Nat) : Bool := (h.pred f.pred).getLsbD l
    let num (r : BitVec 5) (l : Nat) : Sys2Proof.Machine.Num := (laneNum f.fmt (lane (h.vec r) w l).toNat).1
    let int (r : BitVec 5) (l : Nat) : Int := (lane (h.vec r) w l).toInt
    let bad (c : Instr) : Prop := exec c s = .next (s.settle i.who true (.trap s { code := 0x01, detail := 0x38 }))
    let cmp (c : Instr) (fl : Sys2Proof.Machine.Num → Sys2Proof.Machine.Num → Bool) (q : Int → Int → Bool) : Prop :=
      (f.imm = 0 → f.fmt.toNat ≤ 3 → 1 ≤ f.vd.toNat → f.vd.toNat ≤ 7 → ∃ t, exec c s = .next t ∧ s.vectorDone t i.who [] [] ∧
        (∀ l, l < n → ((t.thread i.who).pred (f.vd.truncate 3)).getLsbD l =
          if on l then (if fx then q (int f.vs1 l) (int f.vs2 l) else fl (num f.vs1 l) (num f.vs2 l))
          else !f.zm && (h.pred (f.vd.truncate 3)).getLsbD l) ∧
        (∀ p, p ≠ f.vd.truncate 3 → (t.thread i.who).pred p = h.pred p)) ∧
      (f.vd = 0 ∨ 8 ≤ f.vd.toNat ∨ 4 ≤ f.fmt.toNat ∨ f.imm ≠ 0 → bad c)
    cmp (.vcmpEq i f) Sys2Proof.Machine.Num.same (fun a b => a == b) ∧ cmp (.vcmpLt i f) (fun a b => a.below b && !a.same b) (fun a b => decide (a < b)) ∧
    cmp (.vcmpLe i f) (fun a b => (a.below b && !a.same b) || a.same b) (fun a b => decide (a ≤ b)) ∧
    (f.imm = 0 → f.fmt.toNat ≤ 3 → ∃ t, exec (.vbcast i f) s = .next t ∧ s.vectorDone t i.who [f.vd] [] ∧
      ∀ l, l < n → lane ((t.thread i.who).vec f.vd) w l =
        if on l then (h.reg f.gs).truncate w else if f.zm then 0 else lane (h.vec f.vd) w l) ∧
    (f.imm.toNat < n → f.fmt.toNat ≤ 3 → exec (.vext i f) s =
      .next (s.retired i.who 8 (fun h => h.setReg f.vs3 ((lane (h.vec f.vs1) w f.imm.toNat).zeroExtend 64)))) ∧
    (4 ≤ f.fmt.toNat → bad (.vbcast i f) ∧ bad (.vext i f)) ∧ (n ≤ f.imm.toNat → bad (.vext i f)) ∧ (f.imm ≠ 0 → bad (.vbcast i f))) ∧
  (∀ (s : State) (i : Iss) (f : VecF), s.ready i true = true → f.imm = 0 → f.fmt = 0 ∨ f.fmt = 1 →
    let h := s.thread i.who
    let w := if f.fmt = 0 then 32 else 16
    let n := if f.fmt = 0 then 32 else 64
    let xs : List (Option (Sys2Proof.Machine.Num × BitVec 9)) := (List.range n).map (fun l =>
      if (h.pred f.pred).getLsbD l then some (laneNum f.fmt (lane (h.vec f.vs1) w l).toNat) else Option.none)
    let red (c : Instr) (op : Sys2Proof.Machine.Num → Sys2Proof.Machine.Num → Sys2Proof.Machine.Num × BitVec 9) (empty : Sys2Proof.Machine.Num) : Prop :=
      let r := (treeReduce op 6 xs).getD (empty, 0)
      let bits := (laneRound f.fmt r.1).1
      ∃ t, exec c s = .next t ∧ s.vectorDone t i.who [f.vd] [f.vs3] ∧ (t.thread i.who).vec f.vd = BitVec.ofNat 1024 bits ∧
        (f.vs3 ≠ 0 → (t.thread i.who).reg f.vs3 = BitVec.ofNat 64 (if f.fmt = 0 then bits else bits * 65536)) ∧
        (t.thread i.who).fpstat = h.fpstat ||| r.2
    red (.vredSum i f) (fun x y => ((laneNum f.fmt (laneRound f.fmt (x.add y)).1).1, (laneRound f.fmt (x.add y)).2)) (.fin false 0 0) ∧
    red (.vredMax i f) (fun x y => (x.max y, 0)) (.inf true) ∧ red (.vredMin i f) (fun x y => (x.min y, 0)) (.inf false))

/-- R179: the reductions with no active lane. -/
def Obligations.EmptyReductions : Prop :=
  ∀ (s : State) (i : Iss) (f : VecF), s.ready i true = true → f.imm = 0 →
    (f.fmt = 0 ∧ (∀ l, l < 32 → ((s.thread i.who).pred f.pred).getLsbD l = false)) ∨
      (f.fmt = 1 ∧ (∀ l, l < 64 → ((s.thread i.who).pred f.pred).getLsbD l = false)) →
    let gives (c : Instr) (x : BitVec 16) : Prop := ∃ t, exec c s = .next t ∧ s.vectorDone t i.who [f.vd] [f.vs3] ∧
      (t.thread i.who).vec f.vd = (if f.fmt = 0 then x.zeroExtend 1024 <<< 16 else x.zeroExtend 1024) ∧
      (f.vs3 ≠ 0 → (t.thread i.who).reg f.vs3 = x.zeroExtend 64 <<< 16)
    gives (.vredSum i f) 0x0000 ∧ gives (.vredMax i f) 0xFF80 ∧ gives (.vredMin i f) 0x7F80

/-- R174, R177, R180, R181: the special functions, the conversions, vquant and vsmx complete in any state the thread may issue in. A special function takes each
active FP32 lane through the function of that name; a conversion rounds each lane once; vquant leaves the elements of one block and its scale; vsmx leaves the
probabilities, the running maximum and sum in the two lanes its immediate names, and the factor in the scalar destination. Any other format or immediate traps 0x01.
R177: the special inputs and the fixed results of the special functions, with the flags they set.
The model's own choices in it: logs 7, 13, 34, 65. -/
def Obligations.VectorFunctions : Prop :=
  (∀ (s : State) (i : Iss) (f : VecF), s.ready i true = true →
    let h := s.thread i.who
    let w := i.who
    let on (l : Nat) : Bool := (h.pred f.pred).getLsbD l
    let x (l : Nat) : F32 := lane (h.vec f.vs1) 32 l
    let put (c : Instr) (k n : Nat) (val : Nat → Nat) (flags : Nat → BitVec 9) : Prop :=
      exec c s = .next (s.retired w 8 (fun h => (h.setVec f.vd (vecOf k ((List.range n).map (fun l =>
        if on l then val l else if f.zm then 0 else (lane (h.vec f.vd) k l).toNat)))).fpFlag
          (((List.range n).filter on).foldl (fun a l => a ||| flags l) 0)))
    let bad (c : Instr) (opc : BitVec 16) : Prop := exec c s = .next (s.settle w true (.trap s { code := 0x01, detail := opc }))
    let fn (c : Instr) (g : F32 → F32 × BitVec 9) : Prop :=
      (f.fmt = 0 → f.imm = 0 → put c 32 32 (fun l => (g (x l)).1.toNat) (fun l => (g (x l)).2)) ∧ (f.fmt ≠ 0 ∨ f.imm ≠ 0 → bad c 0x39)
    fn (.vexp2 i f) sfuExp2 ∧ fn (.vlog2 i f) sfuLog2 ∧ fn (.vrcp i f) sfuRcp ∧ fn (.vrsqrt i f) sfuRsqrt ∧ fn (.vtanh i f) sfuTanh ∧ fn (.vsigm i f) sfuSigm ∧
    (f.fmt = 0 → f.imm = 0 →
      let y (l : Nat) : Sys2Proof.Machine.Num × BitVec 9 := ofF32 (if l < 32 then x l else lane (h.vec f.vs2) 32 (l - 32))
      put (.vcvt i f) 16 64 (fun l => (roundNum 8 (y l).1).1) (fun l => (y l).2 ||| (roundNum 8 (y l).1).2)) ∧
    (f.fmt = 1 → f.imm = 0x7000 ∨ f.imm = 0x7001 →
      let y (l : Nat) : Sys2Proof.Machine.Num × BitVec 9 := ofBf16 (lane (h.vec f.vs1) 16 (32 * (f.imm.toNat % 2) + l))
      put (.vcvt i f) 32 32 (fun l => (roundNum 24 (y l).1).1) (fun l => (y l).2 ||| (roundNum 24 (y l).1).2)) ∧
    (¬(f.fmt = 0 ∧ f.imm = 0) → ¬(f.fmt = 1 ∧ (f.imm = 0x7000 ∨ f.imm = 0x7001)) → bad (.vcvt i f) 0x39) ∧
    (let code : BitVec 4 := f.imm.extractLsb' 12 4
     let ok := f.fmt = 0 ∧ f.imm.toNat % 4096 = 0 ∧ 1 ≤ code.toNat ∧ code.toNat ≤ 6
     (ok →
       let ys := (List.range 32).map (fun l => if on l then ofF32 (x l) else (.fin false 0 0, 0))
       let q := quantise code f.sat (ys.map (fun y => y.1))
       let k := if code.toNat ≤ 3 then 8 else if code.toNat ≤ 5 then 6 else 4
       exec (.vquant i f) s = .next (s.retired w 8 (fun h =>
         ((h.setVec f.vd (vecOf k q.1)).setReg f.vs3 (BitVec.ofNat 64 q.2.1)).fpFlag (ys.foldl (fun a y => a ||| y.2) q.2.2)))) ∧
     (¬ok → bad (.vquant i f) 0x39)) ∧
    (f.fmt = 0 → f.imm.toNat < 16 →
      let r := 2 * f.imm.toNat
      let z := softmax ((List.range 32).map (fun l => if on l then some (x l) else Option.none)) ((h.reg f.gs).truncate 32)
        (lane (h.vec f.vs2) 32 r) (lane (h.vec f.vs2) 32 (r + 1))
      exec (.vsmx i f) s = .next (s.retired w 8 (fun h =>
        let h := h.setVec f.vd (vecOf 32 (z.p.map BitVec.toNat))
        let h := h.setVec f.vs2 (vecOf 32 ((List.range 32).map (fun k =>
          if k = r + 1 then z.l.toNat else if k = r then z.m.toNat else (lane (h.vec f.vs2) 32 k).toNat)))
        (h.setReg f.vs3 (z.c.zeroExtend 64)).fpFlag z.fl))) ∧
    (f.fmt ≠ 0 ∨ 16 ≤ f.imm.toNat → bad (.vsmx i f) 0x38)) ∧
  (∀ x : F32,
    let a := x &&& 0x7FFFFFFF#32
    let fin (lo : Nat) : Prop := lo ≤ x.toNat ∧ x.toNat < 0x7F800000
    let fns := [sfuExp2, sfuLog2, sfuRcp, sfuRsqrt, sfuTanh, sfuSigm]
    (0x7F800000 < a.toNat → ∀ g ∈ fns, g x = (0x7FC00000#32, 0)) ∧
    sfuExp2 0xFF800000#32 = (0, 0) ∧ sfuExp2 0x7F800000#32 = (0x7F800000#32, 0) ∧ (fin 0x43000000 → sfuExp2 x = (0x7F800000#32, fpFovf)) ∧
    sfuLog2 0 = (0xFF800000#32, 0) ∧ sfuLog2 0x80000000#32 = (0xFF800000#32, 0) ∧ sfuLog2 0x7F800000#32 = (0x7F800000#32, 0) ∧
    (0x80800000 ≤ x.toNat → x.toNat ≤ 0xFF800000 → sfuLog2 x = (0x7FC00000#32, 0) ∧ sfuRsqrt x = (0x7FC00000#32, 0)) ∧
    (∀ neg : BitVec 1, sfuRcp (neg ++ 0#31) = (neg ++ 0x7F800000#31, 0) ∧ sfuRcp (neg ++ 0x7F800000#31) = (neg ++ 0#31, 0) ∧
      sfuRsqrt (neg ++ 0#31) = (neg ++ 0x7F800000#31, 0) ∧ sfuTanh (neg ++ 0x7F800000#31) = (neg ++ 0x3F800000#31, 0)) ∧
    sfuRsqrt 0x7F800000#32 = (0, 0) ∧
    (a = 0 ∨ (0x00800000 ≤ a.toNat ∧ a.toNat < 0x39800000) → sfuTanh x = (x, 0)) ∧
    (0x41100000 ≤ a.toNat → a.toNat < 0x7F800000 → sfuTanh x = ((x &&& 0x80000000#32) ||| 0x3F800000#32, 0)) ∧
    sfuSigm 0x7F800000#32 = (0x3F800000#32, 0) ∧ sfuSigm 0xFF800000#32 = (0, 0) ∧ (fin 0x41880000 → sfuSigm x = (0x3F800000#32, 0)))

/-- R62, R166, R173: vld asks for the 128 bytes of a vector register and goes on; vst writes the bytes of the active lanes. The address is the base plus 128 times the
signed immediate, or with POST the base itself, which then steps by that much.
The model's own choices in it: logs 13, 34, 48. -/
def Obligations.VectorMemory : Prop :=
  ∀ (s : State) (i : Iss) (f : VecF) (l : Loc) (page : Option Nat), s.ready i true = true →
    f.fmt.toNat ≤ 5 → f.vs1 = 0 → f.vs2.extractLsb' 2 3 = 0 →
    let w := i.who
    let h := s.thread w
    let g := f.vs2.getLsbD 0
    let post := f.vs2.getLsbD 1
    let next := h.reg f.gs + f.imm.signExtend 64 * 128
    let a := if post then h.reg f.gs else next
    let upd : Option Word := if post then some next else Option.none
    let width := if f.fmt = 1 ∨ f.fmt = 2 then 2 else if f.fmt = 5 then 8 else 4
    let on (b : Nat) : Bool := (h.pred f.pred).getLsbD (b / width)
    let bytes : List (Option Byte) := (List.range 128).map (fun b => if on b then some (lane (h.vec f.vd) 8 b) else Option.none)
    let at_ (k : Access) : Prop := s.place w g k false a 128 = .at_ l page ∧ l.here = true ∧
      s.watchpoint w g a 128 (decide (k = .read)) (decide (k = .write)) = Option.none
    (a.toNat % 128 = 0 → at_ .read → (∀ d o, l ≠ .loft d o) →
      let rd : RFlight := ⟨s.nextSeq, w, l, 128, a, page, Option.none, 0, 128, Option.none, .no, Option.none⟩
      ∃ t m, exec (.vld i f) s = .next t ∧ t.reads = s.reads ++ [rd] ∧ (t.thread w).pc = h.pc + 8 ∧
        (t.thread w).loads = [{ pc := h.pc, long := true, kind := .vector f.vd m f.zm, parts := [.wait s.nextSeq], upd := upd.map (fun v => (f.gs, v)) }] ∧
        (∀ b, b < 128 → lane m 8 b = if on b then 0xFF else 0) ∧ (∀ r, (t.thread w).reg r = h.reg r) ∧ s.sameMemory t) ∧
    (a.toNat % 128 = 0 → at_ .read → ∀ d o, l = .loft d o →
      let rd (k : Nat) : RFlight :=
        ⟨s.nextSeq + k, w, .loft d (o + 64 * k), 64, a + BitVec.ofNat 64 (64 * k), page, Option.none, 0, 64, Option.none, .no, Option.none⟩
      ∃ t, exec (.vld i f) s = .next t ∧ t.reads = s.reads ++ [rd 0, rd 1] ∧ (t.thread w).pc = h.pc + 8 ∧
        (t.thread w).loads.map (fun x => x.parts) = [[.wait s.nextSeq, .wait (s.nextSeq + 1)]] ∧ s.sameMemory t) ∧
    (a.toNat % 128 = 0 → at_ .write → (∀ b < 128, on b = false) →
      exec (.vst i f) s = .next (s.retired w 8 (fun h => h.rebase f.gs upd))) ∧
    (a.toNat % 128 = 0 → at_ .write → (∃ b < 128, on b = true) → (∃ o, l = .ls w.core o) →
      exec (.vst i f) s = .next ((s.perform l bytes).retired w 8 (fun h => h.rebase f.gs upd))) ∧
    (a.toNat % 128 = 0 → at_ .write → (∃ b < 128, on b = true) → (∀ o, l ≠ .ls w.core o) →
      ∃ t, exec (.vst i f) s = .next t ∧ (t.thread w).pc = h.pc + 8 ∧ (t.thread w).pend = h.pend + 1 ∧
        t.writes = s.writes ++ [{ seq := s.nextSeq, source := .port w.core, src := some w, dma := Option.none, loc := l, bytes, page, red := Option.none }] ∧ s.sameMemory t) ∧
    (a.toNat % 128 ≠ 0 → s.watchpoint w g a 128 true false = Option.none → s.watchpoint w g a 128 false true = Option.none →
      let t := s.settle w true (.trap s { code := 0x05, detail := 128, tval := a })
      exec (.vld i f) s = .next t ∧ exec (.vst i f) s = .next t)

/-- R290, R291, R320: OPEN opens a closed queue whose size is 4 to 4096 slots and whose ring ends within the local store, and sets ERR for another one;
CLOSE stops acceptance; RESET closes, empties and increments the epoch. A write of QUE_RING or QUE_CTL changes base, class and size only of a queue that is
closed and empty, and sets ERR otherwise. A read of QUE_DROP answers the three counts and clears them, unless it came by the debug path.
R291, R314: a sel.q that waits completes with CLOSED when a close or a reset leaves every queue of its mask closed and empty, and goes on waiting
otherwise.
The model's own choices in it: log 4. -/
def Obligations.QueueWords : Prop :=
  (∀ (s : State) (v : Via) (c : CoreIx) (q : BitVec 4) (val : Word),
    let x := s.queue c q
    let sets (cm : Instr) (y : Queue) : Prop := ∃ t, exec cm s = .next t ∧ t.queue c q = y ∧ s.onlyQueue t c q
    let fits := 2 ≤ x.slots.toNat ∧ x.slots.toNat ≤ 12 ∧ 256 * x.base.toNat + 264 * 2 ^ x.slots.toNat ≤ 8388608
    let idle := x.opn = false ∧ x.occ = 0
    let cls := val.getLsbD 8
    let slots : BitVec 4 := val.extractLsb' 4 4
    let base : BitVec 15 := val.extractLsb' 8 15
    let err := x.err && !(val.getLsbD 1)
    (x.opn = true → sets (.queOpen v c q) x) ∧
    (x.opn = false → fits → sets (.queOpen v c q) { x with opn := true }) ∧
    (x.opn = false → ¬fits → sets (.queOpen v c q) { x with err := true }) ∧
    ((∀ t m r gd vr tmo k g, (s.thread ⟨c, t⟩).hold ≠ .sel m r gd vr tmo k g) →
      sets (.queClose v c q) { x with opn := false } ∧
      sets (.queReset v c q) { x with opn := false, head := x.tail, occ := 0, epoch := x.epoch + 1 }) ∧
    (cls = x.cls ∧ slots = x.slots → sets (.queConfigWrite v c q true val) { x with err := err }) ∧
    (¬(cls = x.cls ∧ slots = x.slots) → idle → sets (.queConfigWrite v c q true val) { x with cls := cls, slots := slots, err := err }) ∧
    (¬(cls = x.cls ∧ slots = x.slots) → ¬idle → sets (.queConfigWrite v c q true val) { x with err := true }) ∧
    (base = x.base → sets (.queConfigWrite v c q false val) x) ∧
    (base ≠ x.base → idle → sets (.queConfigWrite v c q false val) { x with base := base }) ∧
    (base ≠ x.base → ¬idle → sets (.queConfigWrite v c q false val) { x with err := true }) ∧
    ∃ t, exec (.queDropRead v c q) s = .next t ∧
      t.dict.rdata = (0 : BitVec 16) ++ x.full ++ x.stale ++ x.closed ∧
      t.queue c q = (if v = .debug then x else { x with full := 0, stale := 0, closed := 0 }) ∧
      s.onlyQueue { t with dict := s.dict } c q) ∧
  (∀ (s : State) (v : Via) (w : Who) (q : BitVec 4) (mask : BitVec 16) (rot : Bool) (gd vr : BitVec 5) (tmo : BitVec 16) (k : Nat) (g : Option (BitVec 4)),
    (∀ t, (s.thread ⟨w.core, t⟩).undisturbed) → (s.thread w).hold = .sel mask rot gd vr tmo k g →
    let shut (empties : Prop) : Prop := ∀ p, mask.getLsbD p.toNat = true →
      (if p = q then empties else (s.queue w.core p).opn = false ∧ (s.queue w.core p).occ = 0)
    let wakes (cm : Instr) (empties : Prop) : Prop :=
      (shut empties → ∃ t, exec cm s = .next t ∧ s.wokeWith t w gd 4 ∧ s.sameMemory t) ∧
      (¬shut empties → ∃ t, exec cm s = .next t ∧ t.thread w = s.thread w ∧ s.sameMemory t)
    wakes (.queClose v w.core q) ((s.queue w.core q).occ = 0) ∧ wakes (.queReset v w.core q) True)

/-- R189, R301: a station entry is written only through the core window, never with KIND 3; a lane entry likewise, without a KIND. A refused write sets
STN_STAT.ERR. LS_BASE and LS_BOUND are written only from outside the core, while no thread is in RUN, WAIT or HALT, and with a window that ends within the store;
a refused write sets LS_ERR. Nothing else of the module changes.
R206, R207, R214, R375, R376, R381: a write of FEED_CTL with EN = 1 enables a disabled stream whose buffer or receiver role, tile shape, depth and target
are right, and sets CERR otherwise; to an enabled one it sets WERR. EN = 0 stops the stream: its filled tiles and its reads in flight go, and a relay target loses its
upstream, with the last of this core's tiles on the way to it. FEED_RELAY changes only while the stream is stopped. A thread writes its own descriptors only.
The model's own choices in it: logs 4, 27. -/
def Obligations.CoreTables : Prop :=
  (∀ (s : State) (v : Via) (c : CoreIx) (n : BitVec 8) (val : Word),
    let x := s.core c
    let own := ∃ t, v = .thread ⟨c, t⟩
    let sets (cm : Instr) (y : Core) : Prop := ∃ t, exec cm s = .next t ∧ t.core c = y ∧ t = { s with cores := t.cores } ∧
      ∀ e, e ≠ c → t.core e = s.core e
    let busy := ∃ t, (x.thread t).state = .run ∨ (x.thread t).state = .wait ∨ (x.thread t).state = .halt
    let base : BitVec 11 := val.extractLsb' 12 11
    let limit : BitVec 12 := val.extractLsb' 12 12
    (own ∨ val.extractLsb' 62 2 = 3 → sets (.stnEntryWrite v c n val) { x with stnErr := true }) ∧
    (¬own → val.extractLsb' 62 2 ≠ 3 → ∃ tab, sets (.stnEntryWrite v c n val) { x with stnEntry := tab } ∧
      Sparse.get 0 tab n.toNat = val &&& 0xCFFFFFCFFFFFFFFF ∧ ∀ k, k ≠ n.toNat → Sparse.get 0 tab k = Sparse.get 0 x.stnEntry k) ∧
    (own → sets (.stnLaneWrite v c n val) { x with stnErr := true }) ∧
    (¬own → ∃ tab, sets (.stnLaneWrite v c n val) { x with stnLane := tab } ∧
      Sparse.get 0 tab n.toNat = val &&& 0x8FFFFFCFFFFF0000 ∧ ∀ k, k ≠ n.toNat → Sparse.get 0 tab k = Sparse.get 0 x.stnLane k) ∧
    (own ∨ busy ∨ 2048 < base.toNat + x.lsLimit.toNat → sets (.lsWindowWrite v c false val) { x with lsErr := true }) ∧
    (¬own → ¬busy → base.toNat + x.lsLimit.toNat ≤ 2048 →
      sets (.lsWindowWrite v c false val) { x with lsBase := base, lsErr := x.lsErr && !(val.getLsbD 63) }) ∧
    (own ∨ busy ∨ 2048 < x.lsBase.toNat + limit.toNat → sets (.lsWindowWrite v c true val) { x with lsErr := true }) ∧
    (¬own → ¬busy → x.lsBase.toNat + limit.toNat ≤ 2048 → sets (.lsWindowWrite v c true val) { x with lsLimit := limit })) ∧
  (∀ (s : State) (v : Via) (c : CoreIx) (n : ThrIx) (k : BitVec 3) (val : Word),
    let w : Who := ⟨c, n⟩
    let x := s.stream w k
    let right : Prop := ∀ u, v = .thread ⟨c, u⟩ → u = n
    let sets (cm : Instr) (y : Stream) : Prop := ∃ t, exec cm s = .next t ∧ t.stream w k = y ∧ s.onlyStream t w k
    let y : Stream :=
      { x with loc := val.getLsbD 62, sc := val.getLsbD 61, fmt := val.extractLsb' 52 4, rowsf := val.extractLsb' 47 5,
               kf := val.extractLsb' 42 5, ahead := val.extractLsb' 32 4, size := val.extractLsb' 0 5 }
    let ok : Prop :=
      (x.mode = 2 ∨ x.mode = 3 ∨ (12 ≤ y.size.toNat ∧ y.size.toNat ≤ 23 ∧ y.base.toNat % 2 ^ y.size.toNat = 0 ∧
        (if y.loc then y.base.toNat + 2 ^ y.size.toNat ≤ 4096 * (s.core c).lsLimit.toNat
         else adSpace y.base ≠ 3 ∧ s.ownModule (adModule y.base) = true))) ∧
      tileShape (y.shape k) y.sc false = Option.none ∧ s.aheadOthers w k + y.ahead.toNat + 1 ≤ 16 ∧
      (x.mode = 1 ∨ x.mode = 3 → ∃ e, s.neighbour c x.dir = some e)
    let fills (f : RFlight) : Prop := f.who = w ∧ ∃ tile row piece, f.engine = some (.fill k tile row piece)
    (¬right → exec (.feedEnable v c n k val) s = .next s ∧ exec (.feedDisable v c n k) s = .next s ∧
      exec (.feedRelayWrite v c n k val) s = .next s) ∧
    (right → x.en = true → sets (.feedEnable v c n k val) { x with werr := true } ∧
      sets (.feedRelayWrite v c n k val) { x with werr := true }) ∧
    (right → x.en = false → ok → sets (.feedEnable v c n k val) { y with en := true, lost := false, tiles := [] }) ∧
    (right → x.en = false → ¬ok → sets (.feedEnable v c n k val) { x with cerr := true }) ∧
    (right → x.en = false → sets (.feedRelayWrite v c n k val)
      { x with mode := val.extractLsb' 10 2, dir := val.getLsbD 9, cons := val.getLsbD 8, tthr := val.extractLsb' 6 2, tstrm := val.extractLsb' 3 3 }) ∧
    (right → x.en = false ∨ s.relayTarget c x = Option.none → ∃ t, exec (.feedDisable v c n k) s = .next t ∧
      t.stream w k = { x with en := false, tiles := [], claim := false } ∧ s.onlyStream { t with reads := s.reads } w k ∧
      (∀ f ∈ s.reads, fills f ∨ f ∈ t.reads) ∧ ∀ f ∈ t.reads, f ∈ s.reads ∧ ¬fills f) ∧
    (∀ u j, right → x.en = true → s.relayTarget c x = some (u, j) → u ≠ w →
      let z := s.stream u j
      let ours (r : RelayFlight) : Prop := r.from_ = c ∧ r.core = u.core ∧ r.thr = u.thr ∧ r.strm = j
      let flying := ∃ r ∈ s.relays, ours r
      ∃ t, exec (.feedDisable v c n k) s = .next t ∧ (t.stream w k).en = false ∧ (t.stream w k).tiles = [] ∧ (t.stream w k).claim = false ∧
        (z.mode ≠ 3 → t.stream w k = { x with en := false, tiles := [], claim := false }) ∧
        (z.mode ≠ 2 → z.mode ≠ 3 → t.stream u j = z ∧ t.relays = s.relays) ∧
        (z.mode = 2 → ¬flying → t.stream u j = { z with lost := true } ∧ t.relays = s.relays) ∧ (z.mode = 3 → ¬flying → (t.stream u j).lost = true) ∧
        (z.mode = 2 ∨ z.mode = 3 → flying → t.stream u j = z ∧ ∃ a r b, s.relays = a ++ r :: b ∧ ours r ∧ (∀ q ∈ b, ¬ours q) ∧
          t.relays = a ++ { r with ends := true } :: b)))

/-- R267, R279, R297, R302, R308, R312, R584: snd.q resolves its station and lane, or traps 0x0F. It makes a message with the sender's ID, its own thread and the
first bytes of the vector pair, and the thread waits for the answer. The message is held back behind an earlier one of its control-class channel; else it leaves,
counted in PEND unless its target is its own core: as a packet to another module in reach, and answered CLOSED where no core answers at its target. A module
declared unreachable answers CLOSED at once. (The class of a queue of another module is a free value: log 53.)
R279, R297, R307 to R310, R318: an answer other than FULL ends the send of a thread that waits in snd.q with that status. A FULL one ends it with FULL when TMO was
0, with TIMEOUT when the time has run out, and otherwise leaves the message to its next attempt; a retry sends it again, unless the thread is asked to halt. A timeout ends
the send with TIMEOUT while the message waits for a retry, and otherwise is remembered. PEND counts an attempt while its answer is out. The end of a message lets the next
one of its channel go.
The model's own choices in it: logs 4, 10, 46, 53. -/
def Obligations.Sends : Prop :=
  (∀ (s : State) (i : Iss) (tmo : BitVec 16) (lenm1 : BitVec 8) (gd vr gs : BitVec 5), s.ready i true = true →
    let w := i.who
    let h := s.thread w
    let stn : BitVec 8 := (h.reg gs).extractLsb' 0 8
    let lane : BitVec 8 := (h.reg gs).extractLsb' 8 8
    let c : Instr := .sndQ i tmo lenm1 gd vr gs
    let r := (s.core w.core).resolve stn lane
    let k := s.nextSeq
    let pay := (toBytes (h.vec vr).toNat 128 ++ toBytes (h.vec (vr + 1)).toNat 128).take (lenm1.toNat + 1)
    (vr.getLsbD 0 = true → exec c s = .next (s.settle w true (.trap s { code := 0x01, detail := 0x3C }))) ∧
    (vr.getLsbD 0 = false → r = Option.none → exec c s = .next (s.settle w true (.trap s { code := 0x0F, detail := lane ++ stn }))) ∧
    (∀ (target : BitVec 22) (q : BitVec 4) (epoch : BitVec 16), vr.getLsbD 0 = false → r = some (target, q, epoch) →
      let own := s.mod.id ++ w.core
      let m : Msg := { seq := k, left := k, source := .port w.core, origin := .thread w, kind := 0, thr := w.thr, sender := own, target, queue := q, epoch,
                       payload := pay, oneShot := decide (tmo = 0), limit := Option.none, phase := .held, refusals := 0 }
      let waits (u : State) (left : Bool) : State := u.modThread w (fun g =>
        { g with state := .wait, hold := .snd k gd tmo false, pend := if left ∧ target ≠ own then g.pend + 1 else g.pend })
      let leaves (p : MsgPhase) : State :=
        { s with msgs := (s.msgs ++ [m]).map (fun (n : Msg) => if n.seq = k then { n with phase := p, left := k + 1 } else n), nextSeq := k + 2 }
      let mine := idModule target = s.mod.id
      let held := (if mine then (s.queue (idCore target) q).cls else Config.remoteClass target q) = true ∧
        ∃ n ∈ s.msgs, n.sender = own ∧ n.target = target ∧ n.queue = q
      let nobody := if mine then s.present (idCore target) = false
        else s.fab.unreach.contains (idModule target) = true ∨ s.fab.reach.contains (idModule target) = false
      (¬mine → s.unreachable (idModule target) = true → exec c s = .next (s.retired w 8 (fun g => g.setReg gd 4))) ∧
      (mine ∨ s.unreachable (idModule target) = false →
        (held → exec c s = .next (waits { s with msgs := s.msgs ++ [m], nextSeq := k + 1 } false)) ∧
        (¬held → nobody → exec c s = .next (waits (leaves (.answer 4)) true)) ∧
        (¬held → ¬nobody → mine → exec c s = .next (waits (leaves .flight) true)) ∧
        (¬held → ¬nobody → ¬mine → ∃ t, exec c s = .next t ∧ t.msgs = (leaves .flight).msgs ∧ t.thread w = (waits s true).thread w ∧ s.sameMemory t ∧
          ∃ o, t.fab.store = s.fab.store ++ [o] ∧ o.flight = k ∧ o.die = coreDie w.core ∧ o.pkt.kind = 4 ∧ o.pkt.dmod = idModule target ∧
            o.pkt.sid = own ∧ o.pkt.addr = target.zeroExtend 64 ∧ o.pkt.payload = toBytes m.word.toNat 8 ++ pay)))) ∧
  (∀ (s : State) (m : Msg) (w : Who) (gd : BitVec 5) (tmo : BitVec 16) (late : Bool), m ∈ s.msgs → (∀ n ∈ s.msgs, n.seq = m.seq → n = m) →
    m.origin = .thread w → (s.thread w).hold = .snd m.seq gd tmo late →
    let port := m.target ≠ m.sender
    let chan (n : Msg) : Prop := n.sender = m.sender ∧ n.target = m.target ∧ n.queue = m.queue
    let alone := ∀ n ∈ s.msgs, n.phase = .held → chan n → n.seq = m.seq
    let back : Nat := if port then (s.thread w).pend - 1 else (s.thread w).pend
    let ends (c : Instr) (v : Word) (pend : Nat) : Prop := ∃ t, exec c s = .next t ∧ s.wokeWith t w gd v ∧ (∀ n ∈ t.msgs, n.seq ≠ m.seq) ∧ s.sameMemory t ∧
      (alone → (t.thread w).pend = pend ∧ ∀ u, u ≠ w → t.thread u = s.thread u) ∧
      ((∃ n ∈ t.msgs, chan n) → ∃ n ∈ t.msgs, chan n ∧ n.phase ≠ .held)
    ((s.thread w).undisturbed → ∀ st : BitVec 3, m.phase = .answer st →
      (st ≠ 2 → ends (.sendAnswer m.seq) (st.zeroExtend 64) back) ∧
      (st = 2 → tmo = 0 → ends (.sendAnswer m.seq) 2 back) ∧
      (st = 2 → tmo ≠ 0 → late = true → ends (.sendAnswer m.seq) 3 back) ∧
      (st = 2 → tmo ≠ 0 → late = false → ∃ t, exec (.sendAnswer m.seq) s = .next t ∧ t.thread w = { s.thread w with pend := back } ∧
        t.msgs = s.msgs.map (fun (n : Msg) => if n.seq = m.seq then { n with phase := .backoff, refusals := n.refusals + 1 } else n))) ∧
    (m.phase = .backoff → (s.thread w).haltReq ≠ Option.none → exec (.sendRetry m.seq) s = .next s) ∧
    (m.phase = .backoff → (s.thread w).haltReq = Option.none → (m.late s.now = false ∨ m.oneShot = true) →
      let mine := idModule m.target = s.mod.id
      let nobody := if mine then s.present (idCore m.target) = false
        else s.fab.unreach.contains (idModule m.target) = true ∨ s.fab.reach.contains (idModule m.target) = false
      ∃ t, exec (.sendRetry m.seq) s = .next t ∧ s.sameMemory t ∧
        t.msgs = s.msgs.map (fun (n : Msg) => if n.seq = m.seq then { n with phase := (if nobody then .answer 4 else .flight), left := s.nextSeq } else n) ∧
        t.thread w = { s.thread w with pend := if port then (s.thread w).pend + 1 else (s.thread w).pend } ∧ (∀ u, u ≠ w → t.thread u = s.thread u) ∧
        (mine ∨ nobody → t.fab = s.fab) ∧ (¬mine → ¬nobody → ∃ o, t.fab.store = s.fab.store ++ [o] ∧ o.flight = m.seq ∧ o.pkt.kind = 4)) ∧
    ((s.thread w).undisturbed → tmo ≠ 0 → tmo ≠ 0xFFFF → m.phase = .backoff ∨ m.phase = .held → ends (.sndTimeout w) 3 (s.thread w).pend) ∧
    (tmo ≠ 0 → tmo ≠ 0xFFFF → m.phase ≠ .backoff → m.phase ≠ .held →
      exec (.sndTimeout w) s = .next (s.modThread w (fun h => { h with hold := .snd m.seq gd tmo true }))))

/-- R295, R312, R320, R584: a message that reaches its queue is refused STALE, CLOSED or FULL in this order of tests, and the reason is counted; a core that is absent
by then answers CLOSED; otherwise the payload and the word stand in the tail slot, TAIL and OCC advance, and the answer is 0. The answer of another core's message
travels back; a message to a queue of its own core, or from another module, is answered with its commit. A message that is not on its way, or has something of its
source before it, stays.
The model's own choices in it: logs 4, 10, 53. -/
def Obligations.MessageCommits : Prop :=
  ∀ (s : State) (m : Msg), m ∈ s.msgs → (∀ n ∈ s.msgs, n.seq = m.seq → n = m) → idModule m.target = s.mod.id →
    let c := idCore m.target
    let x := s.queue c m.queue
    let refused (st : BitVec 3) (y : Queue) : Prop := ∃ t, exec (.messageCommit m.seq) s = .next t ∧
      t.queue c m.queue = y ∧ s.onlyQueue { t with msgs := s.msgs } c m.queue ∧
      t.msgs = s.msgs.map (fun n => if n.seq = m.seq then { n with phase := .answer st } else n)
    let here := s.present c = true
    let free := m.phase = .flight ∧ s.msgBlocked m = false
    let atOnce := m.sender = m.target ∨ ∃ p d k, m.origin = .peer p d k
    (¬free → exec (.messageCommit m.seq) s = .next s) ∧
    (free → atOnce → exec (.messageCommit m.seq) s = .next ((s.commit m).2.answer m (s.commit m).1)) ∧
    (free → ¬atOnce → ¬here → refused 4 x) ∧
    (free → ¬atOnce → here → m.epoch ≠ x.epoch → refused 5 { x with stale := if x.stale = 0xFFFF then 0xFFFF else x.stale + 1 }) ∧
    (free → ¬atOnce → here → m.epoch = x.epoch → x.opn = false → refused 4 { x with closed := if x.closed = 0xFFFF then 0xFFFF else x.closed + 1 }) ∧
    (free → ¬atOnce → here → m.epoch = x.epoch → x.opn = true → 2 ^ x.slots.toNat ≤ x.occ →
      refused 2 { x with full := if x.full = 0xFFFF then 0xFFFF else x.full + 1 }) ∧
    (free → ¬atOnce → here → m.epoch = x.epoch → x.opn = true → x.occ < 2 ^ x.slots.toNat → Sparse.wf {} s.cores = true → ∃ t, exec (.messageCommit m.seq) s = .next t ∧
      t.queue c m.queue = { x with tail := (x.tail + 1) % 2 ^ x.slots.toNat, occ := x.occ + 1 } ∧
      t.msgs = s.msgs.map (fun n => if n.seq = m.seq then { n with phase := .answer 0 } else n) ∧
      (∀ j, j < 256 → x.tail < 2 ^ x.slots.toNat →
        t.byteAt (.ls c (256 * x.base.toNat + 256 * x.tail + j)) = m.payload.getD j 0) ∧
      (∀ j, j < 8 → t.byteAt (.ls c (256 * x.base.toNat + 256 * 2 ^ x.slots.toNat + 8 * x.tail + j)) = m.word.extractLsb' (8 * j) 8) ∧
      (∀ l, (∀ j, j < 256 → l ≠ .ls c (256 * x.base.toNat + 256 * x.tail + j)) →
        (∀ j, j < 8 → l ≠ .ls c (256 * x.base.toNat + 256 * 2 ^ x.slots.toNat + 8 * x.tail + j)) → t.byteAt l = s.byteAt l) ∧
      (∀ p, p ≠ m.queue → t.queue c p = s.queue c p))

/-- R313: the queue that sel.q takes from: the first masked one with a message, from queue 0 up or, with ROT, from the one after the last taken.
R306, R313 to R317: sel.q takes the head of the queue it finds, or answers CLOSED if its queues are all closed and empty, EMPTY without a timeout, or waits. A take
leaves the 256 bytes in the vector pair and frees the slot. A waiting sel.q takes likewise once no thread has waited longer for that message, the one it was given or else the first one that no other
thread was given; its timeout answers TIMEOUT if there is none. poll.q
takes the head of one queue and answers its number, its length and the occupancy, or EMPTY or CLOSED.
The model's own choices in it: logs 4, 46. -/
def Obligations.Takes : Prop :=
  (∀ (s : State) (w : Who) (mask : BitVec 16) (rot : Bool) (q : BitVec 4),
    let first := if rot then (s.thread w).rot + 1 else 0
    let ready (p : BitVec 4) : Prop := mask.getLsbD p.toNat = true ∧ (s.queue w.core p).occ ≠ 0
    s.selPick w mask rot = some q ↔ ready q ∧ ∀ p, (p - first).toNat < (q - first).toNat → ¬ready p) ∧
  (∀ (s : State) (i : Iss) (tmo mask : BitVec 16) (rot : Bool) (q : BitVec 4) (gd vr : BitVec 5),
    let w := i.who
    let x := s.queue w.core q
    let slot (n : Nat) : Loc := .ls w.core (256 * x.base.toNat + n)
    let pay := s.readLoc (slot (256 * x.head)) 256
    let word := BitVec.ofNat 64 (leNat (s.readLoc (slot (256 * 2 ^ x.slots.toNat + 8 * x.head)) 8))
    let readable := s.watchSlot w q = Option.none ∧ s.poisoned (slot (256 * x.head)) 256 = false ∧
      s.poisoned (slot (256 * 2 ^ x.slots.toNat + 8 * x.head)) 8 = false ∧ word.extractLsb' 62 2 ≠ 2 ∧
      ∀ t, t ≠ w.thr → (s.thread ⟨w.core, t⟩).undisturbed
    let takes (c : Instr) (v : Word) (r : BitVec 4) : Prop := ∃ t, exec c s = .next t ∧ s.wokeWith t w gd v ∧
      t.queue w.core q = { x with head := (x.head + 1) % 2 ^ x.slots.toNat, occ := x.occ - 1 } ∧
      (t.thread w).vec vr = BitVec.ofNat 1024 (leNat (pay.take 128)) ∧ (t.thread w).vec (vr + 1) = BitVec.ofNat 1024 (leNat (pay.drop 128)) ∧
      (∀ u, u ≠ vr → u ≠ vr + 1 → (t.thread w).vec u = (s.thread w).vec u) ∧ (t.thread w).rot = r ∧ s.sameMemory t ∧
      (∀ p, p ≠ q → t.queue w.core p = s.queue w.core p)
    let selV := (word.extractLsb' 8 56 : BitVec 56) ++ q ++ (0 : BitVec 4)
    let r := if rot then q else (s.thread w).rot
    (s.ready i true = true →
      (vr.getLsbD 0 = true ∨ mask = 0 → exec (.selQ i tmo mask rot gd vr) s = .next (s.settle w true (.trap s { code := 0x01, detail := 0x3C }))) ∧
      (vr.getLsbD 0 = false → s.selPick w mask rot = some q → readable → takes (.selQ i tmo mask rot gd vr) selV r) ∧
      (vr.getLsbD 0 = false → mask ≠ 0 → s.selPick w mask rot = Option.none →
        let shut := s.selClosed w mask
        (shut = true → exec (.selQ i tmo mask rot gd vr) s = .next (s.retired w 8 (fun h => h.setReg gd 4))) ∧
        (shut = false → tmo = 0 → exec (.selQ i tmo mask rot gd vr) s = .next (s.retired w 8 (fun h => h.setReg gd 1))) ∧
        (shut = false → tmo ≠ 0 → exec (.selQ i tmo mask rot gd vr) s = .next
          (({ s with nextSeq := s.nextSeq + 1 } : State).modThread w
            (fun h => { h with state := .wait, hold := .sel mask rot gd vr tmo s.nextSeq Option.none })))) ∧
      (vr.getLsbD 0 = true → exec (.pollQ i q gd vr) s = .next (s.settle w true (.trap s { code := 0x01, detail := 0x3C }))) ∧
      (vr.getLsbD 0 = false → x.occ = 0 → exec (.pollQ i q gd vr) s = .next (s.retired w 8 (fun h => h.setReg gd
        ((0 : BitVec 56) ++ q ++ (if x.opn then 1 else 4 : BitVec 4))))) ∧
      (vr.getLsbD 0 = false → x.occ ≠ 0 → readable → takes (.pollQ i q gd vr)
        (BitVec.ofNat 48 x.occ ++ (word.extractLsb' 8 8 : BitVec 8) ++ q ++ (0 : BitVec 4)) (s.thread w).rot)) ∧
    (∀ (u : Upset) (k : Nat) (g : Option (BitVec 4)), (s.thread w).undisturbed → (s.thread w).hold = .sel mask rot gd vr tmo k g → vr.getLsbD 0 = false →
      (s.selTake w mask rot = some q → s.selFirst w q k = true → readable →
        takes (.selWakeTake w .none) selV r ∧ (tmo ≠ 0xFFFF → takes (.selTimeout w) selV r)) ∧
      (s.selTake w mask rot = some q → s.selFirst w q k = false → exec (.selWakeTake w u) s = .next s ∧ exec (.selTimeout w) s = .next s) ∧
      (s.selTake w mask rot = Option.none → exec (.selWakeTake w u) s = .next s ∧
        (tmo ≠ 0xFFFF → ∃ t, exec (.selTimeout w) s = .next t ∧ s.wokeWith t w gd 3 ∧ s.sameMemory t)) ∧
      ((∀ t m r gd' vr' tmo' k' g', (s.thread ⟨w.core, t⟩).hold = .sel m r gd' vr' tmo' k' g' → t = w.thr) →
        s.selTake w mask rot = (match g with
          | some p => if (s.queue w.core p).occ ≠ 0 then some p else s.selPick w mask rot
          | Option.none => s.selPick w mask rot) ∧
        s.selFirst w q k = true)))

/-- R208, R209, R216: an enabled stream that owns its source, holds fewer than AHEAD + 1 tiles, has tiles left of COUNT and no deferred one starts the fill of
the next tile, TSTEP behind the last; the fill of a stream in the local store leaves each row as it stands at POS plus its multiple of RSTRIDE in the ring;
a sync.e or a halt that waits for the fill goes on.
R377 to R379, R381, R382: a sending stream passes its next complete tile to its target while that has room, and frees it, POS and COUNT going on, or keeps it until
the thread has consumed it; toward a fenced core the tile is lost. Of the tiles a core could send in one direction the one that has waited longest goes, then the
lower thread's, then the lower stream's. A tile that arrives joins the target stream if it is enabled for the trace and is the oldest from that core on its way.
The model's own choices in it: logs 4, 10, 27. -/
def Obligations.StreamFills : Prop :=
  (∀ (s : State) (c : CoreIx) (n : ThrIx) (k : BitVec 3),
    let w : Who := ⟨c, n⟩
    let x := s.stream w k
    let ahead := (x.tiles.filter (fun y => !y.consumed)).length
    let may := x.en = true ∧ (x.mode = 0 ∨ x.mode = 1) ∧ x.tiles.length ≤ x.ahead.toNat ∧ (x.count = 0xFFFFFFFF ∨ ahead < x.count.toNat) ∧
      (∀ y ∈ x.tiles, y.consumed = false → y.defer = Option.none) ∧ (s.core c).fenced = false
    let rb := tileRowBytes (x.shape k) x.sc
    (¬may → exec (.outriderFill c n k) s = .next s) ∧
    (may → ∃ t y, exec (.outriderFill c n k) s = .next t ∧ t.nextSeq = s.nextSeq + 1 ∧
      t.stream w k = { x with tiles := x.tiles ++ [y] } ∧ y.id = s.nextSeq ∧ y.ready = false ∧
      (y.pos : Int) = (x.pos.toNat + ahead * x.tstep.toInt) % 2 ^ x.size.toNat ∧ s.onlyStream { t with nextSeq := s.nextSeq } w k) ∧
    ((∀ y ∈ x.tiles, y.ready = true) → ∀ u, exec (.outriderFillReturn c n k u) s = .next s) ∧
    (∀ a y b, x.tiles = a ++ y :: b → (∀ z ∈ a, z.ready = true) → (∀ z ∈ a, z.id ≠ y.id) → y.ready = false → x.loc = true → 0 < rb →
      x.base.toNat + 2 ^ x.size.toNat ≤ 4096 * (s.core c).lsLimit.toNat → x.base.toNat + 2 ^ x.size.toNat < 2 ^ 64 →
      let at_ (r : Nat) : Nat := ringRow x y.pos r
      let place (r : Nat) : Loc := .ls c (4096 * (s.core c).lsBase.toNat + (x.base.toNat + at_ r))
      (∀ r, r ≤ x.rowsf.toNat → at_ r + rb ≤ 2 ^ x.size.toNat ∧ s.poisoned (place r) rb = false) →
      ∃ t, exec (.outriderFillReturn c n k .none) s = .next ((t.settleHold w).haltIfAsked w) ∧
        t.stream w k = { x with tiles := a ++ { y with ready := true, defer := Option.none, since := s.time, rows := (List.range (x.rowsf.toNat + 1)).map (fun r => s.readLoc (place r) rb) } :: b } ∧ s.sameMemory t)) ∧
  (∀ (s : State) (c : CoreIx) (n : ThrIx) (k : BitVec 3),
    let w : Who := ⟨c, n⟩
    let x := s.stream w k
    (∀ a y b u j, x.tiles = a ++ y :: b → (∀ z ∈ a, z.sent = true) → y.sent = false → s.relayTarget c x = some (u, j) → u ≠ w → x.mode = 1 ∨ (x.mode = 3 ∧ x.lost = false) →
      let load := (s.stream u j).tiles.length + (s.relays.filter (fun r => decide (r.core = u.core ∧ r.thr = u.thr ∧ r.strm = j))).length
      let gone := (s.core u.core).fenced
      let turn := ∀ t' j' z p, s.relayNext ⟨c, t'⟩ j' = some (z, p) → (s.stream ⟨c, t'⟩ j').dir = x.dir →
        y.since < z.since ∨ (y.since = z.since ∧ 8 * n.toNat + k.toNat ≤ 8 * t'.toNat + j'.toNat)
      let may := x.en = true ∧ y.ready = true ∧ y.defer = Option.none ∧ (gone = true ∨ load ≤ (s.stream u j).ahead.toNat) ∧ turn
      let marked := x.tiles.map (fun t => if t.id = y.id then { t with sent := true } else t)
      let left (z : Stream) : Prop :=
        (x.cons = true → z = { x with tiles := marked.filter (fun t => !(t.sent && t.consumed)) }) ∧
        (x.cons = false → x.count = 0xFFFFFFFF ∨ 1 < x.count.toNat →
          z.tiles = x.tiles.filter (fun t => t.id ≠ y.id) ∧ z.pos.toNat = (x.pos.toNat + x.tstep.toNat) % 2 ^ x.size.toNat % 2 ^ 23 ∧
          z.count = (if x.count = 0xFFFFFFFF then x.count else x.count - 1)) ∧
        (x.cons = false → x.count = 1 → z.tiles = [] ∧ z.count = 0)
      (¬may → exec (.relaySend c n k) s = .next s) ∧
      (may → gone = true → ∃ t, exec (.relaySend c n k) s = .next t ∧ left (t.stream w k) ∧ t.relays = s.relays) ∧
      (may → gone = false → ∃ t, exec (.relaySend c n k) s = .next t ∧ left (t.stream w k) ∧ s.sameMemory t ∧
        t.relays = s.relays ++ [{ seq := s.nextSeq, from_ := c, core := u.core, thr := u.thr, strm := j, ends := false,
                                  tile := { y with consumed := false, sent := false } }])) ∧
    ((∀ y ∈ x.tiles, y.sent = true) → exec (.relaySend c n k) s = .next s) ∧
    (∀ r ∈ s.relays, (∀ q ∈ s.relays, q.seq = r.seq → q = r) →
      let u : Who := ⟨r.core, r.thr⟩
      let z := s.stream u r.strm
      let first := ∀ q ∈ s.relays, q.from_ = r.from_ → q.core = r.core → q.thr = r.thr → q.strm = r.strm → r.seq ≤ q.seq
      let open_ := z.en = true ∧ (z.mode = 2 ∨ z.mode = 3)
      let tiles := if open_ then z.tiles ++ [{ r.tile with since := s.time }] else z.tiles
      let lost := z.lost || (r.ends && decide (z.mode = 2 ∨ z.mode = 3))
      (¬first → exec (.relayTileArrival r.seq) s = .next s) ∧
      (first → (z.mode = 3 → lost = false) → ∃ t, exec (.relayTileArrival r.seq) s = .next t ∧
        t.stream u r.strm = { z with tiles := tiles, lost := lost } ∧
        (∀ q, q ∈ t.relays ↔ q ∈ s.relays ∧ q ≠ r) ∧ s.onlyStream { t with relays := s.relays } u r.strm) ∧
      (first → z.mode = 3 → lost = true → ∃ t, exec (.relayTileArrival r.seq) s = .next t ∧
        (t.stream u r.strm).tiles = tiles ∧ (t.stream u r.strm).lost = true)))

/-- R65, R196, R199, R248, R266: a performed write changes the bytes it writes and no other, clears the reservations on the 64-byte lines it touches, ends the poison
of the 64-bit words it writes in full, and closes the merge entries of those Loft lines.
R266, R272, R276, R278, R361: a write that nothing older of its source to the same destination precedes is performed at its place in this module, and its
acknowledgement starts back; one to a control word takes that word's effect. The acknowledgement lowers THR_PEND, and a fence that waits for no more ends; for a
forwarded block it counts at its context, if that still has the same arming. A write to another module waits for its packets.
The model's own choices in it: logs 4, 10. -/
def Obligations.Writes : Prop :=
  (∀ (s : State) (l : Loc) (bs : List (Option Byte)), l.here = true → Sparse.wf {} s.cores = true →
    (∀ c, Sparse.wf {} (s.core c).threads = true) →
    let t := s.perform l bs
    let puts (p : Nat) : Prop := ∃ b, byteFor l.off bs p = some b
    let hits (line : Nat) : Prop := ∃ j, j < 64 ∧ puts (64 * line + j)
    s.wrote t l bs ∧
    (∀ w, t.thread w = { s.thread w with resv := (t.thread w).resv }) ∧
    (∀ w r, (s.thread w).resv = some r → (r.sameUnit l = true ∧ hits (r.off / 64) → (t.thread w).resv = Option.none) ∧
      (¬(r.sameUnit l = true ∧ hits (r.off / 64)) → (t.thread w).resv = some r)) ∧
    (∀ w, (s.thread w).resv = Option.none → (t.thread w).resv = Option.none) ∧
    (∀ k, ((∀ j, j < 8 → puts (8 * k + j)) → Sparse.get false (t.poisonOf l) k = false) ∧
      (¬(∀ j, j < 8 → puts (8 * k + j)) → Sparse.get false (t.poisonOf l) k = Sparse.get false (s.poisonOf l) k)) ∧
    ∀ d m, m ∈ (t.die d).merges ↔ m ∈ (s.die d).merges ∧ ¬(∃ o, l = .loft d o ∧ hits m.line)) ∧
  (∀ (s : State),
    (∀ x ∈ s.writes, (∀ y ∈ s.writes, y.seq = x.seq → y = x) → x.loc.here = true →
      (s.writeBlocked x = true → exec (.writeArrival x.seq) s = .next s) ∧
      (s.writeBlocked x = false → exec (.writeArrival x.seq) s =
        let rest := s.writes.filter (fun y => y.seq ≠ x.seq)
        .next (({ s with writes := rest, acks := s.acks ++ [AckFlight.mk x.seq x.src x.loc x.red] } : State).perform x.loc x.bytes))) ∧
    (∀ x ∈ s.writes, (∀ y ∈ s.writes, y.seq = x.seq → y = x) →
      (∀ m a, x.loc = .remote m a → exec (.writeArrival x.seq) s = .next s) ∧
      (∀ c o, x.loc = .ctl c o →
        let val := wordOfWrite x.bytes
        (s.writeBlocked x = true ∨ s.ctlWaits x.via c o val = true → exec (.writeArrival x.seq) s = .next s) ∧
        (s.writeBlocked x = false → s.ctlWaits x.via c o val = false → exec (.writeArrival x.seq) s =
          .next (({ s with writes := s.writes.filter (fun y => y.seq ≠ x.seq), acks := s.acks ++ [AckFlight.mk x.seq x.src x.loc x.red] } : State).ctlWrite
            x.via c o val)))) ∧
    (∀ a ∈ s.acks, (∀ b ∈ s.acks, b.seq = a.seq → b = a) →
      let rest := s.acks.filter (fun b => b.seq ≠ a.seq)
      (∀ w, a.src = some w → exec (.writeAckArrival a.seq) s =
        .next (((({ s with acks := rest } : State).modThread w (fun h => { h with pend := h.pend - 1 })).settleHold w).haltIfAsked w)) ∧
      (a.src = Option.none → a.red = Option.none → exec (.writeAckArrival a.seq) s = .next { s with acks := rest }) ∧
      (∀ c x n, a.src = Option.none → a.red = some (c, x, n) → exec (.writeAckArrival a.seq) s = .next (({ s with acks := rest } : State).modCore c (fun k =>
        { k with red := Sparse.upd {} k.red x.toNat (fun y => if y.run = n then { y with fwdUnacked := y.fwdUnacked - 1 } else y) }))) ∧
      (∀ w, a.src = some w → (s.thread w).memHold = .none → (s.thread w).haltReq = Option.none →
        exec (.writeAckArrival a.seq) s = .next (({ s with acks := rest } : State).modThread w (fun h => { h with pend := h.pend - 1 }))) ∧
      (∀ w lvl n, a.src = some w → (s.thread w).memHold = .fence lvl n → (s.thread w).haltReq = Option.none → s.matrixBusy w n = false →
        (∀ x ∈ s.writes, x.src = some w → n ≤ x.seq) → (∀ b ∈ rest, b.src = some w → n ≤ b.seq) → (∀ m ∈ s.msgs, m.origin = .thread w → n ≤ m.seq) →
        exec (.writeAckArrival a.seq) s = .next (({ s with acks := rest } : State).modThread w
          (fun h => { h with pend := h.pend - 1, memHold := .none })))))

/-- R75: after a cache operation that covers the line of a fill in flight, the fill's data goes to the thread that requested it and is not installed in the cache. -/
def Obligations.FillsCancelled : Prop :=
  ∀ (s v : State) (i : Iss) (rs1 rs2 rd : BitVec 5) (f : RFlight) (tag size : Nat) (b signed : Bool) (op : LoadOp) (c : Instr), s.ready i false = true → f ∈ s.reads →
    f.fill = some (tag, b) → f.who.core = i.who.core →
    let a := (s.thread i.who).reg rs1
    let len := ((s.thread i.who).reg rs2).toNat
    let line (k : Nat) : Nat := (s.lineTag a * 64 + a.toNat % 64 + k) / 64
    let g : RFlight := { f with fill := some (tag, false) }
    c = .cacheInvall i ∨ (c = .cacheInv i rs1 rs2 ∧ ∃ k, k < len ∧ line k = tag) →
    (∃ t, exec c s = .next t ∧ g ∈ t.reads ∧ ∀ e ∈ t.reads, e.fill ≠ some (tag, true) ∨ e.who.core ≠ i.who.core) ∧
    (g ∈ v.reads → (∀ e ∈ v.reads, e.seq = g.seq → e = g) → (g.loc.here = true ∧ ∀ d o, g.loc ≠ .loft d o) → g.atom = Option.none → g.engine = Option.none →
      v.readReady g = true → v.poisoned g.part g.take = false → (v.thread g.who).loads = [op] → op.kind = .scalar rd size signed → op.parts = [.wait g.seq] → op.upd = Option.none →
      (size = 1 ∨ size = 2 ∨ size = 4 ∨ size = 8) → g.take = size → g.skip + size ≤ g.len → (v.thread g.who).undisturbed →
      ∃ t, exec (.cacheFillReturn g.seq ⟨.none, false⟩) v = .next t ∧ (t.core g.who.core).dcache = (v.core g.who.core).dcache ∧
        (t.thread g.who).reg rd = (if rd = 0 then 0 else widen (((v.readLoc g.loc g.len).drop g.skip).take size) size signed) ∧ (t.thread g.who).loads = [] ∧ g ∉ t.reads)

/-- R196 to R199: the first read of a Loft line opens a merge entry with the line and its poisoned words; further reads take their bytes from it, until 32 requesters
have joined or it closes 8 M-cycles after it opened. A read whose own words are poisoned answers 0x0A. One that something older precedes waits.
R187, R196, R249: a patrol scrub passes over the next 64 bytes of its memory, the last followed by the first. A word found uncorrectable there is poisoned,
in a local store with the core fenced, in a Loft with the line's merge entry closed; one corrected there counts in its frame.
The model's own choices in it: logs 4, 10, 35. -/
def Obligations.LoftAndScrubs : Prop :=
  (∀ (s : State) (f : RFlight) (d : DieIx) (off : Nat), f ∈ s.reads → (∀ g ∈ s.reads, g.seq = f.seq → g = f) → f.loc = .loft d off →
    off % 64 + f.len ≤ 64 →
    let line := off / 64
    let merges := (s.die d).merges
    let goes := f.got = .no ∧ f.atom = Option.none ∧ s.readReady f = true
    let back (t : State) (data : List Byte) (bad : List Nat) : State :=
      let got : Got := if (wordsOf (off % 64 + f.skip) f.take).any (fun k => bad.contains k) then .trap { code := 0x0A, detail := 5, tval := f.addr }
        else .bytes ((data.drop (off % 64)).take f.len)
      { t with reads := t.reads.map (fun (g : RFlight) => if g.seq = f.seq then { g with got := got } else g) }
    (¬goes → exec (.loftReadArrival f.seq) s = .next s) ∧
    (goes → (∀ m ∈ merges, m.line = line → 32 ≤ m.joined) →
      let data := s.readLoc (.loft d (64 * line)) 64
      let bad := (List.range 8).filter (fun k => Sparse.get false (s.die d).loftPoison (8 * line + k))
      exec (.loftReadArrival f.seq) s = .next (back (s.modDie d (fun x =>
        { x with merges := merges.filter (fun k => k.line ≠ line) ++ [{ line := line, joined := 1, data := data, poison := bad }] })) data bad)) ∧
    (∀ a m b, goes → merges = a ++ m :: b → (∀ k ∈ a, k.line ≠ line ∨ 32 ≤ k.joined) → m.line = line → m.joined < 32 →
      exec (.loftReadArrival f.seq) s = .next (back ((s.modDie d (fun x =>
        { x with merges := a ++ { m with joined := m.joined + 1 } :: b })).countDie d (0x610 + line / 2 ^ 23 % 4) 1) m.data m.poison)) ∧
    ∀ n, exec (.mergeEntryClose d n) s = .next (s.modDie d (fun x => { x with merges := x.merges.filter (fun m => m.line ≠ n) }))) ∧
  (∀ (s : State) (c : CoreIx) (d : DieIx) (slice : BitVec 2),
    let kl := (s.core c).lsScrub
    let ks := Sparse.get 0 (s.die d).loftScrub slice.toNat
    let kh := (s.die d).hbmScrub
    let kd := (s.die d).ddrScrub
    let n := (s.die d).ddrBytes / 64
    let poisons (cm : Instr) (l : Loc) (P : State → Prop) : Prop := ∃ t, exec cm s = .next t ∧ P t ∧
      ∃ j, j < 8 ∧ Sparse.get false (t.poisonOf l) (l.off / 8 + j) = true
    exec (.lsPatrolScrub c .none) s = .next (s.modCore c (fun x => { x with lsScrub := (kl + 1) % 131072 })) ∧
    exec (.loftPatrolScrub d slice .none) s =
      .next (s.modDie d (fun x => { x with loftScrub := Sparse.put 0 x.loftScrub slice.toNat ((ks + 1) % 2 ^ 23) })) ∧
    exec (.memPatrolScrub d false .none) s = .next (s.modDie d (fun x => { x with hbmScrub := (kh + 1) % (2 ^ 38 / 64) })) ∧
    exec (.lsPatrolScrub c .corrected) s = .next (s.modCore c (fun x => { x with lsScrub := (kl + 1) % 131072 })) ∧
    exec (.loftPatrolScrub d slice .corrected) s = .next (s.modDie d (fun x =>
      { x with merges := x.merges.filter (fun m => m.line ≠ (slice.toNat * 2 ^ 29 + 64 * ks) / 64),
               loftScrub := Sparse.put 0 x.loftScrub slice.toNat ((ks + 1) % 2 ^ 23) })) ∧
    exec (.memPatrolScrub d false .corrected) s =
      .next ((s.countCorrected (.hbm d (64 * kh))).modDie d (fun x => { x with hbmScrub := (kh + 1) % (2 ^ 38 / 64) })) ∧
    (n ≠ 0 → exec (.memPatrolScrub d true .corrected) s =
      .next ((s.countCorrected (.ddr d (64 * kd))).modDie d (fun x => { x with ddrScrub := (kd + 1) % n }))) ∧
    (n = 0 → ∀ u, exec (.memPatrolScrub d true u) s = .next s) ∧
    (n ≠ 0 → exec (.memPatrolScrub d true .none) s = .next (s.modDie d (fun x => { x with ddrScrub := (kd + 1) % n }))) ∧
    poisons (.lsPatrolScrub c .uncorrectable) (.ls c (64 * kl)) (fun t => (t.core c).fenced = true ∧
      (t.core c).lsScrub = (kl + 1) % 131072 ∧ ((∀ n, (s.thread ⟨c, n⟩).bound = [] ∧ (s.thread ⟨c, n⟩).taken = []) → s.sameMemory t)) ∧
    poisons (.loftPatrolScrub d slice .uncorrectable) (.loft d (slice.toNat * 2 ^ 29 + 64 * ks))
      (fun t => s.sameMemory t ∧ Sparse.get 0 (t.die d).loftScrub slice.toNat = (ks + 1) % 2 ^ 23 ∧ ∀ m ∈ (t.die d).merges, m.line ≠ (slice.toNat * 2 ^ 29 + 64 * ks) / 64) ∧
    poisons (.memPatrolScrub d false .uncorrectable) (.hbm d (64 * kh)) (fun t => s.sameMemory t ∧ (t.die d).hbmScrub = (kh + 1) % (2 ^ 38 / 64)) ∧
    (n ≠ 0 → poisons (.memPatrolScrub d true .uncorrectable) (.ddr d (64 * kd)) (fun t => s.sameMemory t ∧ (t.die d).ddrScrub = (kd + 1) % n)))

/-- R221, R222, R226, R227: a write of GO to a channel that is QUEUED, ACTIVE or HALTED sets WERR. Otherwise TAG and NTF are taken and the activation is checked, for the
core of the team whose thread writes GO or else the one whose window it comes through: alignment, then shape, then the local-store bounds, then the notification's
station. The channel is QUEUED at the end of the team's order, or REJECTED with the lowest failing check.
R232, R233: RESUME lets a HALTED head channel go on from its granule in a new run, SKIP ends it SKIPPED, and both are discarded with CERR on a team whose head is not
HALTED. ABORT ends every channel of the order ABORTED. A channel that is active, or of which writes are still under way, ends once they are performed.
The model's own choices in it: logs 4, 28. -/
def Obligations.DmaStarts : Prop :=
  (∀ (s : State) (v : Via) (c : CoreIx) (ch : BitVec 3) (val : Word),
    let t := coreTeam c
    let x := s.chan t ch
    let by_ : Option Who := match v with
      | .thread w => if coreTeam w.core = t then some w else Option.none
      | _ => Option.none
    let a : CoreIx := match by_ with
      | some w => w.core
      | Option.none => c
    let ntf := val.getLsbD 1
    let sides := [x.desc.read, x.desc.write]
    let bound : Int := 4096 * (s.core a).lsLimit.toNat
    let bad1 := ∃ y ∈ sides, y.start.toNat % 64 ≠ 0 ∨ y.stride.toNat % 64 ≠ 0 ∨ y.len % 64 ≠ 0
    let bad2 := (∃ y ∈ sides, y.len = 0 ∨ y.count = 0) ∨ x.desc.read.len * x.desc.read.count ≠ x.desc.write.len * x.desc.write.count
    let bad3 := ∃ y ∈ sides, y.loc = true ∧ ∃ n : Nat, n < y.count ∧
      (y.start.toNat + n * y.stride.toInt < 0 ∨ bound < y.start.toNat + n * y.stride.toInt + y.len)
    let bad4 := ntf = true ∧ (s.core a).resolve (x.notify.extractLsb' 0 8) (x.notify.extractLsb' 8 8) = Option.none
    let rejects (code : BitVec 4) : Prop := ∃ u, exec (.dmaGo v c ch val) s = .next u ∧ (u.chan t ch).state = 5 ∧ (u.chan t ch).code = code ∧
      (u.chan t ch).statTag = val.extractLsb' 8 8 ∧ (u.team t).order = (s.team t).order ∧ s.sameMemory u
    (x.state = 1 ∨ x.state = 2 ∨ x.state = 3 → exec (.dmaGo v c ch val) s = .next (s.modChan t ch (fun x => { x with werr := true }))) ∧
    (¬(x.state = 1 ∨ x.state = 2 ∨ x.state = 3) →
      (bad1 → rejects 1) ∧ (¬bad1 → bad2 → rejects 2) ∧ (¬bad1 → ¬bad2 → bad3 → rejects 3) ∧ (¬bad1 → ¬bad2 → ¬bad3 → bad4 → rejects 4) ∧
      (¬bad1 → ¬bad2 → ¬bad3 → ¬bad4 → exec (.dmaGo v c ch val) s = .next ((s.modChan t ch (fun x =>
        { x with tag := val.extractLsb' 8 8, statTag := val.extractLsb' 8 8, ntf := ntf, core := a.extractLsb' 0 2,
                 thr := (match by_ with | some w => w.thr | Option.none => 0), win := by_.isNone, by_ := by_, lines := 0, nstat := 0, nfail := false,
                 code := 0, state := 1, act := x.desc, lsBase := (s.core a).lsBase.toNat * 4096, moved := 0, run := x.run + 1, ending := Option.none,
                 bad := Option.none, kept := [] })).modTeam t (fun y => { y with order := y.order ++ [ch] }))))) ∧
  (∀ (s : State) (v : Via) (c : CoreIx),
    let t := coreTeam c
    let order := (s.team t).order
    let cerr := s.modTeam t (fun x => { x with cerr := true })
    let stops (u : State) (k : BitVec 3) (code : BitVec 4) : Prop :=
      let y := s.chan t k
      if y.state = 2 ∨ y.unacked ≠ 0 then
        (u.chan t k).state = 2 ∧ (u.chan t k).ending = some (y.ending.getD code) ∧ k ∈ (u.team t).order
      else (u.chan t k).state = code ∧ k ∉ (u.team t).order
    ((∀ ch, order.head? = some ch → (s.chan t ch).state ≠ 3) → exec (.dmaResume v c) s = .next cerr ∧ exec (.dmaSkip v c) s = .next cerr) ∧
    (∀ ch, order.head? = some ch → (s.chan t ch).state = 3 →
      exec (.dmaResume v c) s = .next (s.modChan t ch (fun x => { x with state := 2, run := x.run + 1 })) ∧
      ∃ u, exec (.dmaSkip v c) s = .next u ∧ stops u ch 6 ∧ s.sameMemory u) ∧
    ∃ u, exec (.dmaAbort v c) s = .next u ∧ (∀ k ∈ order, stops u k 7) ∧ s.sameMemory u)

/-- R223 to R225, R229: the head channel of a team's order becomes ACTIVE, unless its row is being quiesced, and an active one that is not to end moves granules in order:
the 64 bytes at the granule's place on the read side stand at its place on the write side, and no other byte changes; a place in another module is read and written by
packets. More granules are moved one after the other. (What a write leaves where it overlaps the read side is a free value: log 6.)
R229, R231 to R233, R235 to R237: an active channel with every write performed ends DONE once its last granule is moved, or as it is to end where an ABORT, a SKIP
or a fence asked for that, and leaves the order; a thread that waits for it in sync.e goes on when its channels have all ended. A granule that meets poison, an absent
place, a page under migration, a violation or a module declared unreachable has the fault latched: side, kind, channel, line and byte, and the address; the channel
halts at that granule, unless it is to end.
The model's own choices in it: logs 4, 6, 28. -/
def Obligations.DmaTransfers : Prop :=
  (∀ (s : State) (t : BitVec 8) (ch : BitVec 3) (rest : List (BitVec 3)), (s.team t).order = ch :: rest →
    let x := s.chan t ch
    let c : CoreIx := t ++ x.core
    let g := x.moved
    let r := x.act.read
    let d := x.act.write
    let tag : EngineRead := .dma t ch g x.run
    let issues := x.state = 2 ∧ x.ending = Option.none ∧ x.bad = Option.none
    let stands (s : State) (y : Side) (k : Access) (l : Loc) (s' : State) : Prop :=
      if y.loc then l = .ls c (x.lsBase + (y.addr g).toNat) ∧ s' = s else ∃ p, s.engineResolve c k (y.addr g) 64 = (.at_ l p, s')
    let holds (s : State) (l : Loc) (bs : List Byte) : Prop :=
      (l.here = true ∧ bs = (Sparse.find x.kept g).getD (s.readLoc l 64) ∧ (Sparse.find x.kept g = Option.none → s.poisoned l 64 = false)) ∨
      (∃ m o f, l = .remote m o ∧ s.reads.find? (fun f => f.engine = some tag ∧ f.who = ⟨c, 0⟩) = some f ∧ f.got = .bytes bs)
    let apart (s : State) (l : Loc) : Prop := ∀ k e, k < x.act.granules → s.sideLoc c x r .read k = some e → overlap l 64 e 64 = false
    let lines (u : State) : BitVec 16 := BitVec.ofNat 16 (64 * (u.dmaFlying t ch).foldl min (g + 1) / d.len)
    (x.state = 1 → s.teamQuiesced t = true → ∀ n, exec (.dmaChannelStart t n) s = .next s) ∧
    (x.state = 1 → s.teamQuiesced t = false →
      let s' := s.modChan t ch (fun x => { x with state := 2 })
      exec (.dmaChannelStart t 0) s = .next s' ∧
        (x.ending = Option.none → x.bad = Option.none → ∀ n, exec (.dmaChannelStart t n) s = exec (.dmaChannelStart t n) s')) ∧
    (x.state ≠ 1 → ¬issues → ∀ n, exec (.dmaChannelStart t n) s = .next s) ∧
    (issues → x.act.granules ≤ g → ∀ n, exec (.dmaChannelStart t n) s = .next s) ∧
    (∀ a bs b s1 s2, issues → g < x.act.granules → Sparse.wf {} s.cores = true →
      stands s r .read a s1 → holds s1 a bs → stands s1 d .write b s2 → apart s2 b →
      (b.here = true → ∃ u, exec (.dmaChannelStart t 1) s = .next u ∧ s2.wrote u b (bs.map some) ∧ (u.team t).order = ch :: rest ∧
        u.chan t ch = { x with moved := g + 1, lines := lines u } ∧ u.writes = s2.writes ∧
        ∀ n, exec (.dmaChannelStart t (n + 1)) s = exec (.dmaChannelStart t n) u) ∧
      (∀ m o, b = .remote m o → s2.unreachable m = false → ∃ u p, exec (.dmaChannelStart t 1) s = .next u ∧ s2.sameMemory u ∧
        (u.team t).order = ch :: rest ∧ u.chan t ch = { x with moved := g + 1, unacked := x.unacked + 1, lines := lines u } ∧
        u.writes = s2.writes ++ [{ seq := s2.nextSeq, source := .dma t, src := Option.none, dma := some (t, ch, g, x.run), loc := b, bytes := bs.map some,
                                   page := p, red := Option.none }] ∧
        ∀ n, exec (.dmaChannelStart t (n + 1)) s = exec (.dmaChannelStart t n) u)) ∧
    (∀ m o s1, issues → g < x.act.granules → stands s r .read (.remote m o) s1 → s1.unreachable m = false →
      s1.reads.find? (fun f => f.engine = some tag ∧ f.who = ⟨c, 0⟩) = Option.none →
      ∃ u f, exec (.dmaChannelStart t 1) s = .next u ∧ s1.sameMemory u ∧ u.chan t ch = x ∧ u.reads = s1.reads ++ [f] ∧ f.engine = some tag ∧
        f.who = ⟨c, 0⟩ ∧ f.loc = .remote m o ∧ f.len = 64 ∧ f.got = .no)) ∧
  (∀ (s : State) (t : BitVec 8) (ch : BitVec 3) (rest : List (BitVec 3)), (s.team t).order = ch :: rest →
    let x := s.chan t ch
    let c : CoreIx := t ++ x.core
    let g := x.moved
    let ends (code : BitVec 4) : Prop := ∃ u, exec (.dmaChannelDone t) s = .next u ∧ (u.chan t ch).state = code ∧
      (u.team t).order = (s.team t).order.filter (· ≠ ch) ∧ s.sameMemory u ∧
      ∀ (w : Who), coreTeam w.core = t → ∀ mask, (s.thread w).hold = .syncDma mask → u.dmaQuiet w = true →
        (∀ v : Who, coreTeam v.core = t → (s.thread v).undisturbed) → (u.thread w).state = .run ∧ (u.thread w).hold = .none ∧ (u.thread w).pc = (s.thread w).pc + 4
    let faults (s' : State) (write : Bool) (y : Side) (kind : BitVec 4) : Prop := ∃ u, exec (.dmaBusError t .none) s = .next u ∧
      (u.team t).fault = (1 : BitVec 1) ++ (if write then 1 else 0 : BitVec 1) ++ kind ++ (0 : BitVec 7) ++ ch ++ BitVec.ofNat 16 (y.line g) ++
        BitVec.ofNat 32 (y.off g) ∧
      (u.team t).faultAddr = y.addr g ∧ (u.chan t ch).moved = g ∧ (u.team t).order = ch :: rest ∧ s'.sameMemory u ∧
      (x.ending = Option.none → (u.chan t ch).state = 3) ∧ (x.ending ≠ Option.none → u.chan t ch = x)
    let fresh := Sparse.find x.kept g = Option.none
    let meets (write : Bool) (y : Side) (k : Access) : Prop :=
      (y.loc = true → write = false → fresh → s.poisoned (.ls c (x.lsBase + (y.addr g).toNat)) 64 = true → faults s write y 4) ∧
      (y.loc = false → ∀ e s', s.engineResolve c k (y.addr g) 64 = (e, s') →
        (e = .absent → faults s' write y 1) ∧ (e = .migrate → faults s' write y 2) ∧ (e = .violation → faults s' write y 3) ∧
        (e = .poisoned → faults s' write y 4) ∧
        (∀ l p, e = .at_ l p → write = false → l.here = true → fresh → s'.poisoned l 64 = true → faults s' write y 4) ∧
        (∀ m o p, e = .at_ (.remote m o) p → s'.unreachable m = true →
          (write = false → s'.reads.find? (fun f => f.engine = some (.dma t ch g x.run) ∧ f.who = ⟨c, 0⟩) = Option.none) → faults s' write y 5))
    (x.state ≠ 2 ∨ x.unacked ≠ 0 → exec (.dmaChannelDone t) s = .next (s.wakeSyncs t) ∧ ∀ u, exec (.dmaBusError t u) s = .next s) ∧
    (∀ code, x.state = 2 → x.unacked = 0 → x.ending = some code → ends code) ∧
    (x.state = 2 → x.unacked = 0 → x.ending = Option.none → x.act.granules ≤ g → ends 4) ∧
    (x.state = 2 → x.unacked = 0 → x.ending = Option.none → g < x.act.granules → exec (.dmaChannelDone t) s = .next (s.wakeSyncs t)) ∧
    (x.state = 2 → x.unacked = 0 → x.bad = Option.none → g < x.act.granules → meets false x.act.read .read ∧
      (x.act.read.loc = true → (fresh → s.poisoned (.ls c (x.lsBase + (x.act.read.addr g).toNat)) 64 = false) → meets true x.act.write .write)))

/-- R251 to R254, R258: a walk for a waiting access records the entries as it reads them: none while translation is off, the level-1 entry, and under a present one
the level-2 entry, unless its word is poisoned. In the same atomic it sets ACC in the entry of a page it maps, and BUSY in the entry of a page that migrates and is not
BUSY, once nothing older of the thread may still trap; no other byte changes. A miss of a page whose walk is in flight takes that walk's entries.
R253, R254, R258 to R260: a walk that maps the page installs the translation, unless an invalidation met it or the entry is BUSY, and lets the access go on; one that
finds the page BUSY makes it wait, until it is walked again, or traps 0x06 with KIND 3 at the limit. Any other outcome traps, once everything older of the thread is
done: 0x06 for an absent entry or a claim, with the walk in THR_XLF and THR_XPTE, 0x07 for a malformed entry or a missing permission, 0x0A for poison, each with the
address of the access; for a row of a tile load it is that load's fault.
The model's own choices in it: logs 4, 29, 56. -/
def Obligations.Translation : Prop :=
  (∀ (s : State) (w : Who) (x : Xlate), (s.thread w).hold = .xlate x → Sparse.wf {} s.cores = true →
    let wd := coreDie w.core
    let root := s.ptRoot
    let e1 := match (s.die wd).walkL1.find? (fun e => e.1 = x.page / 16384) with
      | some e => e.2
      | Option.none => BitVec.ofNat 64 (leNat (s.readLoc (.loft (root.extractLsb' 31 2) ((root.extractLsb' 16 15).toNat * 65536 + 8 * (x.page / 16384))) 8))
    let word (d : DieIx) (off : Nat) : Word := BitVec.ofNat 64 (leNat (s.readLoc (.loft d off) 8))
    let d : DieIx := e1.extractLsb' 31 2
    let off := (e1.extractLsb' 17 14).toNat * 131072 + 8 * (x.page % 16384)
    let e := word d off
    let allowed := (x.fetch = true → e.getLsbD 58 = true) ∧ (x.fetch = false → x.atomic = true → e.getLsbD 60 = true ∧ e.getLsbD 59 = true) ∧
      (x.fetch = false → x.atomic = false → x.write = true → e.getLsbD 59 = true) ∧
      (x.fetch = false → x.atomic = false → x.write = false → e.getLsbD 60 = true)
    let usable := e.getLsbD 63 = true ∧ level1Bad e1 = false ∧ level2Bad e = false ∧ allowed
    let records (r : Option Word × Option Word × DieIx × Nat) (P : State → Prop) : Prop := ∃ t, exec (.translationWalk w) s = .next t ∧
      (t.thread w).hold = .xlate { x with walked := some r, busy := false, stale := false } ∧ P t
    let sets (d : DieIx) (off bit : Nat) (t : State) : Prop := s.wrote t (.loft d off) ((toBytes (word d off ||| (1 : Word) <<< bit).toNat 8).map some)
    let lone := ∀ k, s.walkInFlight wd x.page = some k → walkOutcome x.access k.1 k.2.1 = .claim
    let older := s.mmQueued w = true ∨ (s.thread w).memHold ≠ .none ∨ 1 < (s.thread w).loads.length
    (x.walked ≠ Option.none → exec (.translationWalk w) s = .next s) ∧
    (x.walked = Option.none →
      (∀ k, s.walkInFlight wd x.page = some k → walkOutcome x.access k.1 k.2.1 ≠ .claim →
        records k (fun t => (∀ p, walkOutcome x.access k.1 k.2.1 = .mapped p → p.getLsbD 57 = false → sets k.2.2.1 k.2.2.2 56 t) ∧
          ((∀ p, walkOutcome x.access k.1 k.2.1 = .mapped p → p.getLsbD 57 = true) → s.sameMemory t))) ∧
      (lone → root.getLsbD 63 = false → records (Option.none, Option.none, 0, 0) s.sameMemory) ∧
      (lone → root.getLsbD 63 = true → e1.getLsbD 63 = false → records (some e1, Option.none, 0, 0) s.sameMemory) ∧
      (lone → root.getLsbD 63 = true → e1.getLsbD 63 = true →
        (s.poisoned (.loft d off) 8 = true → records (some e1, Option.none, d, off) s.sameMemory) ∧
        (s.poisoned (.loft d off) 8 = false →
          (¬usable → records (some e1, some e, d, off) s.sameMemory) ∧
          (usable → e.extractLsb' 61 2 ≠ 2 → e.getLsbD 57 = false → records (some e1, some e, d, off) (sets d off 56)) ∧
          (usable → e.extractLsb' 61 2 = 2 → e.getLsbD 57 = false → older → exec (.translationWalk w) s = .next s) ∧
          (usable → e.extractLsb' 61 2 = 2 → e.getLsbD 57 = false → ¬older → records (some e1, some e, d, off) (sets d off 57)) ∧
          (usable → e.getLsbD 57 = true → records (some e1, some e, d, off) s.sameMemory))))) ∧
  (∀ (s : State) (w : Who) (x : Xlate) (e1 e : Option Word) (d : DieIx) (off : Nat), (s.thread w).hold = .xlate x →
    x.walked = some (e1, e, d, off) →
    let h := s.thread w
    let out := walkOutcome x.access e1 e
    let older := s.mmQueued w = true ∨ h.memHold ≠ .none ∨ h.loads ≠ []
    let ready := x.tileRow = Option.none ∧ ¬older ∧ h.inTrap = false ∧ h.tvec ≠ 0 ∧ h.undisturbed
    let traps (c : Instr) (code : BitVec 8) (detail : BitVec 16) (xlf xpte : Word) : Prop := exec c s = .next (((s.countWasted w.core 1).leftWait w).modThread w
      (fun h => { h.unclaim with xlf := xlf, xpte := xpte, epc := h.pc, cause := detail ++ (if x.long then 1 else 0 : BitVec 8) ++ code, tval := x.tval,
                                 inTrap := true, resv := Option.none, hold := .none, loads := [], given := Option.none, pc := h.tvec, state := .run }))
    let faults (c : Instr) (code : BitVec 8) (detail : BitVec 16) (xlf xpte : Word) : Prop := exec c s = .next ((s.modThread w
      (fun h => { h with xlf := xlf, xpte := xpte, hold := .none })).tileFault w { code := code, detail := detail, tval := x.tval })
    let xlf (kind : BitVec 2) : Word := kind ++ (0 : BitVec 28) ++ d ++ BitVec.ofNat 32 off
    let outcomes (stops : Instr → BitVec 8 → BitVec 16 → Word → Word → Prop) : Prop :=
      (out = .absent 0 → stops (.walkComplete w) 0x06 0 0 (e.getD 0)) ∧
      (off < 2 ^ 32 → out = .absent 1 → stops (.walkComplete w) 0x06 0 (xlf 1) (e.getD 0)) ∧
      (off < 2 ^ 32 → out = .claim → stops (.walkComplete w) 0x06 0 (xlf 2) (e.getD 0)) ∧
      (out = .malformed → stops (.walkComplete w) 0x07 1 h.xlf h.xpte) ∧ (out = .denied → stops (.walkComplete w) 0x07 2 h.xlf h.xpte) ∧
      (out = .poisoned → stops (.walkComplete w) 0x0A 5 h.xlf h.xpte)
    (x.busy = true → exec (.walkComplete w) s = .next s ∧
      exec (.busyRewalk w) s = .next (s.modThread w (fun h => { h with hold := .xlate { x with walked := Option.none, busy := false, stale := false } })) ∧
      (ready → off < 2 ^ 32 → traps (.busyLimit w) 0x06 0 (xlf 3) (e.getD 0)) ∧
      (x.tileRow ≠ Option.none → off < 2 ^ 32 → faults (.busyLimit w) 0x06 0 (xlf 3) (e.getD 0)) ∧
      (x.tileRow = Option.none → older → exec (.busyLimit w) s = .next s)) ∧
    (x.busy = false → exec (.busyRewalk w) s = .next s ∧ exec (.busyLimit w) s = .next s ∧
      (∀ p, out = .mapped p →
        let keep := x.stale = false ∧ p.getLsbD 57 = false
        ∃ t, s.sameMemory t ∧ t.thread w = { h with hold := .none, given := if keep then Option.none else some (x.page, p) } ∧
          (∀ u, u ≠ w → t.thread u = s.thread u) ∧ (¬keep → t.teams = s.teams) ∧
          (keep → (x.page, p) ∈ (t.team (coreTeam w.core)).xl ∧
            ∀ y ∈ (t.team (coreTeam w.core)).xl, y = (x.page, p) ∨ (y ∈ (s.team (coreTeam w.core)).xl ∧ y.1 ≠ x.page)) ∧
          (x.tileRow = Option.none → exec (.walkComplete w) s = .next t) ∧
          (∀ f sc r prior, x.tileRow = some (f, sc, r, prior) →
            exec (.walkComplete w) s = .next ((t.tileContinue w f sc r prior).modThread w (fun h => { h with given := Option.none })))) ∧
      (out = .busy → exec (.walkComplete w) s = .next (s.modThread w (fun h => { h with hold := .xlate { x with busy := true } }))) ∧
      (x.tileRow = Option.none → out ≠ .busy → (∀ p, out ≠ .mapped p) → older → exec (.walkComplete w) s = .next s) ∧
      (ready → outcomes traps) ∧ (x.tileRow ≠ Option.none → outcomes faults)))

/-- R254 to R256: an invalidation drops the translations it names from the team of its core, or from every team of the module together with the walkers' level-1
entries, and a walk in flight for such a page will install nothing; while one through this core is under way another is discarded with ERR. It completes, and its word
clears, once no access that used an old entry is under way, and the accesses that wait for such a page walk again.
The model's own choices in it: logs 4, 29. -/
def Obligations.Invalidations : Prop :=
  ∀ (s : State) (v : Via) (c : CoreIx) (val : Word), Sparse.wf {} s.teams = true → Sparse.wf {} s.dies = true → Sparse.wf {} s.cores = true →
    (∀ e, Sparse.wf {} (s.core e).threads = true) →
    let all := val.getLsbD 62
    let names (page : Nat) : Bool := all || decide (page = (val.extractLsb' 21 27).toNat)
    let drops (whole : Bool) (t : State) : Prop :=
      (∀ k y, y ∈ (t.team k).xl ↔ y ∈ (s.team k).xl ∧ ¬((whole = true ∨ k = coreTeam c) ∧ names y.1 = true)) ∧
      (∀ d y, y ∈ (t.die d).walkL1 ↔ y ∈ (s.die d).walkL1 ∧ ¬(whole = true ∧ (all = true ∨ y.1 = (val.extractLsb' 35 13).toNat))) ∧ s.sameMemory t
    let waits (whole : Bool) (f : Xlate → Xlate) (done : Bool) (t : State) : Prop := ∀ w : Who,
      let hit (page : Nat) : Bool := (whole || decide (coreTeam w.core = coreTeam c)) && names page
      t.thread w = { s.thread w with
        hold := (match (s.thread w).hold with
          | .xlate y => .xlate (if hit y.page then f y else y)
          | o => o)
        given := (match (s.thread w).given with
          | some (p, q) => if done && hit p then Option.none else some (p, q)
          | Option.none => Option.none) }
    let starts (cm : Instr) (whole : Bool) : Prop :=
      (∀ y, (s.core c).xlInv = some y → exec cm s = .next (s.modCore c (fun x => { x with xlErr := true }))) ∧
      ((s.core c).xlInv = Option.none → ∃ t, exec cm s = .next t ∧
        (t.core c).xlInv = some ((if whole then 1 else 0 : BitVec 1) ++ (val.extractLsb' 0 63 : BitVec 63)) ∧ drops whole t ∧
        waits whole (fun y => if y.walked.isSome ∧ y.busy = false then { y with stale := true } else y) false t)
    starts (.xlInvTeam v c val) false ∧ starts (.xlInvModule v c val) true ∧
    ((s.core c).xlInv = Option.none → exec (.xlInvComplete c) s = .next s) ∧
    ((s.core c).xlInv = some val →
      (s.invBusy c val = true → exec (.xlInvComplete c) s = .next s) ∧
      (s.invBusy c val = false → ∃ t, exec (.xlInvComplete c) s = .next t ∧ (t.core c).xlInv = Option.none ∧ drops (val.getLsbD 63) t ∧
        waits (val.getLsbD 63) (fun y => { y with walked := Option.none, busy := false, stale := false }) true t))

/-- R325, R329 to R331, R334: hb.arrive waits for a release of the same C-cycle, one of the commands that wait (log 63); it traps 0x07 at a barrier that is off, does not hold its core, or has counted two full generations; otherwise it counts toward the
current generation, or the early one once that is full, and answers its number. hb.wait traps 0x0C at a barrier that is off, answers GEN once it has passed the
generation named, and waits otherwise.
R332, R337: a die whose count is complete reports once. A barrier within a die releases it; one of a module gathers its dies' reports at die 0 and then releases
every die of DIES; one of the system sends the module's report to the root, which releases every module once all have reported. A release advances GEN, makes the early
arrivals the current ones, and resumes the threads whose generation has passed; one that finds the barrier off changes nothing else. (The layout of a report's and a
release's packet is the model's: log 15.)
The model's own choices in it: logs 4, 30, 46. -/
def Obligations.Harness : Prop :=
  (∀ (s : State) (i : Iss) (rd rs1 rs2 : BitVec 5), s.ready i false = true →
    let w := i.who
    let d := coreDie w.core
    let b : BitVec 8 := ((s.thread w).reg rs1).extractLsb' 0 8
    let g : BitVec 16 := ((s.thread w).reg rs2).extractLsb' 0 16
    let x := s.barrier d b
    let full := x.local_.toNat ≤ x.count
    let off := x.en = false ∨ x.covers w.core = false ∨ (full ∧ x.early = x.local_.toNat)
    let past := 1 ≤ (x.gen - g).toNat ∧ (x.gen - g).toNat ≤ 0x7FFF
    let first := .hbRelease d b ∈ s.pending ∧ (0 < x.relPend ∨ (x.level = 4 ∧ x.root ≠ s.mod.id))
    let counts (gen : BitVec 16) (y : Barrier) : Prop := Sparse.wf {} (s.die d).barriers = true → ∃ t, exec (.hbArrive i rd rs1) s = .next t ∧
      t.barrier d b = { y with quietReported := false } ∧ (t.thread w).pc = (s.thread w).pc + 4 ∧
      (∀ r, (t.thread w).reg r = if r = rd ∧ r ≠ 0 then gen.zeroExtend 64 else (s.thread w).reg r) ∧ (∀ v, v ≠ w → t.thread v = s.thread v) ∧
      s.sameMemory t ∧ ∀ e k, e ≠ d ∨ k ≠ b → t.barrier e k = { s.barrier e k with quietReported := (t.barrier e k).quietReported }
    (first → exec (.hbArrive i rd rs1) s = .next s) ∧ (off → ¬first → exec (.hbArrive i rd rs1) s = .next (s.settle w false (.trap s { code := 0x07, detail := 1 }))) ∧
    (¬off → ¬first → ¬full → counts x.gen { x with count := x.count + 1, came := x.came ++ [w.core] }) ∧
    (¬off → ¬first → full → counts (x.gen + 1) { x with early := x.early + 1, cameEarly := x.cameEarly ++ [w.core] }) ∧
    (x.en = false → exec (.hbWait i rd rs1 rs2) s = .next (s.settle w false (.trap s { code := 0x0C, detail := b.zeroExtend 16 }))) ∧
    (x.en = true → past → exec (.hbWait i rd rs1 rs2) s = .next (s.retired w 4 (fun h => h.setReg rd (x.gen.zeroExtend 64)))) ∧
    (x.en = true → ¬past → exec (.hbWait i rd rs1 rs2) s =
      .next (s.modThread w (fun h => { h with state := .wait, hold := .hbWait b g rd })))) ∧
  (∀ (s : State) (d : DieIx) (b : BitVec 8),
    let x := s.barrier d b
    let z := s.barrier 0 b
    let up : BitVec 4 := z.upDies ||| ((1 : BitVec 4) <<< d.toNat)
    let sent (release : Bool) (p : BitVec 12) : Out := .packet 0 (Packet.seal { Packet.base 6 0 p s.mod.id 0 with
      payload := fitBytes ([(if release then 1 else 0), b] ++ toBytes s.mod.id.toNat 2) 32 })
    let releases (t : State) : Prop := ∀ e : DieIx, (t.barrier e b).relPend = (s.barrier e b).relPend + (if z.dies.getLsbD e.toNat then 1 else 0)
    let reports (P : State → Prop) : Prop := ∃ t, exec (.hbReport d b Option.none) s = .next t ∧ (t.barrier d b).reported = true ∧
      (t.barrier d b).gen = x.gen ∧ (∀ w, t.thread w = s.thread w) ∧ s.sameMemory t ∧ P t
    let due := x.en = true ∧ x.reported = false ∧ x.count = x.local_.toNat
    let system (c : Instr) (m : BitVec 12) : Prop :=
      let mods := if z.upMods.contains m then z.upMods else z.upMods ++ [m]
      (mods.length < z.modules.toNat → ∃ t, exec c s = .next t ∧ (t.barrier 0 b).upMods = mods ∧ (t.barrier 0 b).relPend = z.relPend) ∧
      (z.modules.toNat ≤ mods.length → ∃ t, exec c s = .next t ∧ (t.barrier 0 b).upMods = [] ∧ releases t ∧
        t.outbox = s.outbox ++ (mods.filter (· ≠ s.mod.id)).map (sent true))
    (¬due → exec (.hbReport d b Option.none) s = .next s) ∧
    (due → x.level.toNat ≤ 2 → reports (fun t => (t.barrier d b).relPend = x.relPend + 1)) ∧
    (due → 2 < x.level.toNat →
      (z.dies &&& up ≠ z.dies → reports (fun t => (t.barrier 0 b).upDies = up ∧ ∀ e, (t.barrier e b).relPend = (s.barrier e b).relPend)) ∧
      (z.dies &&& up = z.dies → z.level ≠ 4 → reports (fun t => (t.barrier 0 b).upDies = 0 ∧ releases t)) ∧
      (z.dies &&& up = z.dies → z.level = 4 → z.root ≠ s.mod.id → reports (fun t => (t.barrier 0 b).upDies = 0 ∧
        t.outbox = s.outbox ++ [sent false z.root])) ∧
      (z.dies &&& up = z.dies → z.level = 4 → z.root = s.mod.id → system (.hbReport d b Option.none) s.mod.id)) ∧
    (∀ m, z.level = 4 → z.root = s.mod.id → m ≠ s.mod.id → system (.hbReport d b (some m)) m) ∧
    (∀ m, ¬(z.level = 4 ∧ z.root = s.mod.id ∧ m ≠ s.mod.id) → exec (.hbReport d b (some m)) s = .next s) ∧
    (let owed := 0 < x.relPend ∨ (x.level = 4 ∧ x.root ≠ s.mod.id)
     (¬owed → exec (.hbRelease d b) s = .next s) ∧
     (owed → x.en = false → exec (.hbRelease d b) s = .next (s.modBarrier d b (fun x => { x with relPend := x.relPend - 1 }))) ∧
     (owed → x.en = true → Sparse.wf {} s.cores = true → Sparse.wf {} (s.die d).barriers = true → ∃ t, exec (.hbRelease d b) s = .next t ∧
       (let y := t.barrier d b
        y.gen = x.gen + 1 ∧ y.count = x.early ∧ y.early = 0 ∧ y.came = x.cameEarly ∧ y.cameEarly = [] ∧ y.reported = false ∧ y.relPend = x.relPend - 1) ∧
       s.sameMemory t ∧ ((∀ w, (s.thread w).undisturbed) → ∀ w g rd, coreDie w.core = d → (s.thread w).hold = .hbWait b g rd →
         let past := 1 ≤ (x.gen + 1 - g).toNat ∧ (x.gen + 1 - g).toNat ≤ 0x7FFF
         (past → (t.thread w).state = .run ∧ (t.thread w).hold = .none ∧ (t.thread w).pc = (s.thread w).pc + 4 ∧
           ∀ r, (t.thread w).reg r = if r = rd ∧ r ≠ 0 then (x.gen + 1).zeroExtend 64 else (s.thread w).reg r) ∧
         (¬past → t.thread w = s.thread w)))))

/-- R325, R326, R335, R336: a write of HB_CFG from a thread of the core is discarded with ERR, and so is one that enables a barrier with bad fields, or one that is counting
or waited for. EN = 0 turns the barrier off, whatever the other fields, and traps its waiting threads; HB_SYS is written likewise only while nothing is counted or
waited for. A timeout records the missing cores, turns the barrier off, keeps the reports it has counted and sends HB_TIMEOUT; a release of
the same C-cycle, one of the commands that wait (log 63), wins. (That HB_CFG clears the counted reports
is the model's choice: log 58.)
R341 to R343: once every thread of a barrier's unit that is in RUN, WAIT or HALT is in WAIT, and one is, the largest such unit is reported once in a quiet period:
the report is kept with an entry for each waiting thread, and QUIESCENT is sent with the barrier and the number of entries.
The model's own choices in it: logs 4, 14, 30, 58. -/
def Obligations.HarnessWords : Prop :=
  (∀ (s : State) (v : Via) (c : CoreIx) (b : BitVec 8) (val : Word),
    let d := coreDie c
    let x := s.barrier d b
    let own := ∃ t, v = .thread ⟨c, t⟩
    let idle := x.count = 0 ∧ x.early = 0 ∧ s.hbWaiters d b = []
    let level : BitVec 3 := val.extractLsb' 59 3
    let unit : BitVec 8 := val.extractLsb' 48 8
    let loc : BitVec 11 := val.extractLsb' 32 11
    let dies : BitVec 4 := val.extractLsb' 8 4
    let good := level.toNat ≤ 4 ∧ (level = 0 → unit.toNat < 64) ∧ (level = 1 → unit.toNat < 4) ∧ (2 ≤ level.toNat → unit = 0) ∧
      1 ≤ loc.toNat ∧ loc.toNat ≤ 1024 ∧ (level = 3 ∨ level = 4 → dies.getLsbD 0 = true ∧ dies.getLsbD d.toNat = true) ∧
      (level.toNat ≤ 2 → dies = 0)
    let y : Barrier := { x with level := level, unit := unit, local_ := loc, tmo := val.extractLsb' 16 16, dies := dies, err := x.err && !(val.getLsbD 62) }
    let clear (z : Barrier) : Barrier :=
      { z with en := false, count := 0, early := 0, came := [], cameEarly := [], reported := false, upDies := 0, upMods := [] }
    let refused (cm : Instr) : Prop := exec cm s = .next (s.modBarrier d b (fun x => { x with err := true }))
    (own → refused (.hbCfgWrite v c b val) ∧ refused (.hbSysWrite v c b val)) ∧
    (¬own → val.getLsbD 63 = true → ¬(good ∧ idle) → refused (.hbCfgWrite v c b val)) ∧
    (¬own → val.getLsbD 63 = true → good → idle → exec (.hbCfgWrite v c b val) s = .next (s.modBarrier d b (fun _ => { y with en := true, upDies := 0, upMods := [] }))) ∧
    (¬own → val.getLsbD 63 = false → good → idle → exec (.hbCfgWrite v c b val) s = .next (s.modBarrier d b (fun _ => clear y))) ∧
    (¬own → val.getLsbD 63 = false → s.hbWaiters d b = [] → ¬(good ∧ idle) →
      exec (.hbCfgWrite v c b val) s = .next (s.modBarrier d b (fun x => clear { x with err := true }))) ∧
    (∀ w g rd, ¬own → val.getLsbD 63 = false → s.hbWaiters d b = [w] → (s.thread w).hold = .hbWait b g rd → (s.thread w).undisturbed →
      (s.thread w).inTrap = false → (s.thread w).tvec ≠ 0 → s.mmQueued w = false → (s.thread w).memHold = .none → (s.thread w).loads = [] →
      ∃ t, exec (.hbCfgWrite v c b val) s = .next t ∧ (t.thread w).pc = (s.thread w).tvec ∧ (t.thread w).cause = b.zeroExtend 16 ++ (0x000C : BitVec 16) ∧
        (t.thread w).epc = (s.thread w).pc ∧ (t.thread w).inTrap = true ∧ (t.thread w).state = .run ∧ (t.barrier d b).en = false ∧ (t.barrier d b).count = 0) ∧
    (¬own → ¬idle → refused (.hbSysWrite v c b val)) ∧
    (¬own → idle → exec (.hbSysWrite v c b val) s =
      .next (s.modBarrier d b (fun x => { x with root := val.extractLsb' 52 12, modules := val.extractLsb' 32 13 }))) ∧
    let first := .hbRelease d b ∈ s.pending ∧ (0 < x.relPend ∨ (x.level = 4 ∧ x.root ≠ s.mod.id))
    (x.en = false ∨ x.tmo = 0 ∨ x.count = 0 ∨ first → exec (.hbTimeout d b) s = .next s) ∧
    (x.en = true → x.tmo ≠ 0 → x.count ≠ 0 → ¬first → s.hbWaiters d b = [] → ∃ t, exec (.hbTimeout d b) s = .next t ∧
      (let z := t.barrier d b
       z.en = false ∧ z.count = 0 ∧ z.early = 0 ∧ z.timedout = true ∧ z.gen = x.gen ∧ z.upDies = x.upDies ∧ z.upMods = x.upMods ∧
       (∀ e, e ∈ z.miss ↔ coreDie e = d ∧ s.present e = true ∧ x.covers e = true ∧ e ∉ x.came) ∧
       (x.count < x.local_.toNat → x.level.toNat ≤ 2 → z.misslvl = x.level) ∧ (x.count < x.local_.toNat → 2 < x.level.toNat → z.misslvl = 2)) ∧
      (s.boot.headStopped = false → t.dict.evtSeq = s.dict.evtSeq + 1) ∧ s.sameMemory t ∧ ∀ w, t.thread w = s.thread w)) ∧
  (∀ (s : State) (d : DieIx) (b : BitVec 8), Sparse.wf {} s.cores = true → Sparse.wf {} (s.die d).barriers = true →
    let x := s.barrier d b
    let unit (y : Barrier) (c : CoreIx) : Prop := coreDie c = d ∧ s.present c = true ∧ y.covers c = true
    let quiet (y : Barrier) : Prop := (∀ w, unit y w.core → (s.thread w).state ≠ .run ∧ (s.thread w).state ≠ .halt) ∧
      ∃ w, unit y w.core ∧ (s.thread w).state = .wait
    let first := x.en = true ∧ x.quietReported = false ∧ quiet x
    (¬first → exec (.quiescent d b) s = .next s) ∧
    (first → (∃ y ∈ (s.die d).barriers, y.2.en = true ∧ x.inside y.2 = true ∧ quiet y.2) → exec (.quiescent d b) s = .next s) ∧
    (first → (∀ y ∈ (s.die d).barriers, y.2.en = true → quiet y.2 → x.inside y.2 = false) → ∃ t n, exec (.quiescent d b) s = .next t ∧ (t.barrier d b).quietReported = true ∧
      t.mod.quietLast.length = 32 + 16 * n ∧
      (s.boot.headStopped = false → ∃ l e, t.dict.evtLog = l ++ [e] ∧ e.extractLsb' 176 16 = (0x0005 : BitVec 16) ∧ e.extractLsb' 0 8 = b ∧
        (e.extractLsb' 16 16 : BitVec 16) = BitVec.ofNat 16 n) ∧
      s.sameMemory t ∧ ∀ w, t.thread w = s.thread w))

/-- R347, R348: ARM is refused with ERR for an armed context, a MEAN that forwards, a notification station that does not resolve, or areas that pass the end of the
local store; otherwise the context is ARMED with the generation, its counts cleared and its configuration kept. DISARM ends an armed context FAILED with OUTCOME 4.
R111, R113, R352, R356, R357: a tile is tested for its epoch, an earlier generation, rank and block, the count of its sum, a rank that is excluded or a context that has ended,
and a pair that has come before, in this order; the first failure drops it and leaves the reason with the sender. In the credit window it gets its credit and leaves
its sender, after the lower tiles of its acc.send, and with it the tile is accepted: kept at the head, staged otherwise while the staging area has a place. One that is
not yet due waits, and one without credit past its time is dropped. A sender's slot is EMPTY once its last tile has left or is gone.
R111, R352, R356, R400, R405: a tile for another module leaves its sender as a packet with its 256 values, after the lower tiles of its acc.send; one that came from
another module is tested like any other, and a refusal, a grant and an acceptance go back to its module, as a status of its packet (layout: log 15).
The model's own choices in it: logs 4, 5, 10, 15, 31. -/
def Obligations.ReductionContexts : Prop :=
  (∀ (s : State) (v : Via) (c : CoreIx) (k : BitVec 4) (gen : BitVec 8),
    let x := s.redCtx c k
    let bad := x.state = 1 ∨ (x.mean = true ∧ x.fwd = true) ∨
      (x.ntf = true ∧ (s.core c).resolve (x.notify.extractLsb' 0 8) (x.notify.extractLsb' 8 8) = Option.none) ∨
      8388608 < 1024 * x.result.toNat + 1024 + 4096 * (x.blocks.toNat + 1) ∨ 8388608 < 1024 * x.stage.toNat + 65536
    (bad → exec (.redArm v c k gen) s = .next (s.modRed c k (fun y => { y with err := true }))) ∧
    (¬bad → ∃ t, exec (.redArm v c k gen) s = .next t ∧
      (let y := t.redCtx c k
       y = { x with state := 1, gen := gen, used := 0, miss := 0, nstat := 0, nfail := false, late := 0, rej := 0, outcome := 0, owner := y.owner,
                    excluded := [], arrived := [], staged := [], unit := 0, rank := 0, partial_ := [], carried := {}, budget := {}, mags := {},
                    exempt := false, wild := false, count := 0, nextFwd := 0, fwdUnacked := 0, run := x.run + 1 } ∧
       (∀ n, v = .thread ⟨c, n⟩ → y.owner = some n) ∧ ((∀ n, v ≠ .thread ⟨c, n⟩) → y.owner = Option.none)) ∧
      t = { s with cores := t.cores } ∧ (∀ e, e ≠ c → t.core e = s.core e) ∧ t.core c = { s.core c with red := (t.core c).red } ∧
      ∀ j, j ≠ k → t.redCtx c j = s.redCtx c j) ∧
    (x.state ≠ 1 → exec (.redDisarm v c k) s = .next s) ∧
    (x.state = 1 → ∃ t, exec (.redDisarm v c k) s = .next t ∧ (t.redCtx c k).state = 3 ∧ (t.redCtx c k).outcome = 4 ∧ (t.redCtx c k).staged = [] ∧
      (x.ntf = false → t.msgs = s.msgs) ∧
      (∀ r, x.ntf = true → (s.core c).resolve (x.notify.extractLsb' 0 8) (x.notify.extractLsb' 8 8) = some r →
        (∀ n ∈ s.msgs, n.seq ≠ s.nextSeq → n ∈ t.msgs) ∧ ∃ m ∈ t.msgs, m.seq = s.nextSeq ∧ m.origin = .red c k ∧ m.target = r.1 ∧ m.queue = r.2.1 ∧ m.epoch = r.2.2 ∧ m.payload.length = 16) ∧ s.sameMemory t)) ∧
  (∀ (s : State) (n : Contrib), n ∈ s.contribs → (∀ m ∈ s.contribs, m.seq = n.seq → m = n) → n.away = Option.none → n.from_ = Option.none → n.data ≠ [] →
    let x := s.redCtx n.target n.ctx
    let behind := (x.gen - n.gen).toNat
    let t1 := n.epoch ≠ (s.queue n.target n.ctx).epoch
    let t2 := 1 ≤ behind ∧ behind ≤ 128
    let later := 128 < behind
    let t3 := x.ranks.toNat < n.rank.toNat ∨ x.blocks.toNat < n.block.toNat
    let t4 := n.thinm1 ≠ x.thinm1
    let t5 := n.rank.toNat ∈ x.excluded ∨ x.state = 2 ∨ x.state = 3
    let t6 := x.received (4 * n.block.toNat + n.q.toNat) n.rank.toNat = true
    let ok := ¬t1 ∧ ¬t2 ∧ ¬later ∧ ¬t3 ∧ ¬t4 ∧ ¬t5 ∧ ¬t6
    let due := ok ∧ x.state = 1 ∧ x.inWindow (4 * n.block.toNat + n.q.toNat) n.rank.toNat = true
    let slotLeft (t : State) : Prop :=
      let y := (s.core n.sender.core).slot n.slot.toNat
      (t.core n.sender.core).slot n.slot.toNat = if y.sending ≤ 1 then {} else { y with sending := y.sending - 1 }
    let slotGone (t : State) : Prop :=
      (n.credit = false → slotLeft t) ∧ (n.credit = true → (t.core n.sender.core).slot n.slot.toNat = (s.core n.sender.core).slot n.slot.toNat)
    let lower := ∃ m ∈ s.contribs, m.from_ = Option.none ∧ m.credit = false ∧ m.sender = n.sender ∧ m.slot = n.slot ∧ m.q < n.q
    let arrive : Instr := .redTileArrival n.seq
    let refused (r : BitVec 3) : Prop := ∃ t, exec arrive s = .next t ∧ (∀ m, m ∈ t.contribs ↔ m ∈ s.contribs ∧ m ≠ n) ∧
      (t.thread n.sender).redRej = true ∧ (t.thread n.sender).redReason = r ∧ slotGone t ∧
      (r = 6 → (t.redCtx n.target n.ctx).late = if x.late = 0xFFFF then 0xFFFF else x.late + 1) ∧
      (r ≠ 6 → (t.redCtx n.target n.ctx).rej = if x.rej = 0xFF then 0xFF else x.rej + 1) ∧ s.sameMemory t
    let head := 4 * n.block.toNat + n.q.toNat = x.unit ∧ n.rank.toNat = x.rank
    (t1 → refused 1) ∧ (¬t1 → t2 → refused 6) ∧ (¬t1 → later → exec arrive s = .next s) ∧ (¬t1 → ¬t2 → ¬later → t3 → refused 3) ∧
    (¬t1 → ¬t2 → ¬later → ¬t3 → t4 → refused 4) ∧ (¬t1 → ¬t2 → ¬later → ¬t3 → ¬t4 → t5 → refused 6) ∧
    (¬t1 → ¬t2 → ¬later → ¬t3 → ¬t4 → ¬t5 → t6 → refused 5) ∧
    (ok → ¬due ∨ n.credit = false → exec arrive s = .next s) ∧
    (due → n.credit = true → head → ∃ t, exec arrive s = .next t ∧ (t.redCtx n.target n.ctx).staged = x.staged ++ [(n, Option.none)] ∧
      n.rank.toNat ∈ (t.redCtx n.target n.ctx).arrived ∧ (∀ m, m ∈ t.contribs ↔ m ∈ s.contribs ∧ m ≠ n) ∧ s.sameMemory t) ∧
    (due → n.credit = true → ¬head → Sparse.wf {} s.cores = true → (∃ k, k < 64 ∧ ∀ e ∈ x.staged, e.2 ≠ some k) → ∃ t k, exec arrive s = .next t ∧ k < 64 ∧
      (∀ e ∈ x.staged, e.2 ≠ some k) ∧ (t.redCtx n.target n.ctx).staged = x.staged ++ [(n, some k)] ∧
      s.wrote t (.ls n.target (1024 * x.stage.toNat + 1024 * k)) ((f32Bytes n.data).map some)) ∧
    (due → n.credit = true → ¬head → (∀ k, k < 64 → ∃ e ∈ x.staged, e.2 = some k) → exec arrive s = .next s) ∧
    (n.credit = true ∨ lower ∨ ¬due → exec (.redCreditGrant n.seq) s = .next s) ∧
    (due → n.credit = false → ¬lower → ∃ t, exec (.redCreditGrant n.seq) s = .next t ∧
      t.contribs = s.contribs.map (fun m => if m.seq = n.seq then { m with credit := true } else m) ∧
      slotLeft t ∧ (∀ w, t.thread w = s.thread w) ∧ s.sameMemory t) ∧
    (n.credit = true → exec (.redCreditTimeout n.seq) s = .next s) ∧
    (n.credit = false → ∃ t, exec (.redCreditTimeout n.seq) s = .next t ∧ (∀ m, m ∈ t.contribs ↔ m ∈ s.contribs ∧ m ≠ n) ∧
      (t.thread n.sender).redRej = true ∧ (t.thread n.sender).redReason = 2 ∧ slotLeft t ∧ s.sameMemory t)) ∧
  (∀ (s : State) (n : Contrib), n ∈ s.contribs → (∀ m ∈ s.contribs, m.seq = n.seq → m = n) →
    (∀ target, n.away = some target → n.from_ = Option.none →
      let lower := ∃ m ∈ s.contribs, m.from_ = Option.none ∧ m.credit = false ∧ m.sender = n.sender ∧ m.slot = n.slot ∧ m.q < n.q
      exec (.redTileArrival n.seq) s = .next s ∧
      (n.credit = true ∨ lower → exec (.redCreditGrant n.seq) s = .next s) ∧
      (n.credit = false → ¬lower → ∃ t o, exec (.redCreditGrant n.seq) s = .next t ∧
        t.contribs = s.contribs.map (fun m => if m.seq = n.seq then { m with credit := true } else m) ∧
        t.fab.store = s.fab.store ++ [o] ∧ o.flight = n.seq ∧ o.pkt.kind = 5 ∧ o.pkt.dmod = idModule target ∧
        o.pkt.payload.take (4 * n.data.length) = f32Bytes n.data ∧ s.sameMemory t)) ∧
    (∀ i q, n.from_ = some (i, q) → n.away = Option.none →
      let d := coreDie (idCore i)
      let answer (st : Nat) : Out :=
        .packet d (Packet.seal { Packet.base 11 2 (idModule i) s.mod.id d with seq := q, aux := BitVec.ofNat 32 st })
      exec (.redCreditTimeout n.seq) s = .next s ∧
      (∀ r : BitVec 3, n.credit = false ∨ n.data ≠ [] → s.redTest n = .refuse r → ∃ t, exec (.redTileArrival n.seq) s = .next t ∧
        (∀ m, m ∈ t.contribs ↔ m ∈ s.contribs ∧ m ≠ n) ∧ t.outbox = s.outbox ++ [answer r.toNat] ∧ ∀ w, (t.thread w).redRej = (s.thread w).redRej) ∧
      (n.credit = true → n.data ≠ [] → s.redTest n = .credit → (s.redCtx n.target n.ctx).hasRoom n = true → ∃ t, exec (.redTileArrival n.seq) s = .next t ∧
        (∀ m, m ∈ t.contribs ↔ m ∈ s.contribs ∧ m ≠ n) ∧ t.outbox = s.outbox ++ [answer 0]) ∧
      (n.credit = false → s.redTest n = .credit → ∃ t, exec (.redCreditGrant n.seq) s = .next t ∧
        t.contribs = s.contribs.map (fun m => if m.seq = n.seq then { m with credit := true } else m) ∧ t.outbox = s.outbox ++ [answer 8])))

/-- R354, R355, R359, R360: the tile of the window's head is taken as the partial sum, or added to it element by element with one rounding each, and the head moves to
the next included rank. After the last one the unit is checked: it is written to the result, divided by the count of contributions with MEAN, or the context ends FAILED
with OUTCOME 2 if the check fails and 3 if the count does. (Whether a unit with a value that is not finite passes is a free value: log 5.)
R358, R359, R361: at its deadline an armed context that lacks a pair fails with OUTCOME 1 and the missing rank, or, with MEAN, excludes the ranks that nothing came from; a
tile that arrives in the same C-cycle, one of the commands that wait (log 63), has arrived in time;
at its limit it fails likewise. A complete block goes to the forward station's cores, in this core's own store at once. When every unit is written and forwarded the
context is DONE: its status and time stand in the header, the ranks used at byte 512.
The model's own choices in it: logs 4, 5, 15, 31. -/
def Obligations.ReductionResults : Prop :=
  (∀ (s : State) (c : CoreIx) (k : BitVec 4),
    let x := s.redCtx c k
    let due (e : Contrib × Option Nat) : Prop := 4 * e.1.block.toNat + e.1.q.toNat = x.unit ∧ e.1.rank.toNat = x.rank
    (x.state ≠ 1 ∨ (s.core c).fenced = true ∨ (∀ e ∈ x.staged, ¬due e) → exec (.redAdd c k) s = .next s) ∧
    (∀ n at_ a b, x.state = 1 → (s.core c).fenced = false → x.staged = a ++ (n, at_) :: b → (∀ e ∈ a, ¬due e) → due (n, at_) →
      (∀ e ∈ a ++ b, e.1.seq ≠ n.seq) →
      ∀ data : List F32,
      (at_ = Option.none → data = n.data) →
      (∀ j, at_ = some j → data = (List.range 256).map (fun i =>
        BitVec.ofNat 32 (leNat (s.readLoc (.ls c (1024 * x.stage.toNat + 1024 * j + 4 * i)) 4)))) →
      let sum := if x.partial_ = [] then data else (x.partial_.zip data).map (fun p => (toF32 ((ofF32 p.1).1.add (ofF32 p.2).1)).1)
      let y := x.addTile n data
      let used := x.ranks.toNat + 1 - x.excluded.length
      let nt := x.thinm1.toNat + 1
      let out := if x.mean then sum.map (fun v => divRound v (used * nt)) else sum
      let more (r : Nat) : Prop := x.rank < r ∧ r ≤ x.ranks.toNat ∧ r ∉ x.excluded
      (∀ r, more r → (∀ q, more q → r ≤ q) → ∃ t, exec (.redAdd c k) s = .next t ∧ (t.redCtx c k).partial_ = sum ∧ (t.redCtx c k).rank = r ∧
        (t.redCtx c k).unit = x.unit ∧ (t.redCtx c k).count = x.count + n.count ∧ (t.redCtx c k).staged = a ++ b ∧ s.sameMemory t) ∧
      ((∀ r, ¬more r) → y.odd = false → sum ≠ [] →
        (y.unitPasses = true → x.count + n.count = 256 * nt * used → Sparse.wf {} s.cores = true → ∃ t, exec (.redAdd c k) s = .next t ∧
          s.wrote t (.ls c (1024 * x.result.toNat + 1024 + 1024 * x.unit)) ((f32Bytes out).map some) ∧ (t.redCtx c k).unit = x.unit + 1 ∧
          (t.redCtx c k).partial_ = [] ∧ (t.redCtx c k).count = 0 ∧ (t.redCtx c k).state = 1) ∧
        (y.unitPasses = false → ∃ t, exec (.redAdd c k) s = .next t ∧ (t.redCtx c k).state = 3 ∧ (t.redCtx c k).outcome = 2 ∧
          (x.owner = Option.none → s.sameMemory t)) ∧
        (y.unitPasses = true → x.count + n.count ≠ 256 * nt * used → ∃ t, exec (.redAdd c k) s = .next t ∧
          (t.redCtx c k).state = 3 ∧ (t.redCtx c k).outcome = 3 ∧ (x.owner = Option.none → s.sameMemory t))) ∧
      ((∀ r, ¬more r) → y.odd = true → sum ≠ [] → ∃ t, exec (.redAdd c k) s = .next t ∧
        (((t.redCtx c k).state = 3 ∧ ((t.redCtx c k).outcome = 2 ∨ (t.redCtx c k).outcome = 3)) ∨
          ((t.redCtx c k).unit = x.unit + 1 ∧ (t.redCtx c k).partial_ = [] ∧ (t.redCtx c k).count = 0))))) ∧
  (∀ (s : State) (c : CoreIx) (k : BitVec 4),
    let x := s.redCtx c k
    let expires (cm : Instr) : Prop := (∀ r, x.missing = some r → ∃ t, exec cm s = .next t ∧ (t.redCtx c k).state = 3 ∧
      (t.redCtx c k).outcome = 1 ∧ (t.redCtx c k).miss = BitVec.ofNat 12 r ∧ (x.owner = Option.none → s.sameMemory t)) ∧
      (x.missing = Option.none → exec cm s = .next s)
    let past := x.state = 1 ∧ x.deadline ≠ 0 ∧ x.deadline.toNat ≤ s.now
    let over_ := x.state = 1 ∧ x.mean = true ∧ x.limit ≠ 0 ∧ x.limit.toNat ≤ s.now
    let alone := ∀ q, Instr.redTileArrival q ∉ s.pending
    (¬past → exec (.redDeadline c k) s = .next s) ∧ (past → alone → x.mean = false → expires (.redDeadline c k)) ∧
    (∀ (q : Nat) (n : Contrib) (u : State), past → s.pending = [.redTileArrival q] → n ∈ s.contribs → n.seq = q → n.target = c → n.ctx = k →
      exec (.redTileArrival q) s = .next u → exec (.redTileArrival q) u = .next u → u.pending = s.pending → u.now = s.now →
      (u.redCtx c k).state = 1 → (u.redCtx c k).deadline = x.deadline → (u.redCtx c k).mean = x.mean → exec (.redDeadline c k) s = exec (.redDeadline c k) u) ∧
    (past → alone → x.mean = true →
      let out := (List.range (x.ranks.toNat + 1)).filter (fun r => !(x.arrived.contains r))
      let u := s.modCore c (fun y => { y with red := Sparse.upd {} y.red k.toNat (fun z => { z with excluded := out }) })
      let next (r : Nat) : Prop := x.rank ≤ r ∧ r ≤ x.ranks.toNat ∧ r ∈ x.arrived
      (4 * (x.blocks.toNat + 1) ≤ x.unit → exec (.redDeadline c k) s = .next u) ∧
      (∀ r, x.unit < 4 * (x.blocks.toNat + 1) → next r → (∀ q, next q → r ≤ q) → exec (.redDeadline c k) s =
        .next (u.modCore c (fun y => { y with red := Sparse.upd {} y.red k.toNat (fun z => { z with rank := r }) }))) ∧
      (x.unit < 4 * (x.blocks.toNat + 1) → (∀ r, ¬next r) → x.partial_ = [] → exec (.redDeadline c k) s =
        .next (u.modCore c (fun y => { y with red := Sparse.upd {} y.red k.toNat (fun z => { z with unit := 4 * (x.blocks.toNat + 1), rank := 0 }) }))) ∧
      (x.unit < 4 * (x.blocks.toNat + 1) → (∀ r, ¬next r) → x.partial_ ≠ [] → exec (.redDeadline c k) s = .next (u.redUnit c k))) ∧
    (¬over_ → exec (.redLimitExpire c k) s = .next s) ∧ (over_ → expires (.redLimitExpire c k)) ∧
    (let due := x.state = 1 ∧ x.fwd = true ∧ x.nextFwd ≤ x.blocks.toNat ∧ 4 * (x.nextFwd + 1) ≤ x.unit ∧ (s.core c).fenced = false
     let bs := s.readLoc (.ls c (1024 * x.result.toNat + 1024 + 4096 * x.nextFwd)) 4096
     let off := 1024 * x.fwdDest.toNat + 4096 * x.nextFwd
     (¬due → exec (.redForward c k) s = .next s) ∧
     (∀ target, due → (s.core c).lanes x.fwdStn = [target] → idModule target = s.mod.id → Sparse.wf {} s.cores = true →
       (idCore target = c → ∃ t, exec (.redForward c k) s = .next t ∧ s.wrote t (.ls c off) (bs.map some) ∧ (t.redCtx c k).nextFwd = x.nextFwd + 1) ∧
       (idCore target ≠ c → s.present (idCore target) = true → ∃ t f, exec (.redForward c k) s = .next t ∧ t.writes = s.writes ++ [f] ∧
         f.loc = .ls (idCore target) off ∧ f.bytes = bs.map some ∧ f.source = .port c ∧ f.red = some (c, k, x.run) ∧ (t.redCtx c k).nextFwd = x.nextFwd + 1 ∧
         (t.redCtx c k).fwdUnacked = x.fwdUnacked + 1 ∧ s.sameMemory t)) ∧
     (∀ target, due → (s.core c).lanes x.fwdStn = [target] →
       (if idModule target = s.mod.id then idCore target ≠ c ∧ s.present (idCore target) = false else s.unreachable (idModule target) = true) →
       exec (.redForward c k) s = .next (s.modCore c (fun y => { y with red := Sparse.upd {} y.red k.toNat (fun z => { z with nextFwd := z.nextFwd + 1 }) }))) ∧
     (∀ target, due → (s.core c).lanes x.fwdStn = [target] → idModule target ≠ s.mod.id → s.unreachable (idModule target) = false →
       ∃ t f a, exec (.redForward c k) s = .next t ∧ t.writes = s.writes ++ [f] ∧ f.loc = .remote (idModule target) a ∧ f.bytes = bs.map some ∧
         f.source = .port c ∧ f.red = some (c, k, x.run) ∧ (t.redCtx c k).nextFwd = x.nextFwd + 1 ∧ (t.redCtx c k).fwdUnacked = x.fwdUnacked + 1 ∧
         s.sameMemory t) ∧
     (due → exec (.redForward c k) s = .next ((((s.core c).lanes x.fwdStn).foldl (fun u target => u.redForwardTo c k off bs target) s).modCore c (fun y =>
       { y with red := Sparse.upd {} y.red k.toNat (fun z => { z with nextFwd := z.nextFwd + 1 }) })))) ∧
    (let due := x.state = 1 ∧ 4 * (x.blocks.toNat + 1) ≤ x.unit ∧ (x.fwd = true → x.blocks.toNat < x.nextFwd ∧ x.fwdUnacked = 0) ∧
       (s.core c).fenced = false
     (¬due → exec (.redDone c k) s = .next s) ∧
     (due → Sparse.wf {} s.cores = true → ∃ t, exec (.redDone c k) s = .next t ∧ (t.redCtx c k).state = 2 ∧
       (t.redCtx c k).used = BitVec.ofNat 13 (x.ranks.toNat + 1 - x.excluded.length) ∧
       (x.ntf = false → (∀ j, j < 8 → t.byteAt (.ls c (1024 * x.result.toNat + j)) = ((t.redCtx c k).stat.extractLsb' (8 * j) 8 : BitVec 8)) ∧
         (∀ j, j < 8 → t.byteAt (.ls c (1024 * x.result.toNat + 8 + j)) = BitVec.ofNat 8 (s.now / 256 ^ j))) ∧
       (∀ r, r ≤ x.ranks.toNat → (t.byteAt (.ls c (1024 * x.result.toNat + 512 + r / 8))).getLsbD (r % 8) = decide (r ∉ x.excluded)) ∧
       (∀ l, (∀ j, j < 16 ∨ (512 ≤ j ∧ j < 1024) → l ≠ .ls c (1024 * x.result.toNat + j)) → t.byteAt l = s.byteAt l))))

/-- R394 to R396, R398, R401, R422: a good group in its order is taken: its units join those of the packet under way, complete packets leave the input buffers and their
credits are owed; its trailer acknowledges groups, which leave the replay buffer, and names the lane groups the peer disables and its rest lane; a NAK has the groups still
held sent again, once. A good group that has come before changes nothing. Any other group asks for a replay, and the awaited group arriving bad more often than
TH_REPLAY_LIMIT takes the sub-port down. A sub-port that is down receives nothing. (When a group is answered by one of this end is the model's choice: log 19.)
R391, R395, R396: a sub-port that is up sends a group while its replay buffer has room: the next 63 units of the packets that wait, filled up with idle units, under
the next GSEQ; its trailer acknowledges the last group taken in order and says whether the next one is asked for again. The group stays until it is acknowledged.
R393, R397, R403, R408: a sub-port that goes down loses its links' state; its peer's bit falls in SZ_PORT_PEER, the packets it held are forwarded again, or their
modules probed if no way is left, and a reachable neighbour is probed. Training brings the sub-ports that the peer answers on up again, unless the modes of the ends differ,
which is shown.
The model's own choices in it: logs 4, 19, 44, 51. -/
def Obligations.Ports : Prop :=
  (∀ (s : State) (p : BitVec 4) (j : BitVec 2) (g : GroupIn),
    let x := s.port p
    let l := x.link j
    let good := GroupIn.good g x.width = true
    let inOrder := good ∧ g.gseq = l.rxNext
    let before := good ∧ 0x8000 ≤ (g.gseq - l.rxNext).toNat
    let out := (l.txNext - l.acked - 1).toNat
    let n := (g.ackseq - l.acked).toNat
    let fails := l.fails + (if g.gseq = l.rxNext then 1 else 0)
    let limit := s.effective 0x2504 0
    let told := s.modPort p (fun x => x.setLink j { l with nak := true, fails := fails })
    let parsed := parseUnits l.part g.units
    let owed := parsed.1.foldl (fun o k =>
      if k.tc.toNat < 3 then Sparse.upd 0 o (8 * k.tc.toNat + k.hop.toNat) (· + linkBytes k / 32) else o) l.owed
    let y : Link :=
      { l with part := parsed.2, owed := owed, rxNext := g.gseq + 1, nak := false, fails := 0,
               nakSeen := if g.nak then l.nakSeen else Option.none,
               acked := if n ≤ out then g.ackseq else l.acked,
               queue := if n ≤ out then l.queue.filter (fun e => decide (n < (e.1 - l.acked).toNat)) else l.queue,
               sent := if n ≤ out then l.sent.filter (fun e => decide (n < (e.gseq - l.acked).toNat)) else l.sent }
    let moved := g.rchg = true ∧ x.rxRest ≠ g.rest ∧ g.rest.toNat ≤ 16
    let z : Port := { x.setLink j y with gpeer := g.gdis, rxRest := if moved then g.rest else x.rxRest, rxCal := x.rxCal && !decide moved }
    let answers := l.nak = true ∨ ∃ u ∈ g.units, isIdle u = false
    (x.up.getLsbD j.toNat = false → exec (.groupReceive p j g) s = .next s) ∧
    (x.up.getLsbD j.toNat = true →
      (¬inOrder → before → exec (.groupReceive p j g) s = .next s) ∧
      (¬inOrder → ¬before → fails ≤ limit → exec (.groupReceive p j g) s = .next (told.sendGroup p j)) ∧
      (¬inOrder → ¬before → limit < fails → exec (.groupReceive p j g) s = .next (told.portDown p j)) ∧
      (inOrder → ∃ v, exec (.groupReceive p j g) s =
          .next (if answers then ((v.pump p j).dropUnusable p).sendGroup p j else (v.pump p j).dropUnusable p) ∧
        (∀ q, q ≠ p → v.port q = s.port q) ∧ s.sameMemory v ∧
        (g.nak = false ∨ l.nakSeen = some g.ackseq → v.port p = z ∧ v.outbox = s.outbox) ∧
        (g.nak = true → l.nakSeen ≠ some g.ackseq →
          v.port p = { z.setLink j { y with nakSeen := some g.ackseq } with retry := BitVec.ofNat 24 (min (x.retry.toNat + y.sent.length) 0xFFFFFF) } ∧
          v.outbox = s.outbox ++ y.sent.map (fun e => Out.group p j e.units (z.trailerOf y e)))))) ∧
  (∀ (s : State) (p : BitVec 4) (j : BitVec 2),
    let x := s.port p
    let l := x.link j
    let units := l.wait.flatMap (fun e => e.2.2)
    let t := s.sendGroup p j
    let y := (t.port p).link j
    (x.up.getLsbD j.toNat = false ∨ (if x.mode = 1 then 64 else 256) ≤ (l.txNext - l.acked - 1).toNat → t = s) ∧
    (x.up.getLsbD j.toNat = true → (l.txNext - l.acked - 1).toNat < (if x.mode = 1 then 64 else 256) → ∃ us tr,
      us = units.take 63 ++ List.replicate (63 - units.length) idleUnit ∧ t.outbox = s.outbox ++ [.group p j us tr] ∧
      tr.extractLsb' 240 16 = l.txNext ∧ tr.extractLsb' 224 16 = l.rxNext - 1 ∧ tr.getLsbD 223 = l.nak ∧ tr.extractLsb' 213 4 = x.gdis ∧
      y.wait.flatMap (fun e => e.2.2) = units.drop 63 ∧ y.txNext = l.txNext + 1 ∧ y.rxNext = l.rxNext ∧ y.acked = l.acked ∧
      (∃ e, y.sent = l.sent ++ [e] ∧ e.gseq = l.txNext ∧ e.units = us) ∧
      t = { s with fab := { s.fab with ports := t.fab.ports }, outbox := t.outbox } ∧ ∀ q, q ≠ p → t.port q = s.port q)) ∧
  (∀ (s : State) (p : BitVec 4) (j : BitVec 2) (up : BitVec 4),
    let x := s.port p
    let v : Word := Sparse.get 0 s.fab.peers p.toNat
    let bit (i : BitVec 2) : Word := (1 : Word) <<< (16 * i.toNat + 15)
    let m : BitVec 12 := v.extractLsb' (16 * j.toNat) 12
    let stays := s.fitted p = false ∨ x.usable &&& ~~~x.up = 0 ∨ s.boot.headStopped = true ∨ s.boot.mainOn = false ∨ s.dict.ovlActive = 3
    (x.up.getLsbD j.toNat = false → exec (.portDown p j) s = .next s) ∧
    (x.up.getLsbD j.toNat = true → ∃ t, exec (.portDown p j) s = .next t ∧ (t.port p).up = x.up &&& ~~~((1 : BitVec 4) <<< j.toNat) ∧
      (t.port p).link j = {} ∧ (m ≠ s.mod.id → m ∈ s.fab.reach → m ∈ t.fab.dropped) ∧
      (∀ e ∈ (x.link j).packets, Sparse.get 0 s.fab.routes e.2.dmod.toNat = 0 → e.2.dmod ∈ t.fab.dropped) ∧
      (v &&& ~~~(bit j) ≠ 0 → Sparse.get 0 t.fab.peers p.toNat = v &&& ~~~(bit j)) ∧ s.sameMemory t) ∧
    (stays → ∀ b, exec (.portRetrain p up b) s = .next s) ∧
    (¬stays → x.trained = true → exec (.portRetrain p up true) s = .next (s.modPort p (fun x => { x with mismatch := true }))) ∧
    (¬stays → x.trained = true → ∃ t, exec (.portRetrain p up false) s = .next t ∧ (t.port p).up = x.up ||| (up &&& x.usable &&& ~~~x.up) ∧
      (t.port p).mismatch = false ∧ (∀ q, q ≠ p → t.port q = s.port q) ∧ s.sameMemory t) ∧
    (¬stays → x.trained = false → x.up = 0 → ∃ t, exec (.portRetrain p up false) s = .next t ∧ (t.port p).trained = true ∧
      (t.port p).mode = BitVec.ofNat 2 (s.effective 0x2501 p.toNat) ∧ (x.perm = false → (t.port p).rest = 16 ∧ (t.port p).rxRest = 16)))

/-- R401, R402, R408: a packet for another module goes on the least loaded sub-port that is up among the minimal ones of the route toward it, or among the alternate ones if
none of those is up; among equal loads on the first one after the rotating pointer, which advances. It joins that link's queue, a priority packet before all others whose first unit has not left. A
packet of another module has then taken one hop more, its check staying as right or wrong as it was, and would-be ninth hops are dropped and counted. A packet with no way left is dropped and its module
is due for a probe. (That E2E follows the change of HOP is the model's choice: log 51.)
R399, R404, R405, R407, R410, R446: a packet of this module's streams is delivered in order: a damaged one is dropped and counted, one of another epoch or of an unreachable module
dropped, one that has come before dropped and counted, one ahead of its turn kept if the reorder buffer has room for it, and answered with the lowest SEQ missing otherwise. In order, a write is
performed and acknowledged, a read is answered with its bytes, an atomic is performed and answered with the old value, a message takes its place before its queue and is answered once it is committed or
refused, and a tile's request joins the contributions. What cannot be performed is answered with the trap code it would raise, or, where the die or module is in SAFEHOLD, with 0; a read there with a
free code (log 5). (Where a packet keeps what its kind carries, and the statuses of an answer, are the model's choice: log 15.)
R405, R406, R278, R356, R404: an acknowledgement of the current epoch takes the packets up to its SEQ out of the send store, and those that waited for room in it follow. The write whose last packet
it covers ends, THR_PEND falls, and a fence or a halt that waited for it goes on; a status that says it failed sets LOST and fails the thread's items; a message ends with its queue's answer; a status
that names the lowest SEQ missing has the stream sent again from there.
R268, R407: a response ends the read or atomic of another module that waits for it, and its packet leaves the send store. A scalar load of a thread receives the bytes; a trap code that the
response carries is raised by the thread with the address of the load; an engine keeps what came.
R280, R399, R404 to R406, R410, R583: a packet of request class takes the next SEQ of its stream and the stream's epoch, its check and the length of its payload, and stays in the send store; it
leaves unless it would exceed the 256 KiB of its stream or the 8 MiB of its die, or one of its stream waits already. A scalar store to another module leaves as a write packet with its bytes; one toward a
module declared unreachable is not sent and sets LOST, and its thread's items fail. A read or atomic toward such a module answers trap 0x07 with DETAIL 5.
The model's own choices in it: logs 4, 15, 44, 47, 51. -/
def Obligations.Packets : Prop :=
  (∀ (s : State) (d : DieIx) (k : Packet) (l : Link),
    let e : BitVec 128 := Sparse.get 0 s.fab.routes k.dmod.toNat
    let up (b : Nat) : Prop := b < 64 ∧ (s.port (BitVec.ofNat 4 (b / 4))).up.getLsbD (b % 4) = true
    let minimal := ∃ b, up b ∧ e.getLsbD b = true
    let may (b : Nat) : Prop := up b ∧ (minimal → e.getLsbD b = true) ∧ (¬minimal → e.getLsbD (64 + b) = true)
    let own := k.smod = s.mod.id
    let sent := if own then k else Packet.nextHop k
    let here := k.dmod = s.mod.id ∨ k.kind = 15
    let r := Sparse.get 0 s.fab.rotPtrs d.toNat
    let after (b : Nat) : Nat := (b + 63 * (r + 1)) % 64
    (here → exec (.packetForward d k) s = .next s) ∧
    (¬here → ¬own → k.hop = 7 → exec (.packetForward d k) s = .next (s.countDie d 0x632 1)) ∧
    (¬here → own ∨ k.hop ≠ 7 → (∀ b, ¬may b) → exec (.packetForward d k) s =
      .next { s with fab := { s.fab with dropped := if k.dmod ∈ s.fab.dropped then s.fab.dropped else s.fab.dropped ++ [k.dmod] } }) ∧
    (¬here → own ∨ k.hop ≠ 7 → (∃ b, may b) → ∃ b, may b ∧
      (∀ b', may b' → s.bitLoad d k.tc b < s.bitLoad d k.tc b' ∨ (s.bitLoad d k.tc b = s.bitLoad d k.tc b' ∧ after b ≤ after b')) ∧
      (let p : BitVec 4 := BitVec.ofNat 4 (b / 4)
       let j : BitVec 2 := BitVec.ofNat 2 (b % 4)
       let t := (s.modPort p (fun x => x.setLink j ((x.link j).enqueue d sent))).pump p j
       exec (.packetForward d k) s = .next { t with fab := { t.fab with rotPtrs := Sparse.put 0 s.fab.rotPtrs d.toNat ((r + 1) % 64) } })) ∧
    ((Packet.nextHop k).hop = k.hop + 1 ∧ Packet.e2eOk (Packet.nextHop k) = Packet.e2eOk k ∧
      Packet.nextHop k = { k with hop := k.hop + 1, e2e := (Packet.nextHop k).e2e }) ∧
    (let q := l.enqueue d k
     let entry := (d, k, Packet.units k)
     q = { l with wait := q.wait } ∧ (k.tc ≠ 0 → q.wait = l.wait ++ [entry]) ∧
     (k.tc = 0 → ∃ a b, l.wait = a ++ b ∧ q.wait = a ++ entry :: b ∧
       (∀ x ∈ a, x.2.1.tc = 0 ∨ x.2.2.length < (Packet.units x.2.1).length) ∧
       ∀ x ∈ b.head?, x.2.1.tc ≠ 0 ∧ (Packet.units x.2.1).length ≤ x.2.2.length))) ∧
  (∀ (s : State) (k : Packet) (u : Upset),
    let key := streamKey k.sdie k.smod
    let next := Sparse.get 0 s.fab.rxNext key
    let ahead := (k.seq - next).toNat
    let c : Instr := .packetDeliver ⟨k, u⟩
    let other := k.dmod ≠ s.mod.id ∨ s.boot.headStopped = true ∨ k.kind = 15
    let damaged := Packet.e2eOk k = false ∨ k.kind = 12 ∨ k.kind = 13 ∨ k.kind = 14
    let stale := requestKind k.kind = false ∨ k.smod ∈ s.fab.unreach ∨ k.sepoch ≠ Sparse.get 0 s.fab.rxEpoch key
    let twice := 0x800000 ≤ ahead ∨ ∃ y ∈ s.fab.reorder, y.sdie = k.sdie ∧ y.smod = k.smod ∧ y.seq = k.seq
    let held := s.boot.modSafe = true ∨ s.boot.warming = true ∨ (s.die (adDie k.addr)).safehold = true
    let taken := ¬other ∧ ¬damaged ∧ ¬stale ∧ ¬twice ∧ ahead = 0
    let kept := exec c s = .next { s with fab := { s.fab with reorder := s.fab.reorder ++ [k] } }
    let done (t : State) : Prop := exec c s =
      .next (({ t with fab := { t.fab with rxNext := Sparse.put 0 t.fab.rxNext key (k.seq + 1) } }).drain k.sdie k.smod)
    let ack (t : State) (st : Nat) : State := t.sendAck k.smod k.sdie k.seq st
    let place (n : Nat) (l : Loc) : Prop := s.remotePlace k.addr n = .inr l
    (other → exec c s = .next s) ∧ (¬other → damaged → exec c s = .next (s.countDie k.sdie 0x631 1)) ∧
    (¬other → ¬damaged → stale → exec c s = .next s) ∧
    (¬other → ¬damaged → ¬stale → twice → exec c s = .next ((s.countDie k.sdie 0x633 1).drain k.sdie k.smod)) ∧
    (¬other → ¬damaged → ¬stale → ¬twice → ahead ≠ 0 → (s.reorderBytes k.sdie + linkBytes k ≤ 2097152 → kept) ∧
      (2097152 < s.reorderBytes k.sdie + linkBytes k → exec c s = .next ((s.countDie k.sdie 0x634 1).sendAck k.smod k.sdie next 0x2000))) ∧
    ((∀ y ∈ s.fab.reorder, ¬(y.sdie = k.sdie ∧ y.smod = k.smod ∧ y.seq = next)) → s.drain k.sdie k.smod = s) ∧
    (taken →
      (k.kind = 1 → held → done (ack s 0x1000)) ∧
      (∀ t, k.kind = 1 → ¬held → s.remotePlace k.addr k.payload.length = .inl t → done (ack s (0x1000 + t.code.toNat))) ∧
      (∀ l, k.kind = 1 → ¬held → place k.payload.length l → s.messageAhead k l = true → kept) ∧
      (∀ l, k.kind = 1 → ¬held → place k.payload.length l → s.messageAhead k l = false → l.here = true →
        done (ack (s.perform l (k.payload.map some)) 0) ∧ (Sparse.wf {} s.cores = true → s.wrote (s.perform l (k.payload.map some)) l (k.payload.map some))) ∧
      (∀ c o, k.kind = 1 → ¬held → place k.payload.length (.ctl c o) → s.messageAhead k (.ctl c o) = false →
        let v : Word := BitVec.ofNat 64 (leNat k.payload)
        (s.ctlWaits .window c o v = true → kept) ∧ (s.ctlWaits .window c o v = false → done (ack (s.ctlWrite .window c o v) 0))) ∧
      (k.kind = 2 ∨ k.kind = 3 → held → done (({ s with free := s.free + 1 } : State).respond k
        (.inl { code := BitVec.ofNat 8 (Config.freeNat s.free), detail := BitVec.ofNat 16 (Config.freeNat s.free / 256) }))) ∧
      (∀ t, k.kind = 2 → ¬held → s.remotePlace k.addr k.len.toNat = .inl t → done (s.respond k (.inl t))) ∧
      (∀ l, k.kind = 2 → ¬held → place k.len.toNat l → s.messageAhead k l = true → kept) ∧
      (∀ l, k.kind = 2 → ¬held → place k.len.toNat l → s.messageAhead k l = false → l.here = true → u = .none →
        done (s.respond k (if s.poisoned l k.len.toNat then .inl { code := 0x0A, detail := 5 } else .inr (s.readLoc l k.len.toNat)))) ∧
      (∀ l, k.kind = 2 → ¬held → place k.len.toNat l → s.messageAhead k l = false → l.here = true → u = .uncorrectable →
        done ((s.uncorrectable l k.len.toNat 1 false).respond k (.inl { code := 0x0A, detail :=
          match l with | .ls _ _ => 7 | .loft _ _ => 2 | .hbm _ _ => 3 | .ddr _ _ => 4 | _ => 5 }))) ∧
      (∀ c o, k.kind = 2 → ¬held → place k.len.toNat (.ctl c o) → s.messageAhead k (.ctl c o) = false →
        done ((s.ctlRead .window c o).2.respond k (.inr (toBytes (s.ctlRead .window c o).1.toNat 8)))) ∧
      (∀ a, k.kind = 3 → ¬held → remoteAtom k.oparg = some a → k.addr.toNat % a.size ≠ 0 → done (s.respond k (.inl (misaligned a.size k.addr)))) ∧
      (∀ a d o, k.kind = 3 → ¬held → remoteAtom k.oparg = some a → k.addr.toNat % a.size = 0 → place a.size (.loft d o) →
        s.poisoned (.loft d o) a.size = false → u = .none →
        let x : Word := BitVec.ofNat 64 (leNat (k.payload.take 8))
        let y : Word := BitVec.ofNat 64 (leNat ((k.payload.drop 8).take 8))
        let r := s.atomDo ⟨0, 0⟩ (.loft d o) a x (if a = .cas then y else x)
        done (r.2.respond k (.inr (fitBytes r.1 8)))) ∧
      (k.kind = 3 → ¬held → remoteAtom k.oparg = Option.none → done (s.respond k (.inl (violation 4 k.addr)))) ∧
      (k.kind = 4 → idModule (k.addr.extractLsb' 0 22) = s.mod.id → s.present (idCore (k.addr.extractLsb' 0 22)) = true → ∃ m : Msg,
        m.source = .peer k.smod k.sdie ∧ m.origin = .peer k.smod k.sdie k.seq ∧ m.target = k.addr.extractLsb' 0 22 ∧ m.queue = k.oparg.extractLsb' 0 4 ∧
        m.epoch = k.aux.extractLsb' 0 16 ∧ m.payload = k.payload.drop 8 ∧ m.phase = .flight ∧ m.seq = s.nextSeq ∧ m.left = s.nextSeq ∧
        m.sender = k.sid ∧ m.thr = k.thr ∧ done { s with msgs := s.msgs ++ [m], nextSeq := s.nextSeq + 1 }) ∧
      (k.kind = 4 → ¬(idModule (k.addr.extractLsb' 0 22) = s.mod.id ∧ s.present (idCore (k.addr.extractLsb' 0 22)) = true) → done (ack s 4)) ∧
      (k.kind = 5 → s.present (idCore (k.addr.extractLsb' 0 22)) = false → done (ack s 7)) ∧
      (k.kind = 5 → s.present (idCore (k.addr.extractLsb' 0 22)) = true → k.payload = [] → ∃ n : Contrib,
        n.from_ = some (k.sid, k.seq) ∧ n.target = idCore (k.addr.extractLsb' 0 22) ∧ n.credit = false ∧ n.data = [] ∧ n.seq = s.nextSeq ∧
        n.ctx = k.addr.extractLsb' 24 4 ∧ n.epoch = k.addr.extractLsb' 32 16 ∧ n.away = Option.none ∧
        done (ack { s with contribs := s.contribs ++ [n], nextSeq := s.nextSeq + 1 } 0)) ∧
      (k.kind = 8 ∨ k.kind = 9 → s.boot.hostUp = false → done s) ∧
      (k.kind = 8 → s.boot.hostUp = true →
        done (ack (s.submission k.smod (k.oparg.extractLsb' 0 6) (k.addr.extractLsb' 0 10) (BitVec.ofNat 512 (leNat k.payload))) 0)) ∧
      (k.kind = 9 → s.boot.hostUp = true → done (ack (s.peerRecord k.smod (k.oparg.extractLsb' 0 6) (BitVec.ofNat 256 (leNat k.payload))) 0)))) ∧
  (∀ (s : State) (d : DieIx) (m : BitVec 12) (epoch : BitVec 8) (upTo : BitVec 24) (errors : List (BitVec 24 × BitVec 16)),
    let now := Sparse.get 0 s.fab.txEpoch (streamKey d m)
    let c : Instr := .thaexAckArrival d m epoch upTo errors
    let covers (x : OutPkt) : Prop := x.die = d ∧ x.pkt.dmod = m ∧ (upTo - x.pkt.seq).toNat < 0x800000 ∧ x.waits = false
    let only (x : OutPkt) : Prop := epoch = now ∧ s.fab.store = [x] ∧ covers x ∧ ∀ e ∈ errors, e.1 = x.pkt.seq
    let gone : State := { s with fab := { s.fab with store := [] } }
    (epoch ≠ now → exec c s = .next s) ∧
    (epoch = now → errors = [] →
      (∀ x ∈ s.fab.store, covers x → x.pkt.kind = 1 ∧ ∀ f ∈ s.writes, f.seq = x.flight → ∃ w, f.src = some w ∧ (s.thread w).memHold = .none ∧
        (s.thread w).haltReq = Option.none) →
      ∃ t, exec c s = .next t ∧ (∀ x : OutPkt, (∃ y ∈ t.fab.store, y.die = x.die ∧ y.pkt = x.pkt ∧ y.flight = x.flight) ↔
        ∃ y ∈ s.fab.store, y.die = x.die ∧ y.pkt = x.pkt ∧ y.flight = x.flight ∧ ¬covers y)) ∧
    (∀ x (f : WFlight) w, only x → x.pkt.kind = 1 → s.writes.find? (fun g => g.seq = x.flight) = some f → f.src = some w →
      let g : State := { gone with writes := s.writes.filter (fun g => g.seq ≠ f.seq) }
      let fell (t : State) : State := (((t.modThread w (fun h => { h with pend := h.pend - 1 })).settleHold w).haltIfAsked w).releaseStore d
      (errors = [] → exec c s = .next (fell g)) ∧
      (∀ e es, errors = e :: es → exec c s = .next (fell ((g.modThread w (fun h => { h with lost := true })).failItems w stFault
        (faultCause 7 (e.2.toNat % 4096)) (locThread g w))))) ∧
    (∀ x (n : Msg), only x → x.pkt.kind = 4 → s.msgs.find? (fun n => n.seq = x.flight ∧ n.phase = .flight) = some n →
      exec c s = .next ((gone.answer n (match errors with | [] => 0 | e :: _ => BitVec.ofNat 3 e.2.toNat)).releaseStore d)) ∧
    (∀ x (n : Contrib), only x → x.pkt.kind = 5 → s.contribs.find? (fun n => n.seq = x.flight) = some n →
      (errors = [] → x.pkt.payload = [] → exec c s = .next gone) ∧
      (errors = [] → x.pkt.payload ≠ [] → exec c s = .next ((gone.dropContrib n.seq).releaseStore d)) ∧
      (∀ e es, errors = e :: es → e.2.toNat < 8 → exec c s = .next ((gone.redGone n (BitVec.ofNat 3 e.2.toNat)).releaseStore d))) ∧
    (∀ e, epoch = now → (∀ x ∈ s.fab.store, ¬covers x ∧ x.waits = false) → errors = [e] →
      (e.2 = 0x2000 → exec c s = .next { s with outbox := s.outbox ++ (s.fab.store.filter (fun x =>
        decide (x.die = d ∧ x.pkt.dmod = m ∧ (x.pkt.seq - e.1).toNat < 0x800000))).map (fun x => Out.packet x.die x.pkt) }) ∧
      (∀ n, e.2.toNat < 8 → s.contribs.find? (fun n => decide (n.req = some e.1 ∧ coreDie n.sender.core = d) && !n.credit &&
          (match n.away with | some t => decide (idModule t = m) | Option.none => false)) = some n →
        exec c s = .next (s.redGone n (BitVec.ofNat 3 e.2.toNat)))) ∧
    (∀ x, s.fab.store = [x] → x.waits = true → x.die = d → s.releaseStore d =
      if s.storeFits d x.pkt then { s with fab := { s.fab with store := [{ x with waits := false }] }, outbox := s.outbox ++ [.packet d x.pkt] } else s)) ∧
  (∀ (s : State) (f : RFlight) (data : List Byte), s.reads.find? (fun g => g.seq = f.seq) = some f →
    let rest := s.fab.store.filter (fun x => ¬(x.flight = f.seq ∧ (x.pkt.kind = 2 ∨ x.pkt.kind = 3)))
    let g := ({ s with fab := { s.fab with store := rest } } : State).releaseStore (coreDie f.who.core)
    ((∀ m a, f.loc ≠ .remote m a) → ∀ trap, exec (.readResponse f.seq trap data) s = .next s) ∧
    (∀ m a, f.loc = .remote m a →
      (f.engine ≠ Option.none → exec (.readResponse f.seq Option.none data) s = .next (g.gotRead f.seq (.bytes (fitBytes data f.len))) ∧
        ∀ c d, exec (.readResponse f.seq (some (c, d)) data) s = .next (g.gotRead f.seq (.trap { code := c, detail := d }))) ∧
      (f.engine = Option.none → ∀ c d, exec (.readResponse f.seq (some (c, d)) data) s =
        .next (g.deliver f.who f.seq (.fault { code := c, detail := d, tval := f.addr } Option.none))) ∧
      (∀ rd size signed op, f.engine = Option.none → f.atom = Option.none → f.fill = Option.none → (s.thread f.who).loads = [op] →
        op.kind = .scalar rd size signed → op.parts = [.wait f.seq] → (size = 1 ∨ size = 2 ∨ size = 4 ∨ size = 8) → f.take = size → f.len = size → f.skip = 0 →
        (∀ r ∈ s.reads, r.seq = f.seq → r = f) → (s.thread f.who).undisturbed → data.length = size →
        exec (.readResponse f.seq Option.none data) s = .next ((({ g with reads := s.reads.filter (fun r => r.seq ≠ f.seq) }).modThread f.who (fun h =>
          let h := { h.setReg rd (widen data size signed) with loads := [] }
          match op.upd with
          | some (r, u) => h.setReg r u
          | Option.none => h)).countRetired f.who)))) ∧
  (∀ (s : State) (d : DieIx) (k : Packet) (flight : Nat) (ring : Option (BitVec 6 × BitVec 10)) (i : Iss) (rd rb : BitVec 5) (f : MemF) (a b : Word) (upd : Option Word)
    (m : BitVec 12) (page : Option Nat),
    let key := streamKey d k.dmod
    let bytes (p : OutPkt → Bool) : Nat := ((s.fab.store.filter (fun x => !x.waits && p x)).map (fun x => 32 + (x.pkt.payload.length + 31) / 32 * 32)).sum
    let size := 32 + (k.payload.length + 31) / 32 * 32
    let waits := 262144 < bytes (fun x => decide (x.die = d ∧ x.pkt.dmod = k.dmod)) + size ∨ 8388608 < bytes (fun x => decide (x.die = d)) + size ∨
      ∃ x ∈ s.fab.store, x.waits = true ∧ x.die = d ∧ x.pkt.dmod = k.dmod
    let sent (t : State) : Prop := ∃ q e,
      q = { k with tc := 1, sdie := d, smod := s.mod.id, seq := Sparse.get 0 s.fab.txSeq key, sepoch := Sparse.get 0 s.fab.txEpoch key,
                   len := if k.kind = 2 then k.len else BitVec.ofNat 13 k.payload.length, e2e := e } ∧ Packet.e2eOk q = true ∧
      t = { s with fab := { s.fab with txSeq := Sparse.put 0 s.fab.txSeq key (Sparse.get 0 s.fab.txSeq key + 1), store := t.fab.store }, outbox := t.outbox } ∧
      (waits → t.fab.store = s.fab.store ++ [{ die := d, flight, pkt := q, ring, waits := true }] ∧ t.outbox = s.outbox) ∧
      (¬waits → t.fab.store = s.fab.store ++ [{ die := d, flight, pkt := q, ring, waits := false }] ∧ t.outbox = s.outbox ++ [.packet d q])
    let store (c : Instr) (size : Nat) : Prop := s.ready i false = true → s.reaches i.who rb Option.none f .write size a upd (.remote m b) page →
      let w := i.who
      let bytes := (lowBytes ((s.thread w).reg rd) size)
      let x : WFlight := { seq := s.nextSeq, source := .port w.core, src := some w, dma := Option.none, loc := .remote m b, bytes, page, red := Option.none }
      let r : Packet := { Packet.base 1 1 m s.mod.id (coreDie w.core) with sid := s.coreId w.core, thr := w.thr, addr := b, payload := bytes.map (fun v => v.getD 0) }
      (s.unreachable m = true → (s.thread w).bound = [] → (s.thread w).taken = [] →
        exec c s = .next (s.retired w 4 (fun h => { h with lost := true }.rebase rb upd))) ∧
      (s.unreachable m = false → b.toNat % 4096 + size ≤ 4096 →
        let t := s.cacheNote w.core (.remote m b) page bytes
        exec c s = .next (({ t with writes := s.writes ++ [x], nextSeq := s.nextSeq + 1 }.sendReq (coreDie w.core) r s.nextSeq Option.none).retired w 4 (fun h =>
          { h with pend := h.pend + 1 }.rebase rb upd)))
    sent (s.sendReq d k flight ring) ∧ store (.stB i rd rb f) 1 ∧ store (.stH i rd rb f) 2 ∧ store (.stW i rd rb f) 4 ∧ store (.stD i rd rb f) 8 ∧
    (s.unreachable m = true → ∀ w len fill skip take atom, s.startRead w (.remote m b) len a page fill skip take atom = (.fault (violation 5 a) (some m), s)))

/-- R408: a probe goes to a module that a packet in the send store or a dropped packet names, unless one is outstanding or the module is unreachable; its reply ends it and sends again every packet after
the SEQ last delivered. A probe that arrives is answered with that SEQ, unless the head groom has stopped. (The layout of control packets is the model's choice: log 15.)
R408 to R410, R280, R357, R466, R467: a probe that finds no answer in time, also not in the same C-cycle, or a notice, declares the module unreachable once: the notice floods on, the module leaves the reachable ones, everything
sent toward it or waiting from it is dropped, and the event is written; acknowledgements and records of the same C-cycle, which are commands that wait (log 63), are applied first; a thread's tile that waits to go there is dropped with reason 7, and the thread's items fail.
The model's own choices in it: logs 4, 44. -/
def Obligations.Reachability : Prop :=
  (∀ (s : State) (d sdie : DieIx) (m : BitVec 12) (last : BitVec 24),
    let due := m ∈ s.fab.dropped ∨ ∃ x ∈ s.fab.store, x.waits = false ∧ x.die = d ∧ x.pkt.dmod = m
    let may := m ≠ s.mod.id ∧ m ∉ s.fab.unreach ∧ (d, m) ∉ s.fab.probes ∧ due
    let control (t : State) (k : Packet) (bs : List Byte) : Prop :=
      k.kind = 0 ∧ k.tc = 0 ∧ k.dmod = m ∧ k.smod = t.mod.id ∧ k.payload = bs ∧ Packet.e2eOk k = true
    (¬may → exec (.probeSend d m) s = .next s) ∧
    (may → ∃ k, control s k (controlBytes 0 d m 0) ∧ 
      (let f : Fabric := { s.fab with probes := s.fab.probes ++ [(d, m)], dropped := s.fab.dropped.filter (fun k => k ≠ m) }
       exec (.probeSend d m) s = .next (({ s with fab := f, outbox := s.outbox ++ [.packet d k] } : State).countDie d 0x635 1))) ∧
    ((d, m) ∉ s.fab.probes → exec (.probeReply d m last) s = .next s) ∧
    ((d, m) ∈ s.fab.probes → exec (.probeReply d m last) s = .next { s with
      fab := { s.fab with probes := s.fab.probes.filter (fun k => k ≠ (d, m)) }
      outbox := s.outbox ++ (s.fab.store.filter (fun x => decide (x.die = d ∧ x.pkt.dmod = m ∧ x.waits = false ∧ 0x800000 ≤ (last - x.pkt.seq).toNat))).map
        (fun x => .packet x.die x.pkt) }) ∧
    (s.boot.headStopped = true → exec (.probeArrival d m sdie) s = .next s) ∧
    (s.boot.headStopped = false → let t := s.drain sdie m
      ∃ k, control t k (controlBytes 1 sdie t.mod.id (Sparse.get 0 t.fab.rxNext (streamKey sdie m) - 1).toNat) ∧
        exec (.probeArrival d m sdie) s = .next { t with outbox := t.outbox ++ [.packet d k] })) ∧
  (∀ (s : State) (m : BitVec 12),
    let c : Instr := .unreachNotice m
    let known := m = s.mod.id ∨ m ∈ s.fab.unreach
    let notice (p : BitVec 4) (j : BitVec 2) (t : State) : Packet :=
      Packet.seal { Packet.base 0 0 ((Sparse.get (0 : Word) t.fab.peers p.toNat).extractLsb' (16 * j.toNat) 12) t.mod.id (portDie p) with
        payload := controlBytes 2 0 m 0 }
    let z : State := s.beforeDeclared m
    let f : State := allPorts.foldl (fun s p => subPorts.foldl (fun s j => s.sendOn (portDie p) p j (notice p j s)) s) z
    let v : State := { f with fab := { f.fab with unreach := f.fab.unreach ++ [m], reach := f.fab.reach.filter (fun k => k ≠ m),
                                                  probes := f.fab.probes.filter (fun k => k.2 ≠ m), dropped := f.fab.dropped.filter (fun k => k ≠ m) } }
    let replied := ∃ d last, Instr.probeReply d m last ∈ s.pending ∧ (d, m) ∈ s.fab.probes
    let w : State := allDies.foldl State.releaseStore (((v.dropToward m).dropFrom m).dropRings m)
    (known → exec c s = .next s) ∧
    ((∀ d, (d, m) ∉ s.fab.probes) → exec (.peerUnreach m) s = .next s) ∧
    (replied → exec (.peerUnreach m) s = .next s) ∧ ((∃ d, (d, m) ∈ s.fab.probes) → ¬replied → exec (.peerUnreach m) s = exec c s) ∧
    (known ∨ (∀ k ∈ s.pending, (∀ d ep up es, k ≠ .thaexAckArrival d m ep up es) ∧ (∀ r rc, k ≠ .itemRecordArrival m r rc) ∧ ∀ a, k ≠ .packetDeliver a) → z = s) ∧
    (∀ d ep up es, ¬known → s.pending = [.thaexAckArrival d m ep up es] → exec (.thaexAckArrival d m ep up es) s = .next z) ∧
    (∀ r rc, ¬known → s.pending = [.itemRecordArrival m r rc] → exec (.itemRecordArrival m r rc) s = .next z) ∧
    (∀ a, ¬known → s.pending = [.packetDeliver a] → a.pkt.smod = m → a.pkt.kind = 9 → exec (.packetDeliver a) s = .next z) ∧
    (¬known → m ∉ z.fab.unreach → exec c s = .next ((if m ∈ f.fab.reach then { w with mod := { w.mod with modules := w.mod.modules - 1 } }.sizeChanged else w).event 6 0 m.toNat 1)) ∧
    (¬known → z = s → s.boot.hostUp = false → s.boot.headStopped = false → ∃ t, exec c s = .next t ∧ t.fab.unreach = s.fab.unreach ++ [m] ∧
      t.fab.reach = s.fab.reach.filter (· ≠ m) ∧ (∀ x ∈ t.fab.store, x.pkt.dmod ≠ m) ∧ (∀ k ∈ t.fab.reorder, k.smod ≠ m) ∧ (∀ d, (d, m) ∉ t.fab.probes) ∧
      t.mod.modules = (if m ∈ s.fab.reach then s.mod.modules - 1 else s.mod.modules) ∧
      (∀ e ∈ t.dict.evtLog.getLast?, e.extractLsb' 176 16 = (0x0006 : BitVec 16) ∧ e.extractLsb' 0 12 = m) ∧
      (∀ n ∈ s.contribs, (∃ i, n.away = some i ∧ idModule i = m) → n.from_ = Option.none → (∀ q ∈ t.contribs, q.seq ≠ n.seq) ∧
        (t.thread n.sender).redRej = true ∧ (t.thread n.sender).lost = true)))

/-- R411: the module asks its upstream, the neighbour toward the master, for the time; the reply gives the offset ((t2 - t1) - (t4 - t3)) / 2, which is then slewed away, and
UNSYNC shows on the upstream port while the offset exceeds 21 ns. A request that arrives is answered. (The layout of the packets is the model's choice: log 15.)
R410, R412, R413: a discovery whose lists hold this module and another one gives every module its ID, keeps or requests it, and leaves the reachable modules, the size and, on the links
of this module, the routes: bit by bit, a link whose peer is one hop nearer is minimal, one whose peer is as near is an alternate; the
streams of a module that was unreachable start anew in the next epoch. Two requests for one ID, or modules more than 7 hops
apart, leave everything as it is but for the event FABRIC_INVALID.
The model's own choices in it: logs 4, 44. -/
def Obligations.TimeAndDiscovery : Prop :=
  (∀ (s : State) (p : BitVec 4) (m : BitVec 12) (t1 t2 t3 t4 : Word),
    let off : Int := (((t2.toNat : Int) - t1.toNat) - ((t4.toNat : Int) - t3.toNat)) / 2
    let shows (t : State) (up : Option (BitVec 4)) (off : Int) : Prop := ∀ q, (t.port q).unsync = decide (up = some q ∧ 21 < off.natAbs)
    let stamps (d : DieIx) (m : BitVec 12) (a b c : Nat) : Packet :=
      Packet.seal { Packet.base 7 0 m s.mod.id d with payload := toBytes a 8 ++ toBytes b 8 ++ toBytes c 8 ++ toBytes 0 8 }
    (s.upstreamPort ≠ some p ∨ s.boot.headStopped = true → exec (.timeSync p) s = .next s) ∧
    (s.upstreamPort = some p → s.boot.headStopped = false → ∃ (v : State) (j : BitVec 2), shows v (some p) s.fab.offset ∧ v.fab.upstream = some p ∧ v.fab.offset = s.fab.offset ∧
      v = { s with fab := v.fab } ∧ (s.port p).up.getLsbD j.toNat = true ∧ (∀ i : BitVec 2, i.toNat < j.toNat → (s.port p).up.getLsbD i.toNat = false) ∧
      exec (.timeSync p) s = .next (v.sendOn (portDie p) p j
        (stamps (portDie p) ((Sparse.get (0 : Word) s.fab.peers p.toNat).extractLsb' (16 * j.toNat) 12) s.now 0 0))) ∧
    (s.fab.upstream = Option.none → exec (.timeSyncReply t1 t2 t3 t4) s = .next s) ∧
    (s.fab.upstream ≠ Option.none → ∃ t, exec (.timeSyncReply t1 t2 t3 t4) s = .next t ∧ t.fab.offset = off ∧ t.fab.slew = off * 65536 ∧
      t.fab.upstream = s.fab.upstream ∧ shows t s.fab.upstream off ∧ t = { s with fab := t.fab }) ∧
    (s.boot.headStopped = true → exec (.timeSyncRequestArrival m t1 t2 t3) s = .next s) ∧
    (s.boot.headStopped = false →
      exec (.timeSyncRequestArrival m t1 t2 t3) s = .next { s with outbox := s.outbox ++ [.packet 0 (stamps 0 m t1.toNat t2.toNat t3.toNat)] })) ∧
  (∀ (s : State) (nodes : List DiscNode),
    let mine := nodes.find? (fun n => n.serial = Config.serial)
    (mine = Option.none ∨ nodes.length < 2 ∨ s.boot.headStopped = true → exec (.fabricDiscovery nodes) s = .next s) ∧
    (∀ me, mine = some me → 2 ≤ nodes.length → s.boot.headStopped = false →
      (s.fabricInvalid nodes = true → exec (.fabricDiscovery nodes) s = .next (s.event 7 0 0 1)) ∧
      (s.fabricInvalid nodes = false → ∃ t, exec (.fabricDiscovery nodes) s = .next t ∧
        (let ids := s.assignIds nodes
         t.fab.holders = ids ∧ t.mod.id = idOf ids me.serial ∧ t.mod.provisional = false ∧ t.mod.everJoined = true ∧
         t.mod.modules = BitVec.ofNat 16 nodes.length ∧ t.fab.reach = nodes.map (fun n => idOf ids n.serial) ∧
         (∀ i, i ∈ t.fab.unreach ↔ i ∈ s.fab.unreach ∧ i ∉ t.fab.reach) ∧
         ((nodes.map (fun n => idOf ids n.serial)).Nodup → ∀ i ∈ s.fab.unreach, i ∈ t.fab.reach → ∀ d, let key := streamKey d i
           Sparse.get 0 t.fab.txEpoch key = Sparse.get 0 s.fab.txEpoch key + 1 ∧ Sparse.get 0 t.fab.rxEpoch key = Sparse.get 0 s.fab.rxEpoch key + 1 ∧
           Sparse.get 0 t.fab.txSeq key = 0 ∧ Sparse.get 0 t.fab.rxNext key = 0) ∧
         (∀ n ∈ nodes, n.serial ≠ me.serial → (∀ k ∈ nodes, idOf ids k.serial = idOf ids n.serial → k.serial = n.serial) →
           Sparse.get 0 t.fab.routes (idOf ids n.serial).toNat = routeEntry nodes me n.serial)) ∧
        s.sameMemory t)))

/-- R391, R420 to R423, R425: the rest lane of a port that is up steps downward to 0 and upward to 16 and back, while its last rest lane has been calibrated, PERM is clear and the port is
below level 2, and the next group of every sub-port announces it; a heater that carries data moves toward the code asked for by at most 16; a request moves the rest lane straight to the named lane; and a lane that rests is calibrated: its
record of the current band is written and used, the rotation may go on, and a receive lane's margin decides whether its recalibration is over.
R398, R423 to R426: a sampled margin is kept; a data-carrying receive lane below FAR_EYE_MIN puts the port at level 2 and asks the peer to rest the lane, or at level 3, with the lane's group
disabled, which this end's trailers then say, where PERM is set, a lane rests at level 2 already or a lower lane of the same sample, one of the commands that wait (log 63), is to. A lane of a fitted port that is lost for good stays lost: the first one is rested for good, a further
one takes its lane group down.
The model's own choices in it: logs 4, 45. -/
def Obligations.LaneCare : Prop :=
  (∀ (s : State) (p : BitVec 4) (tx : Bool) (lane : BitVec 5) (code margin temp : BitVec 16) (vals : BitVec 128),
    let d := portDie p
    let x := s.port p
    let runs := ¬(s.boot.headStopped = true ∧ d = 0)
    let turns := x.up ≠ 0 ∧ x.perm = false ∧ x.level s.now < 2 ∧ x.calibrated = true ∧ runs
    let resting := if tx then x.rest else x.rxRest
    let logical := if lane.toNat < resting.toNat then lane.toNat else lane.toNat - 1
    let carries := lane.toNat ≤ 16 ∧ lane ≠ resting ∧ x.up ≠ 0 ∧ (tx = false → x.lost.getLsbD lane.toNat = false) ∧ x.groupsOff.getLsbD (logical / 4 % 4) = false ∧ runs
    let h : BitVec 16 := Sparse.get 0 x.heaters (32 * b2n tx + lane.toNat)
    let rests := lane.toNat ≤ 16 ∧ s.fitted p = true ∧ runs ∧ (tx = true → lane = x.rest) ∧
      (tx = false → x.lost.getLsbD lane.toNat = false ∧ (lane = x.rxRest ∨ x.recal = some lane ∨ x.recal3 = some lane))
    let same (t : State) : Prop := (∀ q, q ≠ p → t.port q = s.port q) ∧ s.sameMemory t
    (¬turns → exec (.restRotate p) s = .next s) ∧
    (let turned (r : BitVec 5) (down : Bool) : Prop := exec (.restRotate p) s =
       .next (((s.modPort p (fun x => { x with down := down, calibrated := false })).moveRest p r).countDie d 0x640 1)
     turns → (x.down = true → x.rest ≠ 0 → turned (x.rest - 1) true) ∧ (x.down = true → x.rest = 0 → turned 1 false) ∧
      (x.down = false → x.rest.toNat < 16 → turned (x.rest + 1) false) ∧ (x.down = false → 16 ≤ x.rest.toNat → turned 15 true)) ∧
    (let t := s.moveRest p lane
     same t ∧ t.port p = { x with rest := lane, links := (t.port p).links } ∧
      ∀ j : BitVec 2, x.up.getLsbD j.toNat = true → (x.link j).wait = [] → (x.link j).outstanding < x.replayGroups →
        ∃ us tr, Out.group p j us tr ∈ t.outbox ∧ tr.extractLsb' 218 5 = lane ∧ tr.getLsbD 217 = true ∧ us = List.replicate 63 idleUnit) ∧
    (¬carries → exec (.heaterTrack p tx lane code) s = .next s) ∧
    (carries → ∃ t, exec (.heaterTrack p tx lane code) s = .next t ∧ same t ∧
      (let n := (Sparse.get 0 (t.port p).heaters (32 * b2n tx + lane.toNat)).toNat
       (n : Int) - h.toNat = max (-16) (min 16 ((code.toNat : Int) - h.toNat))) ∧
      t.port p = { x with heaters := (t.port p).heaters } ∧
      ∀ k, k ≠ 32 * b2n tx + lane.toNat → Sparse.get 0 (t.port p).heaters k = Sparse.get 0 x.heaters k) ∧
    (16 < lane.toNat ∨ x.up = 0 ∨ ¬runs → exec (.level2Request p lane) s = .next s) ∧
    (lane.toNat ≤ 16 → x.up ≠ 0 → runs → exec (.level2Request p lane) s =
      .next (((s.modPort p (fun x => { x with hold := true, calibrated := false })).moveRest p lane).countDie d 0x642 1)) ∧
    (¬rests → exec (.laneCalibrate p tx lane margin temp vals) s = .next s) ∧
    (rests → ∃ t r, exec (.laneCalibrate p tx lane margin temp vals) s = .next t ∧ same t ∧
      (let unit := 32 * b2n tx + lane.toNat
       let band := s.far.band.toNat % 4
       Sparse.find t.far.recs (256 * (0x6100 + p.toNat) + (64 * band + unit)) = some r ∧ r.getLsbD 255 = true ∧ (r.extractLsb' 253 2 : BitVec 2) = 1 ∧
       (r.extractLsb' 251 2).toNat = band ∧ (r.extractLsb' 248 3).toNat = (if tx then 2 else 1) ∧ (r.extractLsb' 224 16 : BitVec 16) = temp ∧
       (r.extractLsb' 208 16 : BitVec 16) = margin ∧ (r.extractLsb' 80 48 : BitVec 48) = vals.extractLsb' 80 48 ∧
       Sparse.get 0 (t.port p).selected unit = r ∧
       (tx = true → (t.port p).calibrated = true ∧ (t.port p).hold = false ∧ (t.port p).staleTx.getLsbD lane.toNat = false) ∧
       (tx = false → (t.port p).stale.getLsbD lane.toNat = false ∧ (t.port p).below.getLsbD lane.toNat = decide (margin.toNat < s.effective 0x2601 0) ∧
         (s.effective 0x2601 0 ≤ margin.toNat → (t.port p).recal ≠ some lane ∧ (t.port p).recal3 ≠ some lane ∧ (lane = x.rxRest → (t.port p).rxCal = true) ∧
           (x.recal3 = some lane → (t.port p).gdis.getLsbD x.group.toNat = false)) ∧
         (margin.toNat < s.effective 0x2601 0 → (t.port p).recal = x.recal ∧ (t.port p).recal3 = x.recal3 ∧ (t.port p).rxCal = x.rxCal))))) ∧
  (∀ (s : State) (p : BitVec 4) (lane : BitVec 5) (margin : BitVec 6),
    let d := portDie p
    let x := s.port p
    let bit : BitVec 17 := (1 : BitVec 17) <<< lane.toNat
    let deaf := 16 < lane.toNat ∨ x.lost.getLsbD lane.toNat = true ∨ x.up = 0 ∨ (s.boot.headStopped = true ∧ d = 0)
    let group : BitVec 4 := (1 : BitVec 4) <<< (x.groupOf lane).toNat
    let low := margin.toNat < s.effective 0x2602 0 ∧ lane ≠ x.rxRest ∧ x.groupsOff.getLsbD (x.groupOf lane).toNat = false
    let lower := ∃ k m, Instr.eyeSample p k m ∈ s.pending ∧ k < lane ∧ m.toNat < s.effective 0x2602 0 ∧ (s.port p).carries false k = true
    let warned := margin.toNat < s.effective 0x2601 0
    let kept (y : Port) : Port := { y with margins := Sparse.put 0 y.margins lane.toNat margin, below := if warned then y.below ||| bit else y.below &&& ~~~bit,
                                           lastBelow := if warned then some s.now else y.lastBelow }
    let ask (t : State) : State :=
      match subPorts.find? (fun j => (t.port p).up.getLsbD j.toNat) with
      | some j => t.sendOn d p j (Packet.seal { Packet.base 0 0 ((Sparse.get (0 : Word) t.fab.peers p.toNat).extractLsb' (16 * j.toNat) 12) t.mod.id d with
          payload := controlBytes 3 d t.mod.id lane.toNat })
      | Option.none => t
    let deep := (((s.modPort p (fun y => { kept y with gdis := y.gdis ||| group, recal3 := some lane, group := x.groupOf lane })).countDie d 0x643 1).tellGdis p).dropUnusable p
    let gone := 16 < lane.toNat ∨ x.lost.getLsbD lane.toNat = true ∨ s.fitted p = false
    let v := (s.modPort p (fun y => { y with lost := y.lost ||| bit, recal := if y.recal = some lane then Option.none else y.recal,
                                             recal3 := if y.recal3 = some lane then Option.none else y.recal3 })).event 8 d (p.toNat + 16 * lane.toNat) 1
    let w := (if x.rxRest = lane then v else ask v).modPort p (fun y => { y with perm := true, rxRest := lane, rxCal := true })
    let freed := w.modPort p (fun y => { y with gdis := y.gdis &&& ~~~((1 : BitVec 4) <<< x.group.toNat) })
    let told (t : State) : State := ((t.sendGroup p 0).sendGroup p 1).sendGroup p 2 |>.sendGroup p 3
    (deaf → exec (.eyeSample p lane margin) s = .next s) ∧
    (¬deaf → ¬low → exec (.eyeSample p lane margin) s = .next (s.modPort p kept)) ∧
    (¬deaf → low → x.perm = false → x.recal = Option.none → ¬lower →
      exec (.eyeSample p lane margin) s = .next (ask (s.modPort p (fun y => { kept y with recal := some lane })))) ∧
    (¬deaf → low → x.recal = some lane ∨ (x.recal3 ≠ Option.none ∧ (x.perm = true ∨ x.recal ≠ Option.none ∨ lower)) → exec (.eyeSample p lane margin) s = .next (s.modPort p kept)) ∧
    (¬deaf → low → x.recal3 = Option.none → x.recal ≠ some lane → x.perm = true ∨ x.recal ≠ Option.none ∨ lower →
      exec (.eyeSample p lane margin) s = .next deep ∧ (deep.port p).gdis = x.gdis ||| group ∧ s.sameMemory deep ∧
      (∀ j : BitVec 2, (deep.port p).up.getLsbD j.toNat = true → (deep.port p).usable.getLsbD j.toNat = true)) ∧
    (gone → exec (.laneLoss p lane) s = .next s) ∧
    (¬gone → x.perm = false → exec (.laneLoss p lane) s = .next (if x.recal3 = some lane then told freed else w)) ∧
    (¬gone → x.perm = true → x.recal3 = some lane ∨ x.rxRest = lane → exec (.laneLoss p lane) s = .next v) ∧
    (¬gone → x.perm = true → x.recal3 ≠ some lane → x.rxRest ≠ lane →
      exec (.laneLoss p lane) s = .next ((told (v.modPort p (fun y => { y with gdis := y.gdis ||| group }))).dropUnusable p)) ∧
    (let due := x.recal = some lane ∨ x.recal3 = some lane ∨ (x.rxRest = lane ∧ x.rxCal = false)
     let ends := ∃ m temp vals, Instr.laneCalibrate p false lane m temp vals ∈ s.pending ∧ s.effective 0x2601 0 ≤ m.toNat
     (¬due ∨ ends → exec (.recalLimitExpire p lane) s = .next s) ∧ (due → ¬ends → exec (.recalLimitExpire p lane) s = exec (.laneLoss p lane) s)))

/-- R416, R417, R517: a power sample sets the power band, which rises past an edge by 0.1 kW and falls 0.1 kW below it; ten means above the limit lower the operating point by a step and a hundred
below nine tenths of it raise it. When the band moves, or at a reselection, each memory unit takes the record of the band if it fits and its temperature is within 8 degrees, and otherwise
the newest one that fits, as a stale choice.
R418, R428 to R431: a memory PHY's delays follow by at most one step in each update, and its margin falling below FAR_EYE_WARN puts it at level 1; below FAR_EYE_MIN it sends FAR_NEED_DEEPCAL once. A
droop detector stretches its domain's clock and releases it. DEEPCAL_DONE ends the calibration, and restores of the lost lanes it names those that regained their eye; the records are written to flash as they stand.
The model's own choices in it: logs 4, 18, 45, 66. -/
def Obligations.Tracking : Prop :=
  (∀ (s : State) (watts : BitVec 32) (d : DieIx) (temp : BitVec 16),
    let c : Instr := .powerBandSample watts
    let n := watts.toNat
    let band := s.far.band.toNat
    let limit := s.effective 0x2701 0
    let above := s.boot.above + 1
    let below := s.boot.below + 1
    let uses (t : State) (d : DieIx) : Prop := ∀ u, memDie u = d →
      let r (b : Nat) : BitVec 256 := t.recordAt (memRec u).1 (64 * b + (memRec u).2)
      let fits (r : BitVec 256) : Prop := recValid r = true ∧ recRate r = (recordKind (memRec u).1 (memRec u).2).2
      let near := fits (r t.far.band.toNat) ∧ ((recTemp (r t.far.band.toNat)).toInt - (t.dieTemp d).toInt).natAbs ≤ 128
      (near → (t.memTrack u).selected = r t.far.band.toNat ∧ (t.memTrack u).stale = (s.memTrack u).stale) ∧
      (¬near → (t.memTrack u).stale = true ∧ (t.memTrack u).fast = true ∧
        ((∃ b, b < 4 ∧ fits (r b)) → ∃ b, b < 4 ∧ (t.memTrack u).selected = r b ∧ fits (r b) ∧ ∀ b', b' < 4 → fits (r b') → recTime (r b') ≤ recTime (r b)))
    (s.boot.headStopped = true → exec c s = .next s) ∧
    (s.boot.headStopped = false → ∃ t, exec c s = .next t ∧ t.boot.pwrIn = watts ∧ s.sameMemory t ∧
      (band ≤ 3 → t.far.band.toNat ≤ 3 ∧ (∀ k, k < 3 → 1200 * (k + 1) + 100 ≤ n → k < t.far.band.toNat) ∧
        (∀ k, k < 3 → n + 100 ≤ 1200 * (k + 1) → t.far.band.toNat ≤ k) ∧
        ((∀ k, k < 3 → k < band → 1200 * (k + 1) < n + 100) → (∀ k, k < 3 → band ≤ k → n < 1200 * (k + 1) + 100) → t.far.band.toNat = band) ∧
        (t.far.band.toNat ≠ band → ∀ d, uses t d)) ∧
      (limit < n → t.boot.below = 0 ∧ (above = 10 → t.boot.above = 0 ∧ t.boot.powerPt = min 2 (s.boot.powerPt + 1)) ∧
        (above ≠ 10 → t.boot.above = above ∧ t.boot.powerPt = s.boot.powerPt)) ∧
      (n ≤ limit → t.boot.above = 0 ∧ (9 * limit ≤ 10 * n → t.boot.below = 0 ∧ t.boot.powerPt = s.boot.powerPt) ∧
        (10 * n < 9 * limit → (below = 100 → t.boot.below = 0 ∧ t.boot.powerPt = s.boot.powerPt - 1) ∧
          (below ≠ 100 → t.boot.below = below ∧ t.boot.powerPt = s.boot.powerPt)))) ∧
    (s.boot.headStopped = true ∧ d = 0 → exec (.recordReselect d temp) s = .next s) ∧
    (¬(s.boot.headStopped = true ∧ d = 0) → ∃ t, exec (.recordReselect d temp) s = .next t ∧ t.dieTemp d = temp ∧ uses t d ∧ s.sameMemory t)) ∧
  (∀ (s : State) (u : MemUnit) (margin : BitVec 16) (delays : BitVec 128) (d : DieIx) (dom : BitVec 3),
    let x := s.memTrack u
    let runs := ¬(s.boot.headStopped = true ∧ memDie u = 0)
    let warn := s.effective 0x2601 0
    let low := s.effective 0x2602 0
    let step (a b : BitVec 32) : BitVec 32 := if a.toNat < b.toNat then a + 1 else if b.toNat < a.toNat then a - 1 else a
    let moved (k : Nat) (t : State) : Prop :=
      ((t.memTrack u).delays.extractLsb' (32 * k) 32 : BitVec 32) = step (x.delays.extractLsb' (32 * k) 32) (delays.extractLsb' (32 * k) 32)
    (¬runs → exec (.memPhyTrack u margin delays) s = .next s) ∧
    (runs → ∃ t, exec (.memPhyTrack u margin delays) s = .next t ∧
      (∀ st ch, u = .hbm st ch → ∀ k, k < 4 → moved k t) ∧
      (∀ ch sb, u = .ddr ch sb → moved 2 t ∧ moved 3 t ∧
        ((t.memTrack u).delays.extractLsb' 48 16 : BitVec 16) = delays.extractLsb' 48 16) ∧ (t.memTrack u).margin = margin ∧
      (t.memTrack u).below = decide (margin.toNat < warn) ∧ (t.memTrack u).fast = (x.stale || decide (margin.toNat < warn)) ∧
      (margin.toNat < low → low ≤ x.margin.toNat → s.boot.headStopped = false → ∀ e ∈ t.dict.evtLog.getLast?, e.extractLsb' 176 16 = (0x0009 : BitVec 16) ∧
        e.extractLsb' 0 8 = (match u with | .hbm _ _ => 3 | .ddr _ _ => 4 : BitVec 8)) ∧
      (low ≤ margin.toNat ∨ x.margin.toNat < low → t.dict = s.dict) ∧ s.sameMemory t) ∧
    (4 < dom.toNat → exec (.droopStretch d dom) s = .next s ∧ exec (.droopRelease d dom) s = .next s) ∧
    (dom.toNat ≤ 4 → exec (.droopStretch d dom) s = .next (s.modDie d (fun x => { x with stretch := x.stretch ||| ((1 : BitVec 5) <<< dom.toNat) })) ∧
      exec (.droopRelease d dom) s = .next (s.modDie d (fun x => { x with stretch := x.stretch &&& ~~~((1 : BitVec 5) <<< dom.toNat) }))) ∧
    (s.boot.headStopped = true → exec .recordFlashSave s = .next s) ∧
    (s.boot.headStopped = false → exec .recordFlashSave s = .next { s with far := { s.far with flash := s.far.recs } }) ∧
    (s.far.calibrating = false → ∀ r l, exec (.deepcalDone r l) s = .next s) ∧
    (s.far.calibrating = true → ∀ r l, ∃ t, exec (.deepcalDone r l) s = .next t ∧ t.far.calibrating = false ∧ s.sameMemory t ∧
      (∀ q ∈ l, s.eyeRegained r q.1 q.2 = true → (t.port q.1).lost.getLsbD q.2.toNat = false ∧ (t.port q.1).perm = false) ∧
      (∀ q, q ∉ l ∨ s.eyeRegained r q.1 q.2 = false → (t.port q.1).lost.getLsbD q.2.toNat = (s.port q.1).lost.getLsbD q.2.toNat) ∧
      (s.boot.headStopped = false → ∀ e ∈ t.dict.evtLog.getLast?, e.extractLsb' 176 16 = (0x000A : BitVec 16))))

/-- R440 to R447, R484: a monitor event puts its die, or for shared domains the module, in SAFEHOLD: every present core is fenced with its threads FENCED and its queues closed, and SAFEHOLD is
sent; the module also takes the SAFEHOLD overlay. A lockstep mismatch does the same to its die, or stops the head groom with every port down. A checker that fails its
self-test is written to SAFE_SELFTEST and what it guards is taken out of service, but for a core's checker while a retry runs on it, which the test does not interrupt (R158).
R20 to R22, R25, R27, R28, R448, R449: a quiesce names its die and row, and is discarded while one runs there. Once no thread of the row is in RUN, WAIT or HALT, or at the limit, with a
thread that ends in the same C-cycle, one of the commands that wait (log 63), ended before it, the row is mapped anew: its
logical columns run on the physical columns that are not bad, in ascending order, none if three or more are bad; its present cores reopen with every thread FREE or DONE, and the others lose their
contents. Words of local store that the copy of a core to another column finds uncorrectable are poisoned.
The model's own choices in it: logs 4, 20, 21, 41. -/
def Obligations.Containment : Prop :=
  (∀ (s : State) (d : DieIx), Sparse.wf {} s.cores = true → Sparse.wf {} s.dies = true → (∀ c, Sparse.wf {} (s.core c).threads = true) →
    let heldCore (t : State) (c : CoreIx) : Prop := s.present c = true → (s.core c).fenced = false → (t.core c).fenced = true ∧ (t.core c).mq = [] ∧
      (∀ n, (t.thread ⟨c, n⟩).state = .fenced) ∧ ∀ q, (t.queue c q).opn = false ∧ (t.queue c q).epoch = (s.queue c q).epoch + 1
    let heldDie (t : State) (d : DieIx) : Prop := (t.die d).safehold = true ∧ ∀ c, coreDie c = d → heldCore t c
    let last (t : State) (code : BitVec 16) : Prop := ∀ e ∈ t.dict.evtLog.getLast?, e.extractLsb' 176 16 = code
    let holds (c : Instr) (P : State → Prop) : Prop := ∃ t, exec c s = .next t ∧ P t
    let live := s.boot.headStopped = false
    (holds (.monitorEvent (.die d)) (fun t => (t.die d).monitor = true ∧ (t.die d).safehold = true ∧
      ((s.die d).safehold = false → heldDie t d ∧ (live → last t 0x8003)))) ∧
    (live → s.boot.modSafe = false → holds (.monitorEvent .shared) (fun t => t.boot.monShared = true ∧ t.boot.modSafe = true ∧ t.dict.ovlActive = 5 ∧
      (∀ d, heldDie t d) ∧ last t 0x8003)) ∧
    (s.boot.modSafe = true → holds (.monitorEvent .shared) (fun t => t.boot.monShared = true ∧ ∀ w, (t.thread w).state = (s.thread w).state)) ∧
    exec (.monitorEventEnd (.die d)) s = .next (s.modDie d (fun x => { x with monitor := false })) ∧
    exec (.monitorEventEnd .shared) s = .next { s with boot := { s.boot with monShared := false } } ∧
    (d ≠ 0 → (s.die d).safehold = false → holds (.lockstepMismatch d) (fun t => heldDie t d ∧ (live → last t 0x8003))) ∧
    (live → holds (.lockstepMismatch 0) (fun t => t.boot.headStopped = true ∧ ∀ p, (t.port p).up = 0)) ∧
    (s.boot.headStopped = true → exec (.lockstepMismatch 0) s = .next s) ∧
    exec (.checkerSelftest d Option.none) s = .next s ∧
    (∀ k, checkerOnDie k d = false → exec (.checkerSelftest d (some k)) s = .next s) ∧
    (∀ c, coreDie c = d → (s.core c).retry ≠ Option.none → exec (.checkerSelftest d (some (.core c))) s = .next s) ∧
    (∀ c, coreDie c = d → (s.core c).retry = Option.none → holds (.checkerSelftest d (some (.core c))) (fun t => (t.core c).fenced = true ∧
      272 * (coreDie c).toNat + 17 * (coreRow c).toNat + s.physCol c ∈ t.mod.badRun ∧ ((s.core c).fenced = false → ∀ n, (t.thread ⟨c, n⟩).state = .fenced) ∧
      t.mod.selftest = s.selftestWord d 1 (s.coreId c).toNat)) ∧
    holds (.checkerSelftest d (some (.die d))) (fun t => (t.die d).safehold = true ∧ t.mod.selftest = s.selftestWord d 2 0) ∧
    (∀ p, portDie p = d → holds (.checkerSelftest d (some (.thaex p))) (fun t => (t.port p).up = 0 ∧ t.mod.selftest = s.selftestWord d 3 0)) ∧
    holds (.checkerSelftest d (some (.lockstep d))) (fun t => t.mod.selftest = s.selftestWord d 4 0 ∧ (d ≠ 0 → (t.die d).safehold = true) ∧
      (d = 0 → t.boot.headStopped = true))) ∧
  (∀ (s : State) (p : Path) (val : BitVec 16) (d : DieIx) (limit : Bool) (lost : List (BitVec 4 × Nat)),
    let e : DieIx := val.extractLsb' 8 2
    let code := s.writeCode p 0x4220 0 3 2 true
    (code ≠ 0 → exec (.rowQuiesce p val) s = .next (s.report p code)) ∧
    (code = 0 → (s.die e).quiesce ≠ Option.none → exec (.rowQuiesce p val) s = .next (s.report p 0)) ∧
    (code = 0 → (s.die e).quiesce = Option.none → exec (.rowQuiesce p val) s =
      .next ((s.modDie e (fun x => { x with quiesce := some { row := val.extractLsb' 0 4 } })).report p 0)) ∧
    ((s.die d).quiesce = Option.none → exec (.quiesceDrainEnd d ⟨limit, lost⟩) s = .next s) ∧
    (∀ r : BitVec 4, (s.die d).quiesce = some { row := r } →
      let inRow (c : CoreIx) : Prop := coreDie c = d ∧ coreRow c = r
      let busy := ∃ w, inRow w.core ∧ s.present w.core = true ∧ ((s.thread w).state = .run ∨ (s.thread w).state = .wait ∨ (s.thread w).state = .halt)
      let bad (k : Nat) : Prop := 272 * d.toNat + 17 * r.toNat + k ∈ s.mod.badFuse ∨ 272 * d.toNat + 17 * r.toNat + k ∈ s.mod.badRun
      (busy → limit = false → exec (.quiesceDrainEnd d ⟨limit, lost⟩) s = .next s) ∧
      let calm := limit = true → ∀ i rs1, Instr.endThread i rs1 ∈ s.pending → ¬inRow i.who.core
      (∀ (i : Iss) (rs1 : BitVec 5) (u : State), limit = true → s.pending = [.endThread i rs1] → inRow i.who.core → exec (.endThread i rs1) s = .next u →
        exec (.endThread i rs1) u = .next u → u.pending = s.pending → (u.die d).quiesce = (s.die d).quiesce →
        exec (.quiesceDrainEnd d ⟨limit, lost⟩) s = exec (.quiesceDrainEnd d ⟨limit, lost⟩) u) ∧
      (¬busy ∨ limit = true → calm → Sparse.wf {} s.cores = true → (∀ c, Sparse.wf {} (s.core c).threads = true) → ∃ t plan, exec (.quiesceDrainEnd d ⟨limit, lost⟩) s = .next t ∧
        (t.die d).quiesce = Option.none ∧ Sparse.get (List.range 16) t.mod.rowMap (16 * d.toNat + r.toNat) = plan ∧ plan.length ≤ 16 ∧
        ((∃ i j k, i < j ∧ j < k ∧ k < 17 ∧ bad i ∧ bad j ∧ bad k) → plan = []) ∧
        (¬(∃ i j k, i < j ∧ j < k ∧ k < 17 ∧ bad i ∧ bad j ∧ bad k) → plan.Pairwise (· < ·) ∧ (∀ k ∈ plan, k < 17 ∧ ¬bad k) ∧
          (∀ k, k < 17 → ¬bad k → k ∉ plan → plan.length = 16 ∧ ∀ j ∈ plan, j < k)) ∧
        (∀ c, inRow c → (t.present c = true ↔ (coreCol c).toNat < plan.length)) ∧
        (∀ c, inRow c → t.present c = true → s.present c = true → (t.core c).fenced = false ∧ ∀ n, (t.thread ⟨c, n⟩).state = .free ∨ (t.thread ⟨c, n⟩).state = .done) ∧
        (∀ c, inRow c → t.present c = false → t.core c = {}) ∧
        (∀ e ∈ lost, e.2 < 0x100000 → let c := rowCore d r e.1.toNat
          t.present c = true → t.physCol c ≠ s.physCol c → Sparse.get false (t.core c).lsPoison e.2 = true))))

/-- R450 to R454, R459, R467: a ring is configured by its entry: it is enabled only while disabled, in the running stage, with a legal kind, depth, vector and entry area, and then starts at
slot 0 and record 0 (log 16); disabling it ends its items. A doorbell takes the entries up to its slot in order, each into a free slot with an ID that no other outstanding item has; an abort ends an item. A queued item is sent as a message to
the queue that the resolver core's station table names, or fails. A peer's submission is taken likewise, and its record ends the item here.
R439, R455 to R458, R461, R462: a thread binds an outstanding item of an inbound ring that is not bound elsewhere, up to eight; once its fence is complete it marks a bound item
done, which starts the DONE hold, or fails it at once with its cause. The item ends DONE when the hold is over, FAILED_DEADLINE when its time has passed before, and the audit ends one whose thread no
longer holds it.
R440, R443, R461, R463: of the events that end one item in one C-cycle, which the model reads as the commands that wait in the queue while time stands still (log 63), a DONE or FAIL of
the bound thread decides, then a check, fault, link or SAFEHOLD event, then an ABORT, then the deadline; the others are counted as late. A monitor event ends the items in their DONE hold, and a hold does
not end while one waits.
The model's own choices in it: logs 4, 16, 17, 36, 63. -/
def Obligations.Items : Prop :=
  (∀ (s : State) (p : Path) (r : BitVec 6) (val : BitVec 256) (slot : BitVec 10) (area : List (BitVec 10 × BitVec 512)) (m : BitVec 12) (e : BitVec 512)
    (rc : BitVec 256),
    let x := s.ring r
    let l := x.led slot
    let code := s.writeCode p (0x4100 + r.toNat) 0 13 32 true
    let en := val.getLsbD 255
    let kind : BitVec 2 := val.extractLsb' 253 2
    let depth : BitVec 4 := val.extractLsb' 249 4
    let msix : BitVec 6 := val.extractLsb' 243 6
    let sq : Word := val.extractLsb' 128 64
    let bad := kind = 3 ∨ depth.toNat < 4 ∨ 10 < depth.toNat ∨ (kind = 0 ∧ msix.toNat < 4) ∨ (kind = 2 ∧ sq.toNat % (64 * 2 ^ depth.toNat) ≠ 0)
    let y (x : Ring) : Ring := { x with en := en, kind := kind, depth := depth, msix := msix, peer := val.extractLsb' 231 12, peerRing := val.extractLsb' 225 6, sq := sq, cq := val.extractLsb' 64 64 }
    let cfg : Instr := .itmRingCfgWrite p r val
    let shut := s.boot.headStopped = true ∨ s.boot.hostUp = false
    let entries := area.foldl (fun t a => Sparse.put 0 t a.1.toNat a.2) x.entries
    let first : BitVec 512 := Sparse.get 0 entries x.next
    let taken (t : State) (slot : BitVec 10) (e : BitVec 512) : Prop :=
      (t.ring r).led slot = { state := 1, id := e.extractLsb' 0 64, submit := BitVec.ofNat 64 s.now, deadline := e.extractLsb' 64 64, entry := e }
    let used (e : BitVec 512) : Prop := (e.extractLsb' 0 64 : Word) = 0 ∨ ∃ k ∈ x.ledger, k.2.state ≠ 0 ∧ k.2.unacked = false ∧ k.2.id = e.extractLsb' 0 64
    (code ≠ 0 → exec cfg s = .next (s.report p code)) ∧
    (code = 0 → en = true → x.en = true → exec cfg s = .next (s.report p 9)) ∧
    (code = 0 → en = true → x.en = false → s.boot.stage ≠ 6 → exec cfg s = .next (s.report p 10)) ∧
    (code = 0 → en = true → x.en = false → s.boot.stage = 6 → bad → exec cfg s = .next (s.report p 9)) ∧
    (code = 0 → en = true → x.en = false → s.boot.stage = 6 → ¬bad →
      exec cfg s = .next ((s.modRing r (fun x => { y x with next := 0, records := 0 })).report p 0)) ∧
    (code = 0 → en = false → x.en = false ∨ x.ledger = [] → exec cfg s = .next ((s.modRing r y).report p 0)) ∧
    (∀ k, code = 0 → en = false → x.en = true → x.ledger = [k] → k.2.state ≠ 0 → k.2.unacked = false → exec cfg s =
      .next (((s.endItem r (BitVec.ofNat 10 k.1) 0x0105 4 (locOf 4 Option.none (s.mod.id ++ (0 : BitVec 10)))).modRing r y).report p 0)) ∧
    (shut → exec (.itmDbTail r slot area) s = .next s ∧ exec (.itmDbAbort r slot) s = .next s ∧ exec (.itemSubmissionArrival m r slot e) s = .next s ∧
      exec (.itemRecordArrival m r rc) s = .next s ∧ exec (.itemDeliver r slot) s = .next s) ∧
    (¬shut → x.kind = 0 → x.en = false → ∃ t, exec (.itmDbTail r slot area) s = .next t ∧ (t.ring r).entries = entries ∧ (t.ring r).ledger = x.ledger ∧
      (t.ring r).next = x.next) ∧
    (¬shut → x.kind = 0 → x.en = true → x.next < 2 ^ x.depth.toNat → x.next < 1024 → slot.toNat = (x.next + 1) % 2 ^ x.depth.toNat → slot.toNat ≠ x.next →
      (x.led (BitVec.ofNat 10 x.next)).state = 0 → ∃ t, exec (.itmDbTail r slot area) s = .next t ∧ (t.ring r).next = slot.toNat ∧ (t.ring r).entries = entries ∧
        (used first → (t.ring r).ledger = x.ledger) ∧ (¬used first → taken t (BitVec.ofNat 10 x.next) first) ∧ s.sameMemory t) ∧
    (¬shut → l.state = 0 ∨ l.unacked = true ∨ l.state = 4 → exec (.itmDbAbort r slot) s = .next (if l.id = 0 then s else s.countMod 0x802 1)) ∧
    (¬shut → l.state = 1 → l.unacked = false → x.kind = 0 → s.faultWaits r slot = false → (∀ m ∈ s.msgs, m.origin ≠ .item r slot) → ∃ t rc, exec (.itmDbAbort r slot) s = .next t ∧
      ((t.ring r).led slot).state = 0 ∧ t.outbox = s.outbox ++ [.busWrite (x.cq + BitVec.ofNat 64 (32 * (x.records % 2 ^ x.depth.toNat))) (toBytes rc 32), .msix x.msix.toNat] ∧
      rc % 2 ^ 64 = l.id.toNat ∧ rc / 2 ^ 64 % 2 ^ 16 = 0x0105 ∧ rc / 2 ^ 80 % 2 ^ 16 = 1 ∧ rc / 2 ^ 128 % 2 ^ 64 = s.now % 2 ^ 64) ∧
    (let waits := l.state ≠ 1 ∨ x.kind = 2 ∨ s.dict.ovlState ≠ 0 ∨ ∃ m ∈ s.msgs, m.origin = .item r slot
     let dst := (s.core s.resolver).resolve (l.entry.extractLsb' 128 8) (l.entry.extractLsb' 136 8)
     (waits → exec (.itemDeliver r slot) s = .next s) ∧
     (¬shut → ¬waits → l.unacked = false → dst = Option.none → x.kind = 0 → ∃ t, exec (.itemDeliver r slot) s = .next t ∧ ((t.ring r).led slot).state = 0 ∧
       (t.ring r).records = x.records + 1) ∧
     (∀ c q ep, ¬shut → ¬waits → dst = some (c, q, ep) →
       (s.waitsForQueue l c q = true → exec (.itemDeliver r slot) s = .next s) ∧
       (s.waitsForQueue l c q = false → ∃ t m, exec (.itemDeliver r slot) s = .next t ∧ m ∈ t.msgs ∧ m.seq = s.nextSeq ∧ m.origin = .item r slot ∧ m.kind = 2 ∧
         m.target = c ∧ m.queue = q ∧ m.epoch = ep ∧ m.payload.length = 64 ∧ m.payload.take 8 = toBytes (l.entry.extractLsb' 0 64).toNat 8 ∧ m.oneShot = false ∧
         m.phase = (if s.channelHeld (s.mod.id ++ (0 : BitVec 10)) c q then .held else if s.noCore c then .answer 4 else .flight) ∧
         (∀ n ∈ s.msgs, n.seq ≠ s.nextSeq → n ∈ t.msgs) ∧ s.sameMemory t))) ∧
    (¬shut → x.en = false ∨ x.kind ≠ 1 ∨ x.peer ≠ m ∨ 2 ^ x.depth.toNat ≤ slot.toNat ∨ l.state ≠ 0 → exec (.itemSubmissionArrival m r slot e) s = .next s) ∧
    (¬shut → x.en = true → x.kind = 1 → x.peer = m → slot.toNat < 2 ^ x.depth.toNat → l.state = 0 → ∃ t, exec (.itemSubmissionArrival m r slot e) s = .next t ∧
      (t.ring r).next = (slot.toNat + 1) % 2 ^ x.depth.toNat ∧ Sparse.get 0 (t.ring r).entries slot.toNat = e ∧ (¬used e → taken t slot e) ∧
      (used e → (t.ring r).ledger = x.ledger) ∧ s.sameMemory t) ∧
    (¬shut → x.kind ≠ 2 ∨ x.peer ≠ m ∨ m ∈ s.fab.unreach → exec (.itemRecordArrival m r rc) s = .next s) ∧
    (∀ k, ¬shut → x.kind = 2 → x.peer = m → m ∉ s.fab.unreach → k ∈ x.ledger → (∀ j ∈ x.ledger, j.2.state ≠ 0 → j.2.id = rc.extractLsb' 0 64 → j = k) → k.1 < 1024 →
      k.2.state ≠ 0 → k.2.unacked = false → k.2.id = rc.extractLsb' 0 64 → ∃ t, exec (.itemRecordArrival m r rc) s = .next t ∧
        ((t.ring r).led (BitVec.ofNat 10 k.1)).state = 0 ∧ (t.ring r).records = x.records + 1)) ∧
  (∀ (s : State) (w : Who) (r : BitVec 6) (slot : BitVec 10) (cause : BitVec 12),
    let h := r ++ slot
    let x := s.ring r
    let l := x.led slot
    let me := s.mod.id ++ w.core
    let live := l.state ≠ 0 ∧ l.unacked = false
    let mine := l.state = 3 ∧ l.core = me ∧ l.thr = w.thr
    let may := s.canIssue w { mem := true } = true
    let res (c : Instr) (v : BitVec 3) : Prop := exec c s = .next (s.modThread w (fun t => { t with itmRes := v }))
    let refused (c : Instr) (v : BitVec 3) : Prop := exec c s = .next ((if v = 4 then s.countMod 0x802 1 else s).modThread w (fun t => { t with itmRes := v }))
    let gone : BitVec 3 := if l.id = 0 then 1 else 4
    let ready := may ∧ (s.thread w).loads = [] ∧ s.matrixBusy w s.nextSeq = false ∧ (∀ x ∈ s.writes, x.src ≠ some w) ∧ (∀ x ∈ s.acks, x.src ≠ some w) ∧
      ∀ m ∈ s.msgs, m.origin ≠ .thread w
    let ends (c : Instr) (status cause : Nat) : Prop := ∃ t rc, exec c s = .next t ∧ ((t.ring r).led slot).state = 0 ∧ (t.ring r).records = x.records + 1 ∧
      t.outbox = s.outbox ++ [.busWrite (x.cq + BitVec.ofNat 64 (32 * (x.records % 2 ^ x.depth.toNat))) (toBytes rc 32), .msix x.msix.toNat] ∧
      rc % 2 ^ 64 = l.id.toNat ∧ rc / 2 ^ 64 % 2 ^ 16 = status ∧ rc / 2 ^ 80 % 2 ^ 16 = cause ∧ s.sameMemory t
    let host := s.boot.hostUp = true ∧ s.boot.headStopped = false ∧ x.kind = 0 ∧ ∀ m ∈ s.msgs, m.origin ≠ .item r slot
    let alone := s.endsFirst r slot = Option.none ∧ s.faultWaits r slot = false ∧ (∀ c ∈ s.pending, c ≠ .itmDbAbort r slot)
    (¬may → exec (.itmBind w h) s = .next s ∧ exec (.itmFail w h cause) s = .next s ∧ exec (.itmDone w h) s = .next s) ∧
    (may → ¬live ∨ x.kind = 2 → res (.itmBind w h) 1) ∧ (may → live → x.kind ≠ 2 → mine → res (.itmBind w h) 0) ∧
    (may → live → x.kind ≠ 2 → ¬mine → l.state = 3 → res (.itmBind w h) 2) ∧ (may → live → x.kind ≠ 2 → l.state = 4 → res (.itmBind w h) 4) ∧
    (may → live → x.kind ≠ 2 → l.state ≠ 3 → l.state ≠ 4 → 8 ≤ (s.thread w).bound.length → res (.itmBind w h) 3) ∧
    (may → live → x.kind ≠ 2 → l.state ≠ 3 → l.state ≠ 4 → (s.thread w).bound.length < 8 → h ∉ (s.thread w).bound → ∃ t, exec (.itmBind w h) s = .next t ∧
      (t.ring r).led slot = { l with state := 3, core := me, thr := w.thr } ∧ (t.thread w).bound = (s.thread w).bound ++ [h] ∧ (t.thread w).itmRes = 0 ∧ s.sameMemory t) ∧
    (may → ¬live → refused (.itmFail w h cause) gone) ∧ (ready → ¬live → refused (.itmDone w h) gone) ∧
    (may → live → ¬mine → refused (.itmFail w h cause) (if l.state = 4 then 4 else if l.state = 3 then 2 else 1)) ∧
    (ready → live → ¬mine → refused (.itmDone w h) (if l.state = 4 then 4 else if l.state = 3 then 2 else 1)) ∧
    (may → live → mine → host → ends (.itmFail w h cause) 0x0102 (0x1000 + cause.toNat)) ∧
    (ready → live → mine → ∃ t, exec (.itmDone w h) s = .next t ∧ (t.ring r).led slot = { l with state := 4, holdEnd := s.now + 2000 } ∧
      (t.thread w).bound = (s.thread w).bound.filter (· ≠ h) ∧ (t.thread w).itmRes = 0 ∧ s.sameMemory t) ∧
    (l.state ≠ 4 ∨ l.unacked = true ∨ s.now < l.holdEnd ∨ (∃ k, .monitorEvent k ∈ s.pending) → exec (.doneHoldEnd r slot) s = .next s) ∧
    (l.state = 4 → l.unacked = false → l.holdEnd ≤ s.now → (∀ k, .monitorEvent k ∉ s.pending) → host → ends (.doneHoldEnd r slot) 0 0) ∧
    (¬live ∨ l.state = 4 ∨ l.deadline = 0 ∨ s.now < l.deadline.toNat → exec (.itemDeadline r slot) s = .next s) ∧
    (live → l.state ≠ 4 → l.deadline ≠ 0 → l.deadline.toNat ≤ s.now → host → alone → ends (.itemDeadline r slot) 0x0104 0xFFFF) ∧
    (s.boot.headStopped = true ∨ s.boot.hostUp = false → exec .ledgerAudit s = .next s) ∧
    (host → s.ledgerSlots = [(r, slot)] → live →
      let t := s.thread ⟨l.core.extractLsb' 0 10, l.thr⟩
      let held := (t.state = .run ∨ t.state = .wait ∨ t.state = .halt) ∧ (if l.state = 3 then h ∈ t.bound else h ∈ t.taken)
      let stale := idModule l.core = s.mod.id ∧ (s.queue (idCore l.core) l.queue).epoch ≠ l.epoch
      ((l.state = 3 ∨ l.state = 5) ∧ ¬held → alone → ends .ledgerAudit 0x0102 0x6000) ∧ (l.state = 2 → stale → ends .ledgerAudit 0x0102 0x6000) ∧
      (((l.state = 3 ∨ l.state = 5) ∧ held) ∨ (l.state = 2 ∧ ¬stale) ∨ l.state = 1 ∨ l.state = 4 → exec .ledgerAudit s = .next s))) ∧
  (∀ (s : State) (r : BitVec 6) (slot : BitVec 10) (w : Who) (cause : BitVec 12) (rest : List Instr) (d : DieIx),
    let h := r ++ slot
    let x := s.ring r
    let l := x.led slot
    let mine (w : Who) : Prop := l.state = 3 ∧ l.core = s.mod.id ++ w.core ∧ l.thr = w.thr
    let atCmd (w : Who) : Prop := let g := s.thread w
      g.state = .run ∧ g.hold = .none ∧ g.memHold = .none ∧ g.loads = []
    let quiet (w : Who) : Prop := (∀ m ∈ (s.core w.core).mq, m.thr ≠ w.thr) ∧ (∀ x ∈ s.writes, x.src ≠ some w) ∧ (∀ x ∈ s.acks, x.src ≠ some w) ∧
      ∀ m ∈ s.msgs, m.origin ≠ .thread w
    let live := l.state ≠ 0 ∧ l.unacked = false
    let shut := s.boot.headStopped = true ∨ s.boot.hostUp = false
    let held : State := (s.modRing r (fun x => { x with ledger := Sparse.upd {} x.ledger slot.toNat (fun l => { l with state := 4, holdEnd := s.now + 2000 }) })).modThread w
      (fun g => { g with bound := g.bound.filter (· ≠ h) })
    let late (t : State) : State := t.countMod 0x802 1
    let expired := live ∧ l.state ≠ 4 ∧ l.deadline ≠ 0 ∧ l.deadline.toNat ≤ s.now
    let outranked := s.faultWaits r slot = true
    (s.endsFirst r slot = Option.none ↔ ∀ c ∈ s.pending, (∀ v, c = .itmDone v h → ¬(mine v ∧ atCmd v ∧ quiet v)) ∧ ∀ v k, c = .itmFail v h k → ¬(mine v ∧ atCmd v)) ∧
    (s.pending = .itmDone w h :: rest → mine w → atCmd w → quiet w → s.endsFirst r slot = some (w, Option.none)) ∧
    (s.pending = .itmFail w h cause :: rest → mine w → atCmd w → s.endsFirst r slot = some (w, some cause)) ∧
    (s.endsFirst r slot = some (w, Option.none) → ¬shut → (live → exec (.itmDbAbort r slot) s = .next (late held)) ∧
      (expired → exec (.itemDeadline r slot) s = .next (late held))) ∧
    (s.endsFirst r slot = some (w, some cause) → ¬shut →
      let failed := s.closeItem r slot 0x0102 (0x1000 + cause.toNat) (locOf 0 (some w.thr) (s.mod.id ++ w.core))
      (live → exec (.itmDbAbort r slot) s = .next (late failed)) ∧ (expired → exec (.itemDeadline r slot) s = .next (late failed))) ∧
    (s.endsFirst r slot = Option.none → ¬shut →
      (live → l.state ≠ 4 → outranked → exec (.itmDbAbort r slot) s = .next (late s)) ∧
      (live → l.state ≠ 4 → ¬outranked → exec (.itmDbAbort r slot) s = .next (s.closeItem r slot 0x0105 1 (s.itemLoc l))) ∧
      (expired → outranked ∨ .itmDbAbort r slot ∈ s.pending → exec (.itemDeadline r slot) s = .next (late s)) ∧
      (expired → ¬outranked → .itmDbAbort r slot ∉ s.pending → exec (.itemDeadline r slot) s = .next (s.closeItem r slot 0x0104 0xFFFF (s.itemLoc l)))) ∧
    (s.pending = [] → s.faultWaits r slot = false ∧ s.endsFirst r slot = Option.none) ∧
    (.safeholdEntered ∈ s.pending → x.kind ≠ 2 → s.boot.modSafe = false → s.boot.headStopped = false → outranked) ∧
    (.monitorEvent .shared ∈ s.pending → l.state = 4 → outranked) ∧
    (s.ledgerSlots = [(r, slot)] → l.state = 4 → l.unacked = false →
      exec (.monitorEvent (.die d)) s = .next (((s.closeItem r slot 0x0102 0x5000 (locOf 3 Option.none (s.mod.id ++ (d ++ (0 : BitVec 8))))).modDie d
        (fun x => { x with monitor := true })).safeDie d)))

/-- R489 to R493, R559: the host's window. In the lower half of BAR2 a place names one scalar entry of the page: a read returns it extended to 64 bits, or 0 with the code that refuses it; a write
is refused with code 16 for an entry that is no scalar and with code 8 unless its 8 bytes extend a value, and else is the write of that entry. The upper half is the block buffer. EVT_POP returns the
oldest event that has not been read, with its sequence number and code, and marks it read, except for the debug path.
R491, R492: a block command starts while none runs, and is otherwise discarded with ERR. A read that completes leaves the value in the buffer with its length; a write of at most 8 MiB does what
the write of that entry does; an abort ends with code 15. Each ends with DONE, its code, and MSI-X vector 1.
The model's own choices in it: logs 4, 37. -/
def Obligations.HostAccess : Prop :=
  (∀ (s : State) (off : BitVec 24) (eight : Bool) (val : Word) (e : Entry) (v : Via) (ev : BitVec 256),
    let index := s.dict.page.toNat * 4096 + off.toNat / 2048
    let sub := off.toNat / 8 % 256
    let up := s.dictUp .host = true
    let low := off.toNat < 0x800000
    let r := s.dictRead index sub
    let raw := leNat r.2.2
    let extended (x : Word) : Prop := if 6 ≤ e.type ∧ e.type ≤ 9 then x.toInt = (raw : Int) - (if 2 ^ (8 * e.size - 1) ≤ raw then 2 ^ (8 * e.size) else 0) else x.toNat = raw
    let buffer (t : State) (k : Nat) : Byte := Sparse.get 0 t.dict.buf k
    let reads (v : Word) (code : Nat) : Prop := exec (.windowRead off) s = .next { s with dict := { s.dict with rdata := v, code := BitVec.ofNat 8 code } }
    let n := if eight then 8 else 4
    let narrow := val.toNat % 2 ^ (8 * e.size)
    let signed : Prop := 6 ≤ e.type ∧ e.type ≤ 9
    let fits := (signed → (val.toInt = (BitVec.ofNat (8 * e.size) narrow).toInt)) ∧ (¬signed → val.toNat = narrow)
    let popped (e : BitVec 256) (x : Word) : Prop := x.getLsbD 63 = true ∧ x.getLsbD 62 = s.dict.evtOvf ∧ x.extractLsb' 48 14 = 0 ∧
      x.extractLsb' 32 16 = e.extractLsb' 176 16 ∧ x.extractLsb' 0 32 = e.extractLsb' 128 32
    let oldest := s.dict.evtLog.find? (fun e => decide (s.dict.evtRead.toNat < (e.extractLsb' 128 32).toNat))
    (¬up ∨ off.toNat % 8 ≠ 0 → exec (.windowRead off) s = .next s) ∧ (¬up ∨ off.toNat % n ≠ 0 → exec (.windowWrite off eight val) s = .next s) ∧
    (up → off.toNat % 8 = 0 → ¬low → ∃ x, exec (.windowRead off) s = .next { s with dict := { s.dict with rdata := x } } ∧
      ∀ k, k < 8 → (x.extractLsb' (8 * k) 8 : Byte) = buffer s (off.toNat - 0x800000 + k)) ∧
    (up → off.toNat % 8 = 0 → low → r.1 ≠ 0 → reads 0 r.1) ∧ (up → off.toNat % 8 = 0 → low → r.1 = 0 → entryAt index sub = .inr e → 10 < e.type → reads 0 16) ∧
    (up → off.toNat % 8 = 0 → low → r.1 = 0 → entryAt index sub = .inr e → e.type ≤ 10 → raw < 2 ^ (8 * e.size) → ∃ x, reads x 0 ∧ extended x) ∧
    (up → off.toNat % n = 0 → ¬low → ∃ t, exec (.windowWrite off eight val) s = .next t ∧ t = { s with dict := { s.dict with buf := t.dict.buf } } ∧
      ∀ k, buffer t k = if off.toNat - 0x800000 ≤ k ∧ k < off.toNat - 0x800000 + n then val.extractLsb' (8 * (k - (off.toNat - 0x800000))) 8 else buffer s k) ∧
    (up → off.toNat % n = 0 → low → (∀ c, entryAt index sub = .inl c → exec (.windowWrite off eight val) s = .next (s.report .host c)) ∧
      (entryAt index sub = .inr e → 10 < e.type → exec (.windowWrite off eight val) s = .next (s.report .host 16)) ∧
      (entryAt index sub = .inr e → e.type ≤ 10 → eight = false ∨ ¬fits → exec (.windowWrite off eight val) s = .next (s.report .host 8)) ∧
      (entryAt index sub = .inr e → e.type ≤ 10 → eight = true → fits → exec (.windowWrite off eight val) s =
        exec (.registerWrite (.entry .host (BitVec.ofNat 16 index) (BitVec.ofNat 8 sub) (BitVec.ofNat 4 e.type) (toBytes narrow e.size)) 0) s)) ∧
    (s.boot.hostUp = false → exec (.evtPop v) s = .next s) ∧
    (s.boot.hostUp = true → oldest = Option.none → exec (.evtPop v) s = .next { s with dict := { s.dict with rdata := 0 } }) ∧
    (s.boot.hostUp = true → oldest = some ev → ∃ x, popped ev x ∧ exec (.evtPop .debug) s = .next { s with dict := { s.dict with rdata := x } } ∧
      (v ≠ .debug → exec (.evtPop v) s = .next { s with dict := { s.dict with rdata := x, evtRead := ev.extractLsb' 128 32, evtOvf := false } }))) ∧
  (∀ (s : State) (index : BitVec 16) (sub : BitVec 8) (type : BitVec 4) (len : BitVec 32) (n : Nat),
    let up := s.dictUp .host = true
    let starts (c : Instr) (op : BlockOp) : Prop := (¬up → exec c s = .next s) ∧ (up → s.dict.busy = Option.none → exec c s = .next { s with dict := { s.dict with busy := some op } }) ∧
      (up → s.dict.busy ≠ Option.none → exec c s = .next { s with dict := { s.dict with werr := true } })
    let ended (u : State) (w : Bool) (code : BitVec 8) (n : Nat) (b : Sparse Byte) : State :=
      { u with dict := { u.dict with busy := Option.none, done := true, code := code, len := BitVec.ofNat 32 n, werr := w, buf := b }, outbox := u.outbox ++ [.msix 1] }
    starts (.dictCmdRead index sub) (.read index sub) ∧ starts (.dictCmdWrite type index sub len) (.write type index sub len.toNat) ∧
    (s.dict.busy = Option.none ∨ ¬up → exec .dictCmdAbort s = .next s ∧ exec .dictCmdComplete s = .next s) ∧
    (s.dict.busy ≠ Option.none → up → exec .dictCmdAbort s = .next (ended s s.dict.werr 15 0 s.dict.buf)) ∧
    (s.dict.busy = some (.read index sub) → up → let r := s.dictRead index.toNat sub.toNat
      ∃ b, exec .dictCmdComplete s = .next (ended s s.dict.werr (BitVec.ofNat 8 r.1) r.2.2.length b) ∧
        ∀ k, Sparse.get 0 b k = (r.2.2[k]?).getD (Sparse.get 0 s.dict.buf k)) ∧
    (s.dict.busy = some (.write type index sub n) → up → 2 ^ 23 < n → exec .dictCmdComplete s = .next (ended s true 8 0 s.dict.buf)) ∧
    (s.dict.busy = some (.write type index sub n) → up → n ≤ 2 ^ 23 → let bs := (List.range n).map (fun k => Sparse.get 0 s.dict.buf k)
      ∃ (u : State) (w : Bool) (code m : Nat), exec (.registerWrite (.entry .host index sub type bs) 0) s = .next u ∧
        exec .dictCmdComplete s = .next (ended u w (BitVec.ofNat 8 code) m u.dict.buf) ∧
        (u.dictUp .host = true → u.dict.code = BitVec.ofNat 8 code ∧ w = u.dict.werr) ∧ (code = 0 → m = n) ∧ (code ≠ 0 → m = 0)))

/-- R203, R251, R472 to R477, R481 to R487, R500: a write that its path, class, type or length refuses only reports the code. Else the entry's own rule follows: CFG_SAVE stores the persistent values,
CFG_DEFAULTS drops those that are no OWN entries, an overlay request waits for its drain, ZEROIZE clears every local store and Loft in DIAG or SAFEHOLD, OWN_KEY takes nothing or 60
bytes, and XL_PT_ROOT drops every cached translation.
R483, R486, R484: a drain ends once no item is delivered, taken, bound or in its DONE hold, and the overlay it names is in effect with a new epoch; at the limit, if the last item
does not end in the same C-cycle (the commands that wait, log 63), it ends with result 10 and event 0x000D, and the overlay stands. A module SAFEHOLD takes its overlay at once.
The model's own choices in it: logs 4, 37. -/
def Obligations.EntryWrites : Prop :=
  (∀ (s : State) (p : Path) (val : Byte) (root : Word) (key : List Byte), Sparse.wf {} s.cores = true → Sparse.wf {} s.dies = true → Sparse.wf {} s.teams = true →
    let keeps (f : Nat → Entry → Prop) (k : Nat) : Prop := ∃ e, entryAt (k / 256) (k % 256) = .inr e ∧ f (k / 256) e
    let kept (f : Nat → Entry → Prop) (a b : Sparse (List Byte)) : Prop := ∀ k, (keeps f k → Sparse.find b k = Sparse.find a k) ∧ (¬keeps f k → Sparse.find b k = Option.none)
    let answers (c : Instr) (code : Nat) : Prop := exec c s = .next (s.report p code)
    let done (c : Instr) (P : State → Prop) : Prop := ∃ t, exec c s = .next t ∧ P t
    let on (c : Instr) (index type size : Nat) (block : Bool) (P : Prop) : Prop := let code := s.writeCode p index 0 type size block
      (code ≠ 0 → answers c code) ∧ (code = 0 → P)
    let sets (t : State) (st : BitVec 2) (o : BitVec 8) : Prop := t.dict.ovlState = st ∧ t.dict.ovlTarget = o ∧ t.dict.ovlResult = 0 ∧ t.dict.ovlActive = s.dict.ovlActive
    let lost (l : Loc) : Prop := (∃ c o, l = .ls c o) ∨ ∃ d o, l = .loft d o
    on (.cfgSave p val) 0x2000 1 1 false ((1 < val.toNat → answers (.cfgSave p val) 8) ∧ (val = 0 → answers (.cfgSave p val) 0) ∧
      (val = 1 → done (.cfgSave p val) (fun t => kept (fun i e => persistent i e = true) s.dict.vals t.dict.flash ∧ t.dict.vals = s.dict.vals))) ∧
    on (.cfgDefaults p val) 0x2001 1 1 false ((s.maintenance = false → answers (.cfgDefaults p val) 5) ∧ (s.maintenance = true → 1 < val.toNat → answers (.cfgDefaults p val) 8) ∧
      (s.maintenance = true → val = 1 → done (.cfgDefaults p val) (fun t => kept (fun i e => persistent i e = false ∨ e.cls = .own) s.dict.vals t.dict.vals ∧
        kept (fun i e => persistent i e = false ∨ e.cls = .own) s.dict.flash t.dict.flash))) ∧
    on (.ovlRequest p val) 0x3001 2 1 false ((val = 5 → s.dict.ovlActive = 5 → s.boot.modSafe = true → answers (.ovlRequest p val) 0) ∧
      (val = 5 → s.boot.modSafe = false → s.boot.headStopped = false → done (.ovlRequest p val) (fun t => t.dict.ovlActive = 5 ∧ t.boot.modSafe = true)) ∧
      (val ≠ 5 → s.dict.ovlState ≠ 0 → answers (.ovlRequest p val) 10) ∧ (5 < val.toNat → s.dict.ovlState = 0 → answers (.ovlRequest p val) 9) ∧
      (val.toNat < 5 → s.dict.ovlState = 0 → val = s.dict.ovlActive → done (.ovlRequest p val) (fun t => sets t 0 val)) ∧
      (val.toNat < 5 → s.dict.ovlState = 0 → s.dict.ovlActive = 5 → s.monitorUp = true → answers (.ovlRequest p val) 9) ∧
      (val.toNat < 5 → s.dict.ovlState = 0 → val ≠ s.dict.ovlActive → s.dict.ovlActive ≠ 5 ∨ s.monitorUp = false → done (.ovlRequest p val) (fun t => sets t 1 val))) ∧
    on (.zeroize p val) 0x8020 1 1 false ((1 < val.toNat → answers (.zeroize p val) 8) ∧ (val = 0 → answers (.zeroize p val) 0) ∧
      (val = 1 → s.dict.ovlActive ≠ 4 → s.dict.ovlActive ≠ 5 → answers (.zeroize p val) 9) ∧
      (val = 1 → s.dict.ovlActive = 4 ∨ s.dict.ovlActive = 5 → done (.zeroize p val) (fun t => t.dict.zeroizing = true ∧
        (∀ l, lost l → t.byteAt l = 0) ∧ ∀ l, ¬lost l → t.byteAt l = s.byteAt l))) ∧
    on (.ownKeyClaim p key) 0x8010 12 key.length true ((key.length ≠ 0 → key.length ≠ 60 → answers (.ownKeyClaim p key) 9) ∧
      (key.length = 0 ∨ key.length = 60 → done (.ownKeyClaim p key) (fun t => storedIn t.dict.vals 0x8010 0 = key))) ∧
    on (.xlPtRootWrite p root) 0x2300 5 8 false (done (.xlPtRootWrite p root) (fun t => leNat (storedIn t.dict.vals 0x2300 0) = (root &&& 0x80000001FFFF0000).toNat ∧
      (∀ k, (t.team k).xl = []) ∧ (∀ d, (t.die d).walkL1 = []) ∧ s.sameMemory t)) ∧
    (s.dict.zeroizing = false → exec .zeroizeDone s = .next s) ∧
    (s.dict.zeroizing = true → done .zeroizeDone (fun t => t.dict.zeroizing = false ∧ (s.boot.headStopped = false → t.dict.evtSeq = s.dict.evtSeq + 1 ∧
      ∀ e ∈ t.dict.evtLog.getLast?, e.extractLsb' 176 16 = 0x000B)))) ∧
  (∀ (s : State),
    let open_ := ∃ r slot, (r, slot) ∈ s.ledgerSlots ∧ ((s.ring r).led slot).unacked = false ∧ 2 ≤ ((s.ring r).led slot).state.toNat ∧ ((s.ring r).led slot).state.toNat ≤ 5
    let event (t : State) (code : BitVec 16) (arg : Nat) : Prop := t.dict.evtSeq = s.dict.evtSeq + 1 ∧
      ∃ e ∈ t.dict.evtLog.getLast?, e.extractLsb' 176 16 = code ∧ e.extractLsb' 128 32 = t.dict.evtSeq ∧ (e.extractLsb' 0 128 : BitVec 128).toNat = arg
    (s.dict.ovlState ≠ 1 ∨ open_ ∨ s.boot.headStopped = true → exec .ovlDrainEnd s = .next s) ∧
    let last := s.drainsNow = true
    (s.pending = [] → (last ↔ ¬open_)) ∧
    (∀ r slot u, s.pending = [.doneHoldEnd r slot] → exec (.doneHoldEnd r slot) s = .next u → (last ↔ u.drained = true)) ∧
    (s.dict.ovlState ≠ 1 ∨ ¬open_ ∨ last ∨ s.boot.headStopped = true → exec .ovlDrainTimeout s = .next s) ∧
    (s.dict.ovlState = 1 → s.boot.headStopped = false → open_ → ¬last → ∃ t, exec .ovlDrainTimeout s = .next t ∧ t.dict.ovlActive = s.dict.ovlActive ∧ t.dict.ovlState = 0 ∧
      t.dict.ovlResult = 10 ∧ event t 0x000D (s.dict.ovlTarget.toNat + 2560) ∧ s.sameMemory t) ∧
    (s.dict.ovlState = 1 → s.boot.headStopped = false → ¬open_ → ∃ t, exec .ovlDrainEnd s = .next t ∧ t.dict.ovlActive = s.dict.ovlTarget ∧
      t.dict.ovlEpoch = s.dict.ovlEpoch + 1 ∧ t.dict.ovlState = 0 ∧ t.dict.ovlResult = 0 ∧
      ∃ e ∈ t.dict.evtLog.getLast?, e.extractLsb' 176 16 = 0x000C ∧ (e.extractLsb' 0 128 : BitVec 128).toNat = s.dict.ovlTarget.toNat + t.dict.ovlEpoch.toNat * 2 ^ 32) ∧
    (s.boot.headStopped = true ∨ s.boot.modSafe = true → exec .safeholdEntered s = .next s) ∧
    (s.boot.headStopped = false → s.boot.modSafe = false → ∃ t, exec .safeholdEntered s = .next t ∧ t.dict.ovlActive = 5 ∧ t.boot.modSafe = true ∧
      (∀ d, (t.die d).safehold = true) ∧ ∀ c, t.present c = true → (t.core c).fenced = true))

/-- R500 to R504: a write set is tested in order: a pause after a bad signature 10, its format 14, its target 13, its sequence number 12, its signature by OWN_KEY 11 with a pause of a second; a
set whose first entry is refused reports that entry's code; none of these changes an entry. A set that passes holds its number as the last one.
R531 to R534: firmware is written only in maintenance or RECOVERY: an accepted image goes to the bank that did not boot, and an activation points at a bank that holds an image. An
attestation, at most every 100 ms, stores the counter it consumed and blows a fuse at a new block of 2^28 before it signs, and ends for good at 2^35.
The model's own choices in it: logs 4, 8, 22, 37, 38. -/
def Obligations.OwnerSecurity : Prop :=
  (∀ (s : State) (bytes : List Byte) (h : SetHeader) (es : List SetEntry), s.writeCode .host 0x8030 0 12 bytes.length true = 0 →
    let c : Instr := .ownWriteset bytes
    let key := storedIn s.dict.vals 0x8010 0
    let answers (code : Nat) : Prop := exec c s = .next (s.report .host code)
    let parsed := parseSet bytes = some (h, es)
    let mine := h.target = 0 ∨ h.target = Config.serial.toNat
    let genuine := key ≠ [] ∧ Config.hssVerify key (bytes.take (64 + h.body)) (bytes.drop (64 + h.body)) = true
    let calm := s.dict.pauseUntil ≤ s.now
    (s.now < s.dict.pauseUntil → answers 10) ∧ (calm → parseSet bytes = Option.none → answers 14) ∧ (calm → parsed → ¬mine → answers 13) ∧
    (calm → parsed → mine → h.seq ≤ s.dict.ownSeq.toNat → answers 12) ∧
    (calm → parsed → mine → s.dict.ownSeq.toNat < h.seq → ¬genuine → ∃ t, exec c s = .next t ∧ t.dict.pauseUntil = s.now + 1000000000 ∧ t.dict.code = 11 ∧
      t.dict.vals = s.dict.vals ∧ t.dict.ownSeq = s.dict.ownSeq) ∧
    (calm → parsed → mine → s.dict.ownSeq.toNat < h.seq → genuine → (∀ e, es.head? = some e → s.writeCode .writeSet e.index e.sub e.type e.bytes.length true ≠ 0 →
      answers (s.writeCode .writeSet e.index e.sub e.type e.bytes.length true))) ∧
    (calm → parsed → mine → s.dict.ownSeq.toNat < h.seq → genuine → bodiesOk s.dict.vals = true → eyeOk s.dict.vals = true → ∀ k v, es = [⟨0x9010, k, 5, v⟩] → k < 32 → v.length = 8 → ∃ t, exec c s = .next t ∧
      t.dict.ownSeq.toNat = h.seq % 2 ^ 64 ∧ t.dict.flashSeq = t.dict.ownSeq ∧ leNat (storedIn t.dict.vals 0x9010 k) = (BitVec.ofNat 64 (leNat v) &&& 0x8000FFFFFFFFFFFF).toNat ∧
      leNat (storedIn t.dict.flash 0x9010 k) = leNat (storedIn t.dict.vals 0x9010 k) ∧ ∀ j, j ≠ 256 * 0x9010 + k → Sparse.find t.dict.vals j = Sparse.find s.dict.vals j)) ∧
  (∀ (s : State) (p : Path) (img : Image) (bank : BitVec 8) (nonce : BitVec 256),
    let answers (c : Instr) (code : Nat) : Prop := exec c s = .next (s.report p code)
    let on (c : Instr) (code : Nat) (P : Prop) : Prop := (code ≠ 0 → answers c code) ∧ (code = 0 → P)
    let fw (code : Nat) : Nat := if code = 0 ∧ s.maintenance = false ∧ s.boot.stage ≠ 7 then 5 else code
    let new : Bank := { version := img.version, svn := img.svn, advance := img.advance }
    let u : Instr := .fwUpdate p img
    let a : Instr := .fwActivate p bank
    let n : Instr := .attNonce p nonce
    let b := s.boot
    let soon := ∃ t, b.attLast = some t ∧ s.now < t + 100000000
    on u (fw (s.writeCode p 0x8040 0 12 (img.header.length + img.pubKey.length + img.sig.length + img.body.length) true)) (
      (s.accepts img = false → answers u 9) ∧
      (s.accepts img = true → b.booted = 0 → exec u s = .next (({ s with boot := { b with bankB := some new } } : State).report p 0)) ∧
      (s.accepts img = true → b.booted ≠ 0 → exec u s = .next (({ s with boot := { b with bankA := some new } } : State).report p 0))) ∧
    on a (fw (s.writeCode p 0x8041 0 2 1 true)) (
      (1 < bank.toNat ∨ (bank = 0 ∧ b.bankA = Option.none) ∨ (bank = 1 ∧ b.bankB = Option.none) → answers a 9) ∧
      (∀ k : BitVec 1, bank.toNat = k.toNat → (k = 0 → b.bankA ≠ Option.none) → (k = 1 → b.bankB ≠ Option.none) →
        exec a s = .next (({ s with boot := { b with pointer := k, attempts := 0 } } : State).report p 0))) ∧
    on n (s.writeCode p 0x8050 0 13 32 true) (
      (soon → answers n 10) ∧ (¬soon → 2 ^ 35 ≤ b.attCount → answers n 9) ∧
      (¬soon → b.attCount < 2 ^ 35 → ∃ t body, exec n s = .next t ∧ t.boot.attCount = b.attCount + 1 ∧ t.boot.attStored = some (b.attCount + 1) ∧
        t.boot.attFuses = max b.attFuses (b.attCount / 2 ^ 28 + 1) ∧ t.boot.attLast = some s.now ∧ t.boot.report = body ++ Config.hssSign b.attCount body ∧
        toBytes nonce.toNat 32 <:+: body ∧ t.dict.vals = s.dict.vals ∧ s.sameMemory t)))

/-- R494 to R499: while the field network is up, a request of a node is answered with one frame that carries its TID, the module's next sequence number and a result; the last four answers to each node are
kept, and a request that repeats a TID receives its answer again without being performed. A read answers with the value, of at most 1016 bytes; a write does what the write of that entry by the
node does. A heartbeat and an emergency that is due go to every node.
R497: a block transfer of a node. Its start ends a running one, and reserves the value it reads, or is tested as the write it will be; each segment in its turn carries 1024 bytes of the value, the
last one the rest, and the last of a write does what the write of the whole value does. A segment out of turn, of a wrong size or without a transfer answers 15 and ends the transfer, as the
limit does.
The model's own choices in it: logs 4, 23, 39. -/
def Obligations.FieldNetwork : Prop :=
  (∀ (s : State) (n : BitVec 8) (mac : BitVec 48) (tid index num : BitVec 16) (sub : BitVec 8) (type : BitVec 4) (write : Bool) (total : BitVec 32) (bytes : List Byte),
    leNat ((Sparse.find s.dict.vals (256 * 0x9000)).getD [0xFF]) < 256 →
    let up := s.boot.aon = true ∧ s.boot.headStopped = false ∧ s.boot.stage ≠ 1
    let kept := (Sparse.get [] s.dict.answers n.toNat).find? (fun a => a.1 = tid)
    let header (b : List Byte) (type resp : Nat) : Prop := (b.getD 0 0).toNat = 1 ∧ (b.getD 1 0).toNat = type ∧ (b.getD 3 0).toNat = resp
    let frame (b : List Byte) (payload : List Byte) : Prop := b.length = 16 + payload.length ∧ b.drop 16 = payload ∧ bitsN (leNat (b.take 16)) 79 64 = tid.toNat ∧
      bitsN (leNat (b.take 16)) 127 96 = (s.dict.txSeq + 1).toNat
    let answered (t : State) (before : List Out) (type : Nat) (payload : List Byte) : Prop := ∃ b, t.outbox = before ++ [.frame n b] ∧ frame b payload ∧ header b type 1 ∧
      Sparse.get [] t.dict.answers n.toNat = ((tid, b) :: Sparse.get [] s.dict.answers n.toNat).take 4 ∧ t.dict.txSeq = s.dict.txSeq + 1
    let repeats (c : Instr) : Prop := (¬up → exec c s = .next s) ∧ ∀ a, up → kept = some a → exec c s = .next { s with outbox := s.outbox ++ [.frame n a.2] }
    let r0 := s.dictRead index.toNat sub.toNat
    let r := if 0xF000 ≤ index.toNat ∧ s.nodeAllowed n mac = false ∧ r0.1 = 0 then (5, r0.2.1, []) else r0
    let code := s.writeCode (.node n mac) index.toNat sub.toNat type.toNat bytes.length false
    let others (t : State) : Prop := t = { s with dict := t.dict, outbox := t.outbox } ∧ t.dict.vals = s.dict.vals
    repeats (.fornitiRead n mac tid index sub) ∧ repeats (.fornitiWrite n mac tid index sub type bytes) ∧ repeats (.blockInit n mac tid write index sub type total) ∧
    repeats (.blockSeg n mac tid num bytes) ∧
    (up → kept = Option.none → ∃ t, exec (.fornitiRead n mac tid index sub) s = .next t ∧ others t ∧
      (r.2.2.length ≤ 1016 → answered t s.outbox 1 (toBytes r.1 1 ++ toBytes r.2.1 1 ++ [0, 0] ++ toBytes r.2.2.length 4 ++ r.2.2)) ∧
      (1016 < r.2.2.length → answered t s.outbox 1 ([8] ++ toBytes r.2.1 1 ++ [0, 0] ++ toBytes r.2.2.length 4))) ∧
    (up → kept = Option.none → code ≠ 0 → ∃ t, exec (.fornitiWrite n mac tid index sub type bytes) s = .next t ∧ others t ∧ answered t s.outbox 2 (toBytes code 1)) ∧
    (up → kept = Option.none → code = 0 → index ≠ 0x8030 → ∃ t u, exec (.registerWrite (.entry (.node n mac) index sub type bytes) 0) s = .next u ∧
      exec (.fornitiWrite n mac tid index sub type bytes) s = .next t ∧ t = { u with dict := t.dict, outbox := t.outbox } ∧ t.dict.vals = u.dict.vals ∧
      ∃ b, t.outbox = u.outbox ++ [.frame n b] ∧ b.length = 17) ∧
    (¬up → exec .heartbeat s = .next s) ∧
    (up → ∃ t b, exec .heartbeat s = .next t ∧ t = { s with dict := { s.dict with txSeq := s.dict.txSeq + 1 }, outbox := s.outbox ++ [.frame 0xFF b] } ∧ b.length = 64 ∧ header b 0x11 0 ∧
      (b.drop 16).take 8 = toBytes Config.serial.toNat 8 ∧ (b.drop 24).take 8 = toBytes s.mod.id.toNat 8 ∧ (b.drop 40).take 8 = toBytes s.now 8 ∧
      (b.drop 48).take 8 = toBytes s.dict.evtSeq.toNat 8) ∧
    (s.dict.emerg = [] ∨ s.boot.aon = false → exec .emergencyResend s = .next s) ∧
    (∀ e k rest, s.dict.emerg = (e, k) :: rest → s.boot.aon = true → ∃ t b, exec .emergencyResend s = .next t ∧
      t = { s with dict := { s.dict with emerg := t.dict.emerg }, outbox := s.outbox ++ [.frame 0xFF b] } ∧ (k ≤ 1 → t.dict.emerg = rest) ∧ (1 < k → t.dict.emerg = rest ++ [(e, k - 1)]) ∧
      header b 0x12 0 ∧ b.drop 16 = toBytes e.toNat 32 ∧ bitsN (leNat (b.take 16)) 127 96 = (e.extractLsb' 128 32 : BitVec 32).toNat)) ∧
  (∀ (s : State) (n : BitVec 8) (mac : BitVec 48) (tid index num : BitVec 16) (sub : BitVec 8) (type : BitVec 4) (total : BitVec 32) (bytes : List Byte) (x : Transfer),
    s.boot.aon = true → s.boot.headStopped = false → s.boot.stage ≠ 1 → (Sparse.get [] s.dict.answers n.toNat).find? (fun a => a.1 = tid) = Option.none →
    let running (t : State) : Option Transfer := Sparse.find t.dict.transfers n.toNat
    let answers (c : Instr) (payload : List Byte) (after : Option Transfer) : Prop := ∃ t b, exec c s = .next t ∧ t = { s with dict := t.dict, outbox := s.outbox ++ [.frame n b] } ∧
      b.drop 16 = payload ∧ running t = after ∧ t.dict.vals = s.dict.vals ∧ ∀ m, m ≠ n.toNat → Sparse.find t.dict.transfers m = Sparse.find s.dict.transfers m
    let init (w : Bool) : Instr := .blockInit n mac tid w index sub type total
    let code := s.writeCode (.node n mac) index.toNat sub.toNat type.toNat total.toNat true
    let r0 := s.dictRead index.toNat sub.toNat
    let r := if 0xF000 ≤ index.toNat ∧ s.nodeAllowed n mac = false ∧ r0.1 = 0 then (5, r0.2.1, []) else r0
    let seg : Instr := .blockSeg n mac tid num bytes
    let piece := (x.buf.drop (1024 * x.seg)).take 1024
    let size := min 1024 (x.total - 1024 * x.seg)
    let ended : State := { s with dict := { s.dict with transfers := s.dict.transfers.filter (fun t => t.1 ≠ n.toNat) } }
    (code ≠ 0 → answers (init true) (toBytes code 1 ++ [0, 0, 0] ++ toBytes 0 4) Option.none) ∧
    (code = 0 → answers (init true) ([0, 0, 0, 0] ++ toBytes total.toNat 4) (some { write := true, index := index, sub := sub, type := type, total := total.toNat, seg := 0, buf := [] })) ∧
    (r.1 ≠ 0 → answers (init false) (toBytes r.1 1 ++ [0, 0, 0] ++ toBytes 0 4) Option.none) ∧
    (r.1 = 0 → answers (init false) ([0, 0, 0, 0] ++ toBytes r.2.2.length 4)
      (some { write := false, index := index, sub := sub, type := type, total := r.2.2.length, seg := 0, buf := r.2.2 })) ∧
    (running s = Option.none → answers seg [15] Option.none) ∧ (running s = some x → x.seg ≠ num.toNat → answers seg [15] Option.none) ∧
    (running s = some x → x.seg = num.toNat → x.write = false →
      answers seg (0 :: piece) (if x.total ≤ 1024 * (x.seg + 1) then Option.none else some { x with seg := x.seg + 1 })) ∧
    (running s = some x → x.seg = num.toNat → x.write = true → bytes.length ≠ size → answers seg [15] Option.none) ∧
    (running s = some x → x.seg = num.toNat → x.write = true → bytes.length = size → x.buf.length + size < x.total →
      answers seg [0] (some { x with seg := x.seg + 1, buf := x.buf ++ bytes })) ∧
    (running s = some x → x.seg = num.toNat → x.write = true → bytes.length = size → x.total ≤ x.buf.length + size → ∃ u t b,
      exec (.registerWrite (.entry (.node n mac) x.index x.sub x.type (x.buf ++ bytes)) 0) ended = .next u ∧ exec seg s = .next t ∧
      t = { u with dict := t.dict, outbox := u.outbox ++ [.frame n b] } ∧ t.dict.vals = u.dict.vals ∧ b.length = 17) ∧
    exec (.blockTransferTimeout n) s = .next ended)

/-- R508, R509, R526 to R529: the always-on supplies start the ROM, with the values of flash and every ring empty. The ROM accepts the banks, and boots the pointer's bank, or the other one when the
pointer's holds no accepted image or failed twice, or stays in RECOVERY. The main domain switches on once PWR_EN is asserted, the module stands by and the reference is present; its
contents go with it.
R19, R418, R477, R507, R509, R510, R521, R522, R530, R534, R567: the release of RESET_N or good rails, whichever comes last, is the cold reset: BOOT_STAGE 4 and time 0, the bank chosen with its attempt counted,
entries and records from flash, a record whose flash check fails without its VALID bit (log 66), every ring empty, SZ_MODULES and the module ID at their defaults, with SIZE_CHANGED if they were
others, and the signature counter resumed. RESET_N low holds the host and the main domain in reset. Trained memory counts the DIMMs and ends stage 4;
READY ends stage 5 after discovery, after a warm reset, or with every port down, and raises the SVN where the image asks for it.
The model's own choices in it: logs 4, 40, 66. -/
def Obligations.PowerAndReset : Prop :=
  (∀ (s : State) (a b : Option Image) (rail : BitVec 16), Sparse.wf {} s.dies = true →
    let goes (c : Instr) (P : State → Prop) : Prop := ∃ t, exec c s = .next t ∧ P t
    let stays (c : Instr) : Prop := exec c s = .next s
    let main (t : State) (on : Bool) : Prop := t.boot.mainOn = on
    let starts (pwr ref : Bool) (stage : BitVec 8) : Bool := pwr && ref && decide (stage = 2) && !s.boot.tripped
    let bank (x : Option Image) : Option Bank := match x with
      | some i => if s.accepts i then some { version := i.version, svn := i.svn, advance := i.advance } else Option.none
      | Option.none => Option.none
    let holds (k : BitVec 1) : Bool := (bank (if k = 0 then a else b)).isSome
    let first : Bool := holds s.boot.pointer && decide (s.boot.attempts < 2)
    let second : Bool := !first && holds (s.boot.pointer + 1)
    let empty (t : State) : Prop := t.cores = [] ∧ t.teams = [] ∧ t.writes = [] ∧ t.acks = [] ∧ t.reads = [] ∧ t.msgs = [] ∧ t.contribs = [] ∧ t.relays = [] ∧ t.fab = {} ∧
      (∀ l, t.byteAt l = 0) ∧ ∀ d, (t.die d).errlog = (s.die d).errlog ∧ (t.die d).ddrBytes = (s.die d).ddrBytes ∧ (t.die d).safehold = (s.die d).safehold
    let off (t : State) (stage : BitVec 8) : Prop := empty t ∧ t.boot.mainOn = false ∧ t.boot.rails = false ∧ t.boot.stage = stage ∧ t.boot.clocks = false
    let standby : BitVec 8 := if s.boot.stage = 1 ∨ s.boot.stage = 7 then s.boot.stage else 2
    (s.boot.aon = true → s.boot.stage ≠ 1 → stays .standbyStart) ∧
    (s.boot.aon = false ∨ s.boot.stage = 1 → goes .standbyStart (fun t => t.boot.aon = true ∧ t.boot.stage = 1 ∧ t.rings = [] ∧ t.dict.vals = s.dict.flash ∧
      t.dict.ownSeq = s.dict.flashSeq ∧ t.dict.ovlActive = 0 ∧ t.dict.evtLog = [])) ∧
    (s.boot.aon = false ∨ s.boot.stage ≠ 1 → stays (.firmwareVerify a b)) ∧
    (s.boot.aon = true → s.boot.stage = 1 → goes (.firmwareVerify a b) (fun t => t.boot.bankA = bank a ∧ t.boot.bankB = bank b ∧
      (first = true → t.boot.booted = s.boot.pointer ∧ t.boot.stage = 2) ∧ (second = true → t.boot.booted = s.boot.pointer + 1 ∧ t.boot.stage = 2) ∧ (first = false → second = false → t.boot.stage = 7) ∧
      main t (s.boot.mainOn || ((first || second) && starts s.boot.pwrEn s.boot.refClk 2)))) ∧
    goes .referenceClockPresent (fun t => t = { s with boot := { s.boot with refClk := true, mainOn := s.boot.mainOn || starts s.boot.pwrEn true s.boot.stage } }) ∧
    (s.boot.aon = false → stays .pwrEnAssert) ∧
    (s.boot.aon = true → goes .pwrEnAssert (fun t => t = { s with boot := { s.boot with pwrEn := true, mainOn := s.boot.mainOn || starts true s.boot.refClk s.boot.stage } })) ∧
    (s.boot.mainOn = false ∨ 6 ≤ s.boot.stage.toNat → stays (.railFault rail)) ∧
    (s.boot.mainOn = true → s.boot.stage.toNat < 6 → goes (.railFault rail) (fun t => off t 8 ∧ t.boot.fail = BitVec.ofNat 32 (rail.toNat * 256 + s.boot.stage.toNat))) ∧
    (s.boot.mainOn = false → stays .inputUndervolt) ∧ (s.boot.mainOn = true → goes .inputUndervolt (fun t => off t standby)) ∧
    (s.boot.mainOn = false → goes .pwrEnDeassert (fun t => off t standby ∧ t.boot.pwrEn = false ∧ t.boot.tripped = false)) ∧
    (s.boot.mainOn = true → s.rings = [] → goes .pwrEnDeassert (fun t => off t standby ∧ t.boot.pwrEn = false ∧ t.boot.tripped = false)) ∧
    goes .thermTripRelease (fun t => t = { s with boot := { s.boot with thermTrip := false } }) ∧
    goes .alwaysOnPowerLoss (fun t => t.boot.aon = false ∧ t.boot.mainOn = false ∧ t.cores = [] ∧ t.rings = [] ∧ t.dict.vals = [] ∧ t.dict.flash = s.dict.flash ∧
      t.dict.flashSeq = s.dict.flashSeq ∧ t.far.flash = s.far.flash ∧ t.boot.minSvn = s.boot.minSvn ∧ t.boot.pointer = s.boot.pointer ∧ t.boot.attempts = s.boot.attempts ∧
      t.boot.attFuses = s.boot.attFuses ∧ t.boot.attStored = s.boot.attStored ∧ t.mod.badFuse = s.mod.badFuse ∧ t.time = 0 ∧ ∀ l, t.byteAt l = 0)) ∧
  (∀ (s : State) (dimms : List (Option Dimm)) (d : DieIx) (x : Dimm),
    let goes (c : Instr) (P : State → Prop) : Prop := ∃ t, exec c s = .next t ∧ P t
    let stays (c : Instr) : Prop := exec c s = .next s
    let good (k : BitVec 1) : Bool := (if k = 0 then s.boot.bankA else s.boot.bankB).isSome
    let bank : BitVec 1 := if good s.boot.pointer = true ∧ s.boot.attempts < 2 then s.boot.pointer else if good (s.boot.pointer + 1) = true then s.boot.pointer + 1 else s.boot.booted
    let blown := s.boot.attFuses * 2 ^ 28
    let reset (t : State) : Prop := t.boot.stage = 4 ∧ t.boot.resetN = true ∧ t.boot.hostUp = true ∧ t.boot.clocks = true ∧ t.boot.headStopped = false ∧ t.boot.modSafe = false ∧ t.time = 0 ∧
      t.boot.booted = bank ∧ t.boot.attempts = (if bank = s.boot.pointer then s.boot.attempts + 1 else s.boot.attempts) ∧ t.dict.vals = s.dict.flash ∧ t.dict.ownSeq = s.dict.flashSeq ∧
      t.dict.ovlActive = 0 ∧ t.rings = [] ∧ t.teams = [] ∧ t.writes = [] ∧ t.reads = [] ∧ t.msgs = [] ∧ t.mod.badFuse = s.mod.badFuse ∧
      t.far.recs = s.far.flash.map (fun e => (e.1, if Config.flashFails e.1 s.time then e.2 &&& ~~~((1 : BitVec 256) <<< 255) else e.2)) ∧
      t.mod.modules = 1 ∧ t.mod.id = 0 ∧ (s.mod.modules ≠ 1 ∨ s.mod.id ≠ 0 → ∃ e ∈ t.dict.evtLog.getLast?, e.extractLsb' 176 16 = (0x0001 : BitVec 16)) ∧
      (∀ v, s.boot.attStored = some v → t.boot.attCount = max v blown ∧ t.boot.attFuses = s.boot.attFuses) ∧
      (s.boot.attStored = Option.none → t.boot.attCount = blown ∧ t.boot.attFuses = s.boot.attFuses + 1)
    let rising := s.boot.mainOn = true ∧ s.boot.rails = false ∧ s.boot.stage = 2
    let trained := s.boot.warming = true ∨ s.mod.everJoined = true ∨ ∀ p ∈ s.fab.ports, p.2.up = 0
    let image := if s.boot.booted = 0 then s.boot.bankA else s.boot.bankB
    (s.boot.aon = false → stays .coldReset) ∧ (s.boot.aon = true → s.boot.rails = true → s.boot.stage = 3 → goes .coldReset reset) ∧
    (s.boot.aon = true → s.boot.rails = false ∨ s.boot.stage ≠ 3 → goes .coldReset (fun t => t = { s with boot := { s.boot with resetN := true } })) ∧
    (¬rising → stays .railsGood) ∧ (rising → s.boot.resetN = true → goes .railsGood reset) ∧
    (rising → s.boot.resetN = false → goes .railsGood (fun t => t = { s with boot := { s.boot with rails := true, stage := 3 } })) ∧
    goes .resetNAssert (fun t => t.boot.resetN = false ∧ t.boot.hostUp = false ∧ t.boot.clocks = false ∧ (s.boot.rails = true → t.boot.stage = 3) ∧
      (s.boot.rails = false → t.boot.stage = s.boot.stage) ∧ t.cores = [] ∧ t.teams = [] ∧ t.writes = [] ∧ t.reads = [] ∧ t.msgs = [] ∧ t.fab = {} ∧ t.rings = s.rings ∧
      t.dict = s.dict ∧ ∀ l, t.byteAt l = 0) ∧
    (s.boot.stage ≠ 4 → stays (.memoryTrained dimms)) ∧
    (s.boot.stage = 4 → goes (.memoryTrained dimms) (fun t => t.boot.stage = 5 ∧ s.sameMemory t ∧
      ((∀ k, k < 4 → dimms.getD (4 * d.toNat + k) Option.none = Option.none) → (t.die d).ddrBytes = 0) ∧
      (x.rdimm = true → 8000 ≤ x.mts → x.ecc = true → x.width = 1 ∨ x.width = 2 → 1 ≤ x.cap.toNat → x.cap.toNat ≤ 3 →
        (∀ k, k < 4 → dimms.getD (4 * d.toNat + k) Option.none = some x) → (t.die d).ddrBytes = 4 * 2 ^ (x.cap.toNat + 35)))) ∧
    (s.boot.stage ≠ 5 ∨ ¬trained → stays .ready) ∧
    (s.boot.stage = 5 → trained → goes .ready (fun t => t.boot.stage = 6 ∧ t.boot.warming = false ∧ t.mod.provisional = !s.mod.everJoined ∧
      (s.boot.booted = s.boot.pointer → t.boot.attempts = 0) ∧ (s.boot.booted ≠ s.boot.pointer → t.boot.attempts = s.boot.attempts) ∧
      (∀ i, image = some i → i.advance = true → t.boot.minSvn.toNat = max s.boot.minSvn.toNat i.svn.toNat) ∧
      ((∀ i, image = some i → i.advance = false) → t.boot.minSvn = s.boot.minSvn) ∧ s.sameMemory t)))

/-- R107, R521 to R524: a warm reset, refused with code 9 while a monitor event stands and 10 before READY or while a die reset waits, ends every ring and empties the main domain but for HBM and DDR, with
overlay SERVE and BOOT_STAGE 5; a PCIe hot reset does the same without a code. A die reset, refused with code 9 unless its die is in SAFEHOLD or overlay DIAG is active, waits for an
operating-point change; it frees the threads of the die's good cores, closes their queues, gives ACC_SPLIT its default, and keeps local stores and the other dies.
The model's own choices in it: logs 4, 40. -/
def Obligations.WarmResets : Prop :=
  ∀ (s : State) (p : Path) (d : DieIx), Sparse.wf {} s.dies = true →
    let code := s.writeCode p 0x4202 0 3 2 true
    let waits := ∃ d, (s.die d).resetWait = true
    let warm (t : State) : Prop := t.boot.stage = 5 ∧ t.boot.warming = true ∧ t.boot.modSafe = false ∧ t.dict.ovlActive = 0 ∧ t.dict.ovlState = 0 ∧ t.teams = [] ∧ t.writes = [] ∧ t.reads = [] ∧
      t.msgs = [] ∧ (∀ r, (t.ring r).en = false) ∧ t.boot.booted = s.boot.booted ∧ (∀ d o, t.byteAt (.hbm d o) = s.byteAt (.hbm d o)) ∧ (∀ d o, t.byteAt (.ddr d o) = s.byteAt (.ddr d o)) ∧
      ∀ d o, t.byteAt (.loft d o) = 0
    let answers (c : Instr) (code : Nat) : Prop := exec c s = .next (s.report p code)
    let w : Instr := .warmReset p
    let r : Instr := .dieReset p d
    let allowed := (s.die d).safehold = true ∨ s.dict.ovlActive = 4
    let ours (c : CoreIx) : Prop := coreDie c = d ∧ s.present c = true
    (code ≠ 0 → answers w code ∧ answers r code) ∧ (code = 0 → s.monitorUp = true → answers w 9) ∧ (code = 0 → s.monitorUp = false → s.boot.stage ≠ 6 ∨ waits → answers w 10) ∧
    (∀ u, code = 0 → s.monitorUp = false → s.boot.stage = 6 → ¬waits → .ovlDrainEnd ∈ s.pending → exec .ovlDrainEnd s = .next u → exec w s = .next (u.warmReset.report p 0)) ∧
    (code = 0 → s.monitorUp = false → s.boot.stage = 6 → ¬waits → .ovlDrainEnd ∉ s.pending → ∃ t, exec w s = .next t ∧ warm t) ∧
    (s.boot.hostUp = false ∨ s.boot.headStopped = true ∨ s.monitorUp = true ∨ s.boot.stage ≠ 6 ∨ waits → exec .pcieHotReset s = .next s) ∧
    (s.boot.hostUp = true → s.boot.headStopped = false → s.monitorUp = false → s.boot.stage = 6 → ¬waits → .ovlDrainEnd ∉ s.pending → ∃ t, exec .pcieHotReset s = .next t ∧ warm t) ∧
    (code = 0 → ¬allowed → answers r 9) ∧ (code = 0 → allowed → s.boot.stage ≠ 6 ∨ waits → answers r 10) ∧
    (code = 0 → allowed → s.boot.stage = 6 → ¬waits → s.boot.change ≠ Option.none → exec r s = .next ((s.modDie d (fun x => { x with resetWait := true })).report p 0)) ∧
    (code = 0 → allowed → s.boot.stage = 6 → ¬waits → s.boot.change = Option.none → ∃ t, exec r s = .next t ∧ (t.die d).safehold = false ∧ (t.die d).quiesce = Option.none ∧
      (t.die d).barriers = [] ∧ (∀ c, ours c → s.markedBad c = false → (t.core c).fenced = false ∧ ∀ n, (t.thread ⟨c, n⟩).state = .free) ∧
      (∀ c, ours c → s.markedBad c = true → (t.core c).fenced = true ∧ ∀ n, (t.thread ⟨c, n⟩).state = .fenced) ∧
      (∀ c, ours c → (t.core c).mode = BitVec.ofNat 2 (s.effective 0x2210 0)) ∧
      (∀ c q, ours c → (t.queue c q).opn = false ∧ (t.queue c q).epoch = (s.queue c q).epoch + 1) ∧ (∀ c, coreDie c ≠ d → t.core c = s.core c) ∧
      (∀ e, e ≠ d → t.die e = s.die e) ∧ s.sameMemory t)

/-- R514 to R520: an operating-point change names the point the head groom sets and a time at least 50 µs ahead; a later one replaces a change that has not begun or waits behind it. Each die switches
once its time has come, and the last switch ends the change. A power sample above 6000 W puts its die's arrays at half duty until one below 5400 W. A thermal sample that is too hot lowers
the thermal point at once and every 10 ms; one that is cool everywhere raises it after 100 ms of them. A trip switches the main domain off until PWR_EN.
The model's own choices in it: logs 4, 40. -/
def Obligations.OperatingPoints : Prop :=
  ∀ (s : State) (op : BitVec 2) (at_ : Word) (d : DieIx) (watts : BitVec 32) (dies : Vector (BitVec 16) 4) (stk : Vector (BitVec 16) 16) (trip : BitVec 4) (c : OpChange),
    let point := max (s.effective 0x2700 0) (max s.boot.powerPt s.boot.thermPt)
    let may := op.toNat = point ∧ s.now + 50000 ≤ at_.toNat ∧ s.boot.clocks = true ∧ s.boot.headStopped = false
    let new : OpChange := { op := op, at_ := at_.toNat, left := allDies }
    let request : Instr := .opChangeRequest op at_
    let goes (c : Instr) (P : State → Prop) : Prop := ∃ t, exec c s = .next t ∧ P t
    let hot := (∃ t ∈ dies.toList, 1680 ≤ t.toInt) ∨ ∃ t ∈ stk.toList, 1600 ≤ t.toInt
    let cool := (∀ t ∈ dies.toList, t.toInt ≤ 1600) ∧ ∀ t ∈ stk.toList, t.toInt ≤ 1520
    let sample : Instr := .thermalSample dies stk
    let b := s.boot
    let shows (t : State) : Prop := t = { s with boot := t.boot } ∧ (∀ k, k < 4 → Sparse.get 0 t.boot.tempDie k = dies.toList.getD k 0) ∧
      ∀ k, k < 16 → Sparse.get 0 t.boot.tempHbm k = stk.toList.getD k 0
    (¬may → exec request s = .next s) ∧ (may → b.change = Option.none → goes request (fun t => t = { s with boot := { b with change := some new } })) ∧
    (may → b.change = some c → s.now < c.at_ → goes request (fun t => t = { s with boot := { b with change := some new } })) ∧
    (may → b.change = some c → c.at_ ≤ s.now → goes request (fun t => t = { s with boot := { b with nextChange := some new } })) ∧
    (b.change = Option.none → exec (.opSwitch d) s = .next s) ∧ (b.change = some c → s.now < c.at_ ∨ d ∉ c.left → exec (.opSwitch d) s = .next s) ∧
    (b.change = some c → c.at_ ≤ s.now → d ∈ c.left → (∃ e ∈ c.left, e ≠ d) → goes (.opSwitch d) (fun t => (t.die d).op = c.op ∧ (∀ e, e ≠ d → t.die e = s.die e) ∧
      t.boot.change = some { c with left := c.left.filter (· ≠ d) } ∧ s.sameMemory t)) ∧
    (b.change = some c → c.at_ ≤ s.now → c.left = [d] → (∀ e, (s.die e).resetWait = false) → goes (.opSwitch d) (fun t => (t.die d).op = c.op ∧ (∀ e, e ≠ d → t.die e = s.die e) ∧
      t.boot.change = b.nextChange ∧ t.boot.nextChange = Option.none ∧ s.sameMemory t)) ∧
    (exec (.powerSampleGate d watts) s = .next (s.modDie d (fun x =>
      { x with halfDuty := decide (6000 < watts.toNat) || (x.halfDuty && decide (5400 ≤ watts.toNat)) }))) ∧
    (b.headStopped = true → exec sample s = .next s) ∧
    (b.headStopped = false → hot → goes sample (fun t => shows t ∧ t.boot.hot = b.hot + 1 ∧ (b.hot % 100 = 0 → t.boot.thermPt = min 2 (b.thermPt + 1)) ∧
      (b.hot % 100 ≠ 0 → t.boot.thermPt = b.thermPt) ∧ ((s.die 0).op = 2 → 99 ≤ b.hotAt2 → t.boot.thermHalf = true))) ∧
    (b.headStopped = false → cool → goes sample (fun t => shows t ∧ t.boot.hot = 0 ∧ t.boot.thermHalf = false ∧ (b.cool = 999 → t.boot.thermPt = b.thermPt - 1 ∧ t.boot.cool = 0) ∧
      (b.cool < 999 → t.boot.thermPt = b.thermPt ∧ t.boot.cool = b.cool + 1))) ∧
    (b.headStopped = false → ¬hot → ¬cool → goes sample (fun t => shows t ∧ t.boot.hot = 0 ∧ t.boot.cool = 0 ∧ t.boot.thermPt = b.thermPt ∧ t.boot.thermHalf = false)) ∧
    (trip = 0 ∨ b.mainOn = false → exec (.thermTrip trip) s = .next s) ∧
    (trip ≠ 0 → b.mainOn = true → goes (.thermTrip trip) (fun t => t.boot.tripped = true ∧ t.boot.thermTrip = true ∧ t.boot.mainOn = false ∧ t.boot.rails = false ∧
      t.boot.clocks = false ∧ t.cores = [] ∧ t.teams = [] ∧ (∀ l, t.byteAt l = 0) ∧
      (b.headStopped = false → ∃ e ∈ t.dict.evtLog.getLast?, e.extractLsb' 176 16 = 0x8004 ∧ (e.extractLsb' 0 128 : BitVec 128).toNat = trip.toNat)))

/-- R540, R541, R543, R546, R548: PMC_CTL sets VIEW, HFRZ and FREEZE and with CLEAR zeroes every thread and core counter of its core; a thread that PMC_USER does not allow sets ERR instead. Shared
counters are cleared by a write of 1. A snapshot is refused less than 1 µs ahead, and is taken once per die when its time has come: every counter of the die is copied. The aggregates that the
dictionary shows are those of the last update.
R549 to R553, R318, R338, R561: only the debug path, while debug is enabled, halts, resumes and steps. A HALT of a thread at an instruction boundary halts it at once with REASON 1; one that
waits in join, sel.q or hb.wait leaves that wait at its instruction and halts, a snd.q with no attempt in flight is withdrawn first, and one whose own matrix work or loads are not done is
asked to halt. The cross-triggers of a thread that halts reach the threads with the same XTRIG or DIEX: each halts with REASON 5 in the same way, or is asked to. RESUME and STEP act on a
halted thread only. A write of 0 to DBG_ENABLE resumes every halted thread and clears every EN.
R556 to R560: the window shows the state that DBG_RSEL selects while the selected thread is halted or its core fenced, and is written there: a general, predicate or vector register, the
accumulators or the next instruction's address, a tile, which is FULL then, or a slot, which is LIVE with a new baseline; other files are read-only. A thread reaches no other
thread's registers this way: files 0 to 5 are written by the debug path alone (log 43). A debug access of 8 bytes leaves its data
and status in DBGACC; a read changes nothing else.
The model's own choices in it: logs 4, 43. -/
def Obligations.DebugAndCounters : Prop :=
  (∀ (s : State) (v : Via) (c : CoreIx) (val at_ : Word) (p : Path) (one : Byte) (d : DieIx), Sparse.wf {} s.cores = true → Sparse.wf {} s.teams = true → Sparse.wf {} s.dies = true →
    (∀ c, Sparse.wf {} (s.core c).threads = true) →
    let own := ∃ w, v = .thread w ∧ w.core = c
    let allowed := (s.effective 0x2800 0).testBit 4 = true
    let goes (c : Instr) (P : State → Prop) : Prop := ∃ t, exec c s = .next t ∧ P t
    let answers (c : Instr) (code : Nat) : Prop := exec c s = .next (s.report p code)
    let due (at_ : Nat) := at_ ≤ s.now ∧ (s.die d).snapDone = false
    (own → ¬allowed → exec (.pmcClear v c val) s = .next (s.modCore c (fun x => { x with pmcErr := true }))) ∧
    (¬own ∨ allowed → goes (.pmcClear v c val) (fun t => (t.core c).pmcView = val.getLsbD 2 ∧ (t.core c).pmcHfrz = val.getLsbD 1 ∧ (t.core c).pmcFreeze = val.getLsbD 0 ∧
      (val.getLsbD 7 = true → (t.core c).pmc = [] ∧ ∀ n, t.thread ⟨c, n⟩ = { s.thread ⟨c, n⟩ with pmc := [] }) ∧
      (val.getLsbD 7 = false → (t.core c).pmc = (s.core c).pmc ∧ ∀ n, t.thread ⟨c, n⟩ = s.thread ⟨c, n⟩) ∧ (∀ e, e ≠ c → t.core e = s.core e) ∧ t = { s with cores := t.cores })) ∧
    (s.writeCode p 0x7F01 0 1 1 false ≠ 0 → answers (.pmcClearShared p one) (s.writeCode p 0x7F01 0 1 1 false)) ∧
    (s.writeCode p 0x7F01 0 1 1 false = 0 → (1 < one.toNat → answers (.pmcClearShared p one) 8) ∧ (one = 0 → answers (.pmcClearShared p one) 0) ∧
      (one = 1 → goes (.pmcClearShared p one) (fun t => (∀ k, t.team k = { s.team k with pmc := [] }) ∧ ∀ d, t.die d = { s.die d with pmc := [] }))) ∧
    (s.writeCode p 0x7F00 0 5 8 false ≠ 0 → answers (.pmcSnapTime p at_) (s.writeCode p 0x7F00 0 5 8 false)) ∧
    (s.writeCode p 0x7F00 0 5 8 false = 0 → (at_.toNat < s.now + 1000 → answers (.pmcSnapTime p at_) 9) ∧
      (s.now + 1000 ≤ at_.toNat → goes (.pmcSnapTime p at_) (fun t => t.mod.snapReq = some at_.toNat ∧ (∀ d, (t.die d).snapDone = false) ∧
        storedIn t.dict.vals 0x7F00 0 = toBytes at_.toNat 8 ∧ s.sameMemory t))) ∧
    (s.mod.snapReq = Option.none → exec (.pmcSnapshot d) s = .next s) ∧
    (∀ n, s.mod.snapReq = some n → (¬due n → exec (.pmcSnapshot d) s = .next s) ∧ (due n → goes (.pmcSnapshot d) (fun t => t.mod.snapT = BitVec.ofNat 64 n ∧
      (t.die d).snapDone = true ∧ (t.die d).snap = (s.die d).pmc ∧ (∀ c, coreDie c = d → (t.core c).snap = (s.core c).pmc ∧ ∀ n, (t.thread ⟨c, n⟩).snap = (s.thread ⟨c, n⟩).pmc) ∧
      (∀ k, k.toNat / 64 = d.toNat → (t.team k).snap = (s.team k).pmc) ∧ (∀ c, coreDie c ≠ d → t.core c = s.core c) ∧ (∀ e, e ≠ d → t.die e = s.die e) ∧ s.sameMemory t))) ∧
    (s.boot.headStopped = true → exec .pmcAggregateUpdate s = .next s) ∧
    (s.boot.headStopped = false → exec .pmcAggregateUpdate s = .next { s with mod := { s.mod with aggShown := s.mod.agg } })) ∧
  (∀ (s : State) (v : Via) (c : CoreIx) (n : ThrIx) (p : Path) (val : Byte) (m : Msg), Sparse.wf {} s.cores = true → (∀ c, Sparse.wf {} (s.core c).threads = true) →
    let w : Who := ⟨c, n⟩
    let h := s.thread w
    let on := v = .debug ∧ storedIn s.dict.vals 0x8060 0 = [1]
    let quiet (u : Who) := (s.thread u).memHold = .none ∧ (s.thread u).loads = [] ∧ (∀ r, (s.core u.core).retry = some r → r.thr ≠ u.thr) ∧ ∀ m ∈ (s.core u.core).mq, m.thr ≠ u.thr
    let left (u : Who) := (∃ k rd, (s.thread u).hold = .join k rd) ∨ (∃ b g rd, (s.thread u).hold = .hbWait b g rd) ∨ ∃ m r gd vr tmo t got, (s.thread u).hold = .sel m r gd vr tmo t got
    let halted (h : Thread) (reason : BitVec 4) : Thread := { h.unclaim with state := .halt, hold := .none, reason := reason, stepping := false, haltReq := Option.none }
    let alone := h.xtrig = false ∧ h.diex = false
    let stop (s : State) : State := s.modThread w (fun h => halted h 1)
    let does (t : State) := exec (.dbgHalt v c n) s = .next t
    let crossed (u : Who) : Prop := u ≠ w ∧ ((h.xtrig = true ∧ u.core = c ∧ (s.thread u).xtrig = true) ∨ (h.diex = true ∧ coreDie u.core = coreDie c ∧ (s.thread u).diex = true))
    let asks (h : Thread) : Option (BitVec 4) := some (h.haltReq.getD 5)
    let e : Instr := .dbgEnableWrite p val
    let code := s.writeCode p 0x8060 0 1 1 false
    (¬on → exec (.dbgHalt v c n) s = .next s ∧ exec (.dbgResume v c n) s = .next s ∧ exec (.dbgStep v c n) s = .next s) ∧
    (on → quiet w → h.haltReq = Option.none → alone → (h.state = .run → h.hold = .none → does (stop s)) ∧ (h.state = .wait → left w → does (stop (s.movement c))) ∧
      (∀ gd tmo x, h.state = .wait → h.hold = .snd m.seq gd tmo x → s.msgs.find? (fun x => x.seq = m.seq) = some m → m.phase = .backoff ∨ m.phase = .held →
        does (stop ((s.endMsg m).movement c)))) ∧
    (on → quiet w → h.haltReq = Option.none → h.state = .run → h.hold = .none → (∀ u m gd tmo x, crossed u → (s.thread u).hold ≠ .snd m gd tmo x) → ∃ t, does t ∧ t = { s with cores := t.cores, dies := t.dies, msgs := t.msgs } ∧ t.thread w = halted h 1 ∧
      ∀ u, let k := s.thread u
        (u ≠ w → ¬crossed u → t.thread u = k) ∧ (crossed u → k.state ≠ .run → k.state ≠ .wait → t.thread u = k) ∧
        (crossed u → (k.state = .run ∧ k.hold = .none) ∨ (k.state = .wait ∧ left u) → (quiet u → t.thread u = halted k (k.haltReq.getD 5)) ∧
          (¬quiet u → t.thread u = { k with state := .run, hold := .none, haltReq := asks k })) ∧
        (crossed u → k.state = .wait → (∃ m, k.hold = .syncDma m) ∨ (∃ x, k.hold = .due x) → t.thread u = { k with haltReq := asks k })) ∧
    (on → h.memHold = .none → ¬quiet w → h.haltReq = Option.none → h.state = .run → h.hold = .none → does (s.modThread w (fun h => { h with haltReq := some 1 }))) ∧
    (on → h.memHold = .none → h.haltReq = Option.none → (∃ m, h.hold = .syncDma m) → h.state = .wait → does (s.modThread w (fun h => { h with haltReq := some 1 }))) ∧
    (on → h.memHold = .none → h.state ≠ .run → h.state ≠ .wait → exec (.dbgHalt v c n) s = .next s) ∧
    (on → h.state ≠ .halt → exec (.dbgResume v c n) s = .next s ∧ exec (.dbgStep v c n) s = .next s) ∧
    (on → h.state = .halt → exec (.dbgResume v c n) s = .next (s.modThread w (fun h => { h with state := .run, stepping := false })) ∧
      exec (.dbgStep v c n) s = .next (s.modThread w (fun h => { h with state := .run, stepping := true }))) ∧
    (code ≠ 0 → exec e s = .next (s.report p code)) ∧ (code = 0 → 1 < val.toNat → exec e s = .next (s.report p 8)) ∧
    (code = 0 → val = 1 → ∃ t, exec e s = .next t ∧ storedIn t.dict.vals 0x8060 0 = [1] ∧ t = { s with dict := t.dict }) ∧
    (code = 0 → val = 0 → ∃ t, exec e s = .next t ∧ storedIn t.dict.vals 0x8060 0 = [0] ∧
      (∀ u, t.thread u = { s.thread u with state := if (s.thread u).state = .halt then .run else (s.thread u).state, haltReq := Option.none, stepping := false }) ∧
      ∀ c k, (Sparse.get (0 : BitVec 16) (t.core c).bpc k).getLsbD 0 = false ∧ (Sparse.get (0 : BitVec 16) (t.core c).wpc k).getLsbD 0 = false)) ∧
  (∀ (s : State) (v : Via) (c : CoreIx) (off : BitVec 16) (val addr data : Word) (write : Bool) (l : Loc), Sparse.wf {} s.cores = true →
    let x := s.core c
    let n := (off.toNat - 0xE400) / 8
    let w : Who := ⟨c, x.rsel.extractLsb' 8 2⟩
    let file := (x.rsel.extractLsb' 12 4).toNat
    let i := (x.rsel.extractLsb' 0 6).toNat
    let valid := ((s.thread w).state = .halt ∨ x.fenced = true) ∧ v = .debug ∧ 0xE400 ≤ off.toNat ∧ off.toNat < 0xEC80 ∧ off.toNat % 8 = 0
    let cm : Instr := .registerWindowWrite v c off val
    let writes (f : Thread → Thread) : Prop := exec cm s = .next { s.modThread w f with nextSeq := s.nextSeq + 1 }
    let word (v : Vec) (k : Nat) : Word := v.extractLsb' (64 * k) 64
    let acc (a b : BitVec 72) : Prop := ∃ t, exec cm s = .next t ∧ t.thread w = { s.thread w with ga0 := a, ga1 := b } ∧ s.sameMemory t
    let status (t : State) (st : BitVec 2) (x : Word) : State := { t with mod := { t.mod with dbgOp := if write then 2 else 1, dbgAddr := addr, dbgStatus := st, dbgData := x } }
    let tap : Instr := .debugAccess true write addr data
    let box : Instr := .debugAccess false write addr data
    let code := s.writeCode .host 0xF100 0 13 24 true
    let on := storedIn s.dict.vals 0x8060 0 = [1]
    (¬valid → exec cm s = .next s) ∧ (valid → file = 0 → n < 32 → writes (fun h => h.setReg (BitVec.ofNat 5 n) val)) ∧
    (valid → file = 1 → n < 8 → writes (fun h => h.setPred (BitVec.ofNat 3 n) val)) ∧
    (valid → file = 2 → n < 16 → i < 32 → ∃ t, exec cm s = .next t ∧ s.sameMemory t ∧ (∀ r, (t.thread w).reg r = (s.thread w).reg r) ∧
      ∀ r k, k < 16 → word ((t.thread w).vec r) k = if r.toNat = i ∧ k = n then val else word ((s.thread w).vec r) k) ∧
    (valid → file = 3 → let h := s.thread w
      (n = 0 → acc ((h.ga0.extractLsb' 64 8 : Byte) ++ val) h.ga1) ∧ (n = 1 → acc ((val.extractLsb' 0 8 : Byte) ++ (h.ga0.extractLsb' 0 64 : Word)) h.ga1) ∧
      (n = 2 → acc h.ga0 ((h.ga1.extractLsb' 64 8 : Byte) ++ val)) ∧ (n = 3 → acc h.ga0 ((val.extractLsb' 0 8 : Byte) ++ (h.ga1.extractLsb' 0 64 : Word))) ∧
      (n = 4 → writes (fun h => { h with pc := val, tldPend := false, cursor := {} })) ∧ (4 < n → writes id)) ∧
    (valid → file = 4 → i < 8 → n < 256 → ∃ t, exec cm s = .next t ∧ s.sameMemory t ∧ ((t.thread w).tile (BitVec.ofNat 3 i)).state = .full ∧
      ((Sparse.get (0 : BitVec 512) ((t.thread w).tile (BitVec.ofNat 3 i)).rows (n / 8)).extractLsb' (64 * (n % 8)) 64 : Word) = val ∧
      ∀ m, m ≠ n / 8 → Sparse.get (0 : BitVec 512) ((t.thread w).tile (BitVec.ofNat 3 i)).rows m =
        if ((s.thread w).tile (BitVec.ofNat 3 i)).state = .empty then 0 else Sparse.get 0 ((s.thread w).tile (BitVec.ofNat 3 i)).rows m) ∧
    (valid → file = 5 → n < 256 → ∀ k, x.windowSlot = some k → ∃ t, exec cm s = .next t ∧ s.sameMemory t ∧ ((t.core c).slot k).live = true ∧ ((t.core c).slot k).shadow = ((t.core c).slot k).el ∧
      ∀ a, Sparse.get 0 ((t.core c).slot k).el a = if a = 512 * (i % 2) + 2 * n then val.extractLsb' 0 32 else if a = 512 * (i % 2) + 2 * n + 1 then val.extractLsb' 32 32 else
        Sparse.get 0 (x.slot k).el a) ∧
    (valid → 6 ≤ file → exec cm s = .next s) ∧
    (¬on → exec tap s = .next s) ∧ (code ≠ 0 → exec box s = .next (s.report .host code)) ∧ (code = 0 → ¬on → exec box s = .next (s.report .host 9)) ∧
    (on → s.debugPlace addr = Option.none → exec tap s = .next (status s 2 0)) ∧
    (on → code = 0 → s.debugPlace addr = Option.none → exec box s = .next ((status s 2 0).report .host 0)) ∧
    (on → s.debugPlace addr = some l → (∀ c o, l ≠ .ctl c o) → write = false → (s.poisoned l 8 = true → exec tap s = .next (status s 2 0)) ∧
      (s.poisoned l 8 = false → exec tap s = .next (status s 0 (BitVec.ofNat 64 (leNat (s.readLoc l 8)))))) ∧
    (on → s.debugPlace addr = some l → (∀ c o, l ≠ .ctl c o) → write = true → ∃ t, exec tap s = .next t ∧ s.wrote t l ((toBytes data.toNat 8).map some) ∧
      t.mod = (status s 0 data).mod) ∧
    (∀ c o, on → s.debugPlace addr = some (.ctl c o) → write = false → ∃ x, exec tap s = .next (status s 0 x)))

/-- R48, R61, R581: csr.r reads and csr.w writes a word of the own core's control space, ld.d and st.d of a place that resolves to such a word do the
same, and csr.w and csr.r at an offset that is not a multiple of 8 raise trap 0x01. A write of DONE that still waits for its fence is not yet performed.
R11, R489: a register write acts on the word it names; a word without one, one that is read-only, one of an absent core or of the main domain while it is off ignores it. The words that have a
command of their own do what that command does.
The model's own choices in it: logs 4, 13, 43. -/
def Obligations.RegisterWrites : Prop :=
  (∀ (s : State) (i : Iss) (rd rs : BitVec 5) (off : BitVec 16), s.ready i false = true →
    let c := i.who.core
    let rdw (o : Nat) := s.ctlRead (.thread i.who) c o
    let v := (s.thread i.who).reg rs
    let wrs (o : Nat) (val : Word) := s.ctlWrite (.thread i.who) c o val
    let quiet (t : State) : Prop := (t.thread i.who).haltReq = Option.none ∧ (t.thread i.who).stepping = false
    (off.toNat % 8 = 0 → exec (.csrR i rd off) s = .next ((rdw off.toNat).2.retired i.who 4 (fun h => h.setReg rd (rdw off.toNat).1))) ∧
    (off.toNat % 8 = 0 → s.ctlWaits (.thread i.who) c off.toNat v = false → quiet (wrs off.toNat v) →
      exec (.csrW i rs off) s = .next ((wrs off.toNat v).retired i.who 4 id)) ∧
    (off.toNat % 8 ≠ 0 →
      exec (.csrR i rd off) s = .next (s.settle i.who false (.trap s { code := 0x01, detail := 0x03 })) ∧
      exec (.csrW i rs off) s = .next (s.settle i.who false (.trap s { code := 0x01, detail := 0x0C }))) ∧
    (∀ (rb : BitVec 5) (m : MemF) (a : Word) (upd : Option Word) (o : Nat) (page : Option Nat),
      (s.reaches i.who rb (some rd) m .read 8 a upd (.ctl c o) page →
        exec (.ldD i rd rb m) s = .next ((rdw o).2.retired i.who 4 (fun h => (h.setReg rd (rdw o).1).rebase rb upd))) ∧
      (s.reaches i.who rb Option.none m .write 8 a upd (.ctl c o) page →
        s.ctlWaits (.thread i.who) c o ((s.thread i.who).reg rd) = false → quiet (wrs o ((s.thread i.who).reg rd)) →
        exec (.stD i rd rb m) s = .next ((wrs o ((s.thread i.who).reg rd)).retired i.who 4 (fun h => h.rebase rb upd))))) ∧
  (∀ (s : State) (v : Via) (c : CoreIx) (off : BitVec 16) (val : Word) (p : Path) (one : Byte),
    let ctl (off : BitVec 16) : Instr := .registerWrite (.control v c off) val
    let bar (off : BitVec 16) : Instr := .registerWrite (.bar0 off) val
    let debug := v = .debug ∧ storedIn s.dict.vals 0x8060 0 ≠ [1]
    let reached := s.boot.mainOn = true ∧ s.present c = true ∧ ¬debug
    let q := BitVec.ofNat 4 ((off.toNat - 0x4000) / 64)
    let code := s.writeCode p 0x2700 0 2 1 true
    let op : Instr := .registerWrite (.entry p 0x2700 0 2 [one]) val
    (off.toNat % 8 ≠ 0 ∨ ¬reached → exec (ctl off) s = .next s) ∧
    (reached → exec (ctl 0xE300) s = .next (s.modCore c (fun x => { x with rsel := (val &&& 0xF33F).extractLsb' 0 16 }))) ∧
    (reached → exec (ctl 0xE000) s = exec (.pmcClear v c val) s) ∧ (reached → exec (ctl 0x3500) s = exec (if val.getLsbD 63 then .xlInvModule v c val else .xlInvTeam v c val) s) ∧
    (reached → exec (ctl 0x10) s = exec (.coreStart v c val) s) ∧ (reached → exec (ctl 0x40) s = exec (.accSplitWrite v c val) s) ∧
    (reached → exec (ctl 0x6000) s = .next (s.modCore c (fun x => { x with stnErr := x.stnErr && !(val.getLsbD 0) }))) ∧
    (reached → off.toNat % 64 = 16 → 0x4000 ≤ off.toNat → off.toNat < 0x4400 → (val.extractLsb' 0 2 = 1 → exec (ctl off) s = exec (.queOpen v c q) s) ∧
      (val.extractLsb' 0 2 = 2 → exec (ctl off) s = exec (.queClose v c q) s) ∧ (val.extractLsb' 0 2 = 3 → exec (ctl off) s = exec (.queReset v c q) s)) ∧
    (reached → off.toNat % 8 = 0 → (0x1000 ≤ off.toNat ∧ off.toNat < 0x2000) ∨ (0xB000 ≤ off.toNat ∧ off.toNat < 0xE000) ∨ 0xF200 ≤ off.toNat → exec (ctl off) s = .next s) ∧
    (s.boot.hostUp = false → exec (bar off) s = .next s) ∧ (off ≠ 8 → off ≠ 16 → off ≠ 24 → exec (bar off) s = .next s) ∧
    (s.boot.hostUp = true → exec (bar 8) s = .next { s with dict := { s.dict with page := val.extractLsb' 0 4 } } ∧
      exec (bar 24) s = .next { s with dict := { s.dict with done := s.dict.done && !(val.getLsbD 62), werr := s.dict.werr && !(val.getLsbD 61) } } ∧
      (val.extractLsb' 60 4 = 1 → exec (bar 16) s = exec (.dictCmdRead (val.extractLsb' 40 16) (val.extractLsb' 32 8)) s) ∧
      (val.extractLsb' 60 4 = 2 → exec (bar 16) s = exec (.dictCmdWrite (val.extractLsb' 56 4) (val.extractLsb' 40 16) (val.extractLsb' 32 8) (val.extractLsb' 0 32)) s) ∧
      (val.extractLsb' 60 4 = 3 → exec (bar 16) s = exec .dictCmdAbort s)) ∧
    (code ≠ 0 → exec op s = .next (s.report p code)) ∧ (code = 0 → 2 < one.toNat → exec op s = .next (s.report p 9)) ∧
    (code = 0 → one.toNat ≤ 2 → exec op s = .next (({ s with dict := { s.dict with vals := Sparse.set s.dict.vals (256 * 0x2700) [one] } } : State).report p 0)))

/-- R559: a debug-path read changes nothing of the state but DBGACC, which holds its data, whatever place it names: words that other reads clear, such as QUE_DROP, keep their values. So does EVT_POP, whose value
the read returns. -/
def Obligations.DebugReadsChangeNothing : Prop :=
  ∀ (s : State) (addr data : Word), storedIn s.dict.vals 0x8060 0 = [1] →
    (∃ st x, exec (.debugAccess true false addr data) s = .next { s with mod := { s.mod with dbgOp := 1, dbgAddr := addr, dbgStatus := st, dbgData := x } }) ∧
    (s.writeCode .host 0xF100 0 13 24 true = 0 → ∃ st x, exec (.debugAccess false false addr data) s =
      .next (({ s with mod := { s.mod with dbgOp := 1, dbgAddr := addr, dbgStatus := st, dbgData := x } } : State).report .host 0)) ∧
    ∃ x, exec (.evtPop .debug) s = .next { s with dict := { s.dict with rdata := x } }

/-- R530: an image with ADVANCE = 1 that reaches READY raises SB_MIN_SVN to its SVN, and an image with a lower SVN is not accepted from then on. -/
def Obligations.MinimumSvnRises : Prop :=
  ∀ (s : State) (b : Bank), s.boot.stage = 5 → s.boot.warming = true ∨ s.mod.everJoined = true ∨ (∀ p ∈ s.fab.ports, p.2.up = 0) →
    (if s.boot.booted = 0 then s.boot.bankA else s.boot.bankB) = some b → b.advance = true → ∃ t, exec .ready s = .next t ∧ t.boot.stage = 6 ∧
      b.svn.toNat ≤ t.minSvn ∧ (s.minSvn ≤ b.svn.toNat → t.minSvn = b.svn.toNat) ∧
      (∀ img : Image, img.svn.toNat < b.svn.toNat → t.accepts img = false) ∧
      ∀ (p : Path) (img : Image), img.svn.toNat < b.svn.toNat → t.fwCode (t.writeCode p 0x8040 0 12 (img.header.length + img.pubKey.length + img.sig.length + img.body.length) true) = 0 →
        exec (.fwUpdate p img) t = .next (t.report p 9)

/-- R22: the remap of a row with the one bad physical core k leaves logical columns 0 to k − 1 where they are, and moves logical columns k to 15 to physical columns k + 1 to 16. -/
def Obligations.RemapAroundOneBadCore : Prop :=
  ∀ (s : State) (d : DieIx) (r : BitVec 4) (k : Nat) (limit : Bool) (lost : List (BitVec 4 × Nat)), (s.die d).quiesce = some { row := r } →
    (limit = true → ∀ e rs1, Instr.endThread e rs1 ∈ s.pending → coreDie e.who.core ≠ d ∨ coreRow e.who.core ≠ r) → k < 17 →
    (∀ j, j < 17 → (272 * d.toNat + 17 * r.toNat + j ∈ s.mod.badFuse ∨ 272 * d.toNat + 17 * r.toNat + j ∈ s.mod.badRun ↔ j = k)) →
    (limit = true ∨ ∀ w, coreDie w.core = d → coreRow w.core = r → (s.thread w).state ≠ .run ∧ (s.thread w).state ≠ .wait ∧ (s.thread w).state ≠ .halt) →
    ∃ t, exec (.quiesceDrainEnd d ⟨limit, lost⟩) s = .next t ∧ ∀ n : BitVec 4, let c : CoreIx := d ++ (r ++ n)
      t.present c = true ∧ (n.toNat < k → t.physCol c = n.toNat) ∧ (k ≤ n.toNat → t.physCol c = n.toNat + 1)

/-- R28: the remap of a row with three or more bad physical cores takes it offline: SZ_ROW_COLS of the row reads 0 and none of its cores is present. Every thread of another row, and every other row's
columns, stay as they are. -/
def Obligations.ThreeBadCoresTakeRowOffline : Prop :=
  ∀ (s : State) (d : DieIx) (r : BitVec 4) (i j k : Nat) (limit : Bool) (lost : List (BitVec 4 × Nat)), Sparse.wf {} s.cores = true → (∀ c, Sparse.wf {} (s.core c).threads = true) →
    (s.die d).quiesce = some { row := r } →
    (limit = true → ∀ e rs1, Instr.endThread e rs1 ∈ s.pending → coreDie e.who.core ≠ d ∨ coreRow e.who.core ≠ r) → i < j → j < k → k < 17 →
    (∀ n ∈ [i, j, k], 272 * d.toNat + 17 * r.toNat + n ∈ s.mod.badFuse ∨ 272 * d.toNat + 17 * r.toNat + n ∈ s.mod.badRun) →
    (limit = true ∨ ∀ w, coreDie w.core = d → coreRow w.core = r → (s.thread w).state ≠ .run ∧ (s.thread w).state ≠ .wait ∧ (s.thread w).state ≠ .halt) →
    ∃ t, exec (.quiesceDrainEnd d ⟨limit, lost⟩) s = .next t ∧ t.dictValue (0x1120 + d.toNat) r.toNat = [0, 0] ∧ (∀ n : BitVec 4, t.present (d ++ (r ++ n)) = false) ∧
      (∀ w, (coreDie w.core ≠ d ∨ coreRow w.core ≠ r) → (t.thread w).state = (s.thread w).state ∧ t.present w.core = s.present w.core ∧ (t.core w.core).fenced = (s.core w.core).fenced)

/-- The queue: a step with a command in front is that command's effect on the state with the queue's rest. On an empty queue one C-cycle passes: while the clocks run, system time
advances by the period of the operating point and by at most 200 ppm of slew (R411, R513; that the tick is the idle step is the model's choice, log 1).
R60, R61, R85, R98, R110, R167, R168, R306, R579: the instruction that an encoding spells, with every operand at every value. In the 32-bit formats R, I, M, A, B and J and in the 64-bit formats of the
vector, matrix, tile and queue instructions each field stands at its bits; a field that must be 0 and is not, a reserved FUNC and a reserved opcode leave an instruction that carries its opcode as reserved.
The formats are read for a thread of core 0; the opcode table gives its rows no bits of their own.
The machine right after reset (R35, R37, R77, R107, R288, R480, R522 and the field maps): every thread FREE with its words at their reset values and every tile EMPTY, every queue closed and empty,
the ROM's stage, overlay SERVE, no event, no translation, nothing in flight. That the always-on domain is powered there and that every memory byte reads 0 is the model's choice (logs 2 and 3).
The model's own choices in it: logs 1, 2, 3, 67. -/
def Obligations.StepTakesFront : Prop :=
  (∀ (s : State) (c : Instr) (rest : List Instr),
    let period : Nat := if (s.die 0).op = 0 then 0x10000 else if (s.die 0).op = 1 then 0x14000 else 0x1AAAB
    step { s with pending := c :: rest } = exec c { s with pending := rest } ∧
    (s.boot.clocks = false → step { s with pending := [] } = .next { s with pending := [] }) ∧
    (s.boot.clocks = true → ∃ t, step { s with pending := [] } = .next t ∧ t = { s with pending := [], time := t.time, fab := { s.fab with slew := t.fab.slew } } ∧
      s.time + period - period / 5000 ≤ t.time ∧ t.time ≤ s.time + period + period / 5000 ∧ (s.fab.slew = 0 → t.time = s.time + period ∧ t.fab.slew = 0))) ∧
  (∀ (d a b aux : BitVec 5) (imm : BitVec 16) (mode : BitVec 2) (g nc y z : Bool) (disp : BitVec 12) (offB : BitVec 22) (offJ : BitVec 21) (p td : BitVec 3) (f4 e4 : BitVec 4) (tmo mask : BitVec 16)
      (arg : BitVec 8) (r2 : BitVec 2) (op f6 : BitVec 6),
    let w : Who := ⟨0, 0⟩
    let i : Iss := { who := w, rsv := Option.none, found := .clean }
    let bad : Iss := { who := w, rsv := some op, found := .clean }
    let bit (x : Bool) : BitVec 1 := BitVec.ofBool x
    let short (x : BitVec 32) (c : Instr) : Prop := decodeTableWord 32 x.toNat = some c
    let far (hi lo : BitVec 32) (c : Instr) : Prop := decodeTableWord 64 (lo.toNat + 2 ^ 32 * hi.toNat) = some c
    let m : MemF := { mode := mode, g := g, nc := nc, disp := disp }
    let mem := bit g ++ (bit nc ++ disp)
    let q : FxAux := { sat := y, rnd := r2, wide := z, ga := g }
    short (0x00#6 ++ (d ++ (a ++ (b ++ (0#5 ++ 0#6))))) (.addR i d a b) ∧ short (0x00#6 ++ (d ++ (a ++ (b ++ (0#5 ++ 16#6))))) (.maxR i d a b) ∧
    short (0x00#6 ++ (d ++ (a ++ (b ++ (0#5 ++ 11#6))))) (.divR i d a b) ∧ short (0x02#6 ++ (d ++ (a ++ (b ++ (0#5 ++ 2#6))))) (.cmpLt i d a b) ∧
    short (0x01#6 ++ (d ++ (a ++ (b ++ (bit y ++ (r2 ++ (bit z ++ (bit g ++ 2#6)))))))) (.qmul i d a b q) ∧
    short (0x04#6 ++ (d ++ (a ++ imm))) (.addi i d a imm) ∧ short (0x08#6 ++ (d ++ (a ++ imm))) (.shli i d a imm) ∧ short (0x09#6 ++ (d ++ (0#5 ++ imm))) (.lui i d imm) ∧
    short (0x03#6 ++ (d ++ (0#5 ++ imm))) (.csrR i d imm) ∧ short (0x0C#6 ++ (0#5 ++ (a ++ imm))) (.csrW i a imm) ∧
    short (0x16#6 ++ (d ++ (a ++ (mode ++ mem)))) (.ldD i d a m) ∧ short (0x1A#6 ++ (d ++ (a ++ (mode ++ mem)))) (.stW i d a m) ∧
    short (0x1C#6 ++ (d ++ (a ++ (b ++ (0#3 ++ 5#8))))) (.casD i d a b) ∧
    short (0x20#6 ++ (p ++ (bit y ++ offB))) (.bp i p y offB ⟨false, []⟩) ∧ short (0x21#6 ++ (d ++ offJ)) (.jal i d offJ) ∧
    short (0x24#6 ++ (d ++ (a ++ (b ++ (0#5 ++ 0#6))))) (.fork i d a b) ∧ short (0x26#6 ++ (0#5 ++ (a ++ (b ++ (0#5 ++ 6#6))))) (.cacheInv i a b) ∧
    short (0x26#6 ++ (0#5 ++ (0#5 ++ (0#5 ++ (0#2 ++ (3#3 ++ 5#6)))))) (.fenceM i) ∧ short (0x27#6 ++ (d ++ (a ++ (b ++ (0#5 ++ 1#6))))) (.hbWait i d a b) ∧
    (aux ≠ 0 → op = 0 → short (0x00#6 ++ (d ++ (a ++ (b ++ (aux ++ 0#6))))) (.addR bad d a b)) ∧
    (17 ≤ f6.toNat → op = 0 → short (0x00#6 ++ (d ++ (a ++ (b ++ (0#5 ++ f6))))) (.nop bad)) ∧
    (op.toNat ∈ [0x0A, 0x0B, 0x0D, 0x0E, 0x0F, 0x17, 0x1D, 0x1E, 0x1F, 0x23, 0x25, 0x28, 0x30, 0x37] → short (op ++ (d ++ (a ++ imm))) (.nop bad)) ∧
    far (p ++ (bit g ++ (f4 ++ (bit y ++ (r2 ++ (aux ++ imm)))))) (0x38#6 ++ (3#6 ++ (d ++ (a ++ (b ++ offJ.extractLsb' 0 5)))))
      (.vfma i { pred := p, zm := g, fmt := f4, sat := y, rnd := r2, gs := aux, imm := imm, vd := d, vs1 := a, vs2 := b, vs3 := offJ.extractLsb' 0 5 }) ∧
    far (d ++ (a ++ (b ++ (f4 ++ (e4 ++ 0#9))))) (0x3A#6 ++ (0#4 ++ (td ++ (p ++ (mask.extractLsb' 0 4 ++ (bit y ++ (bit z ++ (bit g ++ 0#9))))))))
      (.mm i { ta := td, tb := p, acc := mask.extractLsb' 0 4, ovw := y, tra := z, scs := g, mf := d, nf := a, kf := b, fmta := f4, fmtb := e4 }) ∧
    far (aux ++ 0#27) (0x3A#6 ++ (8#4 ++ (d ++ (0#1 ++ (f4 ++ (0#1 ++ 0#11)))))) (.accRow i f4 d aux) ∧
    far (d ++ (a ++ (f4 ++ 0#18))) (0x3B#6 ++ (0#3 ++ (td ++ (b ++ (aux ++ (bit g ++ (bit y ++ (p ++ 0#5))))))))
      (.tld i { td := td, rb := b, rs := aux, g := g, src := y, strm := p, rows := d, kf := a, fmt := f4 }) ∧
    far (tmo ++ (arg ++ 0#8)) (0x3C#6 ++ (0#2 ++ (d ++ (a ++ (b ++ (0#1 ++ 0#8)))))) (.sndQ i tmo arg d a b) ∧
    far (tmo ++ mask) (0x3C#6 ++ (1#2 ++ (d ++ (a ++ (0#5 ++ (bit y ++ 0#8)))))) (.selQ i tmo mask y d a) ∧
    (∀ x : Nat, decodeTableWord 16 x = Option.none)) ∧
  (∀ (w : Who) (c : CoreIx) (q : BitVec 4) (k : BitVec 3) (d : DieIx) (r : BitVec 6) (l : Loc),
    let s := State.reset
    (s.thread w).state = .free ∧ (s.thread w).pitch = 64 ∧ (s.thread w).rot = 15 ∧ (∀ r, (s.thread w).reg r = 0) ∧ ((s.thread w).tile k).state = .empty ∧ (s.stream w k).mode = 0 ∧
    (s.queue c q).opn = false ∧ (s.queue c q).occ = 0 ∧ (s.core c).mode = 0 ∧ (s.core c).fenced = false ∧ (s.die d).safehold = false ∧ (s.ring r).en = false ∧
    s.boot.stage = 1 ∧ s.dict.ovlActive = 0 ∧ s.dict.evtSeq = 0 ∧ s.pending = [] ∧ s.time = 0 ∧ s.byteAt l = 0 ∧ s.memoryWf = true)

/-- The canonical form of every memory is kept by every step: whatever command is in front, and by the idle step.
R530, R534: what is blown in fuses never comes back: no step lowers SB_MIN_SVN or unblows a signature-counter fuse, not even one that loses all power. -/
def Obligations.StepsKeepMemoryAndFuses : Prop :=
  (∀ (s t : State), s.memoryWf = true → step s = .next t → t.memoryWf = true) ∧
  (∀ (s t : State), step s = .next t → s.boot.minSvn.toNat ≤ t.boot.minSvn.toNat ∧ s.boot.attFuses ≤ t.boot.attFuses)

/-- No command stops the module or touches the queue, and system time changes with no command but the resets that clear it (R513, R522): every command answers a next state with the same queue, and, but for
good rails, the release of RESET_N and the loss of the always-on supplies, the same time.
The model's own choices in it: logs 1, 4. -/
def Obligations.EveryCommandAnswers : Prop :=
  ∀ (s : State) (c : Instr), ∃ t, exec c s = .next t ∧ t.pending = s.pending ∧
    (c ≠ .railsGood → c ≠ .coldReset → c ≠ .alwaysOnPowerLoss → t.time = s.time) ∧ (t.time = s.time ∨ t.time = 0)
end

