-- ==== Sys2Proof/Laws/Exec.lean ====
section
/-! SUPPORT. What `exec` calls for each command, one lemma per constructor: rewriting with one of these is much cheaper than unfolding `exec`. -/

namespace Sys2Proof.Machine

theorem exec_coreStart (v : Via) (c : CoreIx) (addr : Word) (s : State) : exec (.coreStart v c addr) s = execCoreStart v c addr s := rfl
theorem exec_fork (is : Iss) (rd rs1 rs2 : BitVec 5) (s : State) : exec (.fork is rd rs1 rs2) s = execFork is rd rs1 rs2 s := rfl
theorem exec_join (is : Iss) (rd rs1 : BitVec 5) (s : State) : exec (.join is rd rs1) s = execJoin is rd rs1 s := rfl
theorem exec_endThread (is : Iss) (rs1 : BitVec 5) (s : State) : exec (.endThread is rs1) s = execEndThread is rs1 s := rfl
theorem exec_nop (is : Iss) (s : State) : exec (.nop is) s = execNop is s := rfl
theorem exec_tret (is : Iss) (found : Refetch) (s : State) : exec (.tret is found) s = execTret is found s := rfl
theorem exec_brk (is : Iss) (s : State) : exec (.brk is) s = execBrk is s := rfl
theorem exec_syncE (is : Iss) (mask : BitVec 5) (s : State) : exec (.syncE is mask) s = execSyncE is mask s := rfl
theorem exec_fenceT (is : Iss) (s : State) : exec (.fenceT is) s = execFenceT is s := rfl
theorem exec_fenceR (is : Iss) (s : State) : exec (.fenceR is) s = execFenceR is s := rfl
theorem exec_fenceD (is : Iss) (s : State) : exec (.fenceD is) s = execFenceD is s := rfl
theorem exec_fenceM (is : Iss) (s : State) : exec (.fenceM is) s = execFenceM is s := rfl
theorem exec_fenceS (is : Iss) (s : State) : exec (.fenceS is) s = execFenceS is s := rfl
theorem exec_cacheInv (is : Iss) (rs1 rs2 : BitVec 5) (s : State) : exec (.cacheInv is rs1 rs2) s = execCacheInv is rs1 rs2 s := rfl
theorem exec_cacheInvall (is : Iss) (s : State) : exec (.cacheInvall is) s = execCacheInvall is s := rfl
theorem exec_cacheIinv (is : Iss) (s : State) : exec (.cacheIinv is) s = execCacheIinv is s := rfl
theorem exec_addR (is : Iss) (rd rs1 rs2 : BitVec 5) (s : State) : exec (.addR is rd rs1 rs2) s = execAddR is rd rs1 rs2 s := rfl
theorem exec_subR (is : Iss) (rd rs1 rs2 : BitVec 5) (s : State) : exec (.subR is rd rs1 rs2) s = execSubR is rd rs1 rs2 s := rfl
theorem exec_andR (is : Iss) (rd rs1 rs2 : BitVec 5) (s : State) : exec (.andR is rd rs1 rs2) s = execAndR is rd rs1 rs2 s := rfl
theorem exec_orR (is : Iss) (rd rs1 rs2 : BitVec 5) (s : State) : exec (.orR is rd rs1 rs2) s = execOrR is rd rs1 rs2 s := rfl
theorem exec_xorR (is : Iss) (rd rs1 rs2 : BitVec 5) (s : State) : exec (.xorR is rd rs1 rs2) s = execXorR is rd rs1 rs2 s := rfl
theorem exec_shl (is : Iss) (rd rs1 rs2 : BitVec 5) (s : State) : exec (.shl is rd rs1 rs2) s = execShl is rd rs1 rs2 s := rfl
theorem exec_shr (is : Iss) (rd rs1 rs2 : BitVec 5) (s : State) : exec (.shr is rd rs1 rs2) s = execShr is rd rs1 rs2 s := rfl
theorem exec_sra (is : Iss) (rd rs1 rs2 : BitVec 5) (s : State) : exec (.sra is rd rs1 rs2) s = execSra is rd rs1 rs2 s := rfl
theorem exec_mulR (is : Iss) (rd rs1 rs2 : BitVec 5) (s : State) : exec (.mulR is rd rs1 rs2) s = execMulR is rd rs1 rs2 s := rfl
theorem exec_mulh (is : Iss) (rd rs1 rs2 : BitVec 5) (s : State) : exec (.mulh is rd rs1 rs2) s = execMulh is rd rs1 rs2 s := rfl
theorem exec_mulhu (is : Iss) (rd rs1 rs2 : BitVec 5) (s : State) : exec (.mulhu is rd rs1 rs2) s = execMulhu is rd rs1 rs2 s := rfl
theorem exec_divR (is : Iss) (rd rs1 rs2 : BitVec 5) (s : State) : exec (.divR is rd rs1 rs2) s = execDivR is rd rs1 rs2 s := rfl
theorem exec_divu (is : Iss) (rd rs1 rs2 : BitVec 5) (s : State) : exec (.divu is rd rs1 rs2) s = execDivu is rd rs1 rs2 s := rfl
theorem exec_remR (is : Iss) (rd rs1 rs2 : BitVec 5) (s : State) : exec (.remR is rd rs1 rs2) s = execRemR is rd rs1 rs2 s := rfl
theorem exec_remu (is : Iss) (rd rs1 rs2 : BitVec 5) (s : State) : exec (.remu is rd rs1 rs2) s = execRemu is rd rs1 rs2 s := rfl
theorem exec_minR (is : Iss) (rd rs1 rs2 : BitVec 5) (s : State) : exec (.minR is rd rs1 rs2) s = execMinR is rd rs1 rs2 s := rfl
theorem exec_maxR (is : Iss) (rd rs1 rs2 : BitVec 5) (s : State) : exec (.maxR is rd rs1 rs2) s = execMaxR is rd rs1 rs2 s := rfl
theorem exec_qadd (is : Iss) (rd rs1 rs2 : BitVec 5) (a : FxAux) (s : State) : exec (.qadd is rd rs1 rs2 a) s = execQadd is rd rs1 rs2 a s := rfl
theorem exec_qsub (is : Iss) (rd rs1 rs2 : BitVec 5) (a : FxAux) (s : State) : exec (.qsub is rd rs1 rs2 a) s = execQsub is rd rs1 rs2 a s := rfl
theorem exec_qmul (is : Iss) (rd rs1 rs2 : BitVec 5) (a : FxAux) (s : State) : exec (.qmul is rd rs1 rs2 a) s = execQmul is rd rs1 rs2 a s := rfl
theorem exec_qmac (is : Iss) (rs1 rs2 : BitVec 5) (a : FxAux) (s : State) : exec (.qmac is rs1 rs2 a) s = execQmac is rs1 rs2 a s := rfl
theorem exec_qext (is : Iss) (rd : BitVec 5) (a : FxAux) (s : State) : exec (.qext is rd a) s = execQext is rd a s := rfl
theorem exec_qclr (is : Iss) (a : FxAux) (s : State) : exec (.qclr is a) s = execQclr is a s := rfl
theorem exec_gaLo (is : Iss) (rd : BitVec 5) (a : FxAux) (s : State) : exec (.gaLo is rd a) s = execGaLo is rd a s := rfl
theorem exec_gaHi (is : Iss) (rd : BitVec 5) (a : FxAux) (s : State) : exec (.gaHi is rd a) s = execGaHi is rd a s := rfl
theorem exec_gaWr (is : Iss) (rs1 rs2 : BitVec 5) (a : FxAux) (s : State) : exec (.gaWr is rs1 rs2 a) s = execGaWr is rs1 rs2 a s := rfl
theorem exec_cmpEq (is : Iss) (rd rs1 rs2 : BitVec 5) (s : State) : exec (.cmpEq is rd rs1 rs2) s = execCmpEq is rd rs1 rs2 s := rfl
theorem exec_cmpNe (is : Iss) (rd rs1 rs2 : BitVec 5) (s : State) : exec (.cmpNe is rd rs1 rs2) s = execCmpNe is rd rs1 rs2 s := rfl
theorem exec_cmpLt (is : Iss) (rd rs1 rs2 : BitVec 5) (s : State) : exec (.cmpLt is rd rs1 rs2) s = execCmpLt is rd rs1 rs2 s := rfl
theorem exec_cmpLtu (is : Iss) (rd rs1 rs2 : BitVec 5) (s : State) : exec (.cmpLtu is rd rs1 rs2) s = execCmpLtu is rd rs1 rs2 s := rfl
theorem exec_cmpGe (is : Iss) (rd rs1 rs2 : BitVec 5) (s : State) : exec (.cmpGe is rd rs1 rs2) s = execCmpGe is rd rs1 rs2 s := rfl
theorem exec_cmpGeu (is : Iss) (rd rs1 rs2 : BitVec 5) (s : State) : exec (.cmpGeu is rd rs1 rs2) s = execCmpGeu is rd rs1 rs2 s := rfl
theorem exec_pand (is : Iss) (rd : BitVec 5) (ps1 ps2 : BitVec 3) (s : State) : exec (.pand is rd ps1 ps2) s = execPand is rd ps1 ps2 s := rfl
theorem exec_por (is : Iss) (rd : BitVec 5) (ps1 ps2 : BitVec 3) (s : State) : exec (.por is rd ps1 ps2) s = execPor is rd ps1 ps2 s := rfl
theorem exec_pnot (is : Iss) (rd : BitVec 5) (ps1 : BitVec 3) (s : State) : exec (.pnot is rd ps1) s = execPnot is rd ps1 s := rfl
theorem exec_csrR (is : Iss) (rd : BitVec 5) (off : BitVec 16) (s : State) : exec (.csrR is rd off) s = execCsrR is rd off s := rfl
theorem exec_csrW (is : Iss) (rs1 : BitVec 5) (off : BitVec 16) (s : State) : exec (.csrW is rs1 off) s = execCsrW is rs1 off s := rfl
theorem exec_addi (is : Iss) (rd rs1 : BitVec 5) (imm : BitVec 16) (s : State) : exec (.addi is rd rs1 imm) s = execAddi is rd rs1 imm s := rfl
theorem exec_andi (is : Iss) (rd rs1 : BitVec 5) (imm : BitVec 16) (s : State) : exec (.andi is rd rs1 imm) s = execAndi is rd rs1 imm s := rfl
theorem exec_ori (is : Iss) (rd rs1 : BitVec 5) (imm : BitVec 16) (s : State) : exec (.ori is rd rs1 imm) s = execOri is rd rs1 imm s := rfl
theorem exec_xori (is : Iss) (rd rs1 : BitVec 5) (imm : BitVec 16) (s : State) : exec (.xori is rd rs1 imm) s = execXori is rd rs1 imm s := rfl
theorem exec_shli (is : Iss) (rd rs1 : BitVec 5) (imm : BitVec 16) (s : State) : exec (.shli is rd rs1 imm) s = execShli is rd rs1 imm s := rfl
theorem exec_lui (is : Iss) (rd : BitVec 5) (imm : BitVec 16) (s : State) : exec (.lui is rd imm) s = execLui is rd imm s := rfl
theorem exec_ldB (is : Iss) (rd rb : BitVec 5) (m : MemF) (s : State) : exec (.ldB is rd rb m) s = execLdB is rd rb m s := rfl
theorem exec_ldBU (is : Iss) (rd rb : BitVec 5) (m : MemF) (s : State) : exec (.ldBU is rd rb m) s = execLdBU is rd rb m s := rfl
theorem exec_ldH (is : Iss) (rd rb : BitVec 5) (m : MemF) (s : State) : exec (.ldH is rd rb m) s = execLdH is rd rb m s := rfl
theorem exec_ldHU (is : Iss) (rd rb : BitVec 5) (m : MemF) (s : State) : exec (.ldHU is rd rb m) s = execLdHU is rd rb m s := rfl
theorem exec_ldW (is : Iss) (rd rb : BitVec 5) (m : MemF) (s : State) : exec (.ldW is rd rb m) s = execLdW is rd rb m s := rfl
theorem exec_ldWU (is : Iss) (rd rb : BitVec 5) (m : MemF) (s : State) : exec (.ldWU is rd rb m) s = execLdWU is rd rb m s := rfl
theorem exec_ldD (is : Iss) (rd rb : BitVec 5) (m : MemF) (s : State) : exec (.ldD is rd rb m) s = execLdD is rd rb m s := rfl
theorem exec_stB (is : Iss) (rd rb : BitVec 5) (m : MemF) (s : State) : exec (.stB is rd rb m) s = execStB is rd rb m s := rfl
theorem exec_stH (is : Iss) (rd rb : BitVec 5) (m : MemF) (s : State) : exec (.stH is rd rb m) s = execStH is rd rb m s := rfl
theorem exec_stW (is : Iss) (rd rb : BitVec 5) (m : MemF) (s : State) : exec (.stW is rd rb m) s = execStW is rd rb m s := rfl
theorem exec_stD (is : Iss) (rd rb : BitVec 5) (m : MemF) (s : State) : exec (.stD is rd rb m) s = execStD is rd rb m s := rfl
theorem exec_tas (is : Iss) (rd ra rs2 : BitVec 5) (s : State) : exec (.tas is rd ra rs2) s = execTas is rd ra rs2 s := rfl
theorem exec_lrW (is : Iss) (rd ra rs2 : BitVec 5) (s : State) : exec (.lrW is rd ra rs2) s = execLrW is rd ra rs2 s := rfl
theorem exec_lrD (is : Iss) (rd ra rs2 : BitVec 5) (s : State) : exec (.lrD is rd ra rs2) s = execLrD is rd ra rs2 s := rfl
theorem exec_scW (is : Iss) (rd ra rs2 : BitVec 5) (s : State) : exec (.scW is rd ra rs2) s = execScW is rd ra rs2 s := rfl
theorem exec_scD (is : Iss) (rd ra rs2 : BitVec 5) (s : State) : exec (.scD is rd ra rs2) s = execScD is rd ra rs2 s := rfl
theorem exec_casD (is : Iss) (rd ra rs2 : BitVec 5) (s : State) : exec (.casD is rd ra rs2) s = execCasD is rd ra rs2 s := rfl
theorem exec_faddL (is : Iss) (rd ra rs2 : BitVec 5) (s : State) : exec (.faddL is rd ra rs2) s = execFaddL is rd ra rs2 s := rfl
theorem exec_reservationTimeout (w : Who) (s : State) : exec (.reservationTimeout w) s = execReservationTimeout w s := rfl
theorem exec_bp (is : Iss) (pred : BitVec 3) (sense : Bool) (off : BitVec 22) (predicted : Predicted) (s : State) : exec (.bp is pred sense off predicted) s = execBp is pred sense off predicted s := rfl
theorem exec_jal (is : Iss) (rd : BitVec 5) (off : BitVec 21) (s : State) : exec (.jal is rd off) s = execJal is rd off s := rfl
theorem exec_jalr (is : Iss) (rd rs1 : BitVec 5) (s : State) : exec (.jalr is rd rs1) s = execJalr is rd rs1 s := rfl
theorem exec_cacheFillReturn (seq : Nat) (found : FillFound) (s : State) : exec (.cacheFillReturn seq found) s = execCacheFillReturn seq found s := rfl
theorem exec_tld (is : Iss) (f : TileF) (s : State) : exec (.tld is f) s = execTld is f s := rfl
theorem exec_tldSc (is : Iss) (f : TileF) (s : State) : exec (.tldSc is f) s = execTldSc is f s := rfl
theorem exec_tst (is : Iss) (f : TileF) (s : State) : exec (.tst is f) s = execTst is f s := rfl
theorem exec_tstSc (is : Iss) (f : TileF) (s : State) : exec (.tstSc is f) s = execTstSc is f s := rfl
theorem exec_trel (is : Iss) (td : BitVec 3) (s : State) : exec (.trel is td) s = execTrel is td s := rfl
theorem exec_tldDrop (is : Iss) (s : State) : exec (.tldDrop is) s = execTldDrop is s := rfl
theorem exec_tldRowReturn (seq : Nat) (u : Upset) (s : State) : exec (.tldRowReturn seq u) s = execTldRowReturn seq u s := rfl
theorem exec_mm (is : Iss) (f : MatF) (s : State) : exec (.mm is f) s = execMm is f s := rfl
theorem exec_mmX2 (is : Iss) (f : MatF) (s : State) : exec (.mmX2 is f) s = execMmX2 is f s := rfl
theorem exec_mmX3 (is : Iss) (f : MatF) (s : State) : exec (.mmX3 is f) s = execMmX3 is f s := rfl
theorem exec_matrixQueueIssue (c : CoreIx) (flip : Option Flip) (s : State) : exec (.matrixQueueIssue c flip) s = execMatrixQueueIssue c flip s := rfl
theorem exec_checkpoint (c : CoreIx) (s : State) : exec (.checkpoint c) s = execCheckpoint c s := rfl
theorem exec_accSpill (is : Iss) (acc : BitVec 4) (rx : BitVec 5) (keep : Bool) (s : State) :
    exec (.accSpill is acc rx keep) s = execAccSpill is acc rx keep s := rfl
theorem exec_accFill (is : Iss) (acc : BitVec 4) (rx : BitVec 5) (s : State) : exec (.accFill is acc rx) s = execAccFill is acc rx s := rfl
theorem exec_accSend (is : Iss) (acc : BitVec 4) (rx : BitVec 5) (s : State) : exec (.accSend is acc rx) s = execAccSend is acc rx s := rfl
theorem exec_accChk (is : Iss) (acc : BitVec 4) (s : State) : exec (.accChk is acc) s = execAccChk is acc s := rfl
theorem exec_accRow (is : Iss) (acc : BitVec 4) (vd : BitVec 5) (row : BitVec 5) (s : State) :
    exec (.accRow is acc vd row) s = execAccRow is acc vd row s := rfl
theorem exec_accRmax (is : Iss) (acc : BitVec 4) (vd : BitVec 5) (s : State) : exec (.accRmax is acc vd) s = execAccRmax is acc vd s := rfl
theorem exec_checkRetry (c : CoreIx) (found : RetryFound) (s : State) : exec (.checkRetry c found) s = execCheckRetry c found s := rfl
theorem exec_accSplitWrite (v : Via) (c : CoreIx) (val : Word) (s : State) : exec (.accSplitWrite v c val) s = execAccSplitWrite v c val s := rfl
theorem exec_vadd (is : Iss) (f : VecF) (s : State) : exec (.vadd is f) s = execVadd is f s := rfl
theorem exec_vsub (is : Iss) (f : VecF) (s : State) : exec (.vsub is f) s = execVsub is f s := rfl
theorem exec_vmul (is : Iss) (f : VecF) (s : State) : exec (.vmul is f) s = execVmul is f s := rfl
theorem exec_vfma (is : Iss) (f : VecF) (s : State) : exec (.vfma is f) s = execVfma is f s := rfl
theorem exec_vmax (is : Iss) (f : VecF) (s : State) : exec (.vmax is f) s = execVmax is f s := rfl
theorem exec_vmin (is : Iss) (f : VecF) (s : State) : exec (.vmin is f) s = execVmin is f s := rfl
theorem exec_vabs (is : Iss) (f : VecF) (s : State) : exec (.vabs is f) s = execVabs is f s := rfl
theorem exec_vneg (is : Iss) (f : VecF) (s : State) : exec (.vneg is f) s = execVneg is f s := rfl
theorem exec_vcmpEq (is : Iss) (f : VecF) (s : State) : exec (.vcmpEq is f) s = execVcmpEq is f s := rfl
theorem exec_vcmpLt (is : Iss) (f : VecF) (s : State) : exec (.vcmpLt is f) s = execVcmpLt is f s := rfl
theorem exec_vcmpLe (is : Iss) (f : VecF) (s : State) : exec (.vcmpLe is f) s = execVcmpLe is f s := rfl
theorem exec_vbcast (is : Iss) (f : VecF) (s : State) : exec (.vbcast is f) s = execVbcast is f s := rfl
theorem exec_vext (is : Iss) (f : VecF) (s : State) : exec (.vext is f) s = execVext is f s := rfl
theorem exec_vqAdd (is : Iss) (f : VecF) (s : State) : exec (.vqAdd is f) s = execVqAdd is f s := rfl
theorem exec_vqSub (is : Iss) (f : VecF) (s : State) : exec (.vqSub is f) s = execVqSub is f s := rfl
theorem exec_vqMul (is : Iss) (f : VecF) (s : State) : exec (.vqMul is f) s = execVqMul is f s := rfl
theorem exec_vqMac (is : Iss) (f : VecF) (s : State) : exec (.vqMac is f) s = execVqMac is f s := rfl
theorem exec_vqExt (is : Iss) (f : VecF) (s : State) : exec (.vqExt is f) s = execVqExt is f s := rfl
theorem exec_vqClr (is : Iss) (f : VecF) (s : State) : exec (.vqClr is f) s = execVqClr is f s := rfl
theorem exec_vredSum (is : Iss) (f : VecF) (s : State) : exec (.vredSum is f) s = execVredSum is f s := rfl
theorem exec_vredMax (is : Iss) (f : VecF) (s : State) : exec (.vredMax is f) s = execVredMax is f s := rfl
theorem exec_vredMin (is : Iss) (f : VecF) (s : State) : exec (.vredMin is f) s = execVredMin is f s := rfl
theorem exec_vsmx (is : Iss) (f : VecF) (s : State) : exec (.vsmx is f) s = execVsmx is f s := rfl
theorem exec_vld (is : Iss) (f : VecF) (s : State) : exec (.vld is f) s = execVld is f s := rfl
theorem exec_vst (is : Iss) (f : VecF) (s : State) : exec (.vst is f) s = execVst is f s := rfl
theorem exec_vexp2 (is : Iss) (f : VecF) (s : State) : exec (.vexp2 is f) s = execVexp2 is f s := rfl
theorem exec_vlog2 (is : Iss) (f : VecF) (s : State) : exec (.vlog2 is f) s = execVlog2 is f s := rfl
theorem exec_vrcp (is : Iss) (f : VecF) (s : State) : exec (.vrcp is f) s = execVrcp is f s := rfl
theorem exec_vrsqrt (is : Iss) (f : VecF) (s : State) : exec (.vrsqrt is f) s = execVrsqrt is f s := rfl
theorem exec_vtanh (is : Iss) (f : VecF) (s : State) : exec (.vtanh is f) s = execVtanh is f s := rfl
theorem exec_vsigm (is : Iss) (f : VecF) (s : State) : exec (.vsigm is f) s = execVsigm is f s := rfl
theorem exec_vcvt (is : Iss) (f : VecF) (s : State) : exec (.vcvt is f) s = execVcvt is f s := rfl
theorem exec_vquant (is : Iss) (f : VecF) (s : State) : exec (.vquant is f) s = execVquant is f s := rfl
theorem exec_sndQ (is : Iss) (tmo : BitVec 16) (lenm1 : BitVec 8) (gd vr gs : BitVec 5) (s : State) :
    exec (.sndQ is tmo lenm1 gd vr gs) s = execSndQ is tmo lenm1 gd vr gs s := rfl
theorem exec_selQ (is : Iss) (tmo mask : BitVec 16) (rot : Bool) (gd vr : BitVec 5) (s : State) :
    exec (.selQ is tmo mask rot gd vr) s = execSelQ is tmo mask rot gd vr s := rfl
theorem exec_pollQ (is : Iss) (q : BitVec 4) (gd vr : BitVec 5) (s : State) : exec (.pollQ is q gd vr) s = execPollQ is q gd vr s := rfl
theorem exec_messageCommit (seq : Nat) (s : State) : exec (.messageCommit seq) s = execMessageCommit seq s := rfl
theorem exec_sendAnswer (seq : Nat) (s : State) : exec (.sendAnswer seq) s = execSendAnswer seq s := rfl
theorem exec_sendRetry (seq : Nat) (s : State) : exec (.sendRetry seq) s = execSendRetry seq s := rfl
theorem exec_sndTimeout (w : Who) (s : State) : exec (.sndTimeout w) s = execSndTimeout w s := rfl
theorem exec_selWakeTake (w : Who) (u : Upset) (s : State) : exec (.selWakeTake w u) s = execSelWakeTake w u s := rfl
theorem exec_selTimeout (w : Who) (s : State) : exec (.selTimeout w) s = execSelTimeout w s := rfl
theorem exec_queOpen (v : Via) (c : CoreIx) (q : BitVec 4) (s : State) : exec (.queOpen v c q) s = execQueOpen v c q s := rfl
theorem exec_queClose (v : Via) (c : CoreIx) (q : BitVec 4) (s : State) : exec (.queClose v c q) s = execQueClose v c q s := rfl
theorem exec_queReset (v : Via) (c : CoreIx) (q : BitVec 4) (s : State) : exec (.queReset v c q) s = execQueReset v c q s := rfl
theorem exec_queConfigWrite (v : Via) (c : CoreIx) (q : BitVec 4) (ctl : Bool) (val : Word) (s : State) :
    exec (.queConfigWrite v c q ctl val) s = execQueConfigWrite v c q ctl val s := rfl
theorem exec_queDropRead (v : Via) (c : CoreIx) (q : BitVec 4) (s : State) : exec (.queDropRead v c q) s = execQueDropRead v c q s := rfl
theorem exec_stnEntryWrite (v : Via) (c : CoreIx) (sn : BitVec 8) (val : Word) (s : State) :
    exec (.stnEntryWrite v c sn val) s = execStnEntryWrite v c sn val s := rfl
theorem exec_stnLaneWrite (v : Via) (c : CoreIx) (n : BitVec 8) (val : Word) (s : State) :
    exec (.stnLaneWrite v c n val) s = execStnLaneWrite v c n val s := rfl
theorem exec_lsWindowWrite (v : Via) (c : CoreIx) (bound : Bool) (val : Word) (s : State) :
    exec (.lsWindowWrite v c bound val) s = execLsWindowWrite v c bound val s := rfl
theorem exec_feedEnable (v : Via) (c : CoreIx) (tt : ThrIx) (sn : BitVec 3) (val : Word) (s : State) :
    exec (.feedEnable v c tt sn val) s = execFeedEnable v c tt sn val s := rfl
theorem exec_feedDisable (v : Via) (c : CoreIx) (tt : ThrIx) (sn : BitVec 3) (s : State) :
    exec (.feedDisable v c tt sn) s = execFeedDisable v c tt sn s := rfl
theorem exec_outriderFill (c : CoreIx) (tt : ThrIx) (sn : BitVec 3) (s : State) : exec (.outriderFill c tt sn) s = execOutriderFill c tt sn s := rfl
theorem exec_outriderFillReturn (c : CoreIx) (tt : ThrIx) (sn : BitVec 3) (u : Upset) (s : State) :
    exec (.outriderFillReturn c tt sn u) s = execOutriderFillReturn c tt sn u s := rfl
theorem exec_feedRelayWrite (v : Via) (c : CoreIx) (tt : ThrIx) (sn : BitVec 3) (val : Word) (s : State) :
    exec (.feedRelayWrite v c tt sn val) s = execFeedRelayWrite v c tt sn val s := rfl
theorem exec_relaySend (c : CoreIx) (tt : ThrIx) (sn : BitVec 3) (s : State) : exec (.relaySend c tt sn) s = execRelaySend c tt sn s := rfl
theorem exec_relayTileArrival (seq : Nat) (s : State) : exec (.relayTileArrival seq) s = execRelayTileArrival seq s := rfl
theorem exec_lsPatrolScrub (c : CoreIx) (u : Upset) (s : State) : exec (.lsPatrolScrub c u) s = execLsPatrolScrub c u s := rfl
theorem exec_loftPatrolScrub (d : DieIx) (slice : BitVec 2) (u : Upset) (s : State) :
    exec (.loftPatrolScrub d slice u) s = execLoftPatrolScrub d slice u s := rfl
theorem exec_memPatrolScrub (d : DieIx) (ddr : Bool) (u : Upset) (s : State) : exec (.memPatrolScrub d ddr u) s = execMemPatrolScrub d ddr u s := rfl
theorem exec_loftReadArrival (seq : Nat) (s : State) : exec (.loftReadArrival seq) s = execLoftReadArrival seq s := rfl
theorem exec_mergeEntryClose (d : DieIx) (line : Nat) (s : State) : exec (.mergeEntryClose d line) s = execMergeEntryClose d line s := rfl
theorem exec_writeArrival (seq : Nat) (s : State) : exec (.writeArrival seq) s = execWriteArrival seq s := rfl
theorem exec_writeAckArrival (seq : Nat) (s : State) : exec (.writeAckArrival seq) s = execWriteAckArrival seq s := rfl
theorem exec_dmaGo (v : Via) (c : CoreIx) (ch : BitVec 3) (val : Word) (s : State) : exec (.dmaGo v c ch val) s = execDmaGo v c ch val s := rfl
theorem exec_dmaChannelStart (team : BitVec 8) (granules : Nat) (s : State) :
    exec (.dmaChannelStart team granules) s = execDmaChannelStart team granules s := rfl
theorem exec_dmaChannelDone (team : BitVec 8) (s : State) : exec (.dmaChannelDone team) s = execDmaChannelDone team s := rfl
theorem exec_dmaBusError (team : BitVec 8) (u : Upset) (s : State) : exec (.dmaBusError team u) s = execDmaBusError team u s := rfl
theorem exec_dmaResume (v : Via) (c : CoreIx) (s : State) : exec (.dmaResume v c) s = execDmaResume v c s := rfl
theorem exec_dmaSkip (v : Via) (c : CoreIx) (s : State) : exec (.dmaSkip v c) s = execDmaSkip v c s := rfl
theorem exec_dmaAbort (v : Via) (c : CoreIx) (s : State) : exec (.dmaAbort v c) s = execDmaAbort v c s := rfl
theorem exec_xlInvTeam (v : Via) (c : CoreIx) (val : Word) (s : State) : exec (.xlInvTeam v c val) s = execXlInvTeam v c val s := rfl
theorem exec_xlInvModule (v : Via) (c : CoreIx) (val : Word) (s : State) : exec (.xlInvModule v c val) s = execXlInvModule v c val s := rfl
theorem exec_xlInvComplete (c : CoreIx) (s : State) : exec (.xlInvComplete c) s = execXlInvComplete c s := rfl
theorem exec_xlPtRootWrite (p : Path) (val : Word) (s : State) : exec (.xlPtRootWrite p val) s = execXlPtRootWrite p val s := rfl
theorem exec_translationWalk (w : Who) (s : State) : exec (.translationWalk w) s = execTranslationWalk w s := rfl
theorem exec_walkComplete (w : Who) (s : State) : exec (.walkComplete w) s = execWalkComplete w s := rfl
theorem exec_busyRewalk (w : Who) (s : State) : exec (.busyRewalk w) s = execBusyRewalk w s := rfl
theorem exec_busyLimit (w : Who) (s : State) : exec (.busyLimit w) s = execBusyLimit w s := rfl
theorem exec_hbArrive (is : Iss) (rd rs1 : BitVec 5) (s : State) : exec (.hbArrive is rd rs1) s = execHbArrive is rd rs1 s := rfl
theorem exec_hbWait (is : Iss) (rd rs1 rs2 : BitVec 5) (s : State) : exec (.hbWait is rd rs1 rs2) s = execHbWait is rd rs1 rs2 s := rfl
theorem exec_hbReport (d : DieIx) (b : BitVec 8) (remote : Option (BitVec 12)) (s : State) :
    exec (.hbReport d b remote) s = execHbReport d b remote s := rfl
theorem exec_hbRelease (d : DieIx) (b : BitVec 8) (s : State) : exec (.hbRelease d b) s = execHbRelease d b s := rfl
theorem exec_hbTimeout (d : DieIx) (b : BitVec 8) (s : State) : exec (.hbTimeout d b) s = execHbTimeout d b s := rfl
theorem exec_hbCfgWrite (v : Via) (c : CoreIx) (b : BitVec 8) (val : Word) (s : State) :
    exec (.hbCfgWrite v c b val) s = execHbCfgWrite v c b val s := rfl
theorem exec_hbSysWrite (v : Via) (c : CoreIx) (b : BitVec 8) (val : Word) (s : State) :
    exec (.hbSysWrite v c b val) s = execHbSysWrite v c b val s := rfl
theorem exec_quiescent (d : DieIx) (b : BitVec 8) (s : State) : exec (.quiescent d b) s = execQuiescent d b s := rfl
theorem exec_redArm (v : Via) (c : CoreIx) (x : BitVec 4) (gen : BitVec 8) (s : State) : exec (.redArm v c x gen) s = execRedArm v c x gen s := rfl
theorem exec_redDisarm (v : Via) (c : CoreIx) (x : BitVec 4) (s : State) : exec (.redDisarm v c x) s = execRedDisarm v c x s := rfl
theorem exec_redTileArrival (seq : Nat) (s : State) : exec (.redTileArrival seq) s = execRedTileArrival seq s := rfl
theorem exec_redCreditGrant (seq : Nat) (s : State) : exec (.redCreditGrant seq) s = execRedCreditGrant seq s := rfl
theorem exec_redAdd (c : CoreIx) (x : BitVec 4) (s : State) : exec (.redAdd c x) s = execRedAdd c x s := rfl
theorem exec_redForward (c : CoreIx) (x : BitVec 4) (s : State) : exec (.redForward c x) s = execRedForward c x s := rfl
theorem exec_redDone (c : CoreIx) (x : BitVec 4) (s : State) : exec (.redDone c x) s = execRedDone c x s := rfl
theorem exec_redDeadline (c : CoreIx) (x : BitVec 4) (s : State) : exec (.redDeadline c x) s = execRedDeadline c x s := rfl
theorem exec_redLimitExpire (c : CoreIx) (x : BitVec 4) (s : State) : exec (.redLimitExpire c x) s = execRedLimitExpire c x s := rfl
theorem exec_redCreditTimeout (seq : Nat) (s : State) : exec (.redCreditTimeout seq) s = execRedCreditTimeout seq s := rfl
theorem exec_groupReceive (p : BitVec 4) (j : BitVec 2) (g : GroupIn) (s : State) : exec (.groupReceive p j g) s = execGroupReceive p j g s := rfl
theorem exec_portDown (p : BitVec 4) (j : BitVec 2) (s : State) : exec (.portDown p j) s = execPortDown p j s := rfl
theorem exec_portRetrain (p : BitVec 4) (up : BitVec 4) (mismatch : Bool) (s : State) :
    exec (.portRetrain p up mismatch) s = execPortRetrain p up mismatch s := rfl
theorem exec_packetForward (d : DieIx) (k : Packet) (s : State) : exec (.packetForward d k) s = execPacketForward d k s := rfl
theorem exec_packetDeliver (k : PacketIn) (s : State) : exec (.packetDeliver k) s = execPacketDeliver k s := rfl
theorem exec_thaexAckArrival (d : DieIx) (m : BitVec 12) (epoch : BitVec 8) (upTo : BitVec 24) (errors : List (BitVec 24 × BitVec 16)) (s : State) :
    exec (.thaexAckArrival d m epoch upTo errors) s = execThaexAckArrival d m epoch upTo errors s := rfl
theorem exec_readResponse (seq : Nat) (trap : Option (BitVec 8 × BitVec 16)) (data : List Byte) (s : State) :
    exec (.readResponse seq trap data) s = execReadResponse seq trap data s := rfl
theorem exec_probeSend (d : DieIx) (m : BitVec 12) (s : State) : exec (.probeSend d m) s = execProbeSend d m s := rfl
theorem exec_probeReply (d : DieIx) (m : BitVec 12) (last : BitVec 24) (s : State) : exec (.probeReply d m last) s = execProbeReply d m last s := rfl
theorem exec_peerUnreach (m : BitVec 12) (s : State) : exec (.peerUnreach m) s = execPeerUnreach m s := rfl
theorem exec_unreachNotice (m : BitVec 12) (s : State) : exec (.unreachNotice m) s = execUnreachNotice m s := rfl
theorem exec_timeSync (upstream : BitVec 4) (s : State) : exec (.timeSync upstream) s = execTimeSync upstream s := rfl
theorem exec_timeSyncReply (t1 t2 t3 t4 : Word) (s : State) : exec (.timeSyncReply t1 t2 t3 t4) s = execTimeSyncReply t1 t2 t3 t4 s := rfl
theorem exec_fabricDiscovery (nodes : List DiscNode) (s : State) : exec (.fabricDiscovery nodes) s = execFabricDiscovery nodes s := rfl
theorem exec_restRotate (p : BitVec 4) (s : State) : exec (.restRotate p) s = execRestRotate p s := rfl
theorem exec_laneCalibrate (p : BitVec 4) (tx : Bool) (lane : BitVec 5) (margin : BitVec 16) (temp : BitVec 16) (vals : BitVec 128) (s : State) :
    exec (.laneCalibrate p tx lane margin temp vals) s = execLaneCalibrate p tx lane margin temp vals s := rfl
theorem exec_recalLimitExpire (p : BitVec 4) (lane : BitVec 5) (s : State) : exec (.recalLimitExpire p lane) s = execRecalLimitExpire p lane s := rfl
theorem exec_laneLoss (p : BitVec 4) (lane : BitVec 5) (s : State) : exec (.laneLoss p lane) s = execLaneLoss p lane s := rfl
theorem exec_heaterTrack (p : BitVec 4) (tx : Bool) (lane : BitVec 5) (code : BitVec 16) (s : State) :
    exec (.heaterTrack p tx lane code) s = execHeaterTrack p tx lane code s := rfl
theorem exec_eyeSample (p : BitVec 4) (lane : BitVec 5) (margin : BitVec 6) (s : State) :
    exec (.eyeSample p lane margin) s = execEyeSample p lane margin s := rfl
theorem exec_powerBandSample (watts : BitVec 32) (s : State) : exec (.powerBandSample watts) s = execPowerBandSample watts s := rfl
theorem exec_recordReselect (d : DieIx) (temp : BitVec 16) (s : State) : exec (.recordReselect d temp) s = execRecordReselect d temp s := rfl
theorem exec_memPhyTrack (u : MemUnit) (margin : BitVec 16) (delays : BitVec 128) (s : State) :
    exec (.memPhyTrack u margin delays) s = execMemPhyTrack u margin delays s := rfl
theorem exec_droopStretch (d : DieIx) (dom : BitVec 3) (s : State) : exec (.droopStretch d dom) s = execDroopStretch d dom s := rfl
theorem exec_deepcalDone (recs : List (BitVec 16 × BitVec 8 × BitVec 256)) (restored : List (BitVec 4 × BitVec 5)) (s : State) :
    exec (.deepcalDone recs restored) s = execDeepcalDone recs restored s := rfl
theorem exec_recordFlashSave (s : State) : exec (.recordFlashSave) s = execRecordFlashSave s := rfl
theorem exec_checkerSelftest (d : DieIx) (failed : Option Checker) (s : State) :
    exec (.checkerSelftest d failed) s = execCheckerSelftest d failed s := rfl
theorem exec_monitorEvent (m : MonScope) (s : State) : exec (.monitorEvent m) s = execMonitorEvent m s := rfl
theorem exec_doneHoldEnd (r : BitVec 6) (slot : BitVec 10) (s : State) : exec (.doneHoldEnd r slot) s = execDoneHoldEnd r slot s := rfl
theorem exec_lockstepMismatch (d : DieIx) (s : State) : exec (.lockstepMismatch d) s = execLockstepMismatch d s := rfl
theorem exec_rowQuiesce (p : Path) (val : BitVec 16) (s : State) : exec (.rowQuiesce p val) s = execRowQuiesce p val s := rfl
theorem exec_quiesceDrainEnd (d : DieIx) (drain : DrainEnd) (s : State) : exec (.quiesceDrainEnd d drain) s = execQuiesceDrainEnd d drain s := rfl
theorem exec_itmRingCfgWrite (p : Path) (r : BitVec 6) (val : BitVec 256) (s : State) :
    exec (.itmRingCfgWrite p r val) s = execItmRingCfgWrite p r val s := rfl
theorem exec_itmDbTail (r : BitVec 6) (slot : BitVec 10) (area : List (BitVec 10 × BitVec 512)) (s : State) :
    exec (.itmDbTail r slot area) s = execItmDbTail r slot area s := rfl
theorem exec_itmDbAbort (r : BitVec 6) (slot : BitVec 10) (s : State) : exec (.itmDbAbort r slot) s = execItmDbAbort r slot s := rfl
theorem exec_itemDeliver (r : BitVec 6) (slot : BitVec 10) (s : State) : exec (.itemDeliver r slot) s = execItemDeliver r slot s := rfl
theorem exec_itemSubmissionArrival (m : BitVec 12) (r : BitVec 6) (slot : BitVec 10) (e : BitVec 512) (s : State) :
    exec (.itemSubmissionArrival m r slot e) s = execItemSubmissionArrival m r slot e s := rfl
theorem exec_itemRecordArrival (m : BitVec 12) (r : BitVec 6) (rec : BitVec 256) (s : State) :
    exec (.itemRecordArrival m r rec) s = execItemRecordArrival m r rec s := rfl
theorem exec_itmBind (w : Who) (handle : BitVec 16) (s : State) : exec (.itmBind w handle) s = execItmBind w handle s := rfl
theorem exec_itmDone (w : Who) (handle : BitVec 16) (s : State) : exec (.itmDone w handle) s = execItmDone w handle s := rfl
theorem exec_itmFail (w : Who) (handle : BitVec 16) (cause : BitVec 12) (s : State) :
    exec (.itmFail w handle cause) s = execItmFail w handle cause s := rfl
theorem exec_ledgerAudit (s : State) : exec (.ledgerAudit) s = execLedgerAudit s := rfl
theorem exec_itemDeadline (r : BitVec 6) (slot : BitVec 10) (s : State) : exec (.itemDeadline r slot) s = execItemDeadline r slot s := rfl
theorem exec_windowRead (off : BitVec 24) (s : State) : exec (.windowRead off) s = execWindowRead off s := rfl
theorem exec_windowWrite (off : BitVec 24) (eight : Bool) (val : Word) (s : State) :
    exec (.windowWrite off eight val) s = execWindowWrite off eight val s := rfl
theorem exec_dictCmdRead (index : BitVec 16) (sub : BitVec 8) (s : State) : exec (.dictCmdRead index sub) s = execDictCmdRead index sub s := rfl
theorem exec_dictCmdWrite (type : BitVec 4) (index : BitVec 16) (sub : BitVec 8) (len : BitVec 32) (s : State) :
    exec (.dictCmdWrite type index sub len) s = execDictCmdWrite type index sub len s := rfl
theorem exec_dictCmdAbort (s : State) : exec (.dictCmdAbort) s = execDictCmdAbort s := rfl
theorem exec_dictCmdComplete (s : State) : exec (.dictCmdComplete) s = execDictCmdComplete s := rfl
theorem exec_evtPop (v : Via) (s : State) : exec (.evtPop v) s = execEvtPop v s := rfl
theorem exec_cfgSave (p : Path) (val : Byte) (s : State) : exec (.cfgSave p val) s = execCfgSave p val s := rfl
theorem exec_cfgDefaults (p : Path) (val : Byte) (s : State) : exec (.cfgDefaults p val) s = execCfgDefaults p val s := rfl
theorem exec_ovlRequest (p : Path) (code : BitVec 8) (s : State) : exec (.ovlRequest p code) s = execOvlRequest p code s := rfl
theorem exec_ovlDrainEnd (s : State) : exec (.ovlDrainEnd) s = execOvlDrainEnd s := rfl
theorem exec_ovlDrainTimeout (s : State) : exec (.ovlDrainTimeout) s = execOvlDrainTimeout s := rfl
theorem exec_safeholdEntered (s : State) : exec (.safeholdEntered) s = execSafeholdEntered s := rfl
theorem exec_zeroize (p : Path) (val : Byte) (s : State) : exec (.zeroize p val) s = execZeroize p val s := rfl
theorem exec_zeroizeDone (s : State) : exec (.zeroizeDone) s = execZeroizeDone s := rfl
theorem exec_ownWriteset (bytes : List Byte) (s : State) : exec (.ownWriteset bytes) s = execOwnWriteset bytes s := rfl
theorem exec_ownKeyClaim (p : Path) (key : List Byte) (s : State) : exec (.ownKeyClaim p key) s = execOwnKeyClaim p key s := rfl
theorem exec_fornitiRead (n : BitVec 8) (mac : BitVec 48) (tid : BitVec 16) (index : BitVec 16) (sub : BitVec 8) (s : State) :
    exec (.fornitiRead n mac tid index sub) s = execFornitiRead n mac tid index sub s := rfl
theorem exec_fornitiWrite (n : BitVec 8) (mac : BitVec 48) (tid : BitVec 16) (index : BitVec 16) (sub : BitVec 8) (type : BitVec 4) (bytes : List Byte) (s : State) :
    exec (.fornitiWrite n mac tid index sub type bytes) s = execFornitiWrite n mac tid index sub type bytes s := rfl
theorem exec_blockInit (n : BitVec 8) (mac : BitVec 48) (tid : BitVec 16) (write : Bool) (index : BitVec 16) (sub : BitVec 8) (type : BitVec 4) (total : BitVec 32) (s : State) :
    exec (.blockInit n mac tid write index sub type total) s = execBlockInit n mac tid write index sub type total s := rfl
theorem exec_blockSeg (n : BitVec 8) (mac : BitVec 48) (tid : BitVec 16) (num : BitVec 16) (bytes : List Byte) (s : State) :
    exec (.blockSeg n mac tid num bytes) s = execBlockSeg n mac tid num bytes s := rfl
theorem exec_blockTransferTimeout (n : BitVec 8) (s : State) : exec (.blockTransferTimeout n) s = execBlockTransferTimeout n s := rfl
theorem exec_heartbeat (s : State) : exec (.heartbeat) s = execHeartbeat s := rfl
theorem exec_emergencyResend (s : State) : exec (.emergencyResend) s = execEmergencyResend s := rfl
theorem exec_standbyStart (s : State) : exec (.standbyStart) s = execStandbyStart s := rfl
theorem exec_firmwareVerify (imgA imgB : Option Image) (s : State) : exec (.firmwareVerify imgA imgB) s = execFirmwareVerify imgA imgB s := rfl
theorem exec_pwrEnAssert (s : State) : exec (.pwrEnAssert) s = execPwrEnAssert s := rfl
theorem exec_railsGood (s : State) : exec (.railsGood) s = execRailsGood s := rfl
theorem exec_railFault (rail : BitVec 16) (s : State) : exec (.railFault rail) s = execRailFault rail s := rfl
theorem exec_pwrEnDeassert (s : State) : exec (.pwrEnDeassert) s = execPwrEnDeassert s := rfl
theorem exec_coldReset (s : State) : exec (.coldReset) s = execColdReset s := rfl
theorem exec_resetNAssert (s : State) : exec (.resetNAssert) s = execResetNAssert s := rfl
theorem exec_memoryTrained (dimms : List (Option Dimm)) (s : State) : exec (.memoryTrained dimms) s = execMemoryTrained dimms s := rfl
theorem exec_ready (s : State) : exec (.ready) s = execReady s := rfl
theorem exec_inputUndervolt (s : State) : exec (.inputUndervolt) s = execInputUndervolt s := rfl
theorem exec_warmReset (p : Path) (s : State) : exec (.warmReset p) s = execWarmReset p s := rfl
theorem exec_pcieHotReset (s : State) : exec (.pcieHotReset) s = execPcieHotReset s := rfl
theorem exec_dieReset (p : Path) (d : DieIx) (s : State) : exec (.dieReset p d) s = execDieReset p d s := rfl
theorem exec_opChangeRequest (op : BitVec 2) (tt : Word) (s : State) : exec (.opChangeRequest op tt) s = execOpChangeRequest op tt s := rfl
theorem exec_opSwitch (d : DieIx) (s : State) : exec (.opSwitch d) s = execOpSwitch d s := rfl
theorem exec_powerSampleGate (d : DieIx) (watts : BitVec 32) (s : State) : exec (.powerSampleGate d watts) s = execPowerSampleGate d watts s := rfl
theorem exec_thermalSample (dies : Vector (BitVec 16) 4) (stk : Vector (BitVec 16) 16) (s : State) :
    exec (.thermalSample dies stk) s = execThermalSample dies stk s := rfl
theorem exec_thermTrip (dies : BitVec 4) (s : State) : exec (.thermTrip dies) s = execThermTrip dies s := rfl
theorem exec_fwUpdate (p : Path) (img : Image) (s : State) : exec (.fwUpdate p img) s = execFwUpdate p img s := rfl
theorem exec_fwActivate (p : Path) (bank : BitVec 8) (s : State) : exec (.fwActivate p bank) s = execFwActivate p bank s := rfl
theorem exec_attNonce (p : Path) (nonce : BitVec 256) (s : State) : exec (.attNonce p nonce) s = execAttNonce p nonce s := rfl
theorem exec_pmcClear (v : Via) (c : CoreIx) (val : Word) (s : State) : exec (.pmcClear v c val) s = execPmcClear v c val s := rfl
theorem exec_pmcClearShared (p : Path) (val : Byte) (s : State) : exec (.pmcClearShared p val) s = execPmcClearShared p val s := rfl
theorem exec_pmcSnapTime (p : Path) (tt : Word) (s : State) : exec (.pmcSnapTime p tt) s = execPmcSnapTime p tt s := rfl
theorem exec_pmcSnapshot (d : DieIx) (s : State) : exec (.pmcSnapshot d) s = execPmcSnapshot d s := rfl
theorem exec_pmcAggregateUpdate (s : State) : exec (.pmcAggregateUpdate) s = execPmcAggregateUpdate s := rfl
theorem exec_dbgHalt (v : Via) (c : CoreIx) (tt : ThrIx) (s : State) : exec (.dbgHalt v c tt) s = execDbgHalt v c tt s := rfl
theorem exec_dbgResume (v : Via) (c : CoreIx) (tt : ThrIx) (s : State) : exec (.dbgResume v c tt) s = execDbgResume v c tt s := rfl
theorem exec_dbgStep (v : Via) (c : CoreIx) (tt : ThrIx) (s : State) : exec (.dbgStep v c tt) s = execDbgStep v c tt s := rfl
theorem exec_debugAccess (tap : Bool) (write : Bool) (addr data : Word) (s : State) :
    exec (.debugAccess tap write addr data) s = execDebugAccess tap write addr data s := rfl
theorem exec_registerWindowWrite (v : Via) (c : CoreIx) (off : BitVec 16) (val : Word) (s : State) :
    exec (.registerWindowWrite v c off val) s = execRegisterWindowWrite v c off val s := rfl
theorem exec_dbgEnableWrite (p : Path) (val : Byte) (s : State) : exec (.dbgEnableWrite p val) s = execDbgEnableWrite p val s := rfl
theorem exec_registerWrite (target : RegTarget) (val : Word) (s : State) : exec (.registerWrite target val) s = execRegisterWrite target val s := rfl
theorem exec_loadDataReturn (seq : Nat) (u : Upset) (s : State) : exec (.loadDataReturn seq u) s = execLoadDataReturn seq u s := rfl
theorem exec_atomicArrival (a : AtomicIn) (s : State) : exec (.atomicArrival a) s = execAtomicArrival a s := rfl
theorem exec_probeArrival (d : DieIx) (m : BitVec 12) (sdie : DieIx) (s : State) :
    exec (.probeArrival d m sdie) s = execProbeArrival d m sdie s := rfl
theorem exec_timeSyncRequestArrival (m : BitVec 12) (t1 t2 t3 : Word) (s : State) :
    exec (.timeSyncRequestArrival m t1 t2 t3) s = execTimeSyncRequestArrival m t1 t2 t3 s := rfl
theorem exec_level2Request (p : BitVec 4) (lane : BitVec 5) (s : State) : exec (.level2Request p lane) s = execLevel2Request p lane s := rfl
theorem exec_droopRelease (d : DieIx) (dom : BitVec 3) (s : State) : exec (.droopRelease d dom) s = execDroopRelease d dom s := rfl
theorem exec_thermTripRelease (s : State) : exec (.thermTripRelease) s = execThermTripRelease s := rfl
theorem exec_referenceClockPresent (s : State) : exec (.referenceClockPresent) s = execReferenceClockPresent s := rfl
theorem exec_monitorEventEnd (m : MonScope) (s : State) : exec (.monitorEventEnd m) s = execMonitorEventEnd m s := rfl
theorem exec_alwaysOnPowerLoss (s : State) : exec (.alwaysOnPowerLoss) s = execAlwaysOnPowerLoss s := rfl

end Sys2Proof.Machine
end

