-- ==== Sys2Proof/Laws/Sparse.lean ====
section
/-! SUPPORT. Sparse tables: what reading after writing gives, and that every operation keeps the canonical form; the byte memories built on
them. -/

namespace Sys2Proof.Machine

variable {α : Type}

/-! ### Reading after writing -/

theorem Sparse.get_drop_same (d : α) (m : Sparse α) (k : Nat) : Sparse.get d (Sparse.drop m k) k = d := by
  induction m with
  | nil => rfl
  | cons e m ih =>
    obtain ⟨k', v⟩ := e
    by_cases h : k' = k <;> simp [Sparse.drop, Sparse.get, h, ih]

theorem Sparse.get_drop_other (d : α) (m : Sparse α) {k j : Nat} (h : j ≠ k) : Sparse.get d (Sparse.drop m k) j = Sparse.get d m j := by
  induction m with
  | nil => rfl
  | cons e m ih =>
    obtain ⟨k', v⟩ := e
    by_cases h1 : k' = k
    · have h2 : ¬ k = j := fun e => h e.symm
      simp [Sparse.drop, Sparse.get, h1, ih, h2]
    · by_cases h2 : k' = j <;> simp [Sparse.drop, Sparse.get, h1, h2, ih, h]

theorem Sparse.get_ins_same (d : α) (m : Sparse α) (k : Nat) (v : α) (h : Sparse.drop m k = m) :
    Sparse.get d (Sparse.ins m k v) k = v := by
  induction m with
  | nil => simp [Sparse.ins, Sparse.get]
  | cons e m ih =>
    obtain ⟨k', w⟩ := e
    have hk : k' ≠ k := by
      intro e
      have hl := congrArg List.length h
      have hle : ∀ m : Sparse α, (Sparse.drop m k).length ≤ m.length := by
        intro m
        induction m with
        | nil => simp [Sparse.drop]
        | cons e m ih =>
          obtain ⟨k', v⟩ := e
          by_cases h : k' = k <;> simp [Sparse.drop, h] <;> omega
      have := hle m
      simp [Sparse.drop, e] at hl
      omega
    have ht : Sparse.drop m k = m := by simpa [Sparse.drop, hk] using h
    by_cases hlt : k < k' <;> simp [Sparse.ins, hlt, Sparse.get, hk, ih ht]

theorem Sparse.get_ins_other (d : α) (m : Sparse α) {k j : Nat} (v : α) (h : j ≠ k) :
    Sparse.get d (Sparse.ins m k v) j = Sparse.get d m j := by
  have h' : ¬ k = j := fun e => h e.symm
  induction m with
  | nil => simp [Sparse.ins, Sparse.get, h']
  | cons e m ih =>
    obtain ⟨k', w⟩ := e
    by_cases hlt : k < k'
    · simp only [Sparse.ins, hlt, if_true, Sparse.get, h', if_false]
    · simp only [Sparse.ins, hlt, if_false, Sparse.get, ih]

theorem Sparse.drop_drop (m : Sparse α) (k : Nat) : Sparse.drop (Sparse.drop m k) k = Sparse.drop m k := by
  induction m with
  | nil => rfl
  | cons e m ih =>
    obtain ⟨k', v⟩ := e
    by_cases h : k' = k <;> simp [Sparse.drop, h, ih]

theorem Sparse.drop_ins (m : Sparse α) (k : Nat) (v : α) : Sparse.drop (Sparse.ins m k v) k = Sparse.drop m k := by
  induction m with
  | nil => simp [Sparse.ins, Sparse.drop]
  | cons e m ih =>
    obtain ⟨k', w⟩ := e
    by_cases hlt : k < k' <;> by_cases h : k' = k <;> simp [Sparse.ins, hlt, Sparse.drop, h, ih]

variable [DecidableEq α]

@[simp] theorem Sparse.get_put_same (d : α) (m : Sparse α) (k : Nat) (v : α) : Sparse.get d (Sparse.put d m k v) k = v := by
  by_cases h : v = d
  · simp [Sparse.put, h, Sparse.get_drop_same]
  · simp [Sparse.put, h, Sparse.get_ins_same _ _ _ _ (Sparse.drop_drop m k)]

theorem Sparse.get_put_other (d : α) (m : Sparse α) {k j : Nat} (v : α) (h : j ≠ k) :
    Sparse.get d (Sparse.put d m k v) j = Sparse.get d m j := by
  by_cases hv : v = d
  · simp [Sparse.put, hv, Sparse.get_drop_other d m h]
  · simp [Sparse.put, hv, Sparse.get_ins_other d _ _ h, Sparse.get_drop_other d m h]

@[simp] theorem Sparse.get_upd_same (d : α) (m : Sparse α) (k : Nat) (f : α → α) :
    Sparse.get d (Sparse.upd d m k f) k = f (Sparse.get d m k) := by simp [Sparse.upd]

theorem Sparse.get_upd_other (d : α) (m : Sparse α) {k j : Nat} (f : α → α) (h : j ≠ k) :
    Sparse.get d (Sparse.upd d m k f) j = Sparse.get d m j := Sparse.get_put_other d m _ h

/-- A later write of the same entry is the only one that counts. -/
@[simp] theorem Sparse.put_put (d : α) (m : Sparse α) (k : Nat) (v w : α) :
    Sparse.put d (Sparse.put d m k v) k w = Sparse.put d m k w := by
  by_cases hv : v = d <;> by_cases hw : w = d <;> simp [Sparse.put, hv, hw, Sparse.drop_drop, Sparse.drop_ins]

/-! ### The canonical form -/

theorem Sparse.wfFrom_mono {d : α} {m : Sparse α} {a b : Nat} (h : Sparse.wfFrom d b m = true) (hab : a ≤ b) :
    Sparse.wfFrom d a m = true := by
  cases m with
  | nil => rfl
  | cons e m =>
    obtain ⟨k, v⟩ := e
    simp only [Sparse.wfFrom, Bool.and_eq_true, decide_eq_true_eq] at h ⊢
    exact ⟨⟨by omega, h.1.2⟩, h.2⟩

theorem Sparse.wfFrom_drop {d : α} {m : Sparse α} {b : Nat} (k : Nat) (h : Sparse.wfFrom d b m = true) :
    Sparse.wfFrom d b (Sparse.drop m k) = true := by
  induction m generalizing b with
  | nil => rfl
  | cons e m ih =>
    obtain ⟨k', v⟩ := e
    simp only [Sparse.wfFrom, Bool.and_eq_true, decide_eq_true_eq] at h
    by_cases hk : k' = k
    · simp only [Sparse.drop, hk, if_true]
      exact Sparse.wfFrom_mono (ih h.2) (by omega)
    · simp only [Sparse.drop, hk, if_false, Sparse.wfFrom, Bool.and_eq_true, decide_eq_true_eq]
      exact ⟨h.1, ih h.2⟩

theorem Sparse.wfFrom_ins {d : α} {m : Sparse α} {b k : Nat} {v : α} (hb : b ≤ k) (hv : v ≠ d) (h : Sparse.wfFrom d b m = true)
    (hd : ∀ w, (k, w) ∉ m) : Sparse.wfFrom d b (Sparse.ins m k v) = true := by
  induction m generalizing b with
  | nil => simp [Sparse.ins, Sparse.wfFrom, hb, hv]
  | cons e m ih =>
    obtain ⟨k', w⟩ := e
    simp only [Sparse.wfFrom, Bool.and_eq_true, decide_eq_true_eq] at h
    by_cases hlt : k < k'
    · simp only [Sparse.ins, hlt, if_true, Sparse.wfFrom, Bool.and_eq_true, decide_eq_true_eq]
      exact ⟨⟨hb, hv⟩, ⟨by omega, h.1.2⟩, h.2⟩
    · simp only [Sparse.ins, hlt, if_false, Sparse.wfFrom, Bool.and_eq_true, decide_eq_true_eq]
      have hne : k' ≠ k := fun e => hd w (by simp [e])
      exact ⟨h.1, ih (by omega) h.2 (fun w' hw' => hd w' (List.mem_cons_of_mem _ hw'))⟩

omit [DecidableEq α] in
theorem Sparse.not_mem_drop (m : Sparse α) (k : Nat) (w : α) : (k, w) ∉ Sparse.drop m k := by
  induction m with
  | nil => simp [Sparse.drop]
  | cons e m ih =>
    obtain ⟨k', v⟩ := e
    by_cases h : k' = k
    · simpa [Sparse.drop, h] using ih
    · simp only [Sparse.drop, h, if_false, List.mem_cons, Prod.mk.injEq, not_or, not_and]
      exact ⟨fun e => absurd e.symm h, ih⟩

/-- Every write keeps the canonical form. -/
theorem Sparse.wf_put {d : α} {m : Sparse α} (k : Nat) (v : α) (h : Sparse.wf d m = true) : Sparse.wf d (Sparse.put d m k v) = true := by
  by_cases hv : v = d
  · simpa [Sparse.put, hv] using Sparse.wfFrom_drop k h
  · simpa [Sparse.put, hv] using
      Sparse.wfFrom_ins (Nat.zero_le k) hv (Sparse.wfFrom_drop k h) (fun w => Sparse.not_mem_drop m k w)

theorem Sparse.wf_upd {d : α} {m : Sparse α} (k : Nat) (f : α → α) (h : Sparse.wf d m = true) :
    Sparse.wf d (Sparse.upd d m k f) = true := Sparse.wf_put k _ h

theorem Sparse.wfFrom_mapVals {d : α} {m : Sparse α} {b : Nat} (f : Nat → α → α) (h : Sparse.wfFrom d b m = true) :
    Sparse.wfFrom d b (Sparse.mapVals d f m) = true := by
  induction m generalizing b with
  | nil => rfl
  | cons e m ih =>
    obtain ⟨k, v⟩ := e
    simp only [Sparse.wfFrom, Bool.and_eq_true, decide_eq_true_eq] at h
    by_cases hf : f k v = d
    · simp only [Sparse.mapVals, hf, if_true]
      exact Sparse.wfFrom_mono (ih h.2) (by omega)
    · simp only [Sparse.mapVals, hf, if_false, Sparse.wfFrom, Bool.and_eq_true, decide_eq_true_eq]
      exact ⟨⟨h.1.1, hf⟩, ih h.2⟩

theorem Sparse.wf_mapVals {d : α} {m : Sparse α} (f : Nat → α → α) (h : Sparse.wf d m = true) :
    Sparse.wf d (Sparse.mapVals d f m) = true := Sparse.wfFrom_mapVals f h

theorem Sparse.wfFrom_filter {d : α} {m : Sparse α} {b : Nat} (p : Nat × α → Bool) (h : Sparse.wfFrom d b m = true) :
    Sparse.wfFrom d b (m.filter p) = true := by
  induction m generalizing b with
  | nil => rfl
  | cons e m ih =>
    obtain ⟨k, v⟩ := e
    simp only [Sparse.wfFrom, Bool.and_eq_true, decide_eq_true_eq] at h
    by_cases hp : p (k, v) = true
    · simp only [List.filter, hp, Sparse.wfFrom, Bool.and_eq_true, decide_eq_true_eq]
      exact ⟨h.1, ih h.2⟩
    · simp only [List.filter, hp]
      exact Sparse.wfFrom_mono (ih h.2) (by omega)

theorem Sparse.wf_filter {d : α} {m : Sparse α} (p : Nat × α → Bool) (h : Sparse.wf d m = true) :
    Sparse.wf d (m.filter p) = true := Sparse.wfFrom_filter p h

/-! ### Byte memories -/

/-- A byte after a write: what the write puts there, else what stood there. -/
theorem get_writeMem (bs : List (Option Byte)) (m : Sparse Byte) (a p : Nat) :
    Sparse.get 0 (writeMem m a bs) p = (byteFor a bs p).getD (Sparse.get 0 m p) := by
  induction bs generalizing m a with
  | nil => simp [writeMem, byteFor]
  | cons b bs ih =>
    have tail : p ≠ a → byteFor a (b :: bs) p = byteFor (a + 1) bs p := by
      intro hp
      by_cases hle : a ≤ p
      · have : p - a = (p - (a + 1)) + 1 := by omega
        simp [byteFor, hle, this, show a + 1 ≤ p by omega]
      · simp [byteFor, hle, show ¬ a + 1 ≤ p by omega]
    cases b with
    | none =>
      rw [writeMem, ih]
      by_cases hp : p = a
      · subst hp; simp [byteFor]
      · rw [tail hp]
    | some v =>
      rw [writeMem, ih]
      by_cases hp : p = a
      · subst hp; simp [byteFor]
      · rw [tail hp, Sparse.get_put_other _ _ _ hp]

theorem wf_writeMem (bs : List (Option Byte)) {m : Sparse Byte} (a : Nat) (h : Sparse.wf 0 m = true) :
    Sparse.wf 0 (writeMem m a bs) = true := by
  induction bs generalizing m a with
  | nil => exact h
  | cons b bs ih =>
    cases b with
    | none => exact ih _ h
    | some v => exact ih _ (Sparse.wf_put a v h)

@[simp] theorem length_readMem (m : Sparse Byte) (a n : Nat) : (readMem m a n).length = n := by
  induction n generalizing a with
  | zero => rfl
  | succ n ih => simp [readMem, ih]

end Sys2Proof.Machine
end

