-- ==== Sys2Proof/Laws/State.lean ====
section
/-! SUPPORT. What each update of the state leaves alone, field by field, and what reading a core, a thread, a team, a die or a ring gives after
one of them was written. -/

namespace Sys2Proof.Machine

/-! ### Fields -/

/-! `setCore` -/

@[simp] theorem State.setCore_teams (s : State) (c : CoreIx) (x : Core) : (s.setCore c x).teams = s.teams := rfl
@[simp] theorem State.setCore_dies (s : State) (c : CoreIx) (x : Core) : (s.setCore c x).dies = s.dies := rfl
@[simp] theorem State.setCore_writes (s : State) (c : CoreIx) (x : Core) : (s.setCore c x).writes = s.writes := rfl
@[simp] theorem State.setCore_acks (s : State) (c : CoreIx) (x : Core) : (s.setCore c x).acks = s.acks := rfl
@[simp] theorem State.setCore_reads (s : State) (c : CoreIx) (x : Core) : (s.setCore c x).reads = s.reads := rfl
@[simp] theorem State.setCore_msgs (s : State) (c : CoreIx) (x : Core) : (s.setCore c x).msgs = s.msgs := rfl
@[simp] theorem State.setCore_contribs (s : State) (c : CoreIx) (x : Core) : (s.setCore c x).contribs = s.contribs := rfl
@[simp] theorem State.setCore_relays (s : State) (c : CoreIx) (x : Core) : (s.setCore c x).relays = s.relays := rfl
@[simp] theorem State.setCore_fab (s : State) (c : CoreIx) (x : Core) : (s.setCore c x).fab = s.fab := rfl
@[simp] theorem State.setCore_far (s : State) (c : CoreIx) (x : Core) : (s.setCore c x).far = s.far := rfl
@[simp] theorem State.setCore_rings (s : State) (c : CoreIx) (x : Core) : (s.setCore c x).rings = s.rings := rfl
@[simp] theorem State.setCore_dict (s : State) (c : CoreIx) (x : Core) : (s.setCore c x).dict = s.dict := rfl
@[simp] theorem State.setCore_boot (s : State) (c : CoreIx) (x : Core) : (s.setCore c x).boot = s.boot := rfl
@[simp] theorem State.setCore_mod (s : State) (c : CoreIx) (x : Core) : (s.setCore c x).mod = s.mod := rfl
@[simp] theorem State.setCore_outbox (s : State) (c : CoreIx) (x : Core) : (s.setCore c x).outbox = s.outbox := rfl
@[simp] theorem State.setCore_time (s : State) (c : CoreIx) (x : Core) : (s.setCore c x).time = s.time := rfl
@[simp] theorem State.setCore_nextSeq (s : State) (c : CoreIx) (x : Core) : (s.setCore c x).nextSeq = s.nextSeq := rfl
@[simp] theorem State.setCore_free (s : State) (c : CoreIx) (x : Core) : (s.setCore c x).free = s.free := rfl
@[simp] theorem State.setCore_pending (s : State) (c : CoreIx) (x : Core) : (s.setCore c x).pending = s.pending := rfl

/-! `modCore` -/

@[simp] theorem State.modCore_teams (s : State) (c : CoreIx) (f : Core → Core) : (s.modCore c f).teams = s.teams := rfl
@[simp] theorem State.modCore_dies (s : State) (c : CoreIx) (f : Core → Core) : (s.modCore c f).dies = s.dies := rfl
@[simp] theorem State.modCore_writes (s : State) (c : CoreIx) (f : Core → Core) : (s.modCore c f).writes = s.writes := rfl
@[simp] theorem State.modCore_acks (s : State) (c : CoreIx) (f : Core → Core) : (s.modCore c f).acks = s.acks := rfl
@[simp] theorem State.modCore_reads (s : State) (c : CoreIx) (f : Core → Core) : (s.modCore c f).reads = s.reads := rfl
@[simp] theorem State.modCore_msgs (s : State) (c : CoreIx) (f : Core → Core) : (s.modCore c f).msgs = s.msgs := rfl
@[simp] theorem State.modCore_contribs (s : State) (c : CoreIx) (f : Core → Core) : (s.modCore c f).contribs = s.contribs := rfl
@[simp] theorem State.modCore_relays (s : State) (c : CoreIx) (f : Core → Core) : (s.modCore c f).relays = s.relays := rfl
@[simp] theorem State.modCore_fab (s : State) (c : CoreIx) (f : Core → Core) : (s.modCore c f).fab = s.fab := rfl
@[simp] theorem State.modCore_far (s : State) (c : CoreIx) (f : Core → Core) : (s.modCore c f).far = s.far := rfl
@[simp] theorem State.modCore_rings (s : State) (c : CoreIx) (f : Core → Core) : (s.modCore c f).rings = s.rings := rfl
@[simp] theorem State.modCore_dict (s : State) (c : CoreIx) (f : Core → Core) : (s.modCore c f).dict = s.dict := rfl
@[simp] theorem State.modCore_boot (s : State) (c : CoreIx) (f : Core → Core) : (s.modCore c f).boot = s.boot := rfl
@[simp] theorem State.modCore_mod (s : State) (c : CoreIx) (f : Core → Core) : (s.modCore c f).mod = s.mod := rfl
@[simp] theorem State.modCore_outbox (s : State) (c : CoreIx) (f : Core → Core) : (s.modCore c f).outbox = s.outbox := rfl
@[simp] theorem State.modCore_time (s : State) (c : CoreIx) (f : Core → Core) : (s.modCore c f).time = s.time := rfl
@[simp] theorem State.modCore_nextSeq (s : State) (c : CoreIx) (f : Core → Core) : (s.modCore c f).nextSeq = s.nextSeq := rfl
@[simp] theorem State.modCore_free (s : State) (c : CoreIx) (f : Core → Core) : (s.modCore c f).free = s.free := rfl
@[simp] theorem State.modCore_pending (s : State) (c : CoreIx) (f : Core → Core) : (s.modCore c f).pending = s.pending := rfl

/-! `modThread` -/

@[simp] theorem State.modThread_teams (s : State) (w : Who) (f : Thread → Thread) : (s.modThread w f).teams = s.teams := rfl
@[simp] theorem State.modThread_dies (s : State) (w : Who) (f : Thread → Thread) : (s.modThread w f).dies = s.dies := rfl
@[simp] theorem State.modThread_writes (s : State) (w : Who) (f : Thread → Thread) : (s.modThread w f).writes = s.writes := rfl
@[simp] theorem State.modThread_acks (s : State) (w : Who) (f : Thread → Thread) : (s.modThread w f).acks = s.acks := rfl
@[simp] theorem State.modThread_reads (s : State) (w : Who) (f : Thread → Thread) : (s.modThread w f).reads = s.reads := rfl
@[simp] theorem State.modThread_msgs (s : State) (w : Who) (f : Thread → Thread) : (s.modThread w f).msgs = s.msgs := rfl
@[simp] theorem State.modThread_contribs (s : State) (w : Who) (f : Thread → Thread) : (s.modThread w f).contribs = s.contribs := rfl
@[simp] theorem State.modThread_relays (s : State) (w : Who) (f : Thread → Thread) : (s.modThread w f).relays = s.relays := rfl
@[simp] theorem State.modThread_fab (s : State) (w : Who) (f : Thread → Thread) : (s.modThread w f).fab = s.fab := rfl
@[simp] theorem State.modThread_far (s : State) (w : Who) (f : Thread → Thread) : (s.modThread w f).far = s.far := rfl
@[simp] theorem State.modThread_rings (s : State) (w : Who) (f : Thread → Thread) : (s.modThread w f).rings = s.rings := rfl
@[simp] theorem State.modThread_dict (s : State) (w : Who) (f : Thread → Thread) : (s.modThread w f).dict = s.dict := rfl
@[simp] theorem State.modThread_boot (s : State) (w : Who) (f : Thread → Thread) : (s.modThread w f).boot = s.boot := rfl
@[simp] theorem State.modThread_mod (s : State) (w : Who) (f : Thread → Thread) : (s.modThread w f).mod = s.mod := rfl
@[simp] theorem State.modThread_outbox (s : State) (w : Who) (f : Thread → Thread) : (s.modThread w f).outbox = s.outbox := rfl
@[simp] theorem State.modThread_time (s : State) (w : Who) (f : Thread → Thread) : (s.modThread w f).time = s.time := rfl
@[simp] theorem State.modThread_nextSeq (s : State) (w : Who) (f : Thread → Thread) : (s.modThread w f).nextSeq = s.nextSeq := rfl
@[simp] theorem State.modThread_free (s : State) (w : Who) (f : Thread → Thread) : (s.modThread w f).free = s.free := rfl
@[simp] theorem State.modThread_pending (s : State) (w : Who) (f : Thread → Thread) : (s.modThread w f).pending = s.pending := rfl

/-! `modQueue` -/

@[simp] theorem State.modQueue_teams (s : State) (c : CoreIx) (q : BitVec 4) (f : Queue → Queue) : (s.modQueue c q f).teams = s.teams := rfl
@[simp] theorem State.modQueue_dies (s : State) (c : CoreIx) (q : BitVec 4) (f : Queue → Queue) : (s.modQueue c q f).dies = s.dies := rfl
@[simp] theorem State.modQueue_writes (s : State) (c : CoreIx) (q : BitVec 4) (f : Queue → Queue) : (s.modQueue c q f).writes = s.writes := rfl
@[simp] theorem State.modQueue_acks (s : State) (c : CoreIx) (q : BitVec 4) (f : Queue → Queue) : (s.modQueue c q f).acks = s.acks := rfl
@[simp] theorem State.modQueue_reads (s : State) (c : CoreIx) (q : BitVec 4) (f : Queue → Queue) : (s.modQueue c q f).reads = s.reads := rfl
@[simp] theorem State.modQueue_msgs (s : State) (c : CoreIx) (q : BitVec 4) (f : Queue → Queue) : (s.modQueue c q f).msgs = s.msgs := rfl
@[simp] theorem State.modQueue_contribs (s : State) (c : CoreIx) (q : BitVec 4) (f : Queue → Queue) : (s.modQueue c q f).contribs = s.contribs := rfl
@[simp] theorem State.modQueue_relays (s : State) (c : CoreIx) (q : BitVec 4) (f : Queue → Queue) : (s.modQueue c q f).relays = s.relays := rfl
@[simp] theorem State.modQueue_fab (s : State) (c : CoreIx) (q : BitVec 4) (f : Queue → Queue) : (s.modQueue c q f).fab = s.fab := rfl
@[simp] theorem State.modQueue_far (s : State) (c : CoreIx) (q : BitVec 4) (f : Queue → Queue) : (s.modQueue c q f).far = s.far := rfl
@[simp] theorem State.modQueue_rings (s : State) (c : CoreIx) (q : BitVec 4) (f : Queue → Queue) : (s.modQueue c q f).rings = s.rings := rfl
@[simp] theorem State.modQueue_dict (s : State) (c : CoreIx) (q : BitVec 4) (f : Queue → Queue) : (s.modQueue c q f).dict = s.dict := rfl
@[simp] theorem State.modQueue_boot (s : State) (c : CoreIx) (q : BitVec 4) (f : Queue → Queue) : (s.modQueue c q f).boot = s.boot := rfl
@[simp] theorem State.modQueue_mod (s : State) (c : CoreIx) (q : BitVec 4) (f : Queue → Queue) : (s.modQueue c q f).mod = s.mod := rfl
@[simp] theorem State.modQueue_outbox (s : State) (c : CoreIx) (q : BitVec 4) (f : Queue → Queue) : (s.modQueue c q f).outbox = s.outbox := rfl
@[simp] theorem State.modQueue_time (s : State) (c : CoreIx) (q : BitVec 4) (f : Queue → Queue) : (s.modQueue c q f).time = s.time := rfl
@[simp] theorem State.modQueue_nextSeq (s : State) (c : CoreIx) (q : BitVec 4) (f : Queue → Queue) : (s.modQueue c q f).nextSeq = s.nextSeq := rfl
@[simp] theorem State.modQueue_free (s : State) (c : CoreIx) (q : BitVec 4) (f : Queue → Queue) : (s.modQueue c q f).free = s.free := rfl
@[simp] theorem State.modQueue_pending (s : State) (c : CoreIx) (q : BitVec 4) (f : Queue → Queue) : (s.modQueue c q f).pending = s.pending := rfl

/-! `modSlot` -/

@[simp] theorem State.modSlot_teams (s : State) (c : CoreIx) (k : Nat) (f : Slot → Slot) : (s.modSlot c k f).teams = s.teams := rfl
@[simp] theorem State.modSlot_dies (s : State) (c : CoreIx) (k : Nat) (f : Slot → Slot) : (s.modSlot c k f).dies = s.dies := rfl
@[simp] theorem State.modSlot_writes (s : State) (c : CoreIx) (k : Nat) (f : Slot → Slot) : (s.modSlot c k f).writes = s.writes := rfl
@[simp] theorem State.modSlot_acks (s : State) (c : CoreIx) (k : Nat) (f : Slot → Slot) : (s.modSlot c k f).acks = s.acks := rfl
@[simp] theorem State.modSlot_reads (s : State) (c : CoreIx) (k : Nat) (f : Slot → Slot) : (s.modSlot c k f).reads = s.reads := rfl
@[simp] theorem State.modSlot_msgs (s : State) (c : CoreIx) (k : Nat) (f : Slot → Slot) : (s.modSlot c k f).msgs = s.msgs := rfl
@[simp] theorem State.modSlot_contribs (s : State) (c : CoreIx) (k : Nat) (f : Slot → Slot) : (s.modSlot c k f).contribs = s.contribs := rfl
@[simp] theorem State.modSlot_relays (s : State) (c : CoreIx) (k : Nat) (f : Slot → Slot) : (s.modSlot c k f).relays = s.relays := rfl
@[simp] theorem State.modSlot_fab (s : State) (c : CoreIx) (k : Nat) (f : Slot → Slot) : (s.modSlot c k f).fab = s.fab := rfl
@[simp] theorem State.modSlot_far (s : State) (c : CoreIx) (k : Nat) (f : Slot → Slot) : (s.modSlot c k f).far = s.far := rfl
@[simp] theorem State.modSlot_rings (s : State) (c : CoreIx) (k : Nat) (f : Slot → Slot) : (s.modSlot c k f).rings = s.rings := rfl
@[simp] theorem State.modSlot_dict (s : State) (c : CoreIx) (k : Nat) (f : Slot → Slot) : (s.modSlot c k f).dict = s.dict := rfl
@[simp] theorem State.modSlot_boot (s : State) (c : CoreIx) (k : Nat) (f : Slot → Slot) : (s.modSlot c k f).boot = s.boot := rfl
@[simp] theorem State.modSlot_mod (s : State) (c : CoreIx) (k : Nat) (f : Slot → Slot) : (s.modSlot c k f).mod = s.mod := rfl
@[simp] theorem State.modSlot_outbox (s : State) (c : CoreIx) (k : Nat) (f : Slot → Slot) : (s.modSlot c k f).outbox = s.outbox := rfl
@[simp] theorem State.modSlot_time (s : State) (c : CoreIx) (k : Nat) (f : Slot → Slot) : (s.modSlot c k f).time = s.time := rfl
@[simp] theorem State.modSlot_nextSeq (s : State) (c : CoreIx) (k : Nat) (f : Slot → Slot) : (s.modSlot c k f).nextSeq = s.nextSeq := rfl
@[simp] theorem State.modSlot_free (s : State) (c : CoreIx) (k : Nat) (f : Slot → Slot) : (s.modSlot c k f).free = s.free := rfl
@[simp] theorem State.modSlot_pending (s : State) (c : CoreIx) (k : Nat) (f : Slot → Slot) : (s.modSlot c k f).pending = s.pending := rfl

/-! `modStream` -/

@[simp] theorem State.modStream_teams (s : State) (w : Who) (k : BitVec 3) (f : Stream → Stream) : (s.modStream w k f).teams = s.teams := rfl
@[simp] theorem State.modStream_dies (s : State) (w : Who) (k : BitVec 3) (f : Stream → Stream) : (s.modStream w k f).dies = s.dies := rfl
@[simp] theorem State.modStream_writes (s : State) (w : Who) (k : BitVec 3) (f : Stream → Stream) : (s.modStream w k f).writes = s.writes := rfl
@[simp] theorem State.modStream_acks (s : State) (w : Who) (k : BitVec 3) (f : Stream → Stream) : (s.modStream w k f).acks = s.acks := rfl
@[simp] theorem State.modStream_reads (s : State) (w : Who) (k : BitVec 3) (f : Stream → Stream) : (s.modStream w k f).reads = s.reads := rfl
@[simp] theorem State.modStream_msgs (s : State) (w : Who) (k : BitVec 3) (f : Stream → Stream) : (s.modStream w k f).msgs = s.msgs := rfl
@[simp] theorem State.modStream_contribs (s : State) (w : Who) (k : BitVec 3) (f : Stream → Stream) : (s.modStream w k f).contribs = s.contribs := rfl
@[simp] theorem State.modStream_relays (s : State) (w : Who) (k : BitVec 3) (f : Stream → Stream) : (s.modStream w k f).relays = s.relays := rfl
@[simp] theorem State.modStream_fab (s : State) (w : Who) (k : BitVec 3) (f : Stream → Stream) : (s.modStream w k f).fab = s.fab := rfl
@[simp] theorem State.modStream_far (s : State) (w : Who) (k : BitVec 3) (f : Stream → Stream) : (s.modStream w k f).far = s.far := rfl
@[simp] theorem State.modStream_rings (s : State) (w : Who) (k : BitVec 3) (f : Stream → Stream) : (s.modStream w k f).rings = s.rings := rfl
@[simp] theorem State.modStream_dict (s : State) (w : Who) (k : BitVec 3) (f : Stream → Stream) : (s.modStream w k f).dict = s.dict := rfl
@[simp] theorem State.modStream_boot (s : State) (w : Who) (k : BitVec 3) (f : Stream → Stream) : (s.modStream w k f).boot = s.boot := rfl
@[simp] theorem State.modStream_mod (s : State) (w : Who) (k : BitVec 3) (f : Stream → Stream) : (s.modStream w k f).mod = s.mod := rfl
@[simp] theorem State.modStream_outbox (s : State) (w : Who) (k : BitVec 3) (f : Stream → Stream) : (s.modStream w k f).outbox = s.outbox := rfl
@[simp] theorem State.modStream_time (s : State) (w : Who) (k : BitVec 3) (f : Stream → Stream) : (s.modStream w k f).time = s.time := rfl
@[simp] theorem State.modStream_nextSeq (s : State) (w : Who) (k : BitVec 3) (f : Stream → Stream) : (s.modStream w k f).nextSeq = s.nextSeq := rfl
@[simp] theorem State.modStream_free (s : State) (w : Who) (k : BitVec 3) (f : Stream → Stream) : (s.modStream w k f).free = s.free := rfl
@[simp] theorem State.modStream_pending (s : State) (w : Who) (k : BitVec 3) (f : Stream → Stream) : (s.modStream w k f).pending = s.pending := rfl

/-! `modTeam` -/

@[simp] theorem State.modTeam_cores (s : State) (t : BitVec 8) (f : Team → Team) : (s.modTeam t f).cores = s.cores := rfl
@[simp] theorem State.modTeam_dies (s : State) (t : BitVec 8) (f : Team → Team) : (s.modTeam t f).dies = s.dies := rfl
@[simp] theorem State.modTeam_writes (s : State) (t : BitVec 8) (f : Team → Team) : (s.modTeam t f).writes = s.writes := rfl
@[simp] theorem State.modTeam_acks (s : State) (t : BitVec 8) (f : Team → Team) : (s.modTeam t f).acks = s.acks := rfl
@[simp] theorem State.modTeam_reads (s : State) (t : BitVec 8) (f : Team → Team) : (s.modTeam t f).reads = s.reads := rfl
@[simp] theorem State.modTeam_msgs (s : State) (t : BitVec 8) (f : Team → Team) : (s.modTeam t f).msgs = s.msgs := rfl
@[simp] theorem State.modTeam_contribs (s : State) (t : BitVec 8) (f : Team → Team) : (s.modTeam t f).contribs = s.contribs := rfl
@[simp] theorem State.modTeam_relays (s : State) (t : BitVec 8) (f : Team → Team) : (s.modTeam t f).relays = s.relays := rfl
@[simp] theorem State.modTeam_fab (s : State) (t : BitVec 8) (f : Team → Team) : (s.modTeam t f).fab = s.fab := rfl
@[simp] theorem State.modTeam_far (s : State) (t : BitVec 8) (f : Team → Team) : (s.modTeam t f).far = s.far := rfl
@[simp] theorem State.modTeam_rings (s : State) (t : BitVec 8) (f : Team → Team) : (s.modTeam t f).rings = s.rings := rfl
@[simp] theorem State.modTeam_dict (s : State) (t : BitVec 8) (f : Team → Team) : (s.modTeam t f).dict = s.dict := rfl
@[simp] theorem State.modTeam_boot (s : State) (t : BitVec 8) (f : Team → Team) : (s.modTeam t f).boot = s.boot := rfl
@[simp] theorem State.modTeam_mod (s : State) (t : BitVec 8) (f : Team → Team) : (s.modTeam t f).mod = s.mod := rfl
@[simp] theorem State.modTeam_outbox (s : State) (t : BitVec 8) (f : Team → Team) : (s.modTeam t f).outbox = s.outbox := rfl
@[simp] theorem State.modTeam_time (s : State) (t : BitVec 8) (f : Team → Team) : (s.modTeam t f).time = s.time := rfl
@[simp] theorem State.modTeam_nextSeq (s : State) (t : BitVec 8) (f : Team → Team) : (s.modTeam t f).nextSeq = s.nextSeq := rfl
@[simp] theorem State.modTeam_free (s : State) (t : BitVec 8) (f : Team → Team) : (s.modTeam t f).free = s.free := rfl
@[simp] theorem State.modTeam_pending (s : State) (t : BitVec 8) (f : Team → Team) : (s.modTeam t f).pending = s.pending := rfl

/-! `modChan` -/

@[simp] theorem State.modChan_cores (s : State) (t : BitVec 8) (k : BitVec 3) (f : Chan → Chan) : (s.modChan t k f).cores = s.cores := rfl
@[simp] theorem State.modChan_dies (s : State) (t : BitVec 8) (k : BitVec 3) (f : Chan → Chan) : (s.modChan t k f).dies = s.dies := rfl
@[simp] theorem State.modChan_writes (s : State) (t : BitVec 8) (k : BitVec 3) (f : Chan → Chan) : (s.modChan t k f).writes = s.writes := rfl
@[simp] theorem State.modChan_acks (s : State) (t : BitVec 8) (k : BitVec 3) (f : Chan → Chan) : (s.modChan t k f).acks = s.acks := rfl
@[simp] theorem State.modChan_reads (s : State) (t : BitVec 8) (k : BitVec 3) (f : Chan → Chan) : (s.modChan t k f).reads = s.reads := rfl
@[simp] theorem State.modChan_msgs (s : State) (t : BitVec 8) (k : BitVec 3) (f : Chan → Chan) : (s.modChan t k f).msgs = s.msgs := rfl
@[simp] theorem State.modChan_contribs (s : State) (t : BitVec 8) (k : BitVec 3) (f : Chan → Chan) : (s.modChan t k f).contribs = s.contribs := rfl
@[simp] theorem State.modChan_relays (s : State) (t : BitVec 8) (k : BitVec 3) (f : Chan → Chan) : (s.modChan t k f).relays = s.relays := rfl
@[simp] theorem State.modChan_fab (s : State) (t : BitVec 8) (k : BitVec 3) (f : Chan → Chan) : (s.modChan t k f).fab = s.fab := rfl
@[simp] theorem State.modChan_far (s : State) (t : BitVec 8) (k : BitVec 3) (f : Chan → Chan) : (s.modChan t k f).far = s.far := rfl
@[simp] theorem State.modChan_rings (s : State) (t : BitVec 8) (k : BitVec 3) (f : Chan → Chan) : (s.modChan t k f).rings = s.rings := rfl
@[simp] theorem State.modChan_dict (s : State) (t : BitVec 8) (k : BitVec 3) (f : Chan → Chan) : (s.modChan t k f).dict = s.dict := rfl
@[simp] theorem State.modChan_boot (s : State) (t : BitVec 8) (k : BitVec 3) (f : Chan → Chan) : (s.modChan t k f).boot = s.boot := rfl
@[simp] theorem State.modChan_mod (s : State) (t : BitVec 8) (k : BitVec 3) (f : Chan → Chan) : (s.modChan t k f).mod = s.mod := rfl
@[simp] theorem State.modChan_outbox (s : State) (t : BitVec 8) (k : BitVec 3) (f : Chan → Chan) : (s.modChan t k f).outbox = s.outbox := rfl
@[simp] theorem State.modChan_time (s : State) (t : BitVec 8) (k : BitVec 3) (f : Chan → Chan) : (s.modChan t k f).time = s.time := rfl
@[simp] theorem State.modChan_nextSeq (s : State) (t : BitVec 8) (k : BitVec 3) (f : Chan → Chan) : (s.modChan t k f).nextSeq = s.nextSeq := rfl
@[simp] theorem State.modChan_free (s : State) (t : BitVec 8) (k : BitVec 3) (f : Chan → Chan) : (s.modChan t k f).free = s.free := rfl
@[simp] theorem State.modChan_pending (s : State) (t : BitVec 8) (k : BitVec 3) (f : Chan → Chan) : (s.modChan t k f).pending = s.pending := rfl

/-! `modDie` -/

@[simp] theorem State.modDie_cores (s : State) (d : DieIx) (f : Die → Die) : (s.modDie d f).cores = s.cores := rfl
@[simp] theorem State.modDie_teams (s : State) (d : DieIx) (f : Die → Die) : (s.modDie d f).teams = s.teams := rfl
@[simp] theorem State.modDie_writes (s : State) (d : DieIx) (f : Die → Die) : (s.modDie d f).writes = s.writes := rfl
@[simp] theorem State.modDie_acks (s : State) (d : DieIx) (f : Die → Die) : (s.modDie d f).acks = s.acks := rfl
@[simp] theorem State.modDie_reads (s : State) (d : DieIx) (f : Die → Die) : (s.modDie d f).reads = s.reads := rfl
@[simp] theorem State.modDie_msgs (s : State) (d : DieIx) (f : Die → Die) : (s.modDie d f).msgs = s.msgs := rfl
@[simp] theorem State.modDie_contribs (s : State) (d : DieIx) (f : Die → Die) : (s.modDie d f).contribs = s.contribs := rfl
@[simp] theorem State.modDie_relays (s : State) (d : DieIx) (f : Die → Die) : (s.modDie d f).relays = s.relays := rfl
@[simp] theorem State.modDie_fab (s : State) (d : DieIx) (f : Die → Die) : (s.modDie d f).fab = s.fab := rfl
@[simp] theorem State.modDie_far (s : State) (d : DieIx) (f : Die → Die) : (s.modDie d f).far = s.far := rfl
@[simp] theorem State.modDie_rings (s : State) (d : DieIx) (f : Die → Die) : (s.modDie d f).rings = s.rings := rfl
@[simp] theorem State.modDie_dict (s : State) (d : DieIx) (f : Die → Die) : (s.modDie d f).dict = s.dict := rfl
@[simp] theorem State.modDie_boot (s : State) (d : DieIx) (f : Die → Die) : (s.modDie d f).boot = s.boot := rfl
@[simp] theorem State.modDie_mod (s : State) (d : DieIx) (f : Die → Die) : (s.modDie d f).mod = s.mod := rfl
@[simp] theorem State.modDie_outbox (s : State) (d : DieIx) (f : Die → Die) : (s.modDie d f).outbox = s.outbox := rfl
@[simp] theorem State.modDie_time (s : State) (d : DieIx) (f : Die → Die) : (s.modDie d f).time = s.time := rfl
@[simp] theorem State.modDie_nextSeq (s : State) (d : DieIx) (f : Die → Die) : (s.modDie d f).nextSeq = s.nextSeq := rfl
@[simp] theorem State.modDie_free (s : State) (d : DieIx) (f : Die → Die) : (s.modDie d f).free = s.free := rfl
@[simp] theorem State.modDie_pending (s : State) (d : DieIx) (f : Die → Die) : (s.modDie d f).pending = s.pending := rfl

/-! `modRing` -/

@[simp] theorem State.modRing_cores (s : State) (r : BitVec 6) (f : Ring → Ring) : (s.modRing r f).cores = s.cores := rfl
@[simp] theorem State.modRing_teams (s : State) (r : BitVec 6) (f : Ring → Ring) : (s.modRing r f).teams = s.teams := rfl
@[simp] theorem State.modRing_dies (s : State) (r : BitVec 6) (f : Ring → Ring) : (s.modRing r f).dies = s.dies := rfl
@[simp] theorem State.modRing_writes (s : State) (r : BitVec 6) (f : Ring → Ring) : (s.modRing r f).writes = s.writes := rfl
@[simp] theorem State.modRing_acks (s : State) (r : BitVec 6) (f : Ring → Ring) : (s.modRing r f).acks = s.acks := rfl
@[simp] theorem State.modRing_reads (s : State) (r : BitVec 6) (f : Ring → Ring) : (s.modRing r f).reads = s.reads := rfl
@[simp] theorem State.modRing_msgs (s : State) (r : BitVec 6) (f : Ring → Ring) : (s.modRing r f).msgs = s.msgs := rfl
@[simp] theorem State.modRing_contribs (s : State) (r : BitVec 6) (f : Ring → Ring) : (s.modRing r f).contribs = s.contribs := rfl
@[simp] theorem State.modRing_relays (s : State) (r : BitVec 6) (f : Ring → Ring) : (s.modRing r f).relays = s.relays := rfl
@[simp] theorem State.modRing_fab (s : State) (r : BitVec 6) (f : Ring → Ring) : (s.modRing r f).fab = s.fab := rfl
@[simp] theorem State.modRing_far (s : State) (r : BitVec 6) (f : Ring → Ring) : (s.modRing r f).far = s.far := rfl
@[simp] theorem State.modRing_dict (s : State) (r : BitVec 6) (f : Ring → Ring) : (s.modRing r f).dict = s.dict := rfl
@[simp] theorem State.modRing_boot (s : State) (r : BitVec 6) (f : Ring → Ring) : (s.modRing r f).boot = s.boot := rfl
@[simp] theorem State.modRing_mod (s : State) (r : BitVec 6) (f : Ring → Ring) : (s.modRing r f).mod = s.mod := rfl
@[simp] theorem State.modRing_outbox (s : State) (r : BitVec 6) (f : Ring → Ring) : (s.modRing r f).outbox = s.outbox := rfl
@[simp] theorem State.modRing_time (s : State) (r : BitVec 6) (f : Ring → Ring) : (s.modRing r f).time = s.time := rfl
@[simp] theorem State.modRing_nextSeq (s : State) (r : BitVec 6) (f : Ring → Ring) : (s.modRing r f).nextSeq = s.nextSeq := rfl
@[simp] theorem State.modRing_free (s : State) (r : BitVec 6) (f : Ring → Ring) : (s.modRing r f).free = s.free := rfl
@[simp] theorem State.modRing_pending (s : State) (r : BitVec 6) (f : Ring → Ring) : (s.modRing r f).pending = s.pending := rfl

/-! `modLed` -/

@[simp] theorem State.modLed_cores (s : State) (r : BitVec 6) (k : BitVec 10) (f : Ledger → Ledger) : (s.modLed r k f).cores = s.cores := rfl
@[simp] theorem State.modLed_teams (s : State) (r : BitVec 6) (k : BitVec 10) (f : Ledger → Ledger) : (s.modLed r k f).teams = s.teams := rfl
@[simp] theorem State.modLed_dies (s : State) (r : BitVec 6) (k : BitVec 10) (f : Ledger → Ledger) : (s.modLed r k f).dies = s.dies := rfl
@[simp] theorem State.modLed_writes (s : State) (r : BitVec 6) (k : BitVec 10) (f : Ledger → Ledger) : (s.modLed r k f).writes = s.writes := rfl
@[simp] theorem State.modLed_acks (s : State) (r : BitVec 6) (k : BitVec 10) (f : Ledger → Ledger) : (s.modLed r k f).acks = s.acks := rfl
@[simp] theorem State.modLed_reads (s : State) (r : BitVec 6) (k : BitVec 10) (f : Ledger → Ledger) : (s.modLed r k f).reads = s.reads := rfl
@[simp] theorem State.modLed_msgs (s : State) (r : BitVec 6) (k : BitVec 10) (f : Ledger → Ledger) : (s.modLed r k f).msgs = s.msgs := rfl
@[simp] theorem State.modLed_contribs (s : State) (r : BitVec 6) (k : BitVec 10) (f : Ledger → Ledger) : (s.modLed r k f).contribs = s.contribs := rfl
@[simp] theorem State.modLed_relays (s : State) (r : BitVec 6) (k : BitVec 10) (f : Ledger → Ledger) : (s.modLed r k f).relays = s.relays := rfl
@[simp] theorem State.modLed_fab (s : State) (r : BitVec 6) (k : BitVec 10) (f : Ledger → Ledger) : (s.modLed r k f).fab = s.fab := rfl
@[simp] theorem State.modLed_far (s : State) (r : BitVec 6) (k : BitVec 10) (f : Ledger → Ledger) : (s.modLed r k f).far = s.far := rfl
@[simp] theorem State.modLed_dict (s : State) (r : BitVec 6) (k : BitVec 10) (f : Ledger → Ledger) : (s.modLed r k f).dict = s.dict := rfl
@[simp] theorem State.modLed_boot (s : State) (r : BitVec 6) (k : BitVec 10) (f : Ledger → Ledger) : (s.modLed r k f).boot = s.boot := rfl
@[simp] theorem State.modLed_mod (s : State) (r : BitVec 6) (k : BitVec 10) (f : Ledger → Ledger) : (s.modLed r k f).mod = s.mod := rfl
@[simp] theorem State.modLed_outbox (s : State) (r : BitVec 6) (k : BitVec 10) (f : Ledger → Ledger) : (s.modLed r k f).outbox = s.outbox := rfl
@[simp] theorem State.modLed_time (s : State) (r : BitVec 6) (k : BitVec 10) (f : Ledger → Ledger) : (s.modLed r k f).time = s.time := rfl
@[simp] theorem State.modLed_nextSeq (s : State) (r : BitVec 6) (k : BitVec 10) (f : Ledger → Ledger) : (s.modLed r k f).nextSeq = s.nextSeq := rfl
@[simp] theorem State.modLed_free (s : State) (r : BitVec 6) (k : BitVec 10) (f : Ledger → Ledger) : (s.modLed r k f).free = s.free := rfl
@[simp] theorem State.modLed_pending (s : State) (r : BitVec 6) (k : BitVec 10) (f : Ledger → Ledger) : (s.modLed r k f).pending = s.pending := rfl

/-! `emit` -/

@[simp] theorem State.emit_cores (s : State) (o : Out) : (s.emit o).cores = s.cores := rfl
@[simp] theorem State.emit_teams (s : State) (o : Out) : (s.emit o).teams = s.teams := rfl
@[simp] theorem State.emit_dies (s : State) (o : Out) : (s.emit o).dies = s.dies := rfl
@[simp] theorem State.emit_writes (s : State) (o : Out) : (s.emit o).writes = s.writes := rfl
@[simp] theorem State.emit_acks (s : State) (o : Out) : (s.emit o).acks = s.acks := rfl
@[simp] theorem State.emit_reads (s : State) (o : Out) : (s.emit o).reads = s.reads := rfl
@[simp] theorem State.emit_msgs (s : State) (o : Out) : (s.emit o).msgs = s.msgs := rfl
@[simp] theorem State.emit_contribs (s : State) (o : Out) : (s.emit o).contribs = s.contribs := rfl
@[simp] theorem State.emit_relays (s : State) (o : Out) : (s.emit o).relays = s.relays := rfl
@[simp] theorem State.emit_fab (s : State) (o : Out) : (s.emit o).fab = s.fab := rfl
@[simp] theorem State.emit_far (s : State) (o : Out) : (s.emit o).far = s.far := rfl
@[simp] theorem State.emit_rings (s : State) (o : Out) : (s.emit o).rings = s.rings := rfl
@[simp] theorem State.emit_dict (s : State) (o : Out) : (s.emit o).dict = s.dict := rfl
@[simp] theorem State.emit_boot (s : State) (o : Out) : (s.emit o).boot = s.boot := rfl
@[simp] theorem State.emit_mod (s : State) (o : Out) : (s.emit o).mod = s.mod := rfl
@[simp] theorem State.emit_time (s : State) (o : Out) : (s.emit o).time = s.time := rfl
@[simp] theorem State.emit_nextSeq (s : State) (o : Out) : (s.emit o).nextSeq = s.nextSeq := rfl
@[simp] theorem State.emit_free (s : State) (o : Out) : (s.emit o).free = s.free := rfl
@[simp] theorem State.emit_pending (s : State) (o : Out) : (s.emit o).pending = s.pending := rfl

/-! `feedAgg` -/

@[simp] theorem State.feedAgg_cores (s : State) (e : Nat) (d : Option DieIx) (n : Nat) : (s.feedAgg e d n).cores = s.cores := rfl
@[simp] theorem State.feedAgg_teams (s : State) (e : Nat) (d : Option DieIx) (n : Nat) : (s.feedAgg e d n).teams = s.teams := rfl
@[simp] theorem State.feedAgg_dies (s : State) (e : Nat) (d : Option DieIx) (n : Nat) : (s.feedAgg e d n).dies = s.dies := rfl
@[simp] theorem State.feedAgg_writes (s : State) (e : Nat) (d : Option DieIx) (n : Nat) : (s.feedAgg e d n).writes = s.writes := rfl
@[simp] theorem State.feedAgg_acks (s : State) (e : Nat) (d : Option DieIx) (n : Nat) : (s.feedAgg e d n).acks = s.acks := rfl
@[simp] theorem State.feedAgg_reads (s : State) (e : Nat) (d : Option DieIx) (n : Nat) : (s.feedAgg e d n).reads = s.reads := rfl
@[simp] theorem State.feedAgg_msgs (s : State) (e : Nat) (d : Option DieIx) (n : Nat) : (s.feedAgg e d n).msgs = s.msgs := rfl
@[simp] theorem State.feedAgg_contribs (s : State) (e : Nat) (d : Option DieIx) (n : Nat) : (s.feedAgg e d n).contribs = s.contribs := rfl
@[simp] theorem State.feedAgg_relays (s : State) (e : Nat) (d : Option DieIx) (n : Nat) : (s.feedAgg e d n).relays = s.relays := rfl
@[simp] theorem State.feedAgg_fab (s : State) (e : Nat) (d : Option DieIx) (n : Nat) : (s.feedAgg e d n).fab = s.fab := rfl
@[simp] theorem State.feedAgg_far (s : State) (e : Nat) (d : Option DieIx) (n : Nat) : (s.feedAgg e d n).far = s.far := rfl
@[simp] theorem State.feedAgg_rings (s : State) (e : Nat) (d : Option DieIx) (n : Nat) : (s.feedAgg e d n).rings = s.rings := rfl
@[simp] theorem State.feedAgg_dict (s : State) (e : Nat) (d : Option DieIx) (n : Nat) : (s.feedAgg e d n).dict = s.dict := rfl
@[simp] theorem State.feedAgg_boot (s : State) (e : Nat) (d : Option DieIx) (n : Nat) : (s.feedAgg e d n).boot = s.boot := rfl
@[simp] theorem State.feedAgg_outbox (s : State) (e : Nat) (d : Option DieIx) (n : Nat) : (s.feedAgg e d n).outbox = s.outbox := rfl
@[simp] theorem State.feedAgg_time (s : State) (e : Nat) (d : Option DieIx) (n : Nat) : (s.feedAgg e d n).time = s.time := rfl
@[simp] theorem State.feedAgg_nextSeq (s : State) (e : Nat) (d : Option DieIx) (n : Nat) : (s.feedAgg e d n).nextSeq = s.nextSeq := rfl
@[simp] theorem State.feedAgg_free (s : State) (e : Nat) (d : Option DieIx) (n : Nat) : (s.feedAgg e d n).free = s.free := rfl
@[simp] theorem State.feedAgg_pending (s : State) (e : Nat) (d : Option DieIx) (n : Nat) : (s.feedAgg e d n).pending = s.pending := rfl

/-! `countMod` -/

@[simp] theorem State.countMod_cores (s : State) (e n : Nat) : (s.countMod e n).cores = s.cores := rfl
@[simp] theorem State.countMod_teams (s : State) (e n : Nat) : (s.countMod e n).teams = s.teams := rfl
@[simp] theorem State.countMod_dies (s : State) (e n : Nat) : (s.countMod e n).dies = s.dies := rfl
@[simp] theorem State.countMod_writes (s : State) (e n : Nat) : (s.countMod e n).writes = s.writes := rfl
@[simp] theorem State.countMod_acks (s : State) (e n : Nat) : (s.countMod e n).acks = s.acks := rfl
@[simp] theorem State.countMod_reads (s : State) (e n : Nat) : (s.countMod e n).reads = s.reads := rfl
@[simp] theorem State.countMod_msgs (s : State) (e n : Nat) : (s.countMod e n).msgs = s.msgs := rfl
@[simp] theorem State.countMod_contribs (s : State) (e n : Nat) : (s.countMod e n).contribs = s.contribs := rfl
@[simp] theorem State.countMod_relays (s : State) (e n : Nat) : (s.countMod e n).relays = s.relays := rfl
@[simp] theorem State.countMod_fab (s : State) (e n : Nat) : (s.countMod e n).fab = s.fab := rfl
@[simp] theorem State.countMod_far (s : State) (e n : Nat) : (s.countMod e n).far = s.far := rfl
@[simp] theorem State.countMod_rings (s : State) (e n : Nat) : (s.countMod e n).rings = s.rings := rfl
@[simp] theorem State.countMod_dict (s : State) (e n : Nat) : (s.countMod e n).dict = s.dict := rfl
@[simp] theorem State.countMod_boot (s : State) (e n : Nat) : (s.countMod e n).boot = s.boot := rfl
@[simp] theorem State.countMod_outbox (s : State) (e n : Nat) : (s.countMod e n).outbox = s.outbox := rfl
@[simp] theorem State.countMod_time (s : State) (e n : Nat) : (s.countMod e n).time = s.time := rfl
@[simp] theorem State.countMod_nextSeq (s : State) (e n : Nat) : (s.countMod e n).nextSeq = s.nextSeq := rfl
@[simp] theorem State.countMod_free (s : State) (e n : Nat) : (s.countMod e n).free = s.free := rfl
@[simp] theorem State.countMod_pending (s : State) (e n : Nat) : (s.countMod e n).pending = s.pending := rfl

/-! `countThread` -/

@[simp] theorem State.countThread_teams (s : State) (w : Who) (e n : Nat) : (s.countThread w e n).teams = s.teams := by unfold State.countThread; dsimp only; split <;> rfl
@[simp] theorem State.countThread_dies (s : State) (w : Who) (e n : Nat) : (s.countThread w e n).dies = s.dies := by unfold State.countThread; dsimp only; split <;> rfl
@[simp] theorem State.countThread_writes (s : State) (w : Who) (e n : Nat) : (s.countThread w e n).writes = s.writes := by unfold State.countThread; dsimp only; split <;> rfl
@[simp] theorem State.countThread_acks (s : State) (w : Who) (e n : Nat) : (s.countThread w e n).acks = s.acks := by unfold State.countThread; dsimp only; split <;> rfl
@[simp] theorem State.countThread_reads (s : State) (w : Who) (e n : Nat) : (s.countThread w e n).reads = s.reads := by unfold State.countThread; dsimp only; split <;> rfl
@[simp] theorem State.countThread_msgs (s : State) (w : Who) (e n : Nat) : (s.countThread w e n).msgs = s.msgs := by unfold State.countThread; dsimp only; split <;> rfl
@[simp] theorem State.countThread_contribs (s : State) (w : Who) (e n : Nat) : (s.countThread w e n).contribs = s.contribs := by unfold State.countThread; dsimp only; split <;> rfl
@[simp] theorem State.countThread_relays (s : State) (w : Who) (e n : Nat) : (s.countThread w e n).relays = s.relays := by unfold State.countThread; dsimp only; split <;> rfl
@[simp] theorem State.countThread_fab (s : State) (w : Who) (e n : Nat) : (s.countThread w e n).fab = s.fab := by unfold State.countThread; dsimp only; split <;> rfl
@[simp] theorem State.countThread_far (s : State) (w : Who) (e n : Nat) : (s.countThread w e n).far = s.far := by unfold State.countThread; dsimp only; split <;> rfl
@[simp] theorem State.countThread_rings (s : State) (w : Who) (e n : Nat) : (s.countThread w e n).rings = s.rings := by unfold State.countThread; dsimp only; split <;> rfl
@[simp] theorem State.countThread_dict (s : State) (w : Who) (e n : Nat) : (s.countThread w e n).dict = s.dict := by unfold State.countThread; dsimp only; split <;> rfl
@[simp] theorem State.countThread_boot (s : State) (w : Who) (e n : Nat) : (s.countThread w e n).boot = s.boot := by unfold State.countThread; dsimp only; split <;> rfl
@[simp] theorem State.countThread_outbox (s : State) (w : Who) (e n : Nat) : (s.countThread w e n).outbox = s.outbox := by unfold State.countThread; dsimp only; split <;> rfl
@[simp] theorem State.countThread_time (s : State) (w : Who) (e n : Nat) : (s.countThread w e n).time = s.time := by unfold State.countThread; dsimp only; split <;> rfl
@[simp] theorem State.countThread_nextSeq (s : State) (w : Who) (e n : Nat) : (s.countThread w e n).nextSeq = s.nextSeq := by unfold State.countThread; dsimp only; split <;> rfl
@[simp] theorem State.countThread_free (s : State) (w : Who) (e n : Nat) : (s.countThread w e n).free = s.free := by unfold State.countThread; dsimp only; split <;> rfl
@[simp] theorem State.countThread_pending (s : State) (w : Who) (e n : Nat) : (s.countThread w e n).pending = s.pending := by unfold State.countThread; dsimp only; split <;> rfl

/-! `countCore` -/

@[simp] theorem State.countCore_teams (s : State) (c : CoreIx) (e n : Nat) : (s.countCore c e n).teams = s.teams := by unfold State.countCore; dsimp only; split <;> rfl
@[simp] theorem State.countCore_dies (s : State) (c : CoreIx) (e n : Nat) : (s.countCore c e n).dies = s.dies := by unfold State.countCore; dsimp only; split <;> rfl
@[simp] theorem State.countCore_writes (s : State) (c : CoreIx) (e n : Nat) : (s.countCore c e n).writes = s.writes := by unfold State.countCore; dsimp only; split <;> rfl
@[simp] theorem State.countCore_acks (s : State) (c : CoreIx) (e n : Nat) : (s.countCore c e n).acks = s.acks := by unfold State.countCore; dsimp only; split <;> rfl
@[simp] theorem State.countCore_reads (s : State) (c : CoreIx) (e n : Nat) : (s.countCore c e n).reads = s.reads := by unfold State.countCore; dsimp only; split <;> rfl
@[simp] theorem State.countCore_msgs (s : State) (c : CoreIx) (e n : Nat) : (s.countCore c e n).msgs = s.msgs := by unfold State.countCore; dsimp only; split <;> rfl
@[simp] theorem State.countCore_contribs (s : State) (c : CoreIx) (e n : Nat) : (s.countCore c e n).contribs = s.contribs := by unfold State.countCore; dsimp only; split <;> rfl
@[simp] theorem State.countCore_relays (s : State) (c : CoreIx) (e n : Nat) : (s.countCore c e n).relays = s.relays := by unfold State.countCore; dsimp only; split <;> rfl
@[simp] theorem State.countCore_fab (s : State) (c : CoreIx) (e n : Nat) : (s.countCore c e n).fab = s.fab := by unfold State.countCore; dsimp only; split <;> rfl
@[simp] theorem State.countCore_far (s : State) (c : CoreIx) (e n : Nat) : (s.countCore c e n).far = s.far := by unfold State.countCore; dsimp only; split <;> rfl
@[simp] theorem State.countCore_rings (s : State) (c : CoreIx) (e n : Nat) : (s.countCore c e n).rings = s.rings := by unfold State.countCore; dsimp only; split <;> rfl
@[simp] theorem State.countCore_dict (s : State) (c : CoreIx) (e n : Nat) : (s.countCore c e n).dict = s.dict := by unfold State.countCore; dsimp only; split <;> rfl
@[simp] theorem State.countCore_boot (s : State) (c : CoreIx) (e n : Nat) : (s.countCore c e n).boot = s.boot := by unfold State.countCore; dsimp only; split <;> rfl
@[simp] theorem State.countCore_outbox (s : State) (c : CoreIx) (e n : Nat) : (s.countCore c e n).outbox = s.outbox := by unfold State.countCore; dsimp only; split <;> rfl
@[simp] theorem State.countCore_time (s : State) (c : CoreIx) (e n : Nat) : (s.countCore c e n).time = s.time := by unfold State.countCore; dsimp only; split <;> rfl
@[simp] theorem State.countCore_nextSeq (s : State) (c : CoreIx) (e n : Nat) : (s.countCore c e n).nextSeq = s.nextSeq := by unfold State.countCore; dsimp only; split <;> rfl
@[simp] theorem State.countCore_free (s : State) (c : CoreIx) (e n : Nat) : (s.countCore c e n).free = s.free := by unfold State.countCore; dsimp only; split <;> rfl
@[simp] theorem State.countCore_pending (s : State) (c : CoreIx) (e n : Nat) : (s.countCore c e n).pending = s.pending := by unfold State.countCore; dsimp only; split <;> rfl

/-! ### Cores and threads -/

theorem toNat_ne {n : Nat} {a b : BitVec n} (h : a ≠ b) : a.toNat ≠ b.toNat := fun e => h (BitVec.eq_of_toNat_eq e)

@[simp] theorem State.core_setCore (s : State) (c : CoreIx) (x : Core) : (s.setCore c x).core c = x := by
  simp [State.core, State.setCore]

theorem State.core_setCore_other (s : State) {c e : CoreIx} (x : Core) (h : e ≠ c) : (s.setCore c x).core e = s.core e := by
  simp [State.core, State.setCore, Sparse.get_put_other _ _ _ (toNat_ne h)]

@[simp] theorem State.core_modCore (s : State) (c : CoreIx) (f : Core → Core) : (s.modCore c f).core c = f (s.core c) := by
  simp [State.modCore]

theorem State.core_modCore_other (s : State) {c e : CoreIx} (f : Core → Core) (h : e ≠ c) : (s.modCore c f).core e = s.core e :=
  State.core_setCore_other s _ h

@[simp] theorem State.setCore_setCore (s : State) (c : CoreIx) (x y : Core) : (s.setCore c x).setCore c y = s.setCore c y := by
  simp [State.setCore]

@[simp] theorem Core.thread_setThread (x : Core) (t : ThrIx) (h : Thread) : (x.setThread t h).thread t = h := by
  simp [Core.thread, Core.setThread]

theorem Core.thread_setThread_other (x : Core) {t u : ThrIx} (h : Thread) (hn : u ≠ t) : (x.setThread t h).thread u = x.thread u := by
  simp [Core.thread, Core.setThread, Sparse.get_put_other _ _ _ (toNat_ne hn)]

@[simp] theorem Core.setThread_setThread (x : Core) (t : ThrIx) (h g : Thread) : (x.setThread t h).setThread t g = x.setThread t g := by
  simp [Core.setThread]

@[simp] theorem State.thread_modThread (s : State) (w : Who) (f : Thread → Thread) : (s.modThread w f).thread w = f (s.thread w) := by
  simp [State.modThread, State.setThread, State.thread]

theorem State.thread_modThread_other (s : State) {w v : Who} (f : Thread → Thread) (h : v ≠ w) :
    (s.modThread w f).thread v = s.thread v := by
  by_cases hc : v.core = w.core
  · have ht : v.thr ≠ w.thr := fun e => h (by cases v; cases w; simp_all)
    simp only [State.modThread, State.setThread, State.thread, hc, State.core_modCore]
    exact Core.thread_setThread_other _ _ ht
  · simp [State.modThread, State.setThread, State.thread, State.core_modCore_other _ _ hc]

/-- A change of a thread's own fields leaves its core's other words alone. -/
theorem State.core_modThread (s : State) (w : Who) (f : Thread → Thread) :
    (s.modThread w f).core w.core = (s.core w.core).setThread w.thr (f (s.thread w)) := by
  simp [State.modThread, State.setThread]

theorem State.core_modThread_other (s : State) (w : Who) (f : Thread → Thread) {c : CoreIx} (h : c ≠ w.core) :
    (s.modThread w f).core c = s.core c := State.core_modCore_other s _ h

@[simp] theorem State.modThread_modThread (s : State) (w : Who) (f g : Thread → Thread) :
    (s.modThread w f).modThread w g = s.modThread w (fun h => g (f h)) := by
  simp [State.modThread, State.setThread, State.modCore, State.thread]

/-! ### Teams, dies, rings, queues -/

@[simp] theorem State.team_modTeam (s : State) (t : BitVec 8) (f : Team → Team) : (s.modTeam t f).team t = f (s.team t) := by
  simp [State.team, State.modTeam]

theorem State.team_modTeam_other (s : State) {t u : BitVec 8} (f : Team → Team) (h : u ≠ t) : (s.modTeam t f).team u = s.team u := by
  simp [State.team, State.modTeam, Sparse.get_upd_other _ _ _ (toNat_ne h)]

@[simp] theorem State.die_modDie (s : State) (d : DieIx) (f : Die → Die) : (s.modDie d f).die d = f (s.die d) := by
  simp [State.die, State.modDie]

theorem State.die_modDie_other (s : State) {d e : DieIx} (f : Die → Die) (h : e ≠ d) : (s.modDie d f).die e = s.die e := by
  simp [State.die, State.modDie, Sparse.get_upd_other _ _ _ (toNat_ne h)]

@[simp] theorem State.ring_modRing (s : State) (r : BitVec 6) (f : Ring → Ring) : (s.modRing r f).ring r = f (s.ring r) := by
  simp [State.ring, State.modRing]

theorem State.ring_modRing_other (s : State) {r q : BitVec 6} (f : Ring → Ring) (h : q ≠ r) : (s.modRing r f).ring q = s.ring q := by
  simp [State.ring, State.modRing, Sparse.get_upd_other _ _ _ (toNat_ne h)]

@[simp] theorem State.queue_modQueue (s : State) (c : CoreIx) (q : BitVec 4) (f : Queue → Queue) :
    (s.modQueue c q f).queue c q = f (s.queue c q) := by
  simp [State.queue, State.modQueue]

/-! ### Registers -/

@[simp] theorem Thread.reg_zero (h : Thread) : h.reg 0 = 0 := rfl

theorem Thread.reg_setReg (h : Thread) (r q : BitVec 5) (v : Word) :
    (h.setReg r v).reg q = if q = r ∧ r ≠ 0 then v else h.reg q := by
  unfold Thread.setReg
  split
  · next hr => rw [if_neg (fun e => e.2 hr)]
  · next hr =>
    unfold Thread.reg
    by_cases hq : q = 0
    · rw [if_pos hq, if_neg (fun e : q = r ∧ r ≠ 0 => hr (e.1.symm.trans hq)), if_pos hq]
    · rw [if_neg hq, if_neg hq]
      by_cases hqr : q = r
      · rw [if_pos ⟨hqr, hr⟩, hqr]; exact Sparse.get_put_same _ _ _ _
      · rw [if_neg (fun e => hqr e.1)]; exact Sparse.get_put_other _ _ _ (toNat_ne hqr)

theorem Thread.pred_setPred (h : Thread) (r q : BitVec 3) (v : Word) :
    (h.setPred r v).pred q = if q = r ∧ r ≠ 0 then v else h.pred q := by
  unfold Thread.setPred
  split
  · next hr => rw [if_neg (fun e => e.2 hr)]
  · next hr =>
    unfold Thread.pred
    by_cases hq : q = 0
    · rw [if_pos hq, if_neg (fun e : q = r ∧ r ≠ 0 => hr (e.1.symm.trans hq)), if_pos hq]
    · rw [if_neg hq, if_neg hq]
      by_cases hqr : q = r
      · rw [if_pos ⟨hqr, hr⟩, hqr]; exact Sparse.get_put_same _ _ _ _
      · rw [if_neg (fun e => hqr e.1)]; exact Sparse.get_put_other _ _ _ (toNat_ne hqr)

theorem Thread.vec_setVec (h : Thread) (r q : BitVec 5) (v : Vec) :
    (h.setVec r v).vec q = if q = r then v else h.vec q := by
  by_cases hqr : q = r
  · subst hqr; simp [Thread.setVec, Thread.vec]
  · simp [Thread.setVec, Thread.vec, hqr, Sparse.get_put_other _ _ _ (toNat_ne hqr)]

/-- Writing a register changes no field but the register file. -/
theorem Thread.setReg_eq (h : Thread) (r : BitVec 5) (v : Word) : h.setReg r v = { h with g := (h.setReg r v).g } := by
  unfold Thread.setReg; split <;> rfl

theorem Thread.setPred_eq (h : Thread) (r : BitVec 3) (v : Word) : h.setPred r v = { h with p := (h.setPred r v).p } := by
  unfold Thread.setPred; split <;> rfl

end Sys2Proof.Machine
end

