-- ==== Sys2Proof/Laws/Issue.lean ====
section
/-! SUPPORT. What issuing an instruction comes to for a thread that is ready: its body runs, and its result is settled. -/

namespace Sys2Proof.Machine

/-- A fetch that hits the instruction cache changes nothing. -/
theorem State.fetchCheck_of_hits {s : State} {w : Who} {long : Bool} (h : s.fetchHits w long = true) : s.fetchCheck w long .clean = .ok s := by
  simp only [State.fetchHits, Bool.and_eq_true, decide_eq_true_eq, Option.isNone_iff_eq_none] at h
  obtain ⟨⟨h1, h2, h3⟩, h4⟩ := h
  unfold State.fetchCheck
  simp only [h1, h2, h3]
  split at h4
  next hp =>
    have h5 : s.lineTag (s.thread w).pc ∈ (s.core w.core).icache := by simpa using h4
    simp [hp, h5]
  next => cases h4

/-- Everything `State.steady` says, one conjunct at a time. -/
theorem State.steady_cases {s : State} {i : Iss} {long : Bool} (h : s.steady i long = true) :
    (s.thread i.who).state = .run ∧ (s.thread i.who).hold = .none ∧ (s.thread i.who).memHold = .none ∧ (s.thread i.who).loads = [] ∧
      (s.thread i.who).haltReq = Option.none ∧ (s.thread i.who).stepping = false ∧ (s.core i.who.core).retry = Option.none ∧
      i.rsv = Option.none ∧ i.found = .clean ∧ badEncoding i long (s.thread i.who).pc = false := by
  simp only [State.steady, Bool.and_eq_true, decide_eq_true_eq, Bool.not_eq_true'] at h
  obtain ⟨⟨⟨⟨h1, h2, h3, h4, h5, h6⟩, h7⟩, h8, h9⟩, h10⟩ := h
  exact ⟨h1, h2, h3, h4, h5, h6, h7, h8, h9, by simp [badEncoding, h8, h10]⟩

/-- Everything `State.ready` says, one conjunct at a time. -/
theorem State.ready_cases {s : State} {i : Iss} {long : Bool} (h : s.ready i long = true) :
    (s.thread i.who).state = .run ∧ (s.thread i.who).hold = .none ∧ (s.thread i.who).memHold = .none ∧ (s.thread i.who).loads = [] ∧
      (s.thread i.who).haltReq = Option.none ∧ (s.thread i.who).stepping = false ∧ (s.core i.who.core).retry = Option.none ∧
      i.rsv = Option.none ∧ i.found = .clean ∧ badEncoding i long (s.thread i.who).pc = false ∧ s.fetchCheck i.who long .clean = .ok s := by
  simp only [State.ready, Bool.and_eq_true] at h
  obtain ⟨h1, h2, h3, h4, h5, h6, h7, h8, h9, h10⟩ := State.steady_cases h.1
  exact ⟨h1, h2, h3, h4, h5, h6, h7, h8, h9, h10, State.fetchCheck_of_hits h.2⟩

theorem State.settleHold_of_none {s : State} {w : Who} (h : (s.thread w).memHold = .none) : s.settleHold w = s := by
  simp [State.settleHold, h]

theorem State.haltIfAsked_of_none {s : State} {w : Who} (h : (s.thread w).haltReq = Option.none) : s.haltIfAsked w = s := by
  simp [State.haltIfAsked, h]

/-- A thread that is neither stepped nor asked to halt goes on. -/
theorem State.stepEnd_of_none {s : State} {w : Who} (h : (s.thread w).haltReq = Option.none) (h' : (s.thread w).stepping = false) :
    s.stepEnd w = s := by
  simp [State.stepEnd, h', State.haltIfAsked_of_none h]

/-- An instruction of a steady thread whose fetch goes through runs its body after it. -/
theorem issue_of_fetch {s t : State} {i : Iss} {opc : Nat} {long : Bool} {c : Cls} {body : State → Res} (h : s.steady i long = true)
    (hf : s.fetchCheck i.who long .clean = .ok t) (ht : (t.thread i.who).pc = (s.thread i.who).pc) :
    issue i opc long c body s = .next (t.settle i.who long (body t)) := by
  obtain ⟨h1, h2, h3, h4, h5, _, h7, h8, h9, h10⟩ := State.steady_cases h
  have e : (s.settleHold i.who).haltIfAsked i.who = s := by
    rw [State.settleHold_of_none h3, State.haltIfAsked_of_none h5]
  have hc : s.canIssue i.who c = true := by simp [State.canIssue, h1, h2, h3, h4, h5, h7, loadsAllow]
  have hl : issLong i long = long := by simp [issLong, h8]
  simp only [issue, e, hc, hl, h9, hf, ht, h10]
  simp

/-- An instruction of a ready thread runs its body. -/
theorem issue_of_ready {s : State} {i : Iss} {opc : Nat} {long : Bool} {c : Cls} {body : State → Res} (h : s.ready i long = true) :
    issue i opc long c body s = .next (s.settle i.who long (body s)) := by
  have hr := h
  simp only [State.ready, Bool.and_eq_true] at h
  exact issue_of_fetch h.1 (State.fetchCheck_of_hits h.2) rfl

/-! ### Counting an event -/

theorem State.thread_feedAgg (s : State) (e : Nat) (d : Option DieIx) (n : Nat) (w : Who) : (s.feedAgg e d n).thread w = s.thread w := rfl

theorem State.core_feedAgg (s : State) (e : Nat) (d : Option DieIx) (n : Nat) (c : CoreIx) : (s.feedAgg e d n).core c = s.core c := rfl

/-- A counted event changes the counters of its thread and nothing else of it. -/
theorem State.thread_countThread (s : State) (w : Who) (e n : Nat) :
    (s.countThread w e n).thread w = { s.thread w with pmc := ((s.countThread w e n).thread w).pmc } := by
  unfold State.countThread
  dsimp only
  split
  · rfl
  · split <;> simp [State.thread, Core.thread, Core.setThread, State.core_feedAgg]

theorem State.thread_countThread_other (s : State) {w v : Who} (e n : Nat) (h : v ≠ w) : (s.countThread w e n).thread v = s.thread v := by
  unfold State.countThread
  dsimp only
  split
  · rfl
  · by_cases hc : v.core = w.core
    · have ht : v.thr ≠ w.thr := fun e => h (by cases v; cases w; simp_all)
      split <;> simp [State.thread, hc, Core.thread, Core.setThread, State.core_feedAgg, Sparse.get_put_other _ _ _ (toNat_ne ht)]
    · simp [State.thread, State.core_setCore_other _ _ hc, State.core_feedAgg]

theorem State.core_countThread_other (s : State) (w : Who) (e n : Nat) {c : CoreIx} (h : c ≠ w.core) :
    (s.countThread w e n).core c = s.core c := by
  unfold State.countThread
  dsimp only
  split
  · rfl
  · simp [State.core_setCore_other _ _ h, State.core_feedAgg]

/-- A counted event leaves its core alone but for the threads' counters and PMC_STAT.SAT. -/
theorem State.core_countThread (s : State) (w : Who) (e n : Nat) :
    (s.countThread w e n).core w.core =
      { s.core w.core with threads := ((s.countThread w e n).core w.core).threads, pmcSat := ((s.countThread w e n).core w.core).pmcSat } := by
  unfold State.countThread
  dsimp only
  split
  · rfl
  · split <;> simp [Core.setThread, State.core_feedAgg]

theorem State.thread_countCore (s : State) (c : CoreIx) (e n : Nat) (w : Who) : (s.countCore c e n).thread w = s.thread w := by
  unfold State.countCore
  dsimp only
  split
  · rfl
  · by_cases hc : w.core = c
    · subst hc
      split <;> simp [State.thread, Core.thread, State.core_feedAgg]
    · simp [State.thread, State.core_setCore_other _ _ hc, State.core_feedAgg]

theorem State.core_countCore_other (s : State) (d : CoreIx) (e n : Nat) {c : CoreIx} (h : c ≠ d) : (s.countCore d e n).core c = s.core c := by
  unfold State.countCore
  dsimp only
  split
  · rfl
  · simp [State.core_setCore_other _ _ h, State.core_feedAgg]

/-- An event counted in a core leaves it alone but for its counters and PMC_STAT.SAT. -/
theorem State.core_countCore (s : State) (c : CoreIx) (e n : Nat) :
    (s.countCore c e n).core c = { s.core c with pmc := ((s.countCore c e n).core c).pmc, pmcSat := ((s.countCore c e n).core c).pmcSat } := by
  unfold State.countCore
  dsimp only
  split
  · rfl
  · split <;> simp [State.core_feedAgg]

/-- A retired instruction changes the counters of its thread and nothing else of it. -/
theorem State.thread_countRetired (s : State) (w : Who) :
    (s.countRetired w).thread w = { s.thread w with pmc := ((s.countRetired w).thread w).pmc } := by
  simp only [State.countRetired, State.thread_countCore]
  exact State.thread_countThread s w 0x010 1

theorem State.thread_countRetired_other (s : State) {w v : Who} (h : v ≠ w) : (s.countRetired w).thread v = s.thread v := by
  simp only [State.countRetired, State.thread_countCore]
  exact State.thread_countThread_other s 0x010 1 h

theorem State.core_countRetired_other (s : State) (w : Who) {c : CoreIx} (h : c ≠ w.core) : (s.countRetired w).core c = s.core c := by
  simp only [State.countRetired]
  rw [State.core_countCore_other _ _ _ _ h, State.core_countThread_other _ _ _ _ h]

/-- A retired instruction leaves its core alone but for counters. -/
theorem State.core_countRetired (s : State) (w : Who) :
    (s.countRetired w).core w.core = { s.core w.core with
      threads := ((s.countRetired w).core w.core).threads, pmc := ((s.countRetired w).core w.core).pmc,
      pmcSat := ((s.countRetired w).core w.core).pmcSat } := by
  have h1 := State.core_countThread s w 0x010 1
  have h2 := State.core_countCore (s.countThread w 0x010 1) w.core 0x101 1
  simp only [State.countRetired]
  rw [h2, h1]

/-! ### Completion -/

/-- A completed instruction of a ready thread, if its effect on the thread asks for no halt. -/
theorem settle_done {s : State} {w : Who} {long : Bool} {f : Thread → Thread} (hr : (s.thread w).haltReq = Option.none)
    (hs : (s.thread w).stepping = false) (h1 : (f (s.thread w)).haltReq = (s.thread w).haltReq)
    (h2 : (f (s.thread w)).stepping = (s.thread w).stepping) :
    s.settle w long (.done (s.modThread w f)) = s.retired w (if long then 8 else 4) f := by
  have key := State.thread_countRetired (s.modThread w (fun h => (f h).advance (if long then 8 else 4))) w
  simp only [State.thread_modThread] at key
  simp only [State.settle, State.modThread_modThread, State.retired]
  apply State.stepEnd_of_none
  · rw [key]; simp [Thread.advance, h1, hr]
  · rw [key]; simp [Thread.advance, h2, hs]

/-- The same for a jump. -/
theorem settle_jump {s : State} {w : Who} {long : Bool} {pc : Word} {f : Thread → Thread} (hr : (s.thread w).haltReq = Option.none)
    (hs : (s.thread w).stepping = false) (h1 : (f (s.thread w)).haltReq = (s.thread w).haltReq)
    (h2 : (f (s.thread w)).stepping = (s.thread w).stepping) :
    s.settle w long (.jump (s.modThread w f) pc) = s.went w pc f := by
  have key := State.thread_countRetired (s.modThread w (fun h => { f h with pc := pc, given := Option.none })) w
  simp only [State.thread_modThread] at key
  simp only [State.settle, State.modThread_modThread, State.went]
  apply State.stepEnd_of_none
  · rw [key]; simp [h1, hr]
  · rw [key]; simp [h2, hs]

/-- Only what the change does to the thread it meets matters. -/
theorem State.retired_congr {s : State} {w : Who} {n : Nat} {f g : Thread → Thread} (h : f (s.thread w) = g (s.thread w)) :
    s.retired w n f = s.retired w n g := by
  simp [State.retired, State.modThread, h]

theorem State.went_congr {s : State} {w : Who} {pc : Word} {f g : Thread → Thread} (h : f (s.thread w) = g (s.thread w)) :
    s.went w pc f = s.went w pc g := by
  simp [State.went, State.modThread, h]

/-- An instruction of a ready thread whose body completes with a change of its thread. -/
theorem issue_done {s : State} {i : Iss} {opc : Nat} {long : Bool} {c : Cls} {body : State → Res} {f : Thread → Thread} (h : s.ready i long = true)
    (hb : body s = .done (s.modThread i.who f))
    (h1 : (f (s.thread i.who)).haltReq = (s.thread i.who).haltReq) (h2 : (f (s.thread i.who)).stepping = (s.thread i.who).stepping) :
    issue i opc long c body s = .next (s.retired i.who (if long then 8 else 4) f) := by
  rw [issue_of_ready h, hb]
  obtain ⟨_, _, _, _, h5, h6, _⟩ := State.ready_cases h
  rw [settle_done h5 h6 h1 h2]

/-- The same for one that continues elsewhere. -/
theorem issue_jump {s : State} {i : Iss} {opc : Nat} {c : Cls} {body : State → Res} {pc} {f : Thread → Thread} (h : s.ready i false = true)
    (hb : body s = .jump (s.modThread i.who f) pc)
    (h1 : (f (s.thread i.who)).haltReq = (s.thread i.who).haltReq) (h2 : (f (s.thread i.who)).stepping = (s.thread i.who).stepping) :
    issue i opc false c body s = .next (s.went i.who pc f) := by
  rw [issue_of_ready h, hb]
  obtain ⟨_, _, _, _, h5, h6, _⟩ := State.ready_cases h
  rw [settle_jump h5 h6 h1 h2]

@[simp] theorem Thread.setReg_haltReq (h : Thread) (r v) : (h.setReg r v).haltReq = h.haltReq := by rw [Thread.setReg_eq]
@[simp] theorem Thread.setReg_stepping (h : Thread) (r v) : (h.setReg r v).stepping = h.stepping := by rw [Thread.setReg_eq]
@[simp] theorem Thread.setPred_haltReq (h : Thread) (r v) : (h.setPred r v).haltReq = h.haltReq := by rw [Thread.setPred_eq]
@[simp] theorem Thread.setPred_stepping (h : Thread) (r v) : (h.setPred r v).stepping = h.stepping := by rw [Thread.setPred_eq]
@[simp] theorem Thread.fxFlag_haltReq (h : Thread) (f) : (h.fxFlag f).haltReq = h.haltReq := by cases f <;> rfl
@[simp] theorem Thread.fxFlag_stepping (h : Thread) (f) : (h.fxFlag f).stepping = h.stepping := by cases f <;> rfl
@[simp] theorem Thread.setGa_haltReq (h : Thread) (o v) : (h.setGa o v).haltReq = h.haltReq := by cases o <;> rfl
@[simp] theorem Thread.setGa_stepping (h : Thread) (o v) : (h.setGa o v).stepping = h.stepping := by cases o <;> rfl

end Sys2Proof.Machine
end

