-- ==== Sys2Proof/Laws/Memory.lean ====
section
/-! SUPPORT. The canonical form of the memories: every memory operation keeps it, and the state right after reset has it. -/

namespace Sys2Proof.Machine

variable {α : Type}

/-! ### A property of every entry of a table -/

theorem Sparse.all_drop {p : α → Bool} {m : Sparse α} (k : Nat) (h : m.all (fun e => p e.2) = true) :
    (Sparse.drop m k).all (fun e => p e.2) = true := by
  induction m with
  | nil => rfl
  | cons e m ih =>
    obtain ⟨k', v⟩ := e
    simp only [List.all_cons, Bool.and_eq_true] at h
    by_cases hk : k' = k
    · simpa [Sparse.drop, hk] using ih h.2
    · simpa [Sparse.drop, hk, h.1] using ih h.2

theorem Sparse.all_ins {p : α → Bool} {m : Sparse α} (k : Nat) {v : α} (hv : p v = true) (h : m.all (fun e => p e.2) = true) :
    (Sparse.ins m k v).all (fun e => p e.2) = true := by
  induction m with
  | nil => simp [Sparse.ins, hv]
  | cons e m ih =>
    obtain ⟨k', w⟩ := e
    simp only [List.all_cons, Bool.and_eq_true] at h
    by_cases hk : k < k'
    · simpa [Sparse.ins, hk, hv, h.1] using h.2
    · simpa [Sparse.ins, hk, h.1] using ih h.2

theorem Sparse.all_put [DecidableEq α] {p : α → Bool} {d : α} {m : Sparse α} (k : Nat) {v : α} (hv : p v = true)
    (h : m.all (fun e => p e.2) = true) : (Sparse.put d m k v).all (fun e => p e.2) = true := by
  unfold Sparse.put
  split
  · exact Sparse.all_drop k h
  · exact Sparse.all_ins k hv (Sparse.all_drop k h)

/-- A property of every entry and of the default holds of what any key reads. -/
theorem Sparse.all_get {p : α → Bool} {d : α} {m : Sparse α} (k : Nat) (hd : p d = true) (h : m.all (fun e => p e.2) = true) :
    p (Sparse.get d m k) = true := by
  induction m with
  | nil => exact hd
  | cons e m ih =>
    obtain ⟨k', v⟩ := e
    simp only [List.all_cons, Bool.and_eq_true] at h
    by_cases hk : k' = k
    · simpa [Sparse.get, hk] using h.1
    · simpa [Sparse.get, hk] using ih h.2

theorem Sparse.all_mapVals [DecidableEq α] {p : α → Bool} {d : α} {m : Sparse α} {f : Nat → α → α}
    (hf : ∀ k x, p x = true → p (f k x) = true) (h : m.all (fun e => p e.2) = true) :
    (Sparse.mapVals d f m).all (fun e => p e.2) = true := by
  induction m with
  | nil => rfl
  | cons e m ih =>
    obtain ⟨k, v⟩ := e
    simp only [List.all_cons, Bool.and_eq_true] at h
    unfold Sparse.mapVals
    split
    · exact ih h.2
    · simp only [List.all_cons, Bool.and_eq_true]
      exact ⟨hf k v h.1, ih h.2⟩

/-! ### The memories of the module -/

/-- The memory of a core is in canonical form. -/
def Core.memoryWf (x : Core) : Bool := Memory.wf x.ls

/-- The memories of a die are in canonical form. -/
def Die.memoryWf (x : Die) : Bool := Memory.wf x.loft && Memory.wf x.hbm && Memory.wf x.ddr

theorem State.memoryWf_iff (s : State) : s.memoryWf = true ↔ Sparse.wf {} s.cores = true ∧ Sparse.wf {} s.dies = true ∧
    s.cores.all (fun e => Core.memoryWf e.2) = true ∧ s.dies.all (fun e => Die.memoryWf e.2) = true := by
  simp only [State.memoryWf, Bool.and_eq_true, and_assoc]
  rfl

/-- Whatever changes neither cores nor dies keeps the form. -/
theorem State.memoryWf_congr {s t : State} (hc : t.cores = s.cores) (hd : t.dies = s.dies) : t.memoryWf = s.memoryWf := by
  simp only [State.memoryWf, hc, hd]

theorem State.memoryWf_modCore {s : State} (c : CoreIx) {f : Core → Core} (hf : ∀ x, Core.memoryWf x = true → Core.memoryWf (f x) = true)
    (h : s.memoryWf = true) : (s.modCore c f).memoryWf = true := by
  rw [State.memoryWf_iff] at h ⊢
  obtain ⟨h1, h2, h3, h4⟩ := h
  exact ⟨Sparse.wf_put _ _ h1, h2, Sparse.all_put _ (hf _ (Sparse.all_get _ (by decide) h3)) h3, h4⟩

theorem State.memoryWf_modThread {s : State} (w : Who) (f : Thread → Thread) (h : s.memoryWf = true) : (s.modThread w f).memoryWf = true :=
  State.memoryWf_modCore w.core (fun _ hx => hx) h

theorem State.memoryWf_modDie {s : State} (d : DieIx) {f : Die → Die} (hf : ∀ x, Die.memoryWf x = true → Die.memoryWf (f x) = true)
    (h : s.memoryWf = true) : (s.modDie d f).memoryWf = true := by
  rw [State.memoryWf_iff] at h ⊢
  obtain ⟨h1, h2, h3, h4⟩ := h
  exact ⟨h1, Sparse.wf_upd _ _ h2, h3, Sparse.all_put _ (hf _ (Sparse.all_get _ (by decide) h4)) h4⟩

/-- Writing bytes keeps the canonical form of the memory they are written to, and of every other one. -/
theorem State.memoryWf_putLoc {s : State} (l : Loc) (bs : List (Option Byte)) (h : s.memoryWf = true) : (s.putLoc l bs).memoryWf = true := by
  cases l with
  | ls c o => exact State.memoryWf_modCore c (fun x hx => wf_writeMem bs o hx) h
  | ctl c o => exact h
  | remote m a => exact h
  | loft d o =>
    refine State.memoryWf_modDie d (fun x hx => ?_) h
    simp only [Die.memoryWf, Bool.and_eq_true] at hx ⊢
    exact ⟨⟨wf_writeMem bs o hx.1.1, hx.1.2⟩, hx.2⟩
  | hbm d o =>
    refine State.memoryWf_modDie d (fun x hx => ?_) h
    simp only [Die.memoryWf, Bool.and_eq_true] at hx ⊢
    exact ⟨⟨hx.1.1, wf_writeMem bs o hx.1.2⟩, hx.2⟩
  | ddr d o =>
    refine State.memoryWf_modDie d (fun x hx => ?_) h
    simp only [Die.memoryWf, Bool.and_eq_true] at hx ⊢
    exact ⟨hx.1, wf_writeMem bs o hx.2⟩

theorem State.memoryWf_setPoisonOf {s : State} (l : Loc) (m : Sparse Bool) (h : s.memoryWf = true) : (s.setPoisonOf l m).memoryWf = true := by
  cases l with
  | ls c o => exact State.memoryWf_modCore c (fun _ hx => hx) h
  | ctl c o => exact h
  | remote m a => exact h
  | loft d o => exact State.memoryWf_modDie d (fun _ hx => hx) h
  | hbm d o => exact State.memoryWf_modDie d (fun _ hx => hx) h
  | ddr d o => exact State.memoryWf_modDie d (fun _ hx => hx) h

theorem State.memoryWf_clearResv {s : State} (p : Loc → Bool) (h : s.memoryWf = true) : (s.clearResv p).memoryWf = true := by
  rw [State.memoryWf_iff] at h ⊢
  obtain ⟨h1, h2, h3, h4⟩ := h
  exact ⟨Sparse.wf_mapVals _ h1, h2, Sparse.all_mapVals (fun _ _ hx => hx) h3, h4⟩

theorem State.memoryWf_closeMerges {s : State} (l : Loc) (bs : List (Option Byte)) (h : s.memoryWf = true) :
    (s.closeMerges l bs).memoryWf = true := by
  cases l with
  | loft d o => exact State.memoryWf_modDie d (fun _ hx => hx) h
  | _ => exact h

/-- A performed write keeps every memory in canonical form. -/
theorem State.memoryWf_perform {s : State} (l : Loc) (bs : List (Option Byte)) (h : s.memoryWf = true) : (s.perform l bs).memoryWf = true :=
  State.memoryWf_closeMerges l bs (State.memoryWf_clearResv _ (State.memoryWf_setPoisonOf l _ (State.memoryWf_putLoc l bs h)))

theorem State.memoryWf_reset : State.reset.memoryWf = true := by decide

end Sys2Proof.Machine
end

