-- ==== Sys2Proof/Tests/Slice0.lean ====
section
/-! SUPPORT. Tests of the model: a command that each check of well-formedness refuses, single steps whose results the rules of the spec
give, and, for each statement, states and operands that meet its hypotheses. -/

namespace Sys2Proof.Tests

open Sys2Proof Sys2Proof.Machine

set_option maxRecDepth 20000
set_option exponentiation.threshold 4096

/-! ### Small states -/

/-- Thread 0 of core 0. -/
def w0 : Who := ⟨0, 0⟩

/-- Its instruction, well encoded, with nothing found by the core's checks. -/
def i0 : Iss := { who := w0, rsv := Option.none, found := .clean }

/-- An address of die 0's HBM in this module, space 1 (R31). -/
def hbm0 : Word := 0xFFF1000000001000

/-- The main domain on, and thread 0 of core 0 at an instruction whose line its instruction cache holds. -/
def run (f : Thread → Thread) : State :=
  let s : State := { State.reset with boot := { State.reset.boot with mainOn := true } }
  let s := s.modThread w0 (fun h => f { h with state := .run, pc := hbm0, tvec := 0xFFF1000000000400, orphan := true })
  s.modCore 0 (fun x => { x with icache := [s.lineTag hbm0] })

/-- The state a command leaves. -/
def next (c : Instr) (s : State) : State :=
  match exec c s with
  | .next t => t
  | _ => s

/-- Whether a command answers a next state that passes a check. -/
def after (c : Instr) (s : State) (p : State → Bool) : Bool :=
  match exec c s with
  | .next t => p t
  | _ => false

def reg0 (t : State) (r : BitVec 5) : Word := (t.thread w0).reg r

/-! ### What is not well formed -/

def pk (kind : BitVec 4) : Packet := Packet.base kind 1 0 1 0

def dimm : Dimm := ⟨true, 6400, true, 1, 1⟩

theorem test_packet_too_long : Instr.wellFormed (.packetDeliver ⟨{ pk 1 with len := 2 }, .none⟩) = false := by decide
theorem test_packet_forward_too_long : Instr.wellFormed (.packetForward 0 { pk 1 with len := 2 }) = false := by decide
theorem test_response_too_long (bs : List Byte) (h : bs.length = 4097) : Instr.wellFormed (.readResponse 0 .none bs) = false := by
  simp [Instr.wellFormed, h]
theorem test_no_lane_17 : ([Instr.laneCalibrate 0 false 17 0 0 0, .recalLimitExpire 0 17, .laneLoss 0 17, .heaterTrack 0 false 17 0, .eyeSample 0 17 0,
    .level2Request 0 17, .deepcalDone [] [(0, 17)]].map Instr.wellFormed).any id = false := by decide
theorem test_no_droop_domain_5 : ([Instr.droopStretch 0 5, .droopRelease 0 5].map Instr.wellFormed).any id = false := by decide
theorem test_window_alignment : ([Instr.windowRead 4, .windowWrite 4 true 0, .windowWrite 2 false 0].map Instr.wellFormed).any id = false := by decide
theorem test_writeset_too_long (bs : List Byte) (h : bs.length = 65537) : Instr.wellFormed (.ownWriteset bs) = false := by simp [Instr.wellFormed, h]
theorem test_frame_too_long (bs : List Byte) (h : bs.length = 1017) : Instr.wellFormed (.fornitiWrite 1 0 0 0 0 0 bs) = false := by simp [Instr.wellFormed, h]
theorem test_segment_too_long (bs : List Byte) (h : bs.length = 1025) : Instr.wellFormed (.blockSeg 1 0 0 0 bs) = false := by simp [Instr.wellFormed, h]
theorem test_sixteen_slots : Instr.wellFormed (.memoryTrained [some dimm]) = false := by decide
theorem test_trip_names_a_die : Instr.wellFormed (.thermTrip 0) = false := by decide

/-! ### Integer, predicate and fixed-point forms -/

/-- IntegerResults, PredicateAndFixedPointResults, RegisterFrame, ControlFlow (short forms); every long form needs the second. -/
theorem witness_ready : (run id).ready i0 false = true ∧ (run id).ready i0 true = true := by decide

theorem witness_shift_limits : (63 : BitVec 16).toNat < 64 ∧ 64 ≤ (64 : BitVec 16).toNat := by decide
theorem witness_predicate_numbers : (1 ≤ (1 : BitVec 5).toNat ∧ (7 : BitVec 5).toNat ≤ 7) ∧ ¬(1 ≤ (0 : BitVec 5).toNat) ∧ ¬((8 : BitVec 5).toNat ≤ 7) := by decide

def two (a b : Word) : State := run (fun h => (h.setReg 2 a).setReg 3 b)

/-- R580: the sum wraps. -/
theorem test_add_wraps : after (.addR i0 1 2 3) (two 0xFFFFFFFFFFFFFFFF 2) (fun t => reg0 t 1 == 1) = true := by decide
/-- R35: a write of g0 is discarded. -/
theorem test_g0_discards : after (.addR i0 0 2 3) (two 1 2) (fun t => reg0 t 0 == 0) = true := by decide
theorem test_sub_source_is_destination : after (.subR i0 2 2 3) (two 1 2) (fun t => reg0 t 2 == 0xFFFFFFFFFFFFFFFF) = true := by decide
theorem test_sra_keeps_sign : after (.sra i0 1 2 3) (two 0x8000000000000000 65) (fun t => reg0 t 1 == 0xC000000000000000) = true := by decide
theorem test_mulh_signed : after (.mulh i0 1 2 3) (two 0xFFFFFFFFFFFFFFFF 2) (fun t => reg0 t 1 == 0xFFFFFFFFFFFFFFFF) = true := by decide
theorem test_mulhu : after (.mulhu i0 1 2 3) (two 0xFFFFFFFFFFFFFFFF 2) (fun t => reg0 t 1 == 1) = true := by decide
theorem test_div_by_zero : after (.divR i0 1 2 3) (two 7 0) (fun t => reg0 t 1 == 0xFFFFFFFFFFFFFFFF) = true := by decide
theorem test_div_truncates : after (.divR i0 1 2 3) (two 0xFFFFFFFFFFFFFFF9 2) (fun t => reg0 t 1 == 0xFFFFFFFFFFFFFFFD) = true := by decide
theorem test_div_overflow : after (.divR i0 1 2 3) (two 0x8000000000000000 0xFFFFFFFFFFFFFFFF) (fun t => reg0 t 1 == 0x8000000000000000) = true := by decide
theorem test_rem_sign : after (.remR i0 1 2 3) (two 0xFFFFFFFFFFFFFFF9 2) (fun t => reg0 t 1 == 0xFFFFFFFFFFFFFFFF) = true := by decide
theorem test_min_signed : after (.minR i0 1 2 3) (two 0xFFFFFFFFFFFFFFFF 1) (fun t => reg0 t 1 == 0xFFFFFFFFFFFFFFFF) = true := by decide
theorem test_addi_sign_extends : after (.addi i0 1 2 0xFFFF) (two 1 0) (fun t => reg0 t 1 == 0) = true := by decide
theorem test_ori_zero_extends : after (.ori i0 1 0 0xFFFF) (two 0 0) (fun t => reg0 t 1 == 0xFFFF) = true := by decide
theorem test_lui : after (.lui i0 1 0x8000) (two 0 0) (fun t => reg0 t 1 == 0xFFFFFFFF80000000) = true := by decide
/-- R53, R61: shli by 64 is an illegal instruction. -/
theorem test_shli_64 : after (.shli i0 1 2 64) (two 1 0) (fun t => (t.thread w0).cause == 0x00080001 && (t.thread w0).epc == hbm0) = true := by decide
theorem test_cmp_signed : after (.cmpLt i0 1 2 3) (two 0xFFFFFFFFFFFFFFFF 0) (fun t => (t.thread w0).pred 1 == 0xFFFFFFFFFFFFFFFF) = true := by decide
theorem test_cmp_unsigned : after (.cmpLtu i0 1 2 3) (two 0xFFFFFFFFFFFFFFFF 0) (fun t => (t.thread w0).pred 1 == 0) = true := by decide
theorem test_cmp_p0_traps : after (.cmpEq i0 0 2 3) (two 0 0) (fun t => (t.thread w0).cause == 0x00020001) = true := by decide
/-- R71: 16-bit saturation, and the same sum wrapped. -/
theorem test_qadd_clamps : after (.qadd i0 1 2 3 ⟨true, 0, false, false⟩) (two 0x7FFF 1)
    (fun t => reg0 t 1 == 0x7FFF && (t.thread w0).fxstat == 2) = true := by decide
theorem test_qadd_wraps : after (.qadd i0 1 2 3 ⟨false, 0, false, false⟩) (two 0x7FFF 1)
    (fun t => reg0 t 1 == 0xFFFFFFFFFFFF8000 && (t.thread w0).fxstat == 1) = true := by decide
/-- 0.5 × 0.5 = 0.25 in Q1.15. -/
theorem test_qmul : after (.qmul i0 1 2 3 ⟨true, 0, false, false⟩) (two 0x4000 0x4000) (fun t => reg0 t 1 == 0x2000) = true := by decide
theorem test_qmac_then_qext : after (.qext i0 1 ⟨true, 0, false, true⟩) (next (.qmac i0 2 3 ⟨true, 0, false, true⟩) (two 0x4000 0x4000))
    (fun t => reg0 t 1 == 0x2000) = true := by decide

/-! ### Fetch and decoding -/

/-- What a fetch at the thread's program counter resolves to. -/
def fetching (s : State) : Place := s.resolve 0 .fetch false (s.thread w0).pc 4

/-- InstructionFetch: a line the instruction cache holds, and one it does not. -/
theorem witness_fetch : let s := run id
    let u := s.modCore 0 (fun x => { x with icache := [] })
    (s.steady i0 false = true ∧ s.breakpoint w0 = Option.none ∧ fetching s = .at_ (.hbm 0 0x1000) Option.none ∧ s.poisoned (.hbm 0 0x1000) 4 = false ∧
      s.lineTag hbm0 ∈ (s.core 0).icache) ∧
    u.steady i0 false = true ∧ u.breakpoint w0 = Option.none ∧ fetching u = .at_ (.hbm 0 0x1000) Option.none ∧ u.lineTag hbm0 ∉ (u.core 0).icache := by decide
/-- InstructionFetch: a skewed address, one in space 3, one that resolves to nothing, a page without a translation, and a poisoned word. -/
theorem witness_fetch_stops : let at_ (pc : Word) := (run (fun h => { h with pc := pc }))
    let p := (run id).modCore 0 (fun x => { x with icache := [] })
    let q := p.modDie 0 (fun x => { x with hbmPoison := [(0x200, true)] })
    ((hbm0 + 2).toNat % 4 ≠ 0 ∧ (at_ (hbm0 + 2)).steady i0 false = true) ∧ (adSpace 0xFFF3000000000000 = 3 ∧ (at_ 0xFFF3000000000000).steady i0 false = true) ∧
    (fetching (at_ 0xFFF1FFFFFFFFFFF0) = .bad (violation 1 0xFFF1FFFFFFFFFFF0)) ∧ (fetching (at_ 0xFFF0000000010000) = .miss 0) ∧
    q.steady i0 false = true ∧ q.poisoned (.hbm 0 0x1000) 4 = true := by decide
/-- R72: a fetch that misses leaves its line in the instruction cache of the core. -/
theorem test_fetch_installs : after (.nop i0) ((run id).modCore 0 (fun x => { x with icache := [] })) (fun t => (t.core 0).icache == [t.lineTag hbm0]) = true := by decide
/-- R60: a reserved opcode raises 0x01 with the opcode in DETAIL. -/
theorem test_reserved_opcode : after (.nop { i0 with rsv := some 0x0A }) (run id) (fun t => (t.thread w0).cause == 0x000A0001) = true := by decide

/-! Words written out from the encoding tables of R60, R61, R64, R85, R98, R110, R167, R168, R306 and R579. -/

theorem test_word_add : decodeTableWord 32 0b000000_00001_00010_00011_00000_000000 = some (.addR i0 1 2 3) := by decide
theorem test_word_qmac : decodeTableWord 32 0b000001_00000_00010_00011_1_01_0_1_000011 = some (.qmac i0 2 3 ⟨true, 1, false, true⟩) := by decide
theorem test_word_cmp_geu : decodeTableWord 32 0b000010_00011_00001_00010_00000_000101 = some (.cmpGeu i0 3 1 2) := by decide
theorem test_word_addi : decodeTableWord 32 0b000100_00101_00110_1111111111111000 = some (.addi i0 5 6 0xFFF8) := by decide
theorem test_word_csr_w : decodeTableWord 32 0b001100_00000_00111_0010000000001000 = some (.csrW i0 7 0x2008) := by decide
theorem test_word_ld_wu : decodeTableWord 32 0b010101_01000_01001_01_1_0_000000000100 = some (.ldWU i0 8 9 ⟨1, true, false, 4⟩) := by decide
theorem test_word_st_b : decodeTableWord 32 0b011000_01000_01001_00_0_0_111111111111 = some (.stB i0 8 9 ⟨0, false, false, 0xFFF⟩) := by decide
theorem test_word_sc_d : decodeTableWord 32 0b011100_00001_00010_00011_000_00000100 = some (.scD i0 1 2 3) := by decide
theorem test_word_bp : decodeTableWord 32 0b100000_011_1_0000000000000000000010 = some (.bp i0 3 true 2 ⟨false, []⟩) := by decide
theorem test_word_jal : decodeTableWord 32 0b100001_11111_111111111111111111110 = some (.jal i0 31 0x1FFFFE) := by decide
theorem test_word_join : decodeTableWord 32 0b100100_00100_00101_00000_00000_000001 = some (.join i0 4 5) := by decide
theorem test_word_fence_d : decodeTableWord 32 0b100110_00000_00000_00000_00_010_000101 = some (.fenceD i0) := by decide
theorem test_word_hb_wait : decodeTableWord 32 0b100111_00001_00010_00011_00000_000001 = some (.hbWait i0 1 2 3) := by decide
theorem test_word_tld : decodeTableWord 64 0b11111_00011_0001_000000000000000000_111011_000_010_00101_00110_1_0_000_00000 =
    some (.tld i0 { td := 2, rb := 5, rs := 6, g := true, src := false, strm := 0, rows := 31, kf := 3, fmt := 1 }) := by decide
theorem test_word_mm : decodeTableWord 64 0b11111_01111_00001_0000_0000_000000000_111010_0000_001_010_0011_1_0_0_000000000 =
    some (.mm i0 { ta := 1, tb := 2, acc := 3, ovw := true, tra := false, scs := false, mf := 31, nf := 15, kf := 1, fmta := 0, fmtb := 0 }) := by decide
theorem test_word_acc_row : decodeTableWord 64 0b00111_000000000000000000000000000_111010_1000_00101_0_0010_0_00000000000 = some (.accRow i0 2 5 7) := by decide
theorem test_word_vadd : decodeTableWord 64 0b001_1_0001_0_00_00000_0000000000000000_111000_000000_00011_00001_00010_00000 =
    some (.vadd i0 { pred := 1, zm := true, fmt := 1, sat := false, rnd := 0, gs := 0, imm := 0, vd := 3, vs1 := 1, vs2 := 2, vs3 := 0 }) := by decide
theorem test_word_vexp2 : decodeTableWord 64 0b000_0_0000_0_00_00000_0000000000000000_111001_001000_00011_00001_00000_00000 =
    some (.vexp2 i0 { pred := 0, zm := false, fmt := 0, sat := false, rnd := 0, gs := 0, imm := 0, vd := 3, vs1 := 1, vs2 := 0, vs3 := 0 }) := by decide
theorem test_word_snd_q : decodeTableWord 64 0b1111111111111111_00111111_00000000_111100_00_00101_00110_00111_0_00000000 = some (.sndQ i0 0xFFFF 63 5 6 7) := by decide
theorem test_word_reserved : decodeTableWord 32 0b000000_00001_00010_00011_00001_000000 = some (.addR { i0 with rsv := some 0 } 1 2 3) := by decide
theorem test_word_too_short : decodeTableWord 32 0b111000_00000000000000000000000000 = Option.none := by decide

/-! ### Control flow -/

theorem test_bp_taken : after (.bp i0 1 false 4 ⟨true, []⟩) (run id) (fun t => (t.thread w0).pc == hbm0 + 16) = true := by decide
theorem test_bp_mispredicted : after (.bp i0 1 true 4 ⟨true, []⟩) (run id)
    (fun t => (t.thread w0).pc == hbm0 + 4 && Sparse.get 0 (t.core 0).pmc 0x105 == 1) = true := by decide
theorem test_jal_backwards : after (.jal i0 1 0x1FFFFF) (run id) (fun t => (t.thread w0).pc == hbm0 - 4 && reg0 t 1 == hbm0 + 4) = true := by decide
theorem test_jalr_reads_first : after (.jalr i0 2 2) (two 0x2000 0) (fun t => (t.thread w0).pc == 0x2000 && reg0 t 2 == hbm0 + 4) = true := by decide
theorem test_tret : after (.tret i0 ⟨0, .none⟩) (run (fun h => { h with inTrap := true, epc := 0x400 })) (fun t => (t.thread w0).pc == 0x400 && !(t.thread w0).inTrap) = true := by decide
theorem test_fence_waits_for_a_write : after (.fenceS i0) (next (.stW i0 2 1 ⟨0, true, false, 0⟩) (run (fun h => h.setReg 1 hbm0)))
    (fun t => (t.thread w0).memHold == .fence 4 1) = true := by decide

/-- ControlFlow: a cache.inv of nothing, of up to 1024 lines and of more; a fence with and without something out; sync.e. -/
theorem witness_cache_ranges : (0 : Word).toNat = 0 ∧ (0 + 65536 - 1) / 64 - 0 / 64 + 1 ≤ 1024 ∧ 1024 < (0 + 65537 - 1) / 64 - 0 / 64 + 1 := by decide
theorem witness_fence_out : let s := next (.stW i0 2 1 ⟨0, true, false, 0⟩) (run (fun h => h.setReg 1 hbm0))
    s.ready i0 false = true ∧ s.writes.any (fun x => decide (x.src = some w0 ∧ x.seq < s.nextSeq) && inScope 4 0 x.loc) = true := by decide
theorem witness_fence_none : let s := run id
    s.matrixBusy w0 s.nextSeq = false ∧ s.writes = [] ∧ s.acks = [] ∧ s.msgs = [] ∧ s.dmaQuiet w0 = true ∧ s.fillsInFlight w0 = false := by decide
theorem witness_sync_busy : let s := (run id).modTeam 0 (fun x => { x with order := [0], ch := [(0, { state := 1, by_ := some w0 })] })
    s.ready i0 false = true ∧ s.dmaQuiet w0 = false := by decide
theorem witness_sync_fill : let s := (run id).modThread w0 (fun h => { h with streams := [(0, { en := true, tiles := [{}] })] })
    s.ready i0 false = true ∧ s.fillsInFlight w0 = true := by decide

/-! ### Scalar memory -/

def mls (d : BitVec 12) : MemF := ⟨0, false, false, d⟩
def mg (d : BitVec 12) : MemF := ⟨0, true, false, d⟩

/-- ScalarLoads: the named encodings. -/
theorem witness_bad_modes : let bad (m : MemF) (rb : BitVec 5) := (m.nc = true ∧ m.g = false) ∨
      (m.mode = 3 ∧ (m.disp.extractLsb' 0 4 ≠ 0 ∨ 4 < (m.disp.extractLsb' 4 3).toNat)) ∨ ((m.mode = 1 ∨ m.mode = 2) ∧ rb = 0)
    bad ⟨0, false, true, 0⟩ 1 ∧ bad ⟨3, false, false, 1⟩ 1 ∧ bad ⟨3, false, false, 0x50⟩ 1 ∧ bad ⟨1, false, false, 0⟩ 0 := by decide

/-- ScalarLoads, ScalarStores: an access to the own local store, to the HBM, and to a line in the data cache. -/
theorem witness_reaches_local : (run id).reaches w0 1 (some 2) (mls 8) .read 4 8 Option.none (.ls 0 8) Option.none :=
  ⟨by decide, by decide, by decide, by decide⟩
theorem witness_reaches_hbm : (run (fun h => h.setReg 1 hbm0)).reaches w0 1 (some 2) (mg 8) .read 4 (hbm0 + 8) Option.none (.hbm 0 0x1008) Option.none ∧
    cacheable (hbm0 + 8) (.hbm 0 0x1008) = true ∧ Sparse.find ((run id).core 0).dcache ((run id).lineTag (hbm0 + 8)) = Option.none :=
  ⟨⟨by decide, by decide, by decide, by decide⟩, by decide, by decide⟩
theorem witness_cache_hit : let s := (run id).modCore 0 (fun x => { x with dcache := [((run id).lineTag hbm0, 5)] })
    s.ready i0 false = true ∧ (Sparse.find (s.core 0).dcache (s.lineTag hbm0)).isSome = true := by decide
theorem witness_store_local : (run id).reaches w0 1 Option.none (mls 8) .write 4 8 Option.none (.ls 0 8) Option.none :=
  ⟨by decide, by decide, by decide, by decide⟩
theorem witness_store_hbm : (run (fun h => h.setReg 1 hbm0)).reaches w0 1 Option.none (mg 0) .write 8 hbm0 Option.none (.hbm 0 0x1000) Option.none :=
  ⟨by decide, by decide, by decide, by decide⟩

/-- A state in which a load of four bytes of the HBM is out. -/
def loading : State := next (.ldW i0 2 1 (mg 8)) (run (fun h => h.setReg 1 hbm0))

/-- ScalarLoads: data that can return, with a line to install. -/
theorem witness_load_returns : let s := loading
    ∃ f op, s.reads = [f] ∧ (f.loc = .hbm 0 0x1000 ∧ f.atom = Option.none ∧ f.engine = Option.none ∧ s.readReady f = true ∧
      s.poisoned f.part f.take = false ∧ f.take = 4 ∧ f.skip + 4 ≤ f.len ∧ f.fill = some (s.lineTag (hbm0 + 8), true) ∧ s.poisoned f.loc f.len = false) ∧
      (s.thread w0).loads = [op] ∧ op.kind = .scalar 2 4 true ∧ op.parts = [.wait f.seq] ∧ (s.thread w0).haltReq = Option.none ∧ (s.thread w0).stepping = false ∧
      (s.core 0).dcache = [] :=
  ⟨_, _, rfl, by decide, rfl, by decide, by decide, by decide, by decide, by decide⟩

def stored : State := (run (fun h => (h.setReg 2 0x1122334455667788).setReg 1 hbm0))

theorem test_store_then_load_byte : after (.loadDataReturn 0 .none) (next (.ldB i0 3 0 (mls 1)) (next (.stD i0 2 0 (mls 0)) stored))
    (fun t => reg0 t 3 == 0x77) = true := by decide
theorem test_load_sign_extends : after (.loadDataReturn 0 .none) (next (.ldB i0 3 0 (mls 0)) (next (.stD i0 2 0 (mls 0)) stored))
    (fun t => reg0 t 3 == 0xFFFFFFFFFFFFFF88) = true := by decide
theorem test_load_zero_extends : after (.loadDataReturn 0 .none) (next (.ldHU i0 3 0 (mls 0)) (next (.stD i0 2 0 (mls 0)) stored))
    (fun t => reg0 t 3 == 0x7788) = true := by decide
/-- R62: mode 1 reads at the base and steps it upward after. -/
theorem test_post_increment : after (.stB i0 2 1 ⟨1, false, false, 8⟩) (run (fun h => (h.setReg 2 5).setReg 1 16))
    (fun t => t.byteAt (.ls 0 16) == 5 && reg0 t 1 == 24) = true := by decide
theorem test_store_beyond_window : after (.stB i0 2 1 (mls 0)) (run (fun h => h.setReg 1 0x800000))
    (fun t => (t.thread w0).cause == 4 && (t.thread w0).tval == 0x800000) = true := by decide
theorem test_store_unaligned : after (.stW i0 2 1 (mls 2)) (run id) (fun t => (t.thread w0).cause == 0x00040005) = true := by decide
theorem test_cache_line_installed : after (.cacheFillReturn 0 ⟨.none, false⟩) loading (fun t => (t.core 0).dcache.length == 1 && (t.thread w0).loads == []) = true := by decide

/-! ### Atomics -/

/-- The control-space address of the local store of core 0 of die 0 (R31). -/
def ls0 : Word := 0xFFF3000000000040

/-- Atomics: the five that the own core's local store answers at once, and a standing reservation. -/
theorem witness_atomic_local : let s := run (fun h => { h.setReg 1 ls0 with resv := some (.ls 0 0x48) })
    s.ready i0 false = true ∧ adSpace ls0 = 3 ∧ ls0.toNat % 8 = 0 ∧ s.watchpoint w0 true ls0 8 true true = Option.none ∧
      s.watchpoint w0 true ls0 8 true false = Option.none ∧ s.resolve 0 .atomic true ls0 8 = .at_ (.ls 0 0x40) Option.none ∧ s.poisoned (.ls 0 0x40) 8 = false ∧
      (s.thread w0).resv.any (fun r => r.sameUnit (.ls 0 0x40) && decide (r.off / 64 = 0x40 / 64)) = true := by decide

def loft0 : Word := 0xFFF2000000000040

def atomic : State := next (.casD i0 2 1 3) (run (fun h => (h.setReg 1 loft0).setReg 3 9))

/-- Atomics: one toward a Loft, and its arrival at the slice. -/
theorem witness_atomic_loft : let s := run (fun h => h.setReg 1 loft0)
    s.ready i0 false = true ∧ loft0.toNat % 8 = 0 ∧ s.watchpoint w0 true loft0 8 true true = Option.none ∧
      s.resolve 0 .atomic true loft0 8 = .at_ (.loft 0 0x40) Option.none ∧ (0 : DieIx) = coreDie 0 := by decide
theorem witness_atomic_arrives : ∃ f, atomic.reads.find? (fun g => g.seq = 0) = some f ∧ f.loc = .loft 0 0x40 ∧ f.atom = some (.cas, 0, 9) ∧ f.got = .no ∧
    atomic.atomBlocked f = false ∧ atomic.poisoned (.loft 0 0x40) f.len = false ∧ f.len = 8 := ⟨_, rfl, by decide⟩
theorem witness_sc_out : let s := next (.scD i0 2 1 3) (run (fun h => h.setReg 1 loft0))
    s.reads.any (fun f => decide (f.who = w0) && match f.atom with | some (.scd, _, _) => true | _ => false) = true ∧ (run id).reads = [] := by decide

theorem test_tas : after (.tas i0 2 1 3) (run (fun h => h.setReg 1 ls0)) (fun t => t.byteAt (.ls 0 0x40) == 1 && reg0 t 2 == 0) = true := by decide
theorem test_sc_without_reservation : after (.scD i0 2 1 3) (run (fun h => (h.setReg 1 ls0).setReg 3 7)) (fun t => reg0 t 2 == 1 && t.byteAt (.ls 0 0x40) == 0) = true := by decide
theorem test_sc_with_reservation : after (.scD i0 2 1 3) (run (fun h => { (h.setReg 1 ls0).setReg 3 7 with resv := some (.ls 0 0x40) }))
    (fun t => reg0 t 2 == 0 && t.byteAt (.ls 0 0x40) == 7 && (t.thread w0).resv == Option.none) = true := by decide
theorem test_cas_at_loft : after (.atomicArrival ⟨0, .none⟩) atomic (fun t => t.byteAt (.loft 0 0x40) == 9) = true := by decide
theorem test_reservation_times_out : after (.reservationTimeout w0) (run (fun h => { h with resv := some (.ls 0 0) })) (fun t => (t.thread w0).resv == Option.none) = true := by decide

/-! ### Threads and traps -/

theorem witness_core_start : let s := { run id with cores := [] }
    s.boot.mainOn = true ∧ s.present 0 = true ∧ (s.thread w0).state = .free ∧ (∀ t, Via.window ≠ .thread ⟨0, t⟩) :=
  ⟨by decide, by decide, by decide, by simp⟩
theorem witness_core_start_dropped : (run id).boot.mainOn = true ∧ (run id).present 0 = true ∧ (run id).thread w0 ≠ {} ∧ ((run id).thread w0).state ≠ .free := by
  decide
theorem witness_fork_lowest : ((run id).thread ⟨0, 1⟩).state = .free ∧ ∀ j : ThrIx, j.toNat < (1 : ThrIx).toNat → ((run id).thread ⟨0, j⟩).state ≠ .free := by decide

/-- Every thread of core 0 runs. -/
def full : State := (run id).modCore 0 (fun x => { x with threads := [0, 1, 2, 3].map (fun k => (k, x.thread 0)) })

theorem witness_fork_none_free : full.ready i0 false = true ∧ ∀ j : ThrIx, (full.thread ⟨0, j⟩).state ≠ .free := by decide

/-- Thread 1 of core 0 as a child of thread 0. -/
def child (st : ThrState) : State := (run (fun h => h.setReg 1 1)).modThread ⟨0, 1⟩ (fun h => { h with state := st, exit := 0x80000000 })

theorem witness_join : let c (s : State) := s.thread ⟨0, 1⟩
    (child .done).ready i0 false = true ∧ (reg0 (child .done) 1).toNat < 4 ∧ (1 : ThrIx) ≠ w0.thr ∧ (c (child .done)).parent = 0 ∧ (c (child .done)).orphan = false ∧
      (c (child .done)).joined = false ∧ (c (child .done)).state = .done ∧ (child .run).ready i0 false = true ∧ (c (child .run)).state ≠ .done ∧
      (c (child .run)).state ≠ .free ∧ ¬((reg0 (run (fun h => h.setReg 1 4)) 1).toNat < 4) := by decide
theorem witness_end : Sparse.wf {} ((run id).core 0).slots = true ∧ (run id).mmQueued w0 = false ∧ ((run id).thread w0).bound = [] ∧ ((run id).thread w0).taken = [] ∧
    ((run id).thread w0).orphan = true := by decide

/-- Thread 1 stands at end while thread 0 waits for it in join. -/
def joining : State := (child .run).modThread w0 (fun h => { h with state := .wait, hold := .join 1 3 })

theorem witness_end_joined : let s := joining
    let i : Iss := { i0 with who := ⟨0, 1⟩ }
    (s.modThread ⟨0, 1⟩ (fun h => { h with pc := hbm0 })).ready i false = true ∧ (s.thread ⟨0, 1⟩).orphan = false ∧ (s.thread ⟨0, 1⟩).parent ≠ 1 ∧
      (s.thread w0).hold = .join 1 3 ∧ (s.thread w0).haltReq = Option.none ∧ (s.thread w0).stepping = false := by decide

def mf (acc : BitVec 4) : MatF := ⟨0, 1, acc, true, false, false, 0, 0, 0, 0, 0⟩

theorem witness_end_queued : let s := (run id).modCore 0 (fun x => { x with mq := [⟨0, 0, 0, mf 0⟩] })
    s.ready i0 false = true ∧ s.mmQueued w0 = true := by decide
theorem witness_traps : let s := run id
    s.mmQueued w0 = false ∧ (s.thread w0).inTrap = false ∧ (s.thread w0).tvec ≠ 0 := by decide
theorem witness_trap_ends : let s := run (fun h => { h with inTrap := true })
    s.ready i0 false = true ∧ (s.thread w0).inTrap = true ∧ (s.thread w0).bound = [] ∧ (s.thread w0).taken = [] := by decide
theorem witness_tret_pending : let s := run (fun h => { h with inTrap := true, tldPend := true, epc := hbm0 })
    let s1 := (s.countRetired w0).modThread w0 (fun h => { h with inTrap := false, pc := h.epc })
    s.ready i0 false = true ∧ (s.thread w0).tldPend = true ∧ s.mmQueued w0 = false ∧ tileLoadOf w0 0 = Option.none ∧ (s.thread w0).tvec ≠ 0 ∧
      (match s1.fetchCheck w0 (decide ((0 : BitVec 64).extractLsb' 29 3 = 7)) .clean with | .ok u => decide (u = s1) | _ => false) = true := by decide

/-- Traps: a tld of tile 2 at THR_EPC is the load the cursor names. -/
theorem witness_tret_resumes : let s := run (fun h => { h with inTrap := true, tldPend := true, epc := hbm0, cursor := { tile := 2, row := 1 } })
    let s1 := (s.countRetired w0).modThread w0 (fun h => { h with inTrap := false, pc := h.epc })
    let f : TileF := { td := 2, rb := 1, rs := 2, g := false, src := false, strm := 0, rows := 1, kf := 3, fmt := 0 }
    let word := 0b00001_00011_0000_000000000000000000_111011_000_010_00001_00010_0_0_000_00000#64
    s.ready i0 false = true ∧ s.mmQueued w0 = false ∧ tileLoadOf w0 word = some (f, false) ∧ tileShape f false false = Option.none ∧
      tileSkew (s.thread w0) f false = false ∧ (match s1.fetchCheck w0 true .clean with | .ok u => decide (u = s1) | _ => false) = true := by decide

theorem test_fork : after (.fork i0 1 2 3) (two 0x2000 7) (fun t => reg0 t 1 == 1 && (t.thread ⟨0, 1⟩).pc == 0x2000 && (t.thread ⟨0, 1⟩).reg 1 == 7) = true := by decide
theorem test_join_done : after (.join i0 3 1) (child .done) (fun t => reg0 t 3 == 0xFFFFFFFF80000000 && (t.thread ⟨0, 1⟩).state == .free) = true := by decide
theorem test_join_wrong_number : after (.join i0 3 1) (run (fun h => h.setReg 1 4)) (fun t => (t.thread w0).cause == 0x0004000D) = true := by decide
theorem test_end_orphan : after (.endThread i0 2) (two 5 0) (fun t => (t.thread w0).state == .free && (t.thread w0).exit == 5) = true := by decide
theorem test_brk : after (.brk i0) (run id) (fun t => (t.thread w0).pc == 0xFFF1000000000400 && (t.thread w0).cause == 0xFFFF000B && (t.thread w0).epc == hbm0) = true := by decide

/-! ### Tiles -/

/-- Two rows of four BF16 elements of tile 2. -/
def tf : TileF := ⟨2, 1, 2, false, false, 0, 1, 3, 0⟩
def tile (f : Thread → Thread) : State := run (fun h => f (h.setReg 2 64))
/-- Scales of one 32-element row. -/
def tfs : TileF := { tf with fmt := 1, kf := 15 }

theorem witness_tile_encodings : tileIllegal { tf with src := true } = true ∧ tileIllegal tf = false ∧ tileShape { tf with fmt := 8 } false false = some 1 ∧
    tileShape { tf with kf := 31, fmt := 7 } false false = some 3 ∧ tileShape { tf with fmt := 1 } false false = some 4 ∧ tileShape tf false true = some 5 ∧
    tileShape tf false false = Option.none ∧ tileShape tfs true false = Option.none := by decide
theorem witness_tile_load : let s := tile id
    s.ready i0 true = true ∧ s.tileRead w0 2 = false ∧ (reg0 s 1).toNat % 8 = 0 ∧ (reg0 s 2).toNat % 8 = 0 ∧
      [(0 : Word), 64].all (fun r => decide (s.watchpoint w0 false r 8 true false = Option.none ∧
        s.place w0 false .read false r 8 = .at_ (.ls 0 r.toNat) Option.none)) = true := by decide
theorem witness_tile_load_queued : let s := (tile id).modCore 0 (fun x => { x with mq := [⟨0, 0, 0, { mf 0 with ta := 2 }⟩] })
    s.ready i0 true = true ∧ s.tileRead w0 2 = true := by decide

def zeros (n : Nat) : List Byte := List.replicate n 0

/-- Thread 0 with a stream whose next tile has filled. -/
def streaming : State := run (fun h => { h with streams := [(0, { en := true, count := 1, rowsf := 1, kf := 3, ahead := 1, tiles := [{ ready := true, rows := [zeros 8, zeros 8] }] })] })

theorem witness_tile_stream : let s := streaming
    let x := s.stream w0 0
    let f : TileF := { tf with rb := 0, rs := 0, src := true }
    s.ready i0 true = true ∧ tileIllegal f = false ∧ x.en = true ∧ x.count ≠ 0 ∧ x.sc = false ∧ x.mode = 0 ∧ f.rows = x.rowsf ∧ f.fmt = x.fmt ∧ f.kf = x.kf ∧
      x.tiles.length = 1 ∧ ∀ t0 ∈ x.tiles, t0.consumed = false ∧ t0.ready = true ∧ t0.defer = Option.none ∧ t0.rows.length = f.rows.toNat + 1 ∧
        (∀ b ∈ t0.rows, b.length = tileRowBytes f false) := by decide

/-- A tile load from HBM whose first row has returned. -/
def lastRow : State := next (.tldRowReturn 1 .none) (next (.tld i0 { tf with g := true }) (tile (fun h => h.setReg 1 hbm0)))

theorem witness_tile_returns : let s := lastRow
    s.reads.length = 1 ∧ (s.thread w0).loads.length = 1 ∧
      (∀ g ∈ s.reads, g.loc = .hbm 0 0x1040 ∧ g.atom = Option.none ∧ s.readReady g = true ∧ s.poisoned g.loc g.len = false ∧ g.len = tileRowBytes tf false ∧
        ∀ op ∈ (s.thread w0).loads, op.kind = .tile { tf with g := true } false 0 0 Option.none ∧ op.long = true ∧
          op.parts = [.data (zeros 8)] ++ [.wait g.seq]) ∧
      scanParts [.data (zeros 8)] [] = .all (zeros 8) ∧ (zeros 8).length = tf.rows.toNat * tileRowBytes tf false ∧
      ((s.thread w0).haltReq = Option.none ∧ (s.thread w0).stepping = false ∧ (s.thread w0).tldPend = false ∧ s.mmQueued w0 = false ∧ (s.thread w0).tvec ≠ 0 ∧
        (s.thread w0).inTrap = false) := by decide

def tiled (st : TileState) : State := tile (fun h => { h with tiles := [(2, { state := st, rows := [(0, 0x0102), (1, 0x0304)] })] })

theorem witness_tile_store : let s := tiled .full
    s.ready i0 true = true ∧ ((s.thread w0).tile 2).state ≠ .empty ∧ ((s.thread w0).tile 2).state ≠ .partial_ ∧ tileRowBytes tf false ≤ 64 ∧
      tileRowBytes tfs true ≤ 4 ∧ [(0 : Word), 64].all (fun r => decide (s.watchpoint w0 false r 8 false true = Option.none ∧
        s.place w0 false .write false r 8 = .at_ (.ls 0 r.toNat) Option.none)) = true := by decide
theorem witness_tile_store_empty : (tile id).ready i0 true = true ∧ (((tile id).thread w0).tile 2).state = .empty ∧ (tiled .partial_).ready i0 true = true ∧
    (((tiled .partial_).thread w0).tile 2).state = .partial_ := by decide

theorem test_tst : after (.tst i0 tf) (tiled .full) (fun t => t.byteAt (.ls 0 0) == 2 && t.byteAt (.ls 0 1) == 1 && t.byteAt (.ls 0 64) == 4) = true := by decide
theorem test_tst_empty : after (.tst i0 tf) (tile id) (fun t => (t.thread w0).cause == 0x00020109) = true := by decide
theorem test_trel : after (.trel i0 2) (tiled .full) (fun t => ((t.thread w0).tile 2).state == .empty && (t.thread w0).pc == hbm0 + 8) = true := by decide
theorem test_tld_full : after (.tldRowReturn 2 .none) lastRow (fun t => ((t.thread w0).tile 2).state == .full && (t.thread w0).loads == []) = true := by decide
theorem test_tld_uncorrectable : after (.tldRowReturn 2 .uncorrectable) lastRow
    (fun t => ((t.thread w0).tile 2).state == .partial_ && (t.thread w0).tldPend && (t.thread w0).cursor.row == 1) = true := by decide

/-! ### Matrix queue and slots -/

/-- Tiles 0 and 1 hold 1.0 and 2.0 in BF16. -/
def operands : State := run (fun h => { h with tiles := [(0, { state := .full, rows := [(0, 0x3F80)] }), (1, { state := .full, rows := [(0, 0x4000)] })] })

def queued : State := next (.mm i0 (mf 0)) operands

theorem witness_matrix_issue : let s := operands
    s.ready i0 true = true ∧ matShape 0 (mf 0) = Option.none ∧ matShape 0 { mf 0 with fmta := 7 } = some 1 ∧ matShape 0 { mf 0 with fmtb := 1 } = some 2 ∧
      matShape 1 { mf 0 with fmta := 7, fmtb := 7 } = Option.none ∧ (mf 15).acc.toNat < (slotShare (s.core 0).mode 0).2 ∧ (slotShare 2 0).2 ≤ (mf 4).acc.toNat ∧
      ((s.thread w0).tile 0).state = .full ∧ ((s.thread w0).tile 1).state = .full ∧ ((run id).thread w0).tiles = [] ∧ (s.core 0).mq.length < 8 := by decide
theorem witness_matrix_full : let s := operands.modCore 0 (fun x => { x with mq := List.replicate 8 ⟨0, 0, 0, mf 0⟩ })
    s.ready i0 true = true ∧ 8 ≤ (s.core 0).mq.length := by decide
theorem witness_matrix_head : let s := queued
    (s.core 0).mq = [⟨0, 0, 0, mf 0⟩] ∧ (s.core 0).retry = Option.none ∧ ((s.core 0).slot 0).sending = 0 ∧ ((s.core 0).slot 0).log.length < 64 ∧
      (s.thread w0).loads = [] ∧ (s.thread w0).haltReq = Option.none := by decide

def entry0 : LogEntry := ⟨mf 0, 0, 0, 0, 0, {}, {}, {}, {}, {}, {}⟩

theorem witness_matrix_blocked : let s := queued.modSlot 0 0 (fun x => { x with sending := 1, log := List.replicate 64 entry0 })
    (s.core 0).mq = [⟨0, 0, 0, mf 0⟩] ∧ ((s.core 0).slot 0).sending ≠ 0 ∧ 64 ≤ ((s.core 0).slot 0).log.length ∧ (s.core 0).retry = Option.none := by decide
theorem witness_checkpoint : (({ log := List.replicate 64 entry0 } : Slot)).compare = Option.none := by decide

theorem test_mm_result : after (.matrixQueueIssue 0 .none) queued
    (fun t => Sparse.get 0 ((t.core 0).slot 0).el 0 == 0x40000000 && (t.core 0).mq == [] && ((t.core 0).slot 0).unchk) = true := by decide
theorem test_mm_slot_outside_share : after (.mm i0 (mf 4)) (operands.modCore 0 (fun x => { x with mode := 2 })) (fun t => (t.thread w0).cause == 0x00040103) = true := by decide
theorem test_mm_empty_tile : after (.mm i0 (mf 0)) (run id) (fun t => (t.thread w0).cause == 0x00000109) = true := by decide

/-- A slot after one mm. -/
def live : State := next (.matrixQueueIssue 0 .none) queued

theorem witness_acc_checked : live.ready i0 true = true ∧ live.slotBusy w0 0 0 = false ∧ (0 : BitVec 4).toNat < (slotShare (live.core 0).mode 0).2 ∧
    ((live.core 0).slot 0).compare = Option.none := by decide
theorem witness_acc_outside : (slotShare 2 0).2 ≤ (4 : BitVec 4).toNat := by decide
theorem witness_acc_transfer : let s := live
    (reg0 s 0).toNat % 64 = 0 ∧ (reg0 s 0).toNat + 4096 ≤ (s.core 0).lsLimit.toNat * 4096 ∧ s.watchpoint w0 false 0 4096 false true = Option.none ∧
      s.watchpoint w0 false 0 4096 true false = Option.none ∧ Sparse.wf {} s.cores = true ∧ s.poisoned (.ls 0 0) 4096 = false := by decide
theorem witness_acc_send : let s := live.modCore 0 (fun x => { x with stnEntry := [(0, 0x4000000000000000)] })
    handleBad (reg0 s 0) = false ∧ (s.core 0).resolve 0 0 = some (0, 0, 0) ∧ s.mine 0 = true ∧ s.present (idCore 0) = true := by decide
theorem witness_split : Sparse.wf {} ((run id).core 0).slots = true ∧ ((run id).core 0).slots = [] ∧ ((run id).core 0).mq = [] ∧ (1 : BitVec 2) ≠ ((run id).core 0).mode ∧
    Sparse.wf {} (live.core 0).slots = true ∧ (live.core 0).slot 0 ≠ {} := by decide

def failing : State := live.modCore 0 (fun x => { x with retry := some ⟨0, 0, .chk, 0, false⟩ })

/-- Accumulators: a retry that passes, and one in which the same bit flips again. -/
theorem witness_retry : let x := (failing.core 0).slot 0
    ∃ y fl, failing.replay 0 0 Option.none 0 .none 0 x.log (.going (Slot.baseline { x with el := x.shadow }) 0 0) = (.going y fl 0, failing) ∧ y.compare = Option.none :=
  ⟨_, _, rfl, by decide⟩
theorem witness_retry_fails : let x := (failing.core 0).slot 0
    ∃ y fl, failing.replay 0 0 (some ⟨0, 0, 30⟩) 0 .none 0 x.log (.going (Slot.baseline { x with el := x.shadow }) 0 0) = (.going y fl 0, failing) ∧ y.compare ≠ Option.none :=
  ⟨_, _, rfl, by decide⟩

theorem test_acc_chk : after (.accChk i0 0) live (fun t => !((t.core 0).slot 0).unchk && (t.thread w0).pc == hbm0 + 16) = true := by decide
theorem test_acc_row : after (.accRow i0 0 5 0) live (fun t => lane ((t.thread w0).vec 5) 32 0 == 0x40000000) = true := by decide
/-- Accumulators: a checksum shadow that ECC cannot correct ends the retry unreplayable. -/
theorem test_retry_shadow : after (.checkRetry 0 ⟨Option.none, true, .none⟩) failing (fun t => (t.core 0).fenced && ((t.core 0).chkstat.extractLsb' 14 2 : BitVec 2) == 3) = true := by decide
theorem test_retry_fences : after (.checkRetry 0 ⟨(some ⟨0, 0, 30⟩), false, .none⟩) failing (fun t => (t.core 0).fenced && (t.thread w0).state == .fenced) = true := by decide
theorem test_acc_split : after (.accSplitWrite .window 0 1) (run id) (fun t => (t.core 0).mode == 1) = true := by decide

/-! ### Vectors -/

def vf : VecF := ⟨0, false, 0, true, 0, 0, 0, 3, 1, 2, 4⟩

/-- Vector registers 1 and 2 hold these words in lane 0, and predicate 1 has only lane 0; p0 has every lane (R35). -/
def lanes (a b : Vec) : State := run (fun h => ((h.setVec 1 a).setVec 2 b).setPred 1 1)

/-- VectorArithmetic, VectorReductions, VectorFunctions: each clause over the formats and immediates. -/
theorem witness_vector_fields : vf.imm = 0 ∧ vf.fmt = 0 ∧ ({ vf with fmt := 1 } : VecF).fmt.toNat ≤ 3 ∧ (4 : BitVec 4).toNat ≤ 5 ∧ vf.vd.getLsbD 0 = true ∧
    ({ vf with vd := 2 } : VecF).vd.getLsbD 0 = false ∧ 1 ≤ (7 : BitVec 5).toNat ∧ (7 : BitVec 5).toNat ≤ 7 ∧ 8 ≤ (8 : BitVec 5).toNat ∧ (31 : BitVec 16).toNat < 32 ∧
    32 ≤ (32 : BitVec 16).toNat ∧ (15 : BitVec 16).toNat < 16 ∧ (0x6000 : BitVec 16).toNat % 4096 = 0 ∧ ((0x6000 : BitVec 16).extractLsb' 12 4).toNat = 6 := by decide
/-- EmptyReductions: predicate 2 has no lane. -/
theorem witness_no_lane : (run id).ready i0 true = true ∧ (∀ l < 64, ((run id).thread w0).pred 2 |>.getLsbD l = false) := by decide
/-- VectorMemory: the own local store, the HBM and a Loft, and an address that is not aligned. -/
theorem witness_vector_memory : let s := run (fun h => h.setReg 5 hbm0)
    s.place w0 false .read false 0 128 = .at_ (.ls 0 0) Option.none ∧ s.watchpoint w0 false 0 128 true false = Option.none ∧
      s.place w0 true .write false hbm0 128 = .at_ (.hbm 0 0x1000) Option.none ∧ s.watchpoint w0 true hbm0 128 false true = Option.none ∧ hbm0.toNat % 128 = 0 ∧
      s.place w0 true .read false 0xFFF2000000000080 128 = .at_ (.loft 0 0x80) Option.none ∧ (64 : Word).toNat % 128 ≠ 0 ∧
      s.watchpoint w0 false 64 128 true false = Option.none ∧ s.watchpoint w0 false 64 128 false true = Option.none ∧
      ((s.thread w0).pred 0).getLsbD 127 = false ∧ ((s.thread w0).pred 0).getLsbD 0 = true ∧ ((s.thread w0).pred 2) = 0 ∧ (0 : BitVec 5).extractLsb' 2 3 = 0 := by
  decide

theorem test_vadd_fp32 : after (.vadd i0 { vf with pred := 1 }) (lanes 0x3F800000 0x40000000) (fun t => lane ((t.thread w0).vec 3) 32 0 == 0x40400000) = true := by decide
/-- R135: 1.5 × 2^127 doubled is infinite, and the overflow is recorded. -/
theorem test_vadd_overflow : after (.vadd i0 { vf with pred := 1, vs2 := 1 }) (lanes 0x7F7FFFFF 0)
    (fun t => lane ((t.thread w0).vec 3) 32 0 == 0x7F800000 && (t.thread w0).fpstat != 0) = true := by decide
theorem test_vmul_bf16 : after (.vmul i0 { vf with pred := 1, fmt := 1 }) (lanes 0x3FC0 0x4000) (fun t => lane ((t.thread w0).vec 3) 16 0 == 0x4040) = true := by decide
theorem test_vneg : after (.vneg i0 { vf with pred := 1 }) (lanes 0x3F800000 0) (fun t => lane ((t.thread w0).vec 3) 32 0 == 0xBF800000) = true := by decide
theorem test_vq_add_saturates : after (.vqAdd i0 { vf with pred := 1, fmt := 2 }) (lanes 0x8000 0xFFFF)
    (fun t => lane ((t.thread w0).vec 3) 16 0 == 0x8000 && (t.thread w0).fxstat == 2) = true := by decide
theorem test_vq_mac_odd_pair : after (.vqMac i0 { vf with fmt := 4 }) (run id) (fun t => (t.thread w0).cause == 0x00380101) = true := by decide
theorem test_vcmp_lt : after (.vcmpLt i0 { vf with pred := 1, vd := 2 }) (lanes 0x3F800000 0x40000000) (fun t => (t.thread w0).pred 2 == 1) = true := by decide
theorem test_vext : after (.vext i0 { vf with imm := 1 }) (lanes 0x123400005678 0) (fun t => reg0 t 4 == 0x1234) = true := by decide
theorem test_vred_sum : after (.vredSum i0 { vf with pred := 1 }) (lanes 0x3F800000 0) (fun t => (t.thread w0).vec 3 == 0x3F800000 && reg0 t 4 == 0x3F800000) = true := by decide
/-- R179. -/
theorem test_vred_max_empty : after (.vredMax i0 { vf with pred := 2 }) (run id) (fun t => reg0 t 4 == 0xFF800000) = true := by decide
/-- R177: the exponential of minus infinity is +0. -/
theorem test_vexp2_minus_infinity : after (.vexp2 i0 { vf with pred := 1 }) (lanes 0xFF800000 0) (fun t => lane ((t.thread w0).vec 3) 32 0 == 0) = true := by decide
/-- R135: 1 + 2^-9 lies between the BF16 numbers 1 and 1 + 2^-7 and rounds to 1. -/
theorem test_vcvt_rounds : after (.vcvt i0 { vf with pred := 1 }) (lanes 0x3F804000 0) (fun t => lane ((t.thread w0).vec 3) 16 0 == 0x3F80) = true := by decide
theorem test_vst_masked : after (.vst i0 { vf with pred := 1, vs1 := 0, vs2 := 0, vd := 1 }) (lanes 0x11223344AABBCCDD 0)
    (fun t => t.byteAt (.ls 0 3) == 0xAA && t.byteAt (.ls 0 4) == 0) = true := by decide

/-! ### Queues, stations, messages -/

/-- A queue of four slots at local-store address 0x1000. -/
def q4 : Queue := { base := 16, slots := 2, opn := true }
def withQueue (x : Queue) : State := (run id).modQueue 0 3 (fun _ => x)

theorem witness_queue_open : let fits (x : Queue) := 2 ≤ x.slots.toNat ∧ x.slots.toNat ≤ 12 ∧ 256 * x.base.toNat + 264 * 2 ^ x.slots.toNat ≤ 8388608
    fits q4 ∧ ((withQueue q4).queue 0 3).opn = true ∧ fits { q4 with slots := 12, base := 28544 } ∧ ¬fits { q4 with slots := 12, base := 28545 } ∧
      ¬fits { q4 with slots := 1 } := by decide
theorem witness_queue_words : let x := (withQueue { q4 with occ := 1 }).queue 0 3
    (0x20 : Word).getLsbD 8 = x.cls ∧ (0x20 : Word).extractLsb' 4 4 = x.slots ∧ (0x30 : Word).extractLsb' 4 4 ≠ x.slots ∧ (0x1000 : Word).extractLsb' 8 15 = x.base ∧
      (0x1100 : Word).extractLsb' 8 15 ≠ x.base ∧ ¬(x.opn = false ∧ x.occ = 0) ∧ ((run id).queue 0 3).opn = false ∧ ((run id).queue 0 3).occ = 0 := by decide

def selecting : State := next (.selQ i0 0xFFFF 8 false 5 6) (withQueue q4)

theorem witness_queue_wakes : let s := selecting
    (s.thread w0).hold = .sel 8 false 5 6 0xFFFF 0 Option.none ∧ (∀ t : ThrIx, (s.thread ⟨0, t⟩).haltReq = Option.none ∧ (s.thread ⟨0, t⟩).stepping = false) ∧
      (s.queue 0 3).occ = 0 ∧ (∀ p : BitVec 4, (8 : BitVec 16).getLsbD p.toNat = true → p = 3) ∧
      (∀ t : ThrIx, ((run id).thread ⟨0, t⟩).hold = .none) := by decide

theorem test_queue_open : after (.queOpen .window 0 3) (withQueue { q4 with opn := false }) (fun t => (t.queue 0 3).opn) = true := by decide
theorem test_queue_too_small : after (.queOpen .window 0 3) (run id) (fun t => !(t.queue 0 3).opn && (t.queue 0 3).err) = true := by decide
theorem test_queue_reset : after (.queReset .window 0 3) (withQueue { q4 with occ := 2, tail := 2 })
    (fun t => (t.queue 0 3).occ == 0 && (t.queue 0 3).head == 2 && (t.queue 0 3).epoch == 1) = true := by decide
theorem test_close_wakes : after (.queClose .window 0 3) selecting (fun t => reg0 t 5 == 4 && (t.thread w0).state == .run) = true := by decide

/-- Nothing of core 0 runs. -/
def still : State := { run id with cores := [] }

theorem witness_station_words : (∀ t, Via.window ≠ .thread ⟨0, t⟩) ∧ (0xC000000000000000 : Word).extractLsb' 62 2 = 3 ∧ (0x4000000000000000 : Word).extractLsb' 62 2 ≠ 3 :=
  ⟨by simp, by decide, by decide⟩
theorem witness_window_words : (∀ t, ((still.core 0).thread t).state = .free) ∧ ((run id).core 0).thread 0 = (run id).thread w0 ∧ ((run id).thread w0).state = .run ∧
    ((0x1000 : Word).extractLsb' 12 11).toNat + 2047 ≤ 2048 ∧ 2048 < ((0x1000 : Word).extractLsb' 12 11).toNat + (still.core 0).lsLimit.toNat ∧
    (still.core 0).lsBase.toNat + ((0x800000 : Word).extractLsb' 12 12).toNat ≤ 2048 ∧ 2048 < (still.core 0).lsBase.toNat + ((0x801000 : Word).extractLsb' 12 12).toNat := by
  decide

theorem test_station_write : after (.stnEntryWrite .window 0 5 0xFFFFFFFFFFFFFFFF) (run id) (fun t => (t.core 0).stnErr) = true := by decide
theorem test_station_by_thread : after (.stnEntryWrite (.thread w0) 0 5 0x4000000000000000) (run id) (fun t => (t.core 0).stnErr && (t.core 0).stnEntry == []) = true := by decide
theorem test_bound_shrinks : after (.lsWindowWrite .window 0 true 0x1000) still (fun t => (t.core 0).lsLimit == 1) = true := by decide

/-- A station of core 0 that leads to queue 3 of core 0, or of core 1, of this module. -/
def sender (target : Word) : State :=
  (run (fun h => h.setVec 6 0x55)).modCore 0 (fun x => { x with stnEntry := [(0, 0x4000000300000000 + target * 2 ^ 38)] })

theorem witness_send : let s := sender 1
    s.ready i0 true = true ∧ (6 : BitVec 5).getLsbD 0 = false ∧ (7 : BitVec 5).getLsbD 0 = true ∧ (s.core 0).resolve 0 0 = some (1, 3, 0) ∧ idModule 1 = s.mod.id ∧
      s.present (idCore 1) = true ∧ (s.queue (idCore 1) 3).cls = false ∧ ((run id).core 0).resolve 0 0 = Option.none ∧ ({ s with mod := { s.mod with rowCols := [(1, 0)] } } : State).present (idCore 0x10) = false ∧
      idModule 0x400 ≠ s.mod.id ∧ (sender 0x400).fab.reach.contains (idModule 0x400) = false ∧ (sender 0x400).unreachable (idModule 0x400) = false ∧
      ({ sender 0x400 with fab := { (sender 0x400).fab with reach := [0, 1] } } : State).fab.reach.contains (idModule 0x400) = true ∧
      ({ sender 0x400 with fab := { (sender 0x400).fab with unreach := [1] } } : State).unreachable (idModule 0x400) = true := by decide
/-- Sends: a second message to a queue of the control class is held behind the first. -/
theorem witness_send_held : let s := (next (.sndQ i0 5 3 5 6 0) ((sender 1).modQueue 1 3 (fun x => { x with cls := true }))).modThread w0 (fun h => { h with state := .run, hold := .none })
    s.ready i0 true = true ∧ (s.queue 1 3).cls = true ∧ ∃ n ∈ s.msgs, n.sender = 0 ∧ n.target = 1 ∧ n.queue = 3 := by decide

/-- One message of core 0 toward queue 3 of core 1. -/
def sent (x : Queue) : State := (next (.sndQ i0 5 3 5 6 0) (sender 1)).modQueue 1 3 (fun _ => x)

theorem witness_commit : let s := sent q4
    s.msgs.length = 1 ∧ Sparse.wf {} s.cores = true ∧ ∀ m ∈ s.msgs, m.phase = .flight ∧ idModule m.target = s.mod.id ∧ s.msgBlocked m = false ∧ m.sender ≠ m.target ∧
      m.origin = .thread w0 ∧ m.epoch = (s.queue 1 3).epoch ∧ (s.queue 1 3).opn = true ∧ (s.queue 1 3).occ < 2 ^ (s.queue 1 3).slots.toNat ∧
      (s.queue 1 3).tail < 2 ^ (s.queue 1 3).slots.toNat := by decide
theorem witness_commit_refused : ((sent { q4 with epoch := 1 }).queue 1 3).epoch ≠ 0 ∧ ((sent { q4 with opn := false }).queue 1 3).opn = false ∧
    2 ^ ((sent { q4 with occ := 4 }).queue 1 3).slots.toNat ≤ ((sent { q4 with occ := 4 }).queue 1 3).occ := by decide

def answered (x : Queue) : State := next (.messageCommit 0) (sent x)
def refused : State := next (.sendAnswer 0) (answered { q4 with occ := 4 })

theorem witness_send_waits : let s := answered q4
    (s.thread w0).hold = .snd 0 5 5 false ∧ (s.thread w0).haltReq = Option.none ∧ (s.thread w0).stepping = false ∧ s.msgs.length = 1 ∧
      (∀ m ∈ s.msgs, m.phase = .answer 0) ∧ (∀ m ∈ (answered { q4 with occ := 4 }).msgs, m.phase = .answer 2) ∧ (5 : BitVec 16) ≠ 0 ∧ (5 : BitVec 16) ≠ 0xFFFF ∧
      refused.msgs.length = 1 ∧ (∀ m ∈ refused.msgs, m.phase = .backoff ∧ idModule m.target = refused.mod.id) ∧ (refused.thread w0).hold = .snd 0 5 5 false ∧
      (∀ m ∈ (sent q4).msgs, m.phase ≠ .backoff ∧ m.phase ≠ .held) ∧
      (next (.sndTimeout w0) (answered { q4 with occ := 4 })).msgs.length = 1 ∧
      ((next (.sndTimeout w0) (answered { q4 with occ := 4 })).thread w0).hold = .snd 0 5 5 true ∧
      ((next (.sndQ i0 0 3 5 6 0) (sender 1)).thread w0).hold = .snd 0 5 0 false := by decide

theorem test_snd_no_station : after (.sndQ i0 5 3 5 6 0) (run id) (fun t => (t.thread w0).cause == 0x0000010F) = true := by decide
theorem test_message_commits : after (.messageCommit 0) (sent q4) (fun t => (t.queue 1 3).occ == 1 && t.byteAt (.ls 1 0x1000) == 0x55) = true := by decide
theorem test_send_ends : after (.sendAnswer 0) (answered q4) (fun t => (t.thread w0).state == .run && reg0 t 5 == 0 && (t.thread w0).pend == 0) = true := by decide
theorem test_send_times_out : after (.sndTimeout w0) refused (fun t => reg0 t 5 == 3 && t.msgs == []) = true := by decide

/-- Queue 3 of core 0 holds one message. -/
def holding : State := (withQueue { q4 with occ := 1, tail := 1 }).modCore 0 (fun x => { x with ls := [(0x1000, 0x77)] })

theorem witness_takes : let s := holding
    s.ready i0 true = true ∧ s.selPick w0 8 false = some 3 ∧ s.selPick w0 8 true = some 3 ∧ s.watchSlot w0 3 = Option.none ∧ s.poisoned (.ls 0 0x1000) 256 = false ∧
      s.poisoned (.ls 0 (0x1000 + 256 * 4)) 8 = false ∧ (BitVec.ofNat 64 (leNat (s.readLoc (.ls 0 (0x1000 + 256 * 4)) 8))).extractLsb' 62 2 ≠ 2 ∧
      (∀ t : ThrIx, (s.thread ⟨0, t⟩).hold = .none) ∧ (s.queue 0 3).occ ≠ 0 ∧ (withQueue q4).selPick w0 8 false = Option.none ∧
      (withQueue q4).selClosed w0 8 = false ∧ (run id).selClosed w0 8 = true ∧ ((run id).queue 0 3).occ = 0 := by decide
theorem witness_sel_wakes : let s := selecting.modQueue 0 3 (fun x => { x with occ := 1, tail := 1 })
    s.selTake w0 8 false = some 3 ∧ s.selTake w0 8 true = some 3 ∧ s.selFirst w0 3 0 = true ∧ (∀ t : ThrIx, t ≠ 0 → (s.thread ⟨0, t⟩).hold = .none) ∧ selecting.selTake w0 8 false = Option.none ∧
      (s.modThread ⟨0, 1⟩ (fun h => { h with state := .wait, hold := .sel 8 false 5 6 0xFFFF 0 Option.none })).selFirst w0 3 1 = false ∧
      (5 : BitVec 16) ≠ 0xFFFF := by decide

theorem test_sel_takes : after (.selQ i0 5 8 false 5 6) holding (fun t => lane ((t.thread w0).vec 6) 8 0 == 0x77 && (t.queue 0 3).occ == 0 && reg0 t 5 == 0x30) = true := by
  decide
theorem test_poll_empty : after (.pollQ i0 3 5 6) (withQueue q4) (fun t => reg0 t 5 == 0x31) = true := by decide

/-! ### Streams -/

/-- FEED_CTL of a stream of 4 KiB in the local store. -/
def feedVal : Word := 0x40000C0100000000 + 12

theorem witness_feed : let s := run id
    let x := s.stream w0 0
    let y : Stream := { x with loc := feedVal.getLsbD 62, sc := feedVal.getLsbD 61, fmt := feedVal.extractLsb' 52 4, rowsf := feedVal.extractLsb' 47 5,
                               kf := feedVal.extractLsb' 42 5, ahead := feedVal.extractLsb' 32 4, size := feedVal.extractLsb' 0 5 }
    x.en = false ∧ (12 ≤ y.size.toNat ∧ y.size.toNat ≤ 23 ∧ y.base.toNat % 2 ^ y.size.toNat = 0 ∧ y.loc = true ∧
      y.base.toNat + 2 ^ y.size.toNat ≤ 4096 * (s.core 0).lsLimit.toNat) ∧ tileShape (y.shape 0) y.sc false = Option.none ∧
      s.aheadOthers w0 0 + y.ahead.toNat + 1 ≤ 16 ∧ y.mode = 0 ∧ ((11 : Word).extractLsb' 0 5).toNat < 12 ∧ s.relayTarget 0 x = Option.none := by decide

def fed : State := next (.feedEnable (.thread w0) 0 0 0 feedVal) (run (fun h => { h with streams := [(0, { count := 4, tstep := 64, rstride := 64 })] }))
def filling : State := next (.outriderFill 0 0 0) fed

theorem witness_stream_fill : let x := fed.stream w0 0
    x.en = true ∧ x.mode = 0 ∧ x.tiles.length ≤ x.ahead.toNat ∧ (x.tiles.filter (fun y => !y.consumed)).length < x.count.toNat ∧ x.tiles = [] ∧ (fed.core 0).fenced = false ∧
      ((run id).stream w0 0).en = false := by decide
theorem witness_stream_returns : let s := filling
    let x := s.stream w0 0
    x.tiles.length = 1 ∧ (∀ y ∈ x.tiles, y.ready = false ∧ ringRow x y.pos 0 + tileRowBytes (x.shape 0) x.sc ≤ 2 ^ x.size.toNat ∧
      s.poisoned (.ls 0 (ringRow x y.pos 0)) (tileRowBytes (x.shape 0) x.sc) = false) ∧ x.loc = true ∧ 0 < tileRowBytes (x.shape 0) x.sc ∧ x.rowsf = 0 ∧
      x.base.toNat + 2 ^ x.size.toNat ≤ 4096 * (s.core 0).lsLimit.toNat := by decide

/-- Stream 0 of core 0 sends to stream 1 of core 1. -/
def relaying (cons : Bool) : State :=
  let s := run (fun h => { h with streams := [(0, { en := true, mode := 1, cons := cons, count := 2, tstrm := 1, tiles := [{ id := 9, ready := true }] })] })
  s.modStream ⟨1, 0⟩ 1 (fun _ => { en := true, mode := 2, ahead := 1 })

theorem witness_relay : let s := relaying true
    let x := s.stream w0 0
    s.relayTarget 0 x = some (⟨1, 0⟩, 1) ∧ (⟨1, 0⟩ : Who) ≠ w0 ∧ x.mode = 1 ∧ x.en = true ∧ (∀ y ∈ x.tiles, y.sent = false ∧ y.ready = true ∧ y.defer = Option.none) ∧
      (s.stream ⟨1, 0⟩ 1).mode ≠ 3 ∧ s.relays = [] ∧ (s.core 1).fenced = false ∧ (s.stream ⟨1, 0⟩ 1).tiles.length ≤ (s.stream ⟨1, 0⟩ 1).ahead.toNat ∧
      ((s.modCore 1 (fun x => { x with fenced := true })).core 1).fenced = true ∧
      ((s.modStream ⟨1, 0⟩ 1 (fun x => { x with ahead := 0, tiles := [{}] })).stream ⟨1, 0⟩ 1).tiles.length = 1 := by decide

def relayed : State := next (.relaySend 0 0 0) (relaying false)

theorem witness_relay_arrives : relayed.relays.length = 1 ∧ (∀ r ∈ relayed.relays, r.ends = false ∧ r.core = 1 ∧ r.thr = 0 ∧ r.strm = 1) ∧
    (relayed.stream ⟨1, 0⟩ 1).en = true ∧ (relayed.stream ⟨1, 0⟩ 1).mode = 2 := by decide

theorem test_fill_starts : after (.outriderFill 0 0 0) fed (fun t => ((t.stream w0 0).tiles.map (fun y => y.ready)) == [false]) = true := by decide
theorem test_relay_frees : (relayed.stream w0 0).tiles = [] ∧ (relayed.stream w0 0).count = 1 := by decide
theorem test_relay_arrives : after (.relayTileArrival 0) relayed (fun t => ((t.stream ⟨1, 0⟩ 1).tiles.map (fun y => y.id)) == [9]) = true := by decide

/-! ### Writes, Loft, scrubs -/

def writing : State := next (.stW i0 2 1 (mg 0)) (run (fun h => (h.setReg 1 hbm0).setReg 2 7))
def acking : State := next (.writeArrival 0) writing

theorem witness_perform : (Loc.hbm 0 8).here = true ∧ Sparse.wf {} (run id).cores = true ∧ Sparse.wf {} ((run id).core 0).threads = true ∧
    Sparse.wf {} ((run id).core 1).threads = true := by decide
theorem witness_write_arrives : writing.writes.length = 1 ∧ (∀ x ∈ writing.writes, x.loc.here = true ∧ writing.writeBlocked x = false) ∧ acking.acks.length = 1 ∧
    (∀ a ∈ acking.acks, a.src = some w0) ∧ (acking.thread w0).memHold = .none ∧ (acking.thread w0).haltReq = Option.none := by decide
theorem witness_write_blocked : let s := next (.stW i0 3 1 (mg 0)) writing
    s.writes.any (fun x => s.writeBlocked x) = true := by decide
theorem witness_fence_released : let s := next (.fenceS i0) acking
    (s.thread w0).memHold = .fence 4 1 ∧ s.matrixBusy w0 1 = false ∧ s.writes = [] ∧ s.acks.length = 1 ∧ s.msgs = [] := by decide

theorem test_write_lands : acking.byteAt (.hbm 0 0x1000) = 7 ∧ (acking.thread w0).pend = 1 := by decide
theorem test_ack_releases_fence : after (.writeAckArrival 0) (next (.fenceS i0) acking) (fun t => (t.thread w0).memHold == .none && (t.thread w0).pend == 0) = true := by decide

/-- FillsCancelled: a fill whose line cache.inv covers, and the state after in which it returns. -/
theorem witness_fill_cancelled : let s := loading.modThread w0 (fun h => { h with loads := [] })
    s.ready i0 false = true ∧ s.reads.length = 1 ∧ (∀ f ∈ s.reads, f.fill = some (s.lineTag hbm0, true) ∧ f.who = w0) ∧ (s.lineTag hbm0 * 64 + hbm0.toNat % 64 + 0) / 64 = s.lineTag hbm0 := by
  decide
theorem witness_fill_returns : let v := next (.cacheInvall { i0 with who := ⟨0, 1⟩ }) (loading.modThread ⟨0, 1⟩ (fun h => { h with state := .run, pc := hbm0 }))
    v.reads.length = 1 ∧ (∀ f ∈ v.reads, f.fill = some (v.lineTag (hbm0 + 8), false) ∧ f.loc = .hbm 0 0x1000 ∧ f.atom = Option.none ∧ f.engine = Option.none ∧
      v.readReady f = true ∧ v.poisoned f.part f.take = false ∧ f.take = 4 ∧ f.skip + 4 ≤ f.len) ∧ (v.thread w0).loads.length = 1 ∧
      (∀ op ∈ (v.thread w0).loads, op.kind = .scalar 2 4 true ∧ op.parts = [.wait 0] ∧ op.upd = Option.none) := by decide

/-- A load of a Loft is out. -/
def loftRead : State := next (.ldW i0 2 1 (mg 8)) (run (fun h => h.setReg 1 loft0))

theorem witness_loft_read : loftRead.reads.length = 1 ∧ (∀ f ∈ loftRead.reads, (∃ off, f.loc = .loft 0 off ∧ off % 64 + f.len ≤ 64) ∧ f.got = .no ∧ f.atom = Option.none ∧
    loftRead.readReady f = true) ∧ (loftRead.die 0).merges = [] := by
  refine ⟨by decide, ?_, by decide⟩
  intro f hf
  have h : f.loc = .loft 0 64 ∧ f.len ≤ 64 ∧ f.got = .no ∧ f.atom = Option.none ∧ loftRead.readReady f = true := by revert f; decide
  exact ⟨⟨64, h.1, by omega⟩, h.2.2.1, h.2.2.2.1, h.2.2.2.2⟩
theorem witness_merge_joins : let s := next (.loftReadArrival 0) loftRead
    (s.die 0).merges.map (fun m => (m.line, m.joined)) = [(1, 1)] := by decide
theorem witness_scrub_ddr : ((run id).die 0).ddrBytes / 64 = 0 ∧ (((run id).modDie 0 (fun x => { x with ddrBytes := 128 })).die 0).ddrBytes / 64 ≠ 0 := by decide

theorem test_scrub_wraps : after (.lsPatrolScrub 0 .none) ((run id).modCore 0 (fun x => { x with lsScrub := 131071 })) (fun t => (t.core 0).lsScrub == 0) = true := by decide
theorem test_scrub_fences : after (.lsPatrolScrub 0 .uncorrectable) (run id) (fun t => (t.core 0).fenced && (t.thread w0).state == .fenced) = true := by decide

/-! ### DMA -/

/-- A channel that copies one line of 64 bytes from 0 to 0x1000 of the local store. -/
def desc : DmaDesc := ⟨0, 0, 0x8000000100000040, 0x1000, 0, 0x8000000100000040⟩
def channel (f : Chan → Chan) : State := (run id).modChan 0 0 (fun x => f { x with desc := desc })
def dmaQueued : State := next (.dmaGo (.thread w0) 0 0 0x500) (channel id)
def active (f : Chan → Chan) : State := (next (.dmaChannelStart 0 0) dmaQueued).modChan 0 0 f

theorem witness_dma_go : let x := (channel id).chan 0 0
    let bound : Int := 4096 * ((channel id).core 0).lsLimit.toNat
    x.state = 0 ∧ (∀ y ∈ [x.desc.read, x.desc.write], y.start.toNat % 64 = 0 ∧ y.stride.toNat % 64 = 0 ∧ y.len = 64 ∧ y.count = 1 ∧
      0 ≤ (y.start.toNat : Int) + 0 * y.stride.toInt ∧ (y.start.toNat : Int) + 0 * y.stride.toInt + y.len ≤ bound) ∧ (0x500 : Word).getLsbD 1 = false ∧
      ((dmaQueued.chan 0 0).state = 1) := by decide
theorem witness_dma_rejects : let side (a b : Word) : Side := ⟨a, 0, b⟩
    (side 8 0x40).start.toNat % 64 ≠ 0 ∧ (side 0 0).len = 0 ∧ (8388608 : Int) < (side 0x800000 0x8000000100000040).start.toNat + 64 ∧
      ((run id).core 0).resolve 0 0 = Option.none ∧ (2 : Word).getLsbD 1 = true := by decide
theorem witness_dma_orders : let s := dmaQueued
    (s.team 0).order = [0] ∧ (s.chan 0 0).state ≠ 3 ∧ s.teamQuiesced 0 = false ∧
      (s.modDie 0 (fun x => { x with quiesce := some ⟨0⟩ })).teamQuiesced 0 = true ∧ ((active (fun x => { x with state := 3 })).chan 0 0).state = 3 ∧
      (s.team 0).order.Nodup ∧ ((channel id).team 0).order = [] ∧ ((active (fun x => { x with unacked := 1 })).chan 0 0).unacked ≠ 0 := by decide
theorem witness_dma_moves : let s := active id
    let x := s.chan 0 0
    x.state = 2 ∧ x.ending = Option.none ∧ x.bad = Option.none ∧ x.kept = [] ∧ x.moved < x.act.granules ∧ Sparse.wf {} s.cores = true ∧ x.act.read.loc = true ∧ x.act.write.loc = true ∧
      s.poisoned (.ls 0 0) 64 = false ∧ s.sideLoc 0 x x.act.read .read 0 = some (.ls 0 0) ∧ s.sideLoc 0 x x.act.write .write 0 = some (.ls 0 0x1000) ∧ overlap (.ls 0 0x1000) 64 (.ls 0 0) 64 = false ∧ x.unacked = 0 ∧
      ((active (fun x => { x with moved := 1 })).chan 0 0).act.granules ≤ 1 := by decide
/-- DmaTransfers: a granule that is poisoned at its source. -/
theorem witness_dma_fault : let s := (active id).modCore 0 (fun x => { x with lsPoison := [(0, true)] })
    s.poisoned (.ls 0 (0 + ((s.chan 0 0).act.read.addr 0).toNat)) 64 = true := by decide
theorem witness_dma_waits : let s := next (.syncE i0 0x10) (active id)
    (s.thread w0).hold = .syncDma 0x10 ∧ s.dmaQuiet w0 = false ∧ (s.modChan 0 0 (fun x => { x with state := 4 })).dmaQuiet w0 = true := by decide

theorem test_dma_copies : after (.dmaChannelStart 0 1) ((active id).modCore 0 (fun x => { x with ls := [(3, 9)] }))
    (fun t => t.byteAt (.ls 0 0x1003) == 9 && (t.chan 0 0).moved == 1) = true := by decide
theorem test_dma_done : after (.dmaChannelDone 0) (active (fun x => { x with moved := 1 })) (fun t => (t.chan 0 0).state == 4 && (t.team 0).order == []) = true := by decide
theorem test_dma_go_busy : after (.dmaGo (.thread w0) 0 0 0) dmaQueued (fun t => (t.chan 0 0).werr) = true := by decide

/-! ### Translation -/

/-- Thread 0 waits for the translation of page 0; the level-1 entry at the start of die 0's Loft leads to a table at 0x20000 with this entry. -/
def walking (root l1 e : Word) (x : Xlate) : State :=
  let s := run (fun h => { h with hold := .xlate x })
  let s : State := { s with dict := { s.dict with vals := [(256 * 0x2300, toBytes root.toNat 8)] } }
  (s.perform (.loft 0 0) ((toBytes l1.toNat 8).map some)).perform (.loft 0 0x20000) ((toBytes e.toNat 8).map some)

def root0 : Word := 0x8000000000000000
def level1 : Word := 0x8000000000020000
/-- A readable and writable page of the HBM. -/
def page0 : Word := 0x9800000000000000

def access : Xlate := { page := 0, tval := 8 }

theorem witness_walk : let s := walking root0 level1 page0 access
    (s.thread w0).hold = .xlate access ∧ Sparse.wf {} s.cores = true ∧ s.ptRoot.getLsbD 63 = true ∧ (s.die 0).walkL1 = [] ∧
      BitVec.ofNat 64 (leNat (s.readLoc (.loft 0 0) 8)) = level1 ∧ level1Bad level1 = false ∧ BitVec.ofNat 64 (leNat (s.readLoc (.loft 0 0x20000) 8)) = page0 ∧
      level2Bad page0 = false ∧ page0.getLsbD 60 = true ∧ page0.extractLsb' 61 2 = 0 ∧ s.poisoned (.loft 0 0x20000) 8 = false ∧
      (walking 0 level1 page0 access).ptRoot.getLsbD 63 = false := by decide
/-- Entries that are absent, malformed, without a permission, under migration, and BUSY. -/
theorem witness_entries : (0 : Word).getLsbD 63 = false ∧ level1Bad (level1 ||| 1) = true ∧ level2Bad (page0 ||| 0x8000000) = true ∧ (0x8000000000000000 : Word).getLsbD 60 = false ∧
    (0xD800000000000000 : Word).extractLsb' 61 2 = 2 ∧ level2Bad 0xD800000000000000 = false ∧ (0xD800000000000000 : Word).getLsbD 57 = false ∧
    (0xDA00000000000000 : Word).getLsbD 57 = true ∧ walkOutcome .read (some level1) (some 0xDA00000000000000) = .busy ∧ walkOutcome .read (some level1) (some page0) = .mapped page0 ∧
    walkOutcome .read (some 0) Option.none = .absent 0 ∧ walkOutcome .read (some level1) (some 0) = .absent 1 ∧ walkOutcome .read (some level1) (some 0xD800000000000000) = .claim ∧
    walkOutcome .read (some (level1 ||| 1)) (some page0) = .malformed ∧ walkOutcome .write (some level1) (some 0x9000000000000000) = .denied ∧
    walkOutcome .read (some level1) Option.none = .poisoned := by decide

def walked (e : Word) : State := next (.translationWalk w0) (walking root0 level1 e access)

theorem witness_walk_completes : let s := walked page0
    (s.thread w0).hold = .xlate { access with walked := some (some level1, some page0, 0, 0x20000), busy := false } ∧ s.mmQueued w0 = false ∧ (s.thread w0).memHold = .none ∧
      (s.thread w0).inTrap = false ∧ (s.thread w0).tvec ≠ 0 ∧ (s.thread w0).haltReq = Option.none ∧ (s.thread w0).stepping = false ∧ 0x20000 < 2 ^ 32 ∧
      ((next (.walkComplete w0) (walked 0xDA00000000000000)).thread w0).hold =
        .xlate { access with walked := some (some level1, some 0xDA00000000000000, 0, 0x20000), busy := true } := by decide

theorem test_walk_sets_acc : (walked page0).byteAt (.loft 0 0x20007) = 0x99 := by decide
theorem test_walk_claims : (walked 0xD800000000000000).byteAt (.loft 0 0x20007) = 0xDA := by decide
theorem test_walk_installs : after (.walkComplete w0) (walked page0) (fun t => (t.team 0).xl == [(0, page0)] && (t.thread w0).hold == .none) = true := by decide
theorem test_absent_page : after (.walkComplete w0) (walked 0) (fun t => (t.thread w0).cause == 6 && (t.thread w0).tval == 8) = true := by decide

def invalidating : State := next (.xlInvTeam .window 0 0) (next (.walkComplete w0) (walked page0))

theorem witness_invalidation : let s := next (.walkComplete w0) (walked page0)
    (s.core 0).xlInv = Option.none ∧ (invalidating.core 0).xlInv = some 0 ∧ invalidating.invBusy 0 0 = false ∧ Sparse.wf {} s.teams = true ∧ Sparse.wf {} s.dies = true ∧
      Sparse.wf {} s.cores = true ∧ Sparse.wf {} (s.core 0).threads = true := by decide
theorem witness_invalidation_busy : let s := invalidating
    let r : RFlight := ⟨0, w0, .hbm 0 0, 8, 0, some 0, Option.none, 0, 8, Option.none, .no, Option.none⟩
    ({ s with reads := [r] } : State).invBusy 0 0 = true := by decide
theorem test_invalidation : (invalidating.team 0).xl = [] ∧ after (.xlInvComplete 0) invalidating (fun t => (t.core 0).xlInv == Option.none) = true := by decide
theorem test_invalidation_twice : after (.xlInvModule .window 0 0) invalidating (fun t => (t.core 0).xlErr) = true := by decide

/-! ### Harness -/

def bar : Barrier := { en := true, local_ := 1 }
def withBar (x : Barrier) (f : Thread → Thread) : State := (run f).modDie 0 (fun d => { d with barriers := [(0, x)] })

theorem witness_arrive : let x := (withBar bar id).barrier 0 0
    (withBar bar id).ready i0 false = true ∧ x.en = true ∧ x.covers 0 = true ∧ ¬(x.local_.toNat ≤ x.count) ∧ ((run id).barrier 0 0).en = false ∧
      bar.covers 4 = false ∧ (let y := (withBar { bar with count := 1 } id).barrier 0 0; y.local_.toNat ≤ y.count ∧ y.early ≠ y.local_.toNat) ∧
      (let y := (withBar { bar with count := 1, early := 1 } id).barrier 0 0; y.local_.toNat ≤ y.count ∧ y.early = y.local_.toNat) ∧
      Sparse.wf {} ((withBar bar id).die 0).barriers = true := by decide
theorem witness_wait : let past (gen g : BitVec 16) : Bool := decide (1 ≤ (gen - g).toNat ∧ (gen - g).toNat ≤ 0x7FFF)
    past 1 0 = true ∧ past 0x7FFF 0 = true ∧ past 0x8000 0 = false ∧ past 0 0 = false := by decide

def gathering (level : BitVec 3) : State := withBar { bar with count := 1, level := level, dies := 1, modules := 1 } id

theorem witness_report : let x (n : BitVec 3) := (gathering n).barrier 0 0
    (x 2).en = true ∧ (x 2).reported = false ∧ (x 2).count = (x 2).local_.toNat ∧ (x 2).level.toNat ≤ 2 ∧ 2 < (x 3).level.toNat ∧ (x 3).dies &&& 1 = (x 3).dies ∧
      (x 3).level ≠ 4 ∧ (x 4).root = (gathering 4).mod.id ∧ (x 4).modules.toNat ≤ [(gathering 4).mod.id].length ∧
      (3 : BitVec 4) &&& 1 ≠ 3 ∧ (7 : BitVec 12) ≠ (gathering 4).mod.id ∧ [(0 : BitVec 12)].length < (2 : BitVec 13).toNat := by decide
theorem witness_release : let s := next (.hbReport 0 0 .none) (gathering 2)
    0 < (s.barrier 0 0).relPend ∧ (s.barrier 0 0).en = true ∧ Sparse.wf {} s.cores = true ∧ (let r := (gathering 2).barrier 0 0; ¬(0 < r.relPend) ∧ r.level ≠ 4) ∧
      (let z := next (.hbWait i0 5 0 0) (next (.hbReport 0 0 .none) (gathering 2)); (z.thread w0).hold = .hbWait 0 0 5 ∧ (z.thread w0).haltReq = Option.none ∧
        (z.thread w0).stepping = false) := by decide

theorem test_arrive : after (.hbArrive i0 5 0) (withBar { bar with gen := 3 } id) (fun t => reg0 t 5 == 3 && (t.barrier 0 0).count == 1) = true := by decide
theorem test_arrive_off : after (.hbArrive i0 5 0) (run id) (fun t => (t.thread w0).cause == 0x00010007) = true := by decide
theorem test_wait_passed : after (.hbWait i0 5 0 2) (withBar { bar with gen := 3 } (fun h => h.setReg 2 2)) (fun t => reg0 t 5 == 3) = true := by decide
theorem test_release_resumes : after (.hbRelease 0 0) (next (.hbWait i0 5 0 0) (next (.hbReport 0 0 .none) (gathering 2)))
    (fun t => reg0 t 5 == 1 && (t.thread w0).state == .run && (t.barrier 0 0).count == 0) = true := by decide

/-- HB_CFG of a team barrier of one core. -/
def cfg : Word := 0x8000000100000000

theorem witness_bar_words : let s := run id
    cfg.getLsbD 63 = true ∧ (cfg.extractLsb' 59 3 : BitVec 3) = 0 ∧ ((cfg.extractLsb' 48 8 : BitVec 8)).toNat < 64 ∧ 1 ≤ ((cfg.extractLsb' 32 11 : BitVec 11)).toNat ∧
      (cfg.extractLsb' 8 4 : BitVec 4) = 0 ∧ (s.barrier 0 0).count = 0 ∧ (s.barrier 0 0).early = 0 ∧ s.hbWaiters 0 0 = [] ∧ (0x100000000 : Word).getLsbD 63 = false ∧
      ((0x8000000000000000 : Word).extractLsb' 32 11 : BitVec 11) = 0 ∧ ((gathering 2).barrier 0 0).count ≠ 0 := by decide
theorem witness_bar_off_traps : let s := next (.hbWait i0 5 0 0) (withBar bar id)
    s.hbWaiters 0 0 = [w0] ∧ (s.thread w0).hold = .hbWait 0 0 5 ∧ (s.thread w0).haltReq = Option.none ∧ (s.thread w0).stepping = false ∧ (s.thread w0).inTrap = false ∧
      (s.thread w0).tvec ≠ 0 ∧ s.mmQueued w0 = false ∧ (s.thread w0).memHold = .none ∧ (s.thread w0).loads = [] := by decide
theorem witness_bar_timeout : let s := withBar { bar with tmo := 1, count := 1, local_ := 2 } id
    (s.barrier 0 0).en = true ∧ (s.barrier 0 0).tmo ≠ 0 ∧ (s.barrier 0 0).count ≠ 0 ∧ s.hbWaiters 0 0 = [] ∧ s.boot.headStopped = false ∧
      (s.barrier 0 0).count < (s.barrier 0 0).local_.toNat := by decide

/-- A release that waits in the queue, and so falls into the C-cycle of an arrival and of a timeout (R334, R336). -/
theorem witness_bar_same_cycle : let s : State := { withBar { bar with relPend := 1, count := 1, tmo := 1 } id with pending := [.hbRelease 0 0] }
    s.pending = [.hbRelease 0 0] ∧ 0 < (s.barrier 0 0).relPend ∧ s.ready i0 false = true ∧ decide (next (.hbArrive i0 5 0) s = s) = true ∧
      decide (next (.hbTimeout 0 0) s = s) = true ∧ ((next (.hbRelease 0 0) s).barrier 0 0).count = 0 := by decide

/-- Thread 0 waits in a harness wait, and nothing else of core 0 runs. -/
def quietState : State := next (.hbWait i0 5 0 0) (withBar bar id)

theorem witness_quiet : let s := quietState
    (s.barrier 0 0).en = true ∧ (s.barrier 0 0).quietReported = false ∧ s.present 0 = true ∧ (s.barrier 0 0).covers 0 = true ∧ (s.thread w0).state = .wait ∧
      s.cores.map (fun e => e.1) = [0] ∧ (∀ t : ThrIx, t ≠ 0 → (s.thread ⟨0, t⟩).state = .free) ∧ (∀ y ∈ (s.die 0).barriers, (s.barrier 0 0).inside y.2 = false) ∧
      Sparse.wf {} s.cores = true ∧ ((withBar bar id).thread w0).state = .run := by decide
theorem witness_quiet_inside : bar.inside { bar with level := 2 } = true := by decide

theorem test_bar_enable : after (.hbCfgWrite .window 0 0 cfg) (run id) (fun t => (t.barrier 0 0).en && (t.barrier 0 0).local_ == 1) = true := by decide
theorem test_bar_by_thread : after (.hbCfgWrite (.thread w0) 0 0 cfg) (run id) (fun t => !(t.barrier 0 0).en && (t.barrier 0 0).err) = true := by decide
theorem test_bar_off_traps : after (.hbCfgWrite .window 0 0 0x100000000) quietState (fun t => (t.thread w0).cause == 0x0000000C) = true := by decide

/-! ### Reductions -/

def red0 : RedCtx := { state := 1, gen := 5 }
def tile1 : Contrib := ⟨0, ⟨1, 0⟩, 0, .none, .none, 2, 0, 5, 0, 0, 0, 0, List.replicate 256 0x3F800000, .none, 256, false, 0, .none⟩
def reducing (x : RedCtx) (n : Contrib) : State := { (run id).modCore 0 (fun c => { c with red := [(2, x)] }) with contribs := [n] }

theorem witness_red_arm : let x := (run id).redCtx 0 2
    x.state ≠ 1 ∧ x.mean = false ∧ x.ntf = false ∧ 1024 * x.result.toNat + 1024 + 4096 * (x.blocks.toNat + 1) ≤ 8388608 ∧ 1024 * x.stage.toNat + 65536 ≤ 8388608 ∧
      ((reducing red0 tile1).redCtx 0 2).state = 1 ∧ 8388608 < 1024 * (8191 : BitVec 13).toNat + 65536 := by decide
theorem witness_red_tile : let s := reducing red0 tile1
    let x := s.redCtx 0 2
    s.contribs = [tile1] ∧ tile1.away = Option.none ∧ tile1.from_ = Option.none ∧ tile1.data ≠ [] ∧ tile1.epoch = (s.queue 0 2).epoch ∧ (x.gen - tile1.gen).toNat = 0 ∧
      ¬(x.ranks.toNat < tile1.rank.toNat ∨ x.blocks.toNat < tile1.block.toNat) ∧ tile1.thinm1 = x.thinm1 ∧ x.excluded = [] ∧ x.received 0 0 = false ∧
      x.inWindow 0 0 = true ∧ x.unit = 0 ∧ x.rank = 0 ∧ tile1.credit = false ∧ ({ tile1 with credit := true } : Contrib).credit = true := by decide
/-- ReductionContexts: each test a tile can fail, and one that waits. -/
theorem witness_red_refusals : let x := red0
    (7 : BitVec 16) ≠ ((reducing red0 tile1).queue 0 2).epoch ∧ 1 ≤ (x.gen - 4).toNat ∧ (x.gen - 4).toNat ≤ 128 ∧ (x.gen - 133).toNat = 128 ∧ 128 < (x.gen - 6).toNat ∧
      x.ranks.toNat < (1 : BitVec 12).toNat ∧ (1 : BitVec 6) ≠ x.thinm1 ∧ ({ x with state := 2 } : RedCtx).state = 2 ∧
      ({ x with staged := [(tile1, .none)] } : RedCtx).received 0 0 = true := by decide
theorem witness_red_staged : let x : RedCtx := { red0 with ranks := 1 }
    let n : Contrib := { tile1 with rank := 1, credit := true }
    x.inWindow 0 1 = true ∧ ¬(n.rank.toNat = x.rank) ∧ (∀ e ∈ x.staged, e.2 ≠ some 0) ∧ Sparse.wf {} (reducing x n).cores = true := by decide

/-- ReductionContexts: a tile for another module, and one that came from another module: granted, accepted, refused. -/
theorem witness_red_remote : let out : Contrib := { tile1 with away := some 0x1C00 }
    let came (credit : Bool) : Contrib := { tile1 with from_ := some (0x1C00, 3), credit := credit }
    let s (n : Contrib) := reducing red0 n
    (∀ m ∈ (s out).contribs, m.credit = false ∧ m.away = some 0x1C00 ∧ m.from_ = Option.none ∧ ¬(m.q < out.q)) ∧ idModule 0x1C00 = 7 ∧
      (s (came false)).redTest (came false) = .credit ∧ (s (came true)).redTest (came true) = .credit ∧ ((s (came true)).redCtx 0 2).hasRoom (came true) = true ∧
      (s { came true with gen := 4 }).redTest { came true with gen := 4 } = .refuse 6 ∧ (came true).data ≠ [] := by decide
theorem test_red_arm : after (.redArm .window 0 2 9) (run id) (fun t => (t.redCtx 0 2).state == 1 && (t.redCtx 0 2).gen == 9) = true := by decide
theorem test_red_earlier : after (.redTileArrival 0) (reducing red0 { tile1 with gen := 4 })
    (fun t => (t.thread ⟨1, 0⟩).redRej && (t.thread ⟨1, 0⟩).redReason == 6 && (t.redCtx 0 2).late == 1) = true := by decide
theorem test_red_credit : after (.redCreditGrant 0) (reducing red0 tile1) (fun t => t.contribs.all (fun n => n.credit)) = true := by decide

def staged (x : RedCtx) : State := reducing { x with staged := [({ tile1 with credit := true }, .none)] } { tile1 with seq := 1 }

theorem witness_red_add : let s := staged { red0 with ranks := 1 }
    let x := s.redCtx 0 2
    x.state = 1 ∧ (s.core 0).fenced = false ∧ x.staged = [({ tile1 with credit := true }, .none)] ∧ (x.rank < 1 ∧ 1 ≤ x.ranks.toNat ∧ 1 ∉ x.excluded) ∧
      (reducing red0 tile1).redCtx 0 2 = red0 ∧ red0.staged = [] := by decide
/-- ReductionResults: the last rank's tile, without a sum, so that the unit is exempt (R162). -/
theorem witness_red_unit : let x := (staged red0).redCtx 0 2
    (∀ r, ¬(x.rank < r ∧ r ≤ x.ranks.toNat ∧ r ∉ x.excluded)) ∧ tile1.sum = Option.none ∧ x.count + tile1.count = 256 * (x.thinm1.toNat + 1) * (x.ranks.toNat + 1 - x.excluded.length) ∧
      x.owner = Option.none := by
  refine ⟨fun r h => ?_, by decide, by decide, by decide⟩
  have h0 : ((staged red0).redCtx 0 2).rank = 0 := by decide
  have h1 : ((staged red0).redCtx 0 2).ranks.toNat = 0 := by decide
  omega
theorem witness_red_unit_passes : (((staged red0).redCtx 0 2).addTile { tile1 with credit := true } tile1.data).unitPasses = true := by decide
/-- Three ranks counted short. -/
theorem witness_red_miscount : 5 + tile1.count ≠ 256 * (0 + 1) * (0 + 1 - 0) := by decide
/-- A unit whose sum is not the one the tiles carry. -/
theorem witness_red_unit_fails : (((staged red0).redCtx 0 2).addTile { tile1 with sum := some 0, credit := true } tile1.data).unitPasses = false ∧
    tile1.data.all isFinite = true := by decide
theorem witness_red_deadline : let x (mean : Bool) : RedCtx := { red0 with deadline := 1, limit := 1, mean := mean }
    let s (mean : Bool) : State := { reducing (x mean) tile1 with time := 65536 }
    (x true).state = 1 ∧ (x true).deadline ≠ 0 ∧ (x true).deadline.toNat ≤ (s true).now ∧ (x true).limit.toNat ≤ (s true).now ∧ (x false).missing = some 0 ∧
      (x true).missing = some 0 ∧ (x true).owner = Option.none ∧ (x true).unit < 4 * ((x true).blocks.toNat + 1) ∧
      ({ x true with arrived := [0] } : RedCtx).rank ∈ [0] ∧ 4 * ((x true).blocks.toNat + 1) ≤ ({ x true with unit := 4 } : RedCtx).unit := by decide
/-- R359: the tile that completes the context arrives in the C-cycle of the deadline. -/
theorem witness_red_in_time : let x : RedCtx := { red0 with deadline := 1 }
    let s : State := { reducing x { tile1 with credit := true } with time := 65536, pending := [.redTileArrival 0] }
    let u := next (.redTileArrival 0) s
    x.state = 1 ∧ x.deadline ≠ 0 ∧ x.deadline.toNat ≤ s.now ∧ s.contribs.map (fun n => (n.seq, n.target, n.ctx)) = [(0, 0, 2)] ∧ u.pending = s.pending ∧ u.now = s.now ∧
      (u.redCtx 0 2).state = 1 ∧ (u.redCtx 0 2).deadline = 1 ∧ (u.redCtx 0 2).mean = false ∧ (u.redCtx 0 2).staged.length = 1 := by decide
theorem witness_red_arrives_once : let s : State := { reducing { red0 with deadline := 1 } { tile1 with credit := true } with time := 65536, pending := [.redTileArrival 0] }
    let u := next (.redTileArrival 0) s
    decide (next (.redTileArrival 0) u = u) = true := by decide
theorem witness_red_forward : let x : RedCtx := { red0 with fwd := true, unit := 4 }
    let s := (reducing x tile1).modCore 0 (fun c => { c with stnEntry := [(0, 0x4000000000000000)] })
    x.nextFwd ≤ x.blocks.toNat ∧ 4 * (x.nextFwd + 1) ≤ x.unit ∧ (s.core 0).fenced = false ∧ (s.core 0).lanes 0 = [0] ∧ idModule 0 = s.mod.id ∧ idCore 0 = 0 ∧
      Sparse.wf {} s.cores = true ∧ idCore 1 ≠ 0 ∧ s.present (idCore 1) = true := by decide
theorem witness_red_done : let x : RedCtx := { red0 with unit := 4 }
    x.state = 1 ∧ 4 * (x.blocks.toNat + 1) ≤ x.unit ∧ x.fwd = false ∧ x.ntf = false ∧ ((reducing x tile1).core 0).fenced = false := by decide

theorem test_red_done : after (.redDone 0 2) (reducing { red0 with unit := 4 } tile1) (fun t => (t.redCtx 0 2).state == 2 && (t.redCtx 0 2).used == 1 &&
    t.byteAt (.ls 0 512) == 1) = true := by decide
theorem test_red_deadline : after (.redDeadline 0 2) { reducing { red0 with deadline := 1 } tile1 with time := 65536 }
    (fun t => (t.redCtx 0 2).state == 3 && (t.redCtx 0 2).outcome == 1) = true := by decide

/-! ### The fabric -/

def linked (x : Port) : State := { run id with fab := { (run id).fab with ports := [(0, x)] } }
/-- A group of idle fill, with its CRC. -/
def group0 : GroupIn := ⟨[], List.replicate 63 idleUnit, List.replicate 24 0, 0, 0, 0xFFFF, false, 16, false, 0⟩
def group1 : GroupIn := { group0 with crc := GroupIn.crcDue group0 }
/-- The same with sixteen symbols of one codeword damaged. -/
def group2 : GroupIn := { group1 with bad := (List.range 16).map (fun k => (0, 4 * k)) }

theorem group1_good (w : Nat) : GroupIn.good group1 w = true := by
  have h : group1.crc = GroupIn.crcDue group1 := rfl
  have b : group1.bad = [] := rfl
  simp [GroupIn.good, h, b, fecCorrects]
theorem group2_bad : GroupIn.good group2 16 = false := by
  have h : fecCorrects 16 group2.bad = false := by decide
  simp [GroupIn.good, h]
/-- R394: fifteen damaged symbols of a codeword are corrected, and sixteen that lie in two codewords. -/
theorem test_fec : fecCorrects 16 ((List.range 15).map (fun k => (0, 4 * k))) = true ∧ fecCorrects 16 ((List.range 16).map (fun k => (0, 2 * k))) = true := by decide

theorem witness_group : let s := linked { up := 1, trained := true }
    let x := s.port 0
    x.up.getLsbD 0 = true ∧ ((run id).port 0).up.getLsbD 0 = false ∧ group1.gseq = (x.link 0).rxNext ∧ group1.nak = false ∧ group1.units.length = 63 ∧
      (∀ i : BitVec 2, x.up.getLsbD i.toNat = true → x.usable.getLsbD i.toNat = true) ∧ 0x8000 ≤ ((0xFFFF : BitVec 16) - (x.link 0).rxNext).toNat ∧
      ¬(0x8000 ≤ ((1 : BitVec 16) - (x.link 0).rxNext).toNat) ∧ 0 ≤ s.effective 0x2504 0 ∧ s.effective 0x2504 0 < s.effective 0x2504 0 + 1 := by decide
/-- Ports: a sub-port that may send a group, and one whose replay buffer is full. -/
theorem witness_group_sent : let x : Port := { up := 1, trained := true }
    let full : Port := x.setLink 0 { x.link 0 with txNext := 256 }
    ((linked x).port 0).up.getLsbD 0 = true ∧ ((x.link 0).txNext - (x.link 0).acked - 1).toNat < 256 ∧ 256 ≤ ((full.link 0).txNext - (full.link 0).acked - 1).toNat ∧
      ((linked x).port 1).up.getLsbD 0 = false := by decide
/-- R395: a group of a sub-port that has nothing to send is idle fill. -/
theorem test_idle_group : (((linked { up := 1, trained := true }).sendGroup 0 0).outbox.map (fun o => match o with
    | .group p j us _ => p == 0 && j == 0 && us == List.replicate 63 idleUnit
    | _ => false)) = [true] := by decide
theorem witness_port : let s := linked { up := 1, trained := true }
    let x := s.port 0
    s.fitted 0 = true ∧ (linked {}).fitted 0 = true ∧ ((linked {}).port 0).usable &&& ~~~((linked {}).port 0).up ≠ 0 ∧ s.boot.headStopped = false ∧ s.boot.mainOn = true ∧
      s.dict.ovlActive ≠ 3 ∧ x.usable &&& ~~~x.up = 0 ∧ ((linked { trained := true }).port 0).trained = true ∧ ((linked {}).port 0).trained = false ∧
      ((linked {}).port 0).up = 0 ∧ ((linked {}).port 0).perm = false := by decide

/-- R396: a good group in its order is taken, and the next GSEQ awaited. -/
theorem test_group_taken : ((((linked { up := 1, trained := true }).trailer 0 0 group1).port 0).link 0).rxNext = 1 := by decide
theorem test_group_bad : after (.groupReceive 0 0 group2) (linked { up := 1, trained := true })
    (fun t => ((t.port 0).link 0).nak && ((t.port 0).link 0).fails == 1 && t.outbox.length == 1) = true := by
  show (match execGroupReceive 0 0 group2 (linked { up := 1, trained := true }) with
    | .next t => ((t.port 0).link 0).nak && ((t.port 0).link 0).fails == 1 && t.outbox.length == 1 | _ => false) = true
  have w : ((linked { up := 1, trained := true }).port 0).width = 16 := by decide
  simp only [execGroupReceive, w, group2_bad]
  decide
theorem test_port_down : after (.portDown 0 0) (linked { up := 1, trained := true }) (fun t => (t.port 0).up == 0) = true := by decide

/-- A packet for module 7, and a route to it over sub-port 0 of port 0. -/
def far7 : Packet := { Packet.base 1 1 7 0 0 with addr := hbm0 }
def routed : State := { linked { up := 1, trained := true } with fab := { (linked { up := 1, trained := true }).fab with routes := [(7, 1)] } }

theorem witness_forward : let s := routed
    let e : BitVec 128 := Sparse.get 0 s.fab.routes far7.dmod.toNat
    far7.dmod ≠ s.mod.id ∧ far7.kind ≠ 15 ∧ far7.smod = s.mod.id ∧ e.getLsbD 0 = true ∧ (s.port (BitVec.ofNat 4 (0 / 4))).up.getLsbD (0 % 4) = true ∧
      ({ far7 with smod := 3, hop := 7 } : Packet).smod ≠ s.mod.id ∧ (∀ b < 64, (((run id).port (BitVec.ofNat 4 (b / 4))).up.getLsbD (b % 4)) = false) := by decide

theorem test_forward_hop : after (.packetForward 0 { far7 with smod := 3 }) routed (fun t => (((t.port 0).link 0).packets.map (fun e => e.2.hop)) == [1]) = true := by decide

/-- A packet of module 7 for this module, in order. -/
def from7 (kind : BitVec 4) : Packet := Packet.seal { Packet.base kind 1 0 7 0 with addr := 0x0001000000001000, payload := [5, 6], len := 2 }

theorem witness_deliver : let s := run id
    let k := from7 1
    let key := streamKey k.sdie k.smod
    k.dmod = s.mod.id ∧ s.boot.headStopped = false ∧ k.kind ≠ 15 ∧ Packet.e2eOk k = true ∧ requestKind k.kind = true ∧ s.fab.unreach = [] ∧ k.sepoch = Sparse.get 0 s.fab.rxEpoch key ∧
      (k.seq - Sparse.get 0 s.fab.rxNext key).toNat = 0 ∧ s.fab.reorder = [] ∧ Sparse.wf {} s.cores = true ∧ s.boot.modSafe = false ∧ s.boot.warming = false ∧
      (s.die (adDie k.addr)).safehold = false ∧ s.remotePlace k.addr 2 = .inr (.hbm 0 0x1000) ∧ s.poisoned (.hbm 0 0x1000) 2 = false ∧
      s.remotePlace 0x0002000000000040 1 = .inr (.loft 0 0x40) ∧ s.remotePlace 0 2 = .inl (violation 1 0) ∧
      s.reorderBytes k.sdie + linkBytes k ≤ 2097152 ∧ 0x800000 ≤ ((0xFFFFFF : BitVec 24) - 0).toNat ∧ ((1 : BitVec 24) - 0).toNat = 1 ∧
      idModule ((5 : Word).extractLsb' 0 22) = s.mod.id ∧ s.present (idCore ((5 : Word).extractLsb' 0 22)) = true := by decide

/-- A write toward module 7 is out. -/
def awayWrite : State :=
  let s := run (fun h => h.setReg 1 0x0071000000001000)
  next (.stW i0 2 1 (mg 0)) { s with fab := { s.fab with reach := [0, 7], routes := [(7, 1)] } }

theorem witness_acknowledged : let s := awayWrite
    s.fab.store.length = 1 ∧ s.writes.length = 1 ∧ (∀ x ∈ s.fab.store, x.die = 0 ∧ x.pkt.dmod = 7 ∧ x.pkt.kind = 1 ∧ (0 - x.pkt.seq).toNat < 0x800000) ∧
      (∀ f ∈ s.writes, f.src = some w0 ∧ f.seq = 0) ∧ (∀ x ∈ s.fab.store, x.flight = 0) ∧ (s.thread w0).memHold = .none ∧ (s.thread w0).haltReq = Option.none ∧
      Sparse.get 0 s.fab.txEpoch (streamKey 0 7) = 0 := by decide

/-- A message and a reduction tile toward module 7 are out, each the only packet in the send store. -/
def awayPkt (kind : BitVec 4) : OutPkt := { die := 0, flight := 5, pkt := { far7 with kind := kind }, ring := .none }
def awayMsg : Msg := { seq := 5, left := 5, source := .port 0, origin := .thread w0, kind := 0, thr := 0, sender := 0, target := 0x1C00, queue := 0, epoch := 0, payload := [1], oneShot := false, limit := Option.none, phase := .flight, refusals := 0 }
def awaySent (kind : BitVec 4) (waits : Bool) : State :=
  let s := run id
  { s with fab := { s.fab with store := [{ awayPkt kind with waits := waits }] }, msgs := [awayMsg], contribs := [{ tile1 with seq := 5, away := some 0x1C00, req := some 0 }] }

theorem witness_ack_others : let m := awaySent 4 false
    let c := awaySent 5 false
    m.fab.store = [awayPkt 4] ∧ (awayPkt 4).pkt.kind = 4 ∧ m.msgs.find? (fun n => n.seq = 5 ∧ n.phase = .flight) = some awayMsg ∧ (0 - (awayPkt 4).pkt.seq).toNat < 0x800000 ∧
      (awayPkt 5).pkt.kind = 5 ∧ (c.contribs.find? (fun n => n.seq = 5)).isSome = true ∧ (awayPkt 5).pkt.payload = [] ∧ ({ (awayPkt 5).pkt with payload := [0] } : Packet).payload ≠ [] ∧
      (awaySent 1 true).fab.store.map (fun x => x.waits) = [true] ∧ 0x800000 ≤ ((0xFFFFFF : BitVec 24) - (awayPkt 4).pkt.seq).toNat ∧
      (c.contribs.find? (fun n => decide (n.req = some 0 ∧ coreDie n.sender.core = 0) && !n.credit && (match n.away with | some t => decide (idModule t = 7) | Option.none => false))).isSome = true := by
  decide
/-- Packets: a store toward module 7, which is not unreachable, and is. -/
theorem witness_store_away : let s := run (fun h => h.setReg 1 0x0071000000001000)
    let u : State := { s with fab := { s.fab with unreach := [7] } }
    s.reaches w0 1 Option.none (mg 0) .write 4 0x0071000000001000 Option.none (.remote 7 0x0071000000001000) Option.none ∧ s.unreachable 7 = false ∧
      (0x0071000000001000 : Word).toNat % 4096 + 4 ≤ 4096 ∧ u.unreachable 7 = true ∧ u.ready i0 false = true ∧
      u.reaches w0 1 Option.none (mg 0) .write 4 0x0071000000001000 Option.none (.remote 7 0x0071000000001000) Option.none :=
  ⟨⟨by decide, by decide, by decide, by decide⟩, by decide, by decide, by decide, by decide, ⟨by decide, by decide, by decide, by decide⟩⟩
/-- R583: the store is dropped, LOST is set, and the thread goes on. -/
theorem test_store_unreachable : let s := run (fun h => h.setReg 1 0x0071000000001000)
    after (.stW i0 2 1 (mg 0)) { s with fab := { s.fab with unreach := [7] } } (fun t => (t.thread w0).lost && t.writes == [] && (t.thread w0).pc == hbm0 + 4) = true := by decide

def awayRead : State :=
  let s := run (fun h => h.setReg 1 0x0071000000001000)
  next (.ldW i0 2 1 ⟨0, true, true, 0⟩) { s with fab := { s.fab with reach := [0, 7], routes := [(7, 1)] } }

theorem witness_response : let s := awayRead
    s.reads.length = 1 ∧ (∀ f ∈ s.reads, f.loc = .remote 7 0x0071000000001000 ∧ f.engine = Option.none ∧ f.atom = Option.none ∧ f.fill = Option.none ∧ f.take = 4 ∧ f.len = 4 ∧
      f.skip = 0) ∧ (∀ op ∈ (s.thread w0).loads, op.kind = .scalar 2 4 true ∧ op.parts = [.wait 0] ∧ op.upd = Option.none) := by decide

theorem test_deliver_write : after (.packetDeliver ⟨(from7 1), .none⟩) (run id) (fun t => t.byteAt (.hbm 0 0x1001) == 6 && t.outbox.length == 1) = true := by decide
theorem test_deliver_damaged : after (.packetDeliver ⟨{ from7 1 with e2e := 0 }, .none⟩) (run id) (fun t => t.byteAt (.hbm 0 0x1001) == 0 && t.outbox == []) = true := by decide
theorem test_ack_ends_write : after (.thaexAckArrival 0 7 0 0 []) awayWrite (fun t => t.fab.store.length == 0 && t.writes == [] && (t.thread w0).pend == 0) = true := by decide
theorem test_response : after (.readResponse 0 .none [0xFF, 0xFF, 0xFF, 0xFF]) awayRead (fun t => reg0 t 2 == 0xFFFFFFFFFFFFFFFF && t.reads == []) = true := by decide

theorem witness_probe : let s := awayWrite
    (7 : BitVec 12) ≠ s.mod.id ∧ s.unreachable 7 = false ∧ s.fab.probes = [] ∧ (∃ x ∈ s.fab.store, x.die = 0 ∧ x.pkt.dmod = 7) ∧
      (0, 7) ∈ (next (.probeSend 0 7) s).fab.probes ∧ s.boot.headStopped = false ∧ s.boot.hostUp = false ∧ (7 : BitVec 12) ∈ s.fab.reach ∧ (7 : BitVec 12) ∉ s.fab.unreach := by
  decide
theorem test_unreachable : after (.unreachNotice 7) awayWrite (fun t => t.fab.unreach == [7] && t.fab.store.length == 0 && t.dict.evtLog.map (fun e => (e.extractLsb' 176 16 : BitVec 16)) == [1, 6]) = true := by decide

/-- This module holds ID 1, and module 0 is its master over sub-port 0 of port 0. -/
def slave : State := { linked { up := 1 } with fab := { (linked { up := 1 }).fab with reach := [0, 1], routes := [(0, 1)] }, mod := { (run id).mod with id := 1 } }

theorem witness_time : slave.upstreamPort = some 0 ∧ slave.boot.headStopped = false ∧ (next (.timeSync 0) slave).fab.upstream = some 0 ∧ slave.fab.upstream = Option.none ∧
    (run id).upstreamPort = Option.none := by decide
theorem test_offset : after (.timeSyncReply 0 110 120 20) (next (.timeSync 0) slave) (fun t => t.fab.offset == 105 && (t.port 0).unsync) = true := by decide

/-- TimeAndDiscovery: this module and another one, which hold IDs and have one link. -/
def pair (a b : BitVec 64) : List DiscNode := [⟨a, 0xFFFF, some 0, [(0, 0, b)]⟩, ⟨b, 0xFFFF, some 1, [(0, 0, a)]⟩]

theorem witness_discovery : let nodes := pair Config.serial (Config.serial + 1)
    (nodes.find? (fun n => n.serial = Config.serial)).isSome = true ∧ 2 ≤ nodes.length ∧ State.reset.fabricInvalid nodes = false := by
  generalize Config.serial = a
  simp [pair, State.fabricInvalid, State.idRequests, State.heldId, State.reset, discHops, discWithin, discLinks, List.range, List.range.loop, List.find?]
theorem witness_discovery_invalid : State.reset.fabricInvalid [⟨Config.serial, 5, .none, []⟩, ⟨Config.serial + 1, 5, .none, []⟩] = true := by
  simp [State.fabricInvalid, State.idRequests, State.heldId, State.reset]

/-! ### Farrier -/

def upPort : State := linked { up := 1, trained := true, rest := 16, rxRest := 16 }

theorem witness_lanes : let x := upPort.port 0
    x.up ≠ 0 ∧ x.perm = false ∧ x.level upPort.now < 2 ∧ x.calibrated = true ∧ upPort.boot.headStopped = false ∧ (3 : BitVec 5).toNat ≤ 16 ∧ (3 : BitVec 5) ≠ x.rest ∧
      (3 : BitVec 5) ≠ x.rxRest ∧ x.lost = 0 ∧ (16 : BitVec 5) = x.rest ∧ (16 : BitVec 5) = x.rxRest ∧ 16 < (17 : BitVec 5).toNat := by decide
theorem witness_eye : let x := upPort.port 0
    (0 : BitVec 6).toNat < upPort.effective 0x2602 0 ∧ upPort.effective 0x2601 0 ≤ (63 : BitVec 6).toNat ∧ x.groupsOff.getLsbD (x.groupOf 3).toNat = false ∧ x.recal = Option.none ∧
      x.recal3 = Option.none ∧ (next (.eyeSample 0 3 0) upPort).port 0 ≠ x ∧ ((next (.eyeSample 0 3 0) upPort).port 0).recal = some 3 := by decide
/-- LaneCare: the levels at which a low margin or a loss finds the port. -/
theorem witness_lane_levels : let x : Port := { up := 1, trained := true, rest := 16, rxRest := 16 }
    let perm : Port := { x with perm := true }
    let three : Port := { perm with recal3 := some 3 }
    perm.perm = true ∧ perm.recal3 = Option.none ∧ perm.recal ≠ some 3 ∧ three.recal3 = some 3 ∧ (3 : BitVec 5) ≠ perm.rxRest ∧ (linked perm).fitted 0 = true ∧
      x.lost.getLsbD 3 = false ∧ ({ x with recal := some 3 } : Port).recal = some 3 ∧ subPorts.find? (fun j => x.up.getLsbD j.toNat) = some 0 := by decide
/-- LaneCare: two lanes of one sample, and a calibration that ends with the limit (R426). -/
theorem witness_lane_same_cycle : let s : State := { upPort with pending := [.eyeSample 0 2 0] }
    let t : State := { linked { up := 1, trained := true, rest := 16, rxRest := 16, recal := some 3 } with pending := [.laneCalibrate 0 false 3 0xFFFF 0 0] }
    s.pending = [.eyeSample 0 2 0] ∧ (2 : BitVec 5) < 3 ∧ (0 : BitVec 6).toNat < s.effective 0x2602 0 ∧ (s.port 0).carries false 2 = true ∧
      ((next (.eyeSample 0 3 0) s).port 0).recal3 = some 3 ∧ (t.port 0).recal = some 3 ∧ t.effective 0x2601 0 ≤ (0xFFFF : BitVec 16).toNat ∧
      decide (next (.recalLimitExpire 0 3) t = t) = true := by decide
theorem test_rest_turns : after (.restRotate 0) upPort (fun t => (t.port 0).rest == 15 && (t.port 0).down && !(t.port 0).calibrated) = true := by decide
theorem test_heater_slews : after (.heaterTrack 0 false 3 100) upPort (fun t => Sparse.get 0 (t.port 0).heaters 3 == 16) = true := by decide
theorem test_lane_loss : after (.laneLoss 0 3) upPort (fun t => (t.port 0).lost == 8 && (t.port 0).perm && (t.port 0).rxRest == 3) = true := by decide

theorem witness_power : let s := run id
    s.boot.headStopped = false ∧ s.far.band.toNat ≤ 3 ∧ s.effective 0x2701 0 < 0xFFFFFFFF ∧ 10 * 0 < 9 * s.effective 0x2701 0 ∧ 9 * s.effective 0x2701 0 ≤ 10 * s.effective 0x2701 0 ∧
      ({ s.far with calibrating := true } : Farrier).calibrating = true ∧ s.far.calibrating = false ∧ s.effective 0x2602 0 ≤ 65535 ∧ 4 < (5 : BitVec 3).toNat := by decide
theorem test_band_stays : after (.powerBandSample 1299) (run id) (fun t => t.far.band == 0) = true := by decide
theorem test_delay_steps : after (.memPhyTrack (.hbm 0 0) 0xFFFF 5) (run id) (fun t => ((t.memTrack (.hbm 0 0)).delays.extractLsb' 0 32 : BitVec 32) == 1) = true := by decide
/-- Tracking: a lost lane whose record shows its eye again. -/
theorem witness_eye_regained : let r : List (BitVec 16 × BitVec 8 × BitVec 256) := [(0x6100, 3, (0xFFFF : BitVec 256) <<< 208)]
    let s := linked { up := 1, trained := true, lost := 8, perm := true }
    s.eyeRegained r 0 3 = true ∧ s.eyeRegained [] 0 3 = false ∧ (s.port 0).lost.getLsbD 3 = true := by decide
theorem test_droop : after (.droopRelease 1 4) (next (.droopStretch 1 4) (next (.droopStretch 1 0) (run id))) (fun t => (t.die 1).stretch == 1) = true := by decide

/-! ### Containment -/

/-- The module serves its host. -/
def host : State :=
  let s := run id
  { s with boot := { s.boot with hostUp := true, stage := 6, clocks := true, resetN := true, rails := true } }
/-- The same with overlay DIAG. -/
def diag : State := { host with dict := { host.dict with ovlActive := 4 } }

theorem witness_containment : let s := host
    Sparse.wf {} s.cores = true ∧ Sparse.wf {} s.dies = true ∧ Sparse.wf {} (s.core 0).threads = true ∧ s.boot.headStopped = false ∧ s.boot.modSafe = false ∧
      (s.die 0).safehold = false ∧ s.present 0 = true ∧ (s.core 0).fenced = false ∧ checkerOnDie (.core 0) 1 = false ∧ coreDie 0 = 0 ∧ portDie 0 = 0 ∧
      ({ s.boot with modSafe := true } : Boot).modSafe = true ∧ (next (.lockstepMismatch 0) upPort).boot.headStopped = true := by decide
theorem witness_quiesce : let s := host
    s.writeCode .host 0x4220 0 3 2 true = 0 ∧ (s.die 0).quiesce = Option.none ∧ (next (.rowQuiesce .host 0) s).dict.code = 0 ∧
      ((next (.rowQuiesce .host 0) s).die 0).quiesce = some { row := 0 } ∧ (run id).writeCode .host 0x4220 0 3 2 true ≠ 0 ∧ coreDie 0 = 0 ∧ coreRow 0 = 0 ∧
      (s.thread w0).state = .run ∧ s.mod.badFuse = [] ∧ s.mod.badRun = [] := by decide
theorem test_core_checker : after (.checkerSelftest 0 (some (.core 0))) host (fun t => (t.core 0).fenced && (t.thread w0).state == .fenced && t.mod.badRun == [0]) = true := by decide
theorem test_head_groom_stops : after (.lockstepMismatch 0) upPort (fun t => t.boot.headStopped && (t.port 0).up == 0) = true := by decide

/-- A row of die 0 with bad physical cores, about to be mapped anew. -/
def badRow (bad : List Nat) : State :=
  let s : State := { State.reset with mod := { State.reset.mod with badRun := bad } }
  s.modDie 0 (fun x => { x with quiesce := some { row := 0 } })

/-- RemapAroundOneBadCore, ThreeBadCoresTakeRowOffline. -/
theorem witness_remap : ((badRow [3]).die 0).quiesce = some { row := 0 } ∧ (badRow [3]).mod.badRun = [272 * 0 + 17 * 0 + 3] ∧ (badRow [3]).mod.badFuse = [] ∧
    (badRow [3]).cores = [] ∧ Sparse.wf {} (badRow [1, 2, 3]).cores = true ∧ (badRow [1, 2, 3]).mod.badRun = [1, 2, 3] := by decide
/-- Containment: the last thread of a row ends with the drain limit (R449). -/
def endingRow : State := { host.modDie 0 (fun x => { x with quiesce := some { row := 0 } }) with pending := [.endThread i0 0] }
theorem witness_ends_in_time : let s := endingRow
    let u := next (.endThread i0 0) s
    s.pending = [.endThread i0 0] ∧ coreDie i0.who.core = 0 ∧ coreRow i0.who.core = 0 ∧ decide (next (.endThread i0 0) u = u) = true ∧ u.pending = s.pending ∧
      (u.die 0).quiesce = some { row := 0 } ∧ (s.die 0).quiesce = some { row := 0 } ∧ (s.thread w0).state = .run ∧ (u.thread w0).state ≠ .run := by decide
theorem test_remap_one : after (.quiesceDrainEnd 0 ⟨false, []⟩) (badRow [3]) (fun t => t.physCol 2 == 2 && t.physCol 3 == 4 && t.physCol 15 == 16 && t.present 15) = true := by decide
theorem test_remap_three : after (.quiesceDrainEnd 0 ⟨false, []⟩) (badRow [1, 2, 3]) (fun t => !(t.present 0) && t.dictValue 0x1120 0 == [0, 0]) = true := by decide

/-! ### Items -/

/-- ITM_RING of a host ring of 16 entries with vector 4. -/
def ringVal : BitVec 256 := (1 : BitVec 256) <<< 255 ||| (4 : BitVec 256) <<< 249 ||| (4 : BitVec 256) <<< 243

def ring0 : Ring := { en := true, depth := 4, msix := 4 }
def withRing (x : Ring) (f : Thread → Thread) : State :=
  let s := run f
  { s with boot := { s.boot with hostUp := true, stage := 6 }, rings := [(0, x)] }
/-- An item with ID 9 and deadline 7. -/
def item : BitVec 512 := 9 ||| (7 : BitVec 512) <<< 64

theorem witness_rings : let s := host
    s.writeCode .host 0x4100 0 13 32 true = 0 ∧ ringVal.getLsbD 255 = true ∧ (s.ring 0).en = false ∧ s.boot.stage = 6 ∧
      (let d : BitVec 4 := ringVal.extractLsb' 249 4; d = 4) ∧ (let k : BitVec 2 := ringVal.extractLsb' 253 2; k = 0) ∧ (let m : BitVec 6 := ringVal.extractLsb' 243 6; m = 4) ∧
      ((withRing ring0 id).ring 0).en = true ∧ (s.ring 0).ledger = [] ∧ (run id).boot.stage ≠ 6 ∧ (3 : BitVec 4).toNat < 4 ∧ 10 < (11 : BitVec 4).toNat := by decide
theorem witness_doorbell : let s := withRing ring0 id
    let x := s.ring 0
    s.boot.headStopped = false ∧ s.boot.hostUp = true ∧ x.kind = 0 ∧ x.en = true ∧ x.next < 2 ^ x.depth.toNat ∧ x.next < 1024 ∧ (1 : BitVec 10).toNat = (x.next + 1) % 2 ^ x.depth.toNat ∧
      (1 : BitVec 10).toNat ≠ x.next ∧ (x.led 0).state = 0 := by decide

def submitted : State := next (.itmDbTail 0 1 [(0, item)]) (withRing ring0 id)

theorem witness_item_waits : let s := submitted
    ((s.ring 0).led 0).state = 1 ∧ ((s.ring 0).led 0).unacked = false ∧ (s.ring 0).kind = 0 ∧ s.msgs = [] ∧ s.dict.ovlState = 0 ∧
      (s.core s.resolver).resolve 0 0 = Option.none ∧ ((s.modCore 0 (fun x => { x with stnEntry := [(0, 0x4000000000000000)] })).core 0).resolve 0 0 = some (0, 0, 0) ∧
      s.waitsForQueue ((s.ring 0).led 0) 0 0 = false ∧ (next (.rowQuiesce .host 0) s).waitsForQueue ((s.ring 0).led 0) 0 0 = true := by decide
theorem witness_peer_rings : let s := withRing { ring0 with kind := 1, peer := 7 } id
    let t := withRing { ring0 with kind := 2, peer := 7, ledger := [(0, { state := 2, id := 9 })] } id
    (s.ring 0).en = true ∧ (s.ring 0).kind = 1 ∧ (s.ring 0).peer = 7 ∧ (0 : BitVec 10).toNat < 2 ^ (s.ring 0).depth.toNat ∧ ((s.ring 0).led 0).state = 0 ∧
      (t.ring 0).kind = 2 ∧ (t.ring 0).peer = 7 ∧ t.fab.unreach = [] ∧ (t.ring 0).ledger.length = 1 ∧
      (∀ k ∈ (t.ring 0).ledger, k.1 < 1024 ∧ k.2.state ≠ 0 ∧ k.2.unacked = false ∧ k.2.id = (9 : BitVec 256).extractLsb' 0 64) := by decide

def delivered (l : Ledger) (f : Thread → Thread) : State := withRing { ring0 with ledger := [(0, l)] } f

theorem witness_bind : let s := delivered { state := 2, id := 9 } id
    let b := next (.itmBind w0 0) s
    s.canIssue w0 { mem := true } = true ∧ ((s.ring 0).led 0).state = 2 ∧ (s.thread w0).bound.length < 8 ∧ (0 : BitVec 16) ∉ (s.thread w0).bound ∧ (s.ring 0).kind ≠ 2 ∧
      ((b.ring 0).led 0).state = 3 ∧ ((b.ring 0).led 0).core = b.mod.id ++ w0.core ∧ ((b.ring 0).led 0).thr = w0.thr ∧ (b.thread w0).loads = [] ∧
      b.matrixBusy w0 b.nextSeq = false ∧ b.writes = [] ∧ b.acks = [] ∧ b.msgs = [] ∧ b.boot.hostUp = true ∧ b.boot.headStopped = false ∧
      8 ≤ ((delivered { state := 2, id := 9 } (fun h => { h with bound := List.replicate 8 1 })).thread w0).bound.length ∧
      ((delivered { state := 3, id := 9, core := 1 } id).ring 0).led 0 = { state := 3, id := 9, core := 1 } ∧ (run id).ring 0 = {} := by decide
theorem witness_item_times : let s := delivered { state := 4, id := 9 } id
    let d := { delivered { state := 2, id := 9, deadline := 1 } id with time := 65536 }
    ((s.ring 0).led 0).state = 4 ∧ ((s.ring 0).led 0).holdEnd ≤ s.now ∧ ((d.ring 0).led 0).deadline ≠ 0 ∧ ((d.ring 0).led 0).deadline.toNat ≤ d.now ∧
      ((d.ring 0).led 0).state ≠ 4 ∧ s.now < 1 := by decide
theorem witness_audit : let s := delivered { state := 3, id := 9 } id
    let q := delivered { state := 2, id := 9, epoch := 1 } id
    s.ledgerSlots = [(0, 0)] ∧ ((s.ring 0).led 0).state = 3 ∧ (s.thread w0).bound = [] ∧ idModule ((q.ring 0).led 0).core = q.mod.id ∧
      (q.queue 0 0).epoch ≠ ((q.ring 0).led 0).epoch ∧ (0 : BitVec 16) ∈ ((next (.itmBind w0 0) (delivered { state := 2, id := 9 } id)).thread w0).bound := by decide

/-- Items: a DONE of the bound thread, an ABORT, a SAFEHOLD and a monitor event that wait in the queue while another one ends the item. -/
theorem witness_same_cycle : let s := delivered { state := 3, id := 9, deadline := 1 } (fun h => { h with bound := [0] })
    let q (c : Instr) : State := { s with pending := [c], time := 65536 }
    (q (.itmDone w0 0)).endsFirst 0 0 = some (w0, Option.none) ∧ (q (.itmFail w0 0 5)).endsFirst 0 0 = some (w0, some 5) ∧ (q (.itmDbAbort 0 0)).endsFirst 0 0 = Option.none ∧
      (q .safeholdEntered).faultWaits 0 0 = true ∧ (q (.itmDbAbort 0 0)).faultWaits 0 0 = false ∧ ((s.ring 0).led 0).deadline.toNat ≤ (q (.itmDbAbort 0 0)).now ∧
      s.ledgerSlots = [(0, 0)] ∧ ({ delivered { state := 4, id := 9 } id with pending := [.monitorEvent .shared] } : State).faultWaits 0 0 = true ∧
      s.boot.headStopped = false ∧ s.boot.hostUp = true := by decide
/-- R463: the ABORT that comes first in the queue loses to the DONE behind it. -/
theorem test_done_beats_abort : let s := delivered { state := 3, id := 9 } (fun h => { h with bound := [0] })
    after (.itmDbAbort 0 0) { s with pending := [.itmDone w0 0] } (fun t => ((t.ring 0).led 0).state == 4) = true := by decide
theorem test_ring_starts : after (.itmRingCfgWrite .host 0 ringVal) host (fun t => (t.ring 0).en && (t.ring 0).depth == 4 && t.dict.code == 0) = true := by decide
theorem test_doorbell : ((submitted.ring 0).led 0).id = 9 ∧ ((submitted.ring 0).led 0).deadline = 7 ∧ (submitted.ring 0).next = 1 := by decide
theorem test_abort : after (.itmDbAbort 0 0) submitted (fun t => ((t.ring 0).led 0).state == 0 && (t.ring 0).records == 1 && t.outbox.length == 2) = true := by decide
theorem test_abort_in_hold_is_late : after (.itmDbAbort 0 0) (delivered { state := 4, id := 9 } id) (fun t => ((t.ring 0).led 0).state == 4 && Sparse.get 0 t.mod.agg (8 * 0x802 + 4) == 1) = true := by decide
theorem test_no_destination : after (.itemDeliver 0 0) submitted (fun t => ((t.ring 0).led 0).state == 0) = true := by decide
theorem test_done : after (.itmDone w0 0) (next (.itmBind w0 0) (delivered { state := 2, id := 9 } id))
    (fun t => ((t.ring 0).led 0).state == 4 && ((t.ring 0).led 0).holdEnd == 2000) = true := by decide
theorem test_audit : after .ledgerAudit (delivered { state := 3, id := 9 } id) (fun t => ((t.ring 0).led 0).state == 0) = true := by decide

/-! ### The host's window and the dictionary -/

theorem witness_window : let s := host
    s.dictUp .host = true ∧ (s.dictRead 0 0).1 ≠ 0 ∧ (0x800000 : BitVec 24).toNat = 0x800000 ∧ (0 : BitVec 24).toNat < 0x800000 ∧ (run id).dictUp .host = false ∧
      (s.dictRead 0x2601 0).1 = 0 ∧ (match entryAt 0x2601 0 with | .inr e => decide (e.type ≤ 10) | _ => false) = true ∧
      (match entryAt 0x8030 0 with | .inr e => decide (10 < e.type) | _ => false) = true ∧ (match entryAt 0 0 with | .inl _ => true | _ => false) = true := by decide
theorem witness_window_page : let s := { host with dict := { host.dict with page := 2 } }
    s.dict.page.toNat * 4096 + (0x300800 : BitVec 24).toNat / 2048 = 0x2601 ∧ s.dictUp .host = true := by decide
theorem witness_events : let s := next (.checkerSelftest 0 (some (.core 0))) host
    s.boot.hostUp = true ∧ (s.dict.evtLog.find? (fun e => decide (s.dict.evtRead.toNat < (e.extractLsb' 128 32).toNat))).isSome = true ∧
      (host.dict.evtLog.find? (fun e => decide (host.dict.evtRead.toNat < (e.extractLsb' 128 32).toNat))) = Option.none := by decide
theorem witness_blocks : let s := host
    s.dict.busy = Option.none ∧ (next (.dictCmdRead 0x2601 0) s).dict.busy = some (.read 0x2601 0) ∧ (next (.dictCmdWrite 4 0x2601 0 4) s).dict.busy = some (.write 4 0x2601 0 4) ∧
      4 ≤ 2 ^ 23 ∧ 2 ^ 23 < (8388609 : BitVec 32).toNat := by decide

theorem test_block_read : after .dictCmdComplete (next (.dictCmdRead 0x1002 0) host) (fun t => t.dict.done && t.dict.busy == Option.none && t.outbox == [.msix 1]) = true := by decide
theorem test_block_abort : after .dictCmdAbort (next (.dictCmdRead 0x1002 0) host) (fun t => t.dict.code == 15) = true := by decide
theorem test_buffer_write : after (.windowWrite 0x800004 false 0x11223344) host (fun t => Sparse.get 0 t.dict.buf 4 == 0x44 && Sparse.get 0 t.dict.buf 7 == 0x11) = true := by decide
theorem test_window_busy : after (.dictCmdRead 0 0) (next (.dictCmdRead 0x1002 0) host) (fun t => t.dict.werr) = true := by decide

theorem witness_entry_writes : let s := host
    s.writeCode .host 0x2000 0 1 1 false = 0 ∧ s.writeCode .host 0x2001 0 1 1 false = 0 ∧ s.maintenance = false ∧ diag.maintenance = true ∧ s.writeCode .host 0x3001 0 2 1 false = 0 ∧
      diag.writeCode .writeSet 0x8020 0 1 1 false = 0 ∧ diag.writeCode .host 0x8020 0 1 1 false ≠ 0 ∧ diag.writeCode .host 0x8010 0 12 60 true = 0 ∧ diag.writeCode .host 0x8010 0 12 1 true = 0 ∧
      s.writeCode .host 0x2300 0 5 8 false = 0 ∧ (run id).writeCode .host 0x2000 0 1 1 false ≠ 0 ∧ s.dict.ovlState = 0 ∧ s.dict.ovlActive = 0 ∧ s.boot.modSafe = false ∧
      s.monitorUp = false ∧ (next (.ovlRequest .host 1) s).dict.ovlState = 1 ∧ (next (.zeroize .writeSet 1) diag).dict.zeroizing = true ∧ s.dict.zeroizing = false ∧
      Sparse.wf {} s.teams = true ∧
      ({ s with boot := { s.boot with monShared := true } } : State).monitorUp = true := by decide
theorem witness_drain : let s := next (.ovlRequest .host 1) host
    let t := next (.ovlRequest .host 1) (delivered { state := 2, id := 9 } id)
    s.dict.ovlState = 1 ∧ s.ledgerSlots = [] ∧ s.boot.headStopped = false ∧ t.dict.ovlState = 1 ∧ t.ledgerSlots = [(0, 0)] ∧ ((t.ring 0).led 0).unacked = false ∧
      ((t.ring 0).led 0).state = 2 := by decide
/-- OverlaysAndZeroize: the last item ends its hold with the drain limit (R486). -/
theorem witness_drain_in_time : let s : State := { next (.ovlRequest .host 1) (delivered { state := 4, id := 9 } id) with pending := [.doneHoldEnd 0 0] }
    s.dict.ovlState = 1 ∧ s.boot.headStopped = false ∧ s.drained = false ∧ s.drainsNow = true ∧ (next (.doneHoldEnd 0 0) s).drained = true ∧
      decide (next .ovlDrainTimeout s = s) = true := by decide
theorem test_overlay : after .ovlDrainEnd (next (.ovlRequest .host 1) host) (fun t => t.dict.ovlActive == 1 && t.dict.ovlEpoch == 1 && t.dict.ovlState == 0) = true := by decide
theorem test_drain_limit : after .ovlDrainTimeout (next (.ovlRequest .host 1) (delivered { state := 2, id := 9 } id))
    (fun t => t.dict.ovlActive == 0 && t.dict.ovlResult == 10) = true := by decide
theorem test_zeroize : after (.zeroize .writeSet 1) (diag.modCore 0 (fun x => { x with ls := [(4, 9)] })) (fun t => t.byteAt (.ls 0 4) == 0) = true := by decide

/-! ### Owner, firmware, field network -/

/-- A write set of one entry with sequence number 1 for every module, and a signature of one byte. -/
def setBytes : List Byte := toBytes (0x4B575331 * 2 ^ 480 + 1 * 2 ^ 464 + 1 * 2 ^ 448 + 1 * 2 ^ 320 + 24 * 2 ^ 288 + 1 * 2 ^ 256) 64 ++
  toBytes (0x9010 * 2 ^ 112 + 5 * 2 ^ 96 + 8 * 2 ^ 64) 16 ++ toBytes 0x8000000000000001 8 ++ [0]

/-- OwnerSecurity: the set parses, is for this module, comes in its order. Whether it is genuine is `Config.hssVerify`'s, which nothing evaluates: either outcome is
admitted. -/
theorem witness_write_set : host.writeCode .host 0x8030 0 12 setBytes.length true = 0 ∧ host.dict.pauseUntil ≤ host.now ∧ (parseSet []).isNone = true ∧
    (match parseSet setBytes with | some (h, [e]) => decide (h.target = 0 ∧ h.seq = 1 ∧ e.index = 0x9010 ∧ e.sub = 0 ∧ e.type = 5 ∧ e.bytes.length = 8) | _ => false) = true ∧
    (host.dict.ownSeq.toNat < 1) ∧ bodiesOk host.dict.vals = true ∧ eyeOk host.dict.vals = true ∧ host.writeCode .writeSet 0x9010 0 5 8 true = 0 ∧
    host.writeCode .writeSet 0x1000 0 5 8 true ≠ 0 := by decide

/-- OwnerSecurity, PowerAndReset, MinimumSvnRises: an image that is accepted, wherever hashes and signature, which nothing evaluates, come out so. -/
theorem witness_image (s : State) (pub sig : List Byte) (x : Image) (fields : x = { (⟨0x4B344657, 1, 5, true, true, 0, Config.sha256 [], [], pub, sig, []⟩ : Image) with header := x.header })
    (header : x.header = imageHeader x) (size : pub.length = 60 ∧ sig.length = 3284) (key : Config.sha256 pub = Config.keyHash)
    (signed : Config.hssVerify pub (x.header ++ pub) sig = true) (svn : s.minSvn ≤ 5) : s.accepts x = true := by
  have h : x.pubKey = pub ∧ x.sig = sig ∧ x.body = [] ∧ x.bodyLen = 0 ∧ x.zeros = true ∧ x.magic = 0x4B344657 ∧ x.bodyHash = Config.sha256 [] ∧ x.svn = 5 := by
    rw [fields]; simp
  obtain ⟨h1, h2, h3, h4, h5, h6, h7, h8⟩ := h
  simp only [State.accepts, h1, h2, h3, h4, h5, h6, h7, h8, ← header, key, signed, List.append_nil, List.length_nil, Nat.add_zero]
  simp [svn, size, header, imageHeader, toBytes]
theorem witness_firmware : diag.writeCode .host 0x8040 0 12 1 true = 0 ∧ diag.maintenance = true ∧ diag.writeCode .host 0x8041 0 2 1 true = 0 ∧ diag.boot.booted = 0 ∧
    ({ diag.boot with bankB := some ⟨1, 5, true⟩ } : Boot).bankB ≠ Option.none ∧ diag.boot.bankA = Option.none ∧ host.writeCode .host 0x8050 0 13 32 true = 0 ∧
    host.boot.attLast = Option.none ∧ host.boot.attCount < 2 ^ 35 ∧ host.now < 0 + 100000000 := by decide
theorem witness_ready_advance : let s : State := { State.reset with boot := { State.reset.boot with stage := 5, warming := true, bankA := some ⟨1, 5, true⟩ } }
    s.boot.stage = 5 ∧ s.boot.warming = true ∧ (if s.boot.booted = 0 then s.boot.bankA else s.boot.bankB) = some ⟨1, 5, true⟩ := by decide
theorem test_minimum_svn : after .ready { State.reset with boot := { State.reset.boot with stage := 5, warming := true, bankA := some ⟨1, 5, true⟩ } }
    (fun t => t.boot.minSvn == 5 && t.boot.stage == 6) = true := by decide

/-- Node 3 may write (R496). -/
def netted : State := { host with dict := { host.dict with vals := [(256 * 0x9010 + 3, toBytes 0x8000000000000007 8)] } }

theorem witness_frames : let s := netted
    s.boot.aon = true ∧ s.boot.headStopped = false ∧ s.boot.stage ≠ 1 ∧ (Sparse.get [] s.dict.answers 3).find? (fun a => a.1 = 5) = Option.none ∧
      leNat ((Sparse.find s.dict.vals (256 * 0x9000)).getD [0xFF]) < 256 ∧ s.writeCode (.node 3 7) 0x2600 0 4 4 false = 0 ∧ s.writeCode (.node 4 7) 0x2600 0 4 4 false ≠ 0 ∧
      State.reset.boot.stage = 1 ∧ ((Sparse.get [] (next (.fornitiRead 3 7 5 0x2600 0) s).dict.answers 3).find? (fun a => a.1 = 5)).isSome = true ∧
      (next (.checkerSelftest 0 (some (.core 0))) s).dict.emerg.length = 1 := by decide
theorem witness_transfers : let s := netted
    let r := next (.blockInit 3 7 5 false 0x2600 0 0 0) s
    let w := next (.blockInit 3 7 5 true 0x2600 0 4 4) s
    s.writeCode (.node 3 7) 0x2600 0 4 4 true = 0 ∧ s.writeCode (.node 4 7) 0x2600 0 4 4 true ≠ 0 ∧ (s.dictRead 0x2600 0).1 = 0 ∧ (s.dictRead 0 0).1 ≠ 0 ∧
      (Sparse.find s.dict.transfers 3) = Option.none ∧ (Sparse.find r.dict.transfers 3).map (fun x => (x.write, x.seg, x.total)) = some (false, 0, 4) ∧
      Sparse.find w.dict.transfers 3 = some { write := true, index := 0x2600, sub := 0, type := 4, total := 4, seg := 0, buf := [] } ∧
      (Sparse.find (next (.blockInit 3 7 5 true 0x8030 0 12 2048) s).dict.transfers 3).map (fun x => x.buf.length + 1024 < x.total) = some True := by
  refine ⟨by decide, by decide, by decide, by decide, by decide, by decide, by decide, ?_⟩
  rw [show Sparse.find (next (.blockInit 3 7 5 true 0x8030 0 12 2048) netted).dict.transfers 3 =
    some { write := true, index := 0x8030, sub := 0, type := 12, total := 2048, seg := 0, buf := [] } from by decide]
  simp
/-- FieldNetwork: a node that may not write reads 0xF100 in maintenance (R474, R496). -/
theorem witness_node_read : let s : State := { netted with dict := { netted.dict with ovlActive := 4 } }
    (s.dictRead 0xF100 0).1 = 0 ∧ s.nodeAllowed 4 7 = false ∧ s.nodeAllowed 3 7 = true ∧ 0xF000 ≤ (0xF100 : BitVec 16).toNat := by decide
theorem test_node_refused : after (.fornitiWrite 4 7 5 0x2600 0 4 [1, 0, 0, 0]) netted (fun t => t.dict.vals == netted.dict.vals && t.outbox.length == 1) = true := by decide
theorem test_answer_repeats : after (.fornitiRead 3 7 5 0x2600 0) (next (.fornitiRead 3 7 5 0x2600 0) netted) (fun t => t.outbox.length == 2 && t.dict.txSeq == 1) = true := by decide

/-! ### Power, reset, operating points -/

def standing : State := { State.reset with boot := { State.reset.boot with stage := 2, pwrEn := true, refClk := true } }

theorem witness_power_on : let s := State.reset
    s.boot.aon = true ∧ s.boot.stage = 1 ∧ Sparse.wf {} s.dies = true ∧ (next .alwaysOnPowerLoss s).boot.aon = false ∧ standing.boot.stage ≠ 1 ∧
      (let m := next .pwrEnAssert standing; m.boot.mainOn = true ∧ m.boot.rails = false ∧ m.boot.stage = 2 ∧ m.boot.resetN = false ∧ m.rings = []) := by decide
def powered : State := next .railsGood (next .pwrEnAssert standing)
theorem witness_cold : powered.boot.stage = 3 ∧ powered.boot.rails = true ∧ powered.boot.aon = true ∧ (next .coldReset powered).boot.stage = 4 ∧ powered.boot.attStored = some 0 ∧
    powered.boot.mainOn = true ∧ powered.boot.stage.toNat < 6 ∧ ({ powered with boot := { powered.boot with stage := 5 } } : State).fab.ports = [] := by decide
theorem test_cold_reset : after .coldReset powered (fun t => t.boot.stage == 4 && t.boot.hostUp && t.boot.clocks && t.time == 0) = true := by decide
theorem test_rail_fault : after (.railFault 2) powered (fun t => t.boot.stage == 8 && !t.boot.mainOn && t.boot.fail == 0x203) = true := by decide
theorem test_trained : after (.memoryTrained (List.replicate 16 (some { dimm with mts := 8000 }))) { State.reset with boot := { State.reset.boot with stage := 4 } }
    (fun t => t.boot.stage == 5) = true := by decide

theorem witness_warm : host.writeCode .host 0x4202 0 3 2 true = 0 ∧ host.monitorUp = false ∧ host.boot.stage = 6 ∧ host.dies = [] ∧ host.boot.hostUp = true ∧
    diag.dict.ovlActive = 4 ∧ diag.writeCode .host 0x4202 0 3 2 true = 0 ∧ diag.boot.change = Option.none ∧ (host.modDie 0 (fun x => { x with monitor := true })).monitorUp = true ∧
    (run id).writeCode .host 0x4202 0 3 2 true ≠ 0 ∧ coreDie 0 = 0 ∧ diag.present 0 = true ∧ diag.markedBad 0 = false := by decide
/-- WarmResets: the switch of an overlay falls into the Groom cycle of the reset (R524). -/
theorem witness_warm_switch : let s : State := { next (.ovlRequest .host 1) host with pending := [.ovlDrainEnd] }
    s.writeCode .host 0x4202 0 3 2 true = 0 ∧ s.monitorUp = false ∧ s.boot.stage = 6 ∧ s.dies = [] ∧ s.pending = [.ovlDrainEnd] ∧ s.dict.ovlState = 1 ∧
      (next .ovlDrainEnd s).dict.ovlActive = 1 ∧ (next (.warmReset .host) s).dict.ovlActive = 0 := by decide
theorem test_warm_reset_keeps_hbm : after (.warmReset .host) (host.modDie 0 (fun x => { x with hbm := [(5, 6)], loft := [(5, 6)] }))
    (fun t => t.boot.stage == 5 && t.byteAt (.hbm 0 5) == 6 && t.byteAt (.loft 0 5) == 0) = true := by decide

/-- A change to point 0 at 50 µs is under way. -/
def changing : State := { host with boot := { host.boot with change := some { op := 0, at_ := 50000, left := allDies } } }

theorem witness_operating_points : let s := host
    (0 : BitVec 2).toNat = max (s.effective 0x2700 0) (max s.boot.powerPt s.boot.thermPt) ∧ s.now + 50000 ≤ (50000 : Word).toNat ∧ s.boot.clocks = true ∧ s.boot.headStopped = false ∧
      s.boot.change = Option.none ∧ changing.boot.change = some { op := 0, at_ := 50000, left := allDies } ∧ after (.opChangeRequest 0 50000) host (fun t => decide (t = changing)) = true ∧ changing.now < 50000 ∧
      (let t : State := { changing with time := 50000 * 65536 }; 50000 ≤ t.now ∧ (0 : DieIx) ∈ allDies ∧ (∃ e ∈ allDies, e ≠ 0) ∧ t.dies = []) := by decide
theorem witness_thermal : let a : Vector (BitVec 16) 4 := ⟨#[1680, 0, 0, 0], rfl⟩
    let b : Vector (BitVec 16) 4 := ⟨#[1600, 0, 0, 0], rfl⟩
    let x : Vector (BitVec 16) 16 := ⟨#[1520, 0, 0, 0, 0, 0, 0, 0, 0, 0, 0, 0, 0, 0, 0, 0], rfl⟩
    a.toList.any (fun t => decide (1680 ≤ t.toInt)) = true ∧ b.toList.all (fun t => decide (t.toInt ≤ 1600)) = true ∧ x.toList.all (fun t => decide (t.toInt ≤ 1520)) = true ∧
      ¬(1680 ≤ (1601 : BitVec 16).toInt) ∧ ¬((1601 : BitVec 16).toInt ≤ 1600) ∧ host.boot.mainOn = true ∧ (1 : BitVec 4) ≠ 0 := by decide
theorem test_half_duty : after (.powerSampleGate 1 6001) host (fun t => (t.die 1).halfDuty) = true ∧ after (.powerSampleGate 1 6000) host (fun t => !(t.die 1).halfDuty) = true := by
  decide
theorem test_trip : after (.thermTrip 2) host (fun t => t.boot.tripped && !t.boot.mainOn && t.cores.isEmpty) = true := by decide

/-! ### Counters, debug, register writes -/

/-- Debug is enabled. -/
def debug (f : Thread → Thread) : State :=
  let s := run f
  { s with boot := { s.boot with hostUp := true, stage := 6 }, dict := { s.dict with vals := [(256 * 0x8060, [1])] } }
def stopped : State := (debug id).modThread w0 (fun h => { h with state := .halt, reason := 1 })

theorem witness_counters : let s := host
    ((s.effective 0x2800 0).testBit 4 = true ∨ (s.effective 0x2800 0).testBit 4 = false) ∧ s.writeCode .host 0x7F01 0 1 1 false = 0 ∧ s.writeCode .host 0x7F00 0 5 8 false = 0 ∧
      s.now + 1000 ≤ (1000 : Word).toNat ∧ (999 : Word).toNat < s.now + 1000 ∧ s.mod.snapReq = Option.none ∧ (next (.pmcSnapTime .host 1000) s).mod.snapReq = some 1000 ∧
      ((next (.pmcSnapTime .host 1000) s).die 0).snapDone = false ∧ 1000 ≤ ({ s with time := 1000 * 65536 } : State).now ∧ s.boot.headStopped = false ∧
      (∀ w, Via.window = .thread w → w.core ≠ 0) :=
  ⟨by decide, by decide, by decide, by decide, by decide, by decide, by decide, by decide, by decide, by decide, by simp⟩
theorem witness_halts : let s := debug id
    storedIn s.dict.vals 0x8060 0 = [1] ∧ (s.thread w0).memHold = .none ∧ (s.thread w0).loads = [] ∧ (s.thread w0).haltReq = Option.none ∧ (s.core 0).retry = Option.none ∧
      (s.core 0).mq = [] ∧ (s.thread w0).state = .run ∧ (s.thread w0).hold = .none ∧ (stopped.thread w0).state = .halt ∧ s.writeCode .writeSet 0x8060 0 1 1 false = 0 ∧ s.writeCode .host 0x8060 0 1 1 false ≠ 0 ∧
      storedIn host.dict.vals 0x8060 0 ≠ [1] ∧ ((joining.thread w0).hold = .join 1 3 ∧ (joining.thread w0).state = .wait) ∧
      ((next (.mm i0 (mf 0)) operands).core 0).mq.length = 1 := by decide

/-- DebugAndCounters: a halt whose cross-trigger reaches thread 1, which waits in join, and a snd.q that waits for its retry. -/
theorem witness_cross_trigger : let s := (debug (fun h => { h with xtrig := true })).modThread ⟨0, 1⟩ (fun h => { h with xtrig := true, state := .wait, hold := .join 2 3 })
    (s.thread w0).xtrig = true ∧ (s.thread w0).diex = false ∧ (s.thread ⟨0, 1⟩).xtrig = true ∧ (s.thread ⟨0, 1⟩).hold = .join 2 3 ∧ (s.thread ⟨0, 1⟩).loads = [] ∧
      (refused.thread w0).hold = .snd 0 5 5 false ∧ refused.msgs.length = 1 ∧ (∀ m ∈ refused.msgs, m.seq = 0 ∧ m.phase = .backoff) ∧ (refused.thread w0).loads = [] := by decide
theorem test_cross_trigger : after (.dbgHalt .debug 0 0) ((debug (fun h => { h with xtrig := true })).modThread ⟨0, 1⟩ (fun h => { h with xtrig := true, state := .wait, hold := .join 2 3 }))
    (fun t => (t.thread ⟨0, 1⟩).state == .halt && (t.thread ⟨0, 1⟩).reason == 5 && (t.thread ⟨0, 1⟩).hold == .none) = true := by decide
def selected (rsel : BitVec 16) : State := stopped.modCore 0 (fun x => { x with rsel := rsel })

/-- R35: a thread does not read another thread's registers through the register window. -/
theorem test_window_closed : after (.registerWindowWrite (.thread w0) 0 0xE408 77) (selected 0) (fun t => reg0 t 1 == 0) = true := by decide

theorem witness_register_window : let s := selected 0x5000
    (s.thread w0).state = .halt ∧ 0xE400 ≤ (0xE400 : BitVec 16).toNat ∧ (0xEC78 : BitVec 16).toNat < 0xEC80 ∧ (0xE408 : BitVec 16).toNat % 8 = 0 ∧ Sparse.wf {} s.cores = true ∧
      (s.core 0).windowSlot = some 0 ∧ ((0x5000 : BitVec 16).extractLsb' 12 4 : BitVec 4).toNat = 5 ∧ ((0x5000 : BitVec 16).extractLsb' 8 2 : BitVec 2) = 0 ∧
      s.debugPlace 0xFFF1000000000000 = some (.hbm 0 0) ∧ s.debugPlace 0 = Option.none ∧ s.debugPlace 0xFFF3000080000000 = some (.ctl 0 0) ∧ s.poisoned (.hbm 0 0) 8 = false ∧
      s.writeCode .host 0xF100 0 13 24 true ≠ 0 ∧ ({ s with dict := { s.dict with ovlActive := 4 } } : State).writeCode .host 0xF100 0 13 24 true = 0 := by decide
theorem witness_register_words : let s := host
    s.boot.mainOn = true ∧ s.present 0 = true ∧ (0x4010 : BitVec 16).toNat % 64 = 16 ∧ (0xE300 : BitVec 16).toNat % 8 = 0 ∧ (1 : Word).extractLsb' 0 2 = 1 ∧
      s.writeCode .host 0x2700 0 2 1 true = 0 ∧ (run id).writeCode .host 0x2700 0 2 1 true ≠ 0 ∧ s.boot.hostUp = true ∧ (run id).boot.hostUp = false ∧ (run id).ready i0 false = true ∧
      (8 : BitVec 16).toNat % 8 = 0 ∧ (run id).ctlWaits (.thread w0) 0 8 0 = false ∧ ((((run id).ctlWrite (.thread w0) 0 8 0)).thread w0).haltReq = Option.none := by decide
theorem witness_control_access : (run (fun h => h.setReg 1 0xFFF3000080000000)).reaches w0 1 (some 2) (mg 0) .read 8 0xFFF3000080000000 Option.none (.ctl 0 0) Option.none ∧
    (run (fun h => h.setReg 1 0xFFF3000080000000)).reaches w0 1 Option.none (mg 0) .write 8 0xFFF3000080000000 Option.none (.ctl 0 0) Option.none :=
  ⟨⟨by decide, by decide, by decide, by decide⟩, ⟨by decide, by decide, by decide, by decide⟩⟩

theorem test_halt : after (.dbgHalt .debug 0 0) (debug id) (fun t => decide (t = stopped)) = true := by decide
theorem test_halt_needs_debug : after (.dbgHalt .debug 0 0) host (fun t => (t.thread w0).state == .run) = true := by decide
theorem test_step_flag : after (.dbgStep .debug 0 0) stopped (fun t => (t.thread w0).stepping && (t.thread w0).state == .run) = true := by decide
theorem test_window_register : after (.registerWindowWrite .debug 0 0xE408 77) (selected 0) (fun t => reg0 t 1 == 77) = true := by decide
theorem test_debug_read : after (.debugAccess true false 0xFFF1000000000000 0) (stopped.modDie 0 (fun x => { x with hbm := [(1, 2)] })) (fun t => t.mod.dbgData == 0x200 && t.mod.dbgStatus == 0) = true := by
  decide
theorem test_clear_counters : after (.pmcClear .window 0 0x80) (next (.nop i0) (run id)) (fun t => (t.thread w0).pmc == []) = true := by decide
theorem test_csr_unaligned : after (.csrR i0 1 4) (run id) (fun t => (t.thread w0).cause == 0x00030001) = true := by decide
theorem test_csr_thread_number : after (.csrW i0 2 0x6000) ((run id).modCore 0 (fun x => { x with stnErr := true })) (fun t => (t.core 0).stnErr) = true := by decide

/-! ### The queue -/

theorem witness_idle : host.boot.clocks = true ∧ State.reset.boot.clocks = false ∧ host.fab.slew = 0 := by decide
theorem test_step_takes_front : (match step { run id with pending := [.nop i0, .coldReset] } with
    | .next t => decide (t.pending = [.coldReset] ∧ (t.thread w0).pc = hbm0 + 4) | _ => false) = true := by decide
theorem test_idle_ticks : (match step host with | .next t => decide (t.time = 0x10000) | _ => false) = true := by decide
/-- StepsKeepMemoryAndFuses: a state that meets the invariant, and steps. -/
theorem witness_memory_form : State.reset.memoryWf = true ∧ acking.memoryWf = true := by decide

end Sys2Proof.Tests
end

section
/-! Byte strings as numbers, and what writing a byte string to a buffer leaves at each place. -/

namespace Sys2Proof.Machine

/-- The digits of a byte string's number are its bytes; past its end they are 0. -/
theorem leNat_digit (bs : List Byte) (k : Nat) : leNat bs / 256 ^ k % 256 = (bs.getD k 0).toNat := by
  induction bs generalizing k with
  | nil => simp [leNat]
  | cons b bs ih =>
    have hb : b.toNat < 256 := b.isLt
    cases k with
    | zero => simp only [leNat, List.getD_cons_zero, pow_zero]; omega
    | succ k =>
      have hd : leNat (b :: bs) / 256 = leNat bs := by simp only [leNat]; omega
      rw [pow_succ', ← Nat.div_div_eq_div_mul, hd, List.getD_cons_succ, ih]

/-- A byte of the word that holds the number of a byte string. -/
theorem extractByte_ofNat_leNat (bs : List Byte) {k : Nat} (hk : k < 8) :
    ((BitVec.ofNat 64 (leNat bs)).extractLsb' (8 * k) 8 : Byte) = bs.getD k 0 := by
  apply BitVec.eq_of_toNat_eq
  have h64 : (2 : Nat) ^ 64 = 2 ^ (8 * k) * 2 ^ (64 - 8 * k) := by rw [← pow_add]; congr 1; omega
  have h8 : (2 : Nat) ^ 8 ∣ 2 ^ (64 - 8 * k) := pow_dvd_pow 2 (by omega)
  rw [BitVec.extractLsb'_toNat, BitVec.toNat_ofNat, Nat.shiftRight_eq_div_pow, h64, Nat.mod_mul_right_div_self,
    Nat.mod_mod_of_dvd _ h8, ← leNat_digit, pow_mul]
  rfl

/-- The bytes of a number. -/
theorem getElem?_toBytes (x n k : Nat) : (toBytes x n)[k]? = if k < n then some (BitVec.ofNat 8 (x / 256 ^ k)) else Option.none := by
  induction n generalizing x k with
  | zero => simp [toBytes]
  | succ n ih =>
    cases k with
    | zero => simp [toBytes]
    | succ k => simp [toBytes, ih, pow_succ', Nat.div_div_eq_div_mul]

/-- The low bytes of a number hold it modulo their range. -/
theorem leNat_toBytes (x n : Nat) : leNat (toBytes x n) = x % 256 ^ n := by
  induction n generalizing x with
  | zero => simp [toBytes, leNat, Nat.mod_one]
  | succ n ih =>
    rw [toBytes, leNat, ih, pow_succ', Nat.mod_mul, BitVec.toNat_ofNat]

/-- A word survives being cut into its 8 bytes. -/
theorem ofNat_leNat_toBytes (v : Word) : BitVec.ofNat 64 (leNat (toBytes v.toNat 8)) = v := by
  apply BitVec.eq_of_toNat_eq
  have := v.isLt
  rw [leNat_toBytes, BitVec.toNat_ofNat]
  omega

/-- A byte of a word's bytes is a field of the word. -/
theorem ofNat_div_pow_eq_extract (v : Word) (k : Nat) : BitVec.ofNat 8 (v.toNat / 256 ^ k) = v.extractLsb' (8 * k) 8 := by
  apply BitVec.eq_of_toNat_eq
  rw [BitVec.extractLsb'_toNat, BitVec.toNat_ofNat, Nat.shiftRight_eq_div_pow, pow_mul]
  rfl

theorem readMem_eq_map (m : Sparse Byte) (a n : Nat) : readMem m a n = (List.range n).map (fun k => Sparse.get 0 m (a + k)) := by
  induction n generalizing a with
  | zero => rfl
  | succ n ih =>
    rw [readMem, ih, List.range_succ_eq_map, List.map_cons, List.map_map]
    simp [Function.comp_def, Nat.add_assoc, Nat.add_comm 1]

/-- A byte of a read of memory. -/
theorem getD_readMem (m : Sparse Byte) (a n : Nat) {k : Nat} (hk : k < n) : (readMem m a n).getD k 0 = Sparse.get 0 m (a + k) := by
  simp [readMem_eq_map, hk]

/-- A byte after whole bytes were written from a place on. -/
theorem get_writeMem_some (bs : List Byte) (m : Sparse Byte) (a p : Nat) :
    Sparse.get 0 (writeMem m a (bs.map some)) p = (if a ≤ p then bs[p - a]? else Option.none).getD (Sparse.get 0 m p) := by
  rw [get_writeMem, byteFor]
  by_cases h : a ≤ p
  · cases hb : bs[p - a]? <;> simp [h, hb]
  · simp [h]

end Sys2Proof.Machine
end

section
/-! The host's window of the object dictionary: what each access to BAR2, EVT_POP and the block commands answers (R489 to R493). -/

namespace Sys2Proof.Machine

/-! ### Entries -/

/-- Every scalar of the dictionary has 1 to 8 bytes. -/
theorem entryAt_scalar_size {index sub : Nat} {e : Entry} (h : entryAt index sub = .inr e) (ht : e.type ≤ 10) : 1 ≤ e.size ∧ e.size ≤ 8 := by
  have sizes : ∀ r ∈ entriesLow ++ entriesBase ++ entriesHigh, r.2.2.2.type ≤ 10 → 1 ≤ r.2.2.2.size ∧ r.2.2.2.size ≤ 8 := by decide
  unfold entryAt at h
  split at h
  next => cases h
  next r hr =>
    split at h
    next => cases h
    next => cases h; exact sizes r (List.mem_of_find?_eq_some hr) ht

/-- OWN_KEY is no scalar. -/
theorem entryAt_ownKey {sub : Nat} {e : Entry} (h : entryAt 0x8010 sub = .inr e) : e.type = 12 := by
  have hf : (entriesLow ++ entriesBase ++ entriesHigh).find? (fun r => decide (r.1 ≤ 0x8010 ∧ 0x8010 ≤ r.2.1)) =
      some (0x8010, 0x8010, 1, ⟨12, .own, 60, 0⟩) := by decide
  rw [entryAt, hf] at h
  dsimp only at h
  split at h
  next => cases h
  next => cases h; rfl

/-- Of the entries the host writes, only OWN_KEY asks whether the write is a block. -/
theorem State.writeCode_host_block (s : State) {index : Nat} (hi : index ≠ 0x8010) (sub type len : Nat) (b b' : Bool) :
    s.writeCode .host index sub type len b = s.writeCode .host index sub type len b' := by
  simp [State.writeCode, State.pathCode, hi]

theorem State.writeReport_host_block (s : State) {index : Nat} (hi : index ≠ 0x8010) (sub type : Nat) (bs : List Byte) (b b' : Bool) :
    s.writeReport .host index sub type bs b = s.writeReport .host index sub type bs b' := by
  simp only [State.writeReport, State.writeEntry, State.writePlain, s.writeCode_host_block hi sub type bs.length b b']

/-! ### Scalars as the window shows them -/

/-- A signed scalar is shown sign-extended. -/
theorem Entry.toInt_extend {e : Entry} {v : Nat} (hs : 6 ≤ e.type ∧ e.type ≤ 9) (h1 : 1 ≤ e.size) (h8 : e.size ≤ 8) (hv : v < 2 ^ (8 * e.size)) :
    (e.extend v).toInt = (v : Int) - (if 2 ^ (8 * e.size - 1) ≤ v then 2 ^ (8 * e.size) else 0) := by
  have hle : (2 : Nat) ^ (8 * e.size) ≤ 2 ^ 64 := Nat.pow_le_pow_right (by decide) (by omega)
  have hhalf : (2 : Nat) ^ (8 * e.size) = 2 * 2 ^ (8 * e.size - 1) := by rw [← pow_succ']; congr 1; omega
  have hcast : ((2 : Int) ^ (8 * e.size)) = ((2 ^ (8 * e.size) : Nat) : Int) := by push_cast; rfl
  simp only [Entry.extend, Entry.signed, hs, and_self, decide_true, true_and]
  split
  · rw [BitVec.toInt_ofInt_eq_self (by decide)] <;> rw [hcast] <;> omega
  · rw [BitVec.toInt_eq_toNat_of_lt] <;> rw [BitVec.toNat_ofNat] <;> omega

/-- An unsigned scalar is shown zero-extended. -/
theorem Entry.toNat_extend {e : Entry} {v : Nat} (hs : ¬(6 ≤ e.type ∧ e.type ≤ 9)) (h8 : e.size ≤ 8) (hv : v < 2 ^ (8 * e.size)) :
    (e.extend v).toNat = v := by
  have hle : (2 : Nat) ^ (8 * e.size) ≤ 2 ^ 64 := Nat.pow_le_pow_right (by decide) (by omega)
  simp only [Entry.extend, Entry.signed, hs, decide_false, Bool.false_eq_true, false_and, if_false, BitVec.toNat_ofNat]
  exact Nat.mod_eq_of_lt (by omega)

/-- What the window shows of a signed value is the value of that many bits. -/
theorem Entry.toInt_extend_eq {e : Entry} {v : Nat} (hs : 6 ≤ e.type ∧ e.type ≤ 9) (h1 : 1 ≤ e.size) (h8 : e.size ≤ 8)
    (hv : v < 2 ^ (8 * e.size)) : (e.extend v).toInt = (BitVec.ofNat (8 * e.size) v).toInt := by
  have hhalf : (2 : Nat) ^ (8 * e.size) = 2 * 2 ^ (8 * e.size - 1) := by rw [← pow_succ']; congr 1; omega
  have hcast : ((2 : Int) ^ (8 * e.size)) = ((2 ^ (8 * e.size) : Nat) : Int) := by push_cast; rfl
  rw [Entry.toInt_extend hs h1 h8 hv, BitVec.toInt_eq_toNat_cond, BitVec.toNat_ofNat, Nat.mod_eq_of_lt hv, hcast]
  split <;> split <;> omega

/-- Eight bytes extend a value exactly when they are what the window would show of it. -/
theorem Entry.extend_eq_iff {e : Entry} {v : Nat} (val : Word) (h1 : 1 ≤ e.size) (h8 : e.size ≤ 8) (hv : v < 2 ^ (8 * e.size)) :
    e.extend v = val ↔ (6 ≤ e.type ∧ e.type ≤ 9 → val.toInt = (BitVec.ofNat (8 * e.size) v).toInt) ∧
      (¬(6 ≤ e.type ∧ e.type ≤ 9) → val.toNat = v) := by
  by_cases hs : 6 ≤ e.type ∧ e.type ≤ 9
  · rw [← BitVec.toInt_inj, Entry.toInt_extend_eq hs h1 h8 hv]
    simp [hs, eq_comm]
  · rw [← BitVec.toNat_inj, Entry.toNat_extend hs h8 hv]
    simp [hs, eq_comm]

/-! ### Reads of BAR2 -/

section WindowRead

variable {s : State} {off : BitVec 24}

theorem bufOff_eq (off : BitVec 24) : bufOff off = off.toNat - 0x800000 := rfl

/-- The index that a place in the scalar window names. -/
theorem State.windowEntry_eq (s : State) (off : BitVec 24) :
    s.windowEntry off = (s.dict.page.toNat * 4096 + off.toNat / 2048, off.toNat / 8 % 256) := by
  simp [State.windowEntry, Nat.div_div_eq_div_mul]

theorem windowRead_refused (h : ¬s.dictUp .host = true ∨ off.toNat % 8 ≠ 0) : exec (.windowRead off) s = .next s := by
  rw [exec_windowRead, execWindowRead, if_pos (by simpa using h)]

/-- Every byte of a read of the block buffer's half is a byte of the buffer. -/
theorem windowRead_buffer (hup : s.dictUp .host = true) (ha : off.toNat % 8 = 0) (hlow : ¬off.toNat < 0x800000) :
    ∃ x : Word, exec (.windowRead off) s = .next { s with dict := { s.dict with rdata := x } } ∧
      ∀ k, k < 8 → (x.extractLsb' (8 * k) 8 : Byte) = Sparse.get 0 s.dict.buf (off.toNat - 0x800000 + k) := by
  have hge := Nat.le_of_not_lt hlow
  refine ⟨BitVec.ofNat 64 (leNat (readMem s.dict.buf (bufOff off) 8)), ?_, fun k hk => ?_⟩
  · rw [exec_windowRead, execWindowRead, if_neg (by simp [hup, ha]), if_pos hge]
  · rw [extractByte_ofNat_leNat _ hk, getD_readMem _ _ _ hk, bufOff_eq]

/-- A read of the scalar half shows the value of the entry it names. -/
theorem windowRead_scalar (hup : s.dictUp .host = true) (ha : off.toNat % 8 = 0) (hlow : off.toNat < 0x800000) :
    exec (.windowRead off) s =
      let r := s.windowValue (s.dict.page.toNat * 4096 + off.toNat / 2048) (off.toNat / 8 % 256)
      .next { s with dict := { s.dict with rdata := r.2, code := BitVec.ofNat 8 r.1 } } := by
  rw [exec_windowRead, execWindowRead, if_neg (by simp [hup, ha]), if_neg (by omega), State.windowEntry_eq]

end WindowRead

theorem State.windowValue_refused {s : State} {index sub : Nat} (h : (s.dictRead index sub).1 ≠ 0) :
    s.windowValue index sub = ((s.dictRead index sub).1, 0) := by
  unfold State.windowValue
  split <;> simp [h]

theorem State.windowValue_entry {s : State} {index sub : Nat} {e : Entry} (h : (s.dictRead index sub).1 = 0) (he : entryAt index sub = .inr e) :
    s.windowValue index sub = if e.type ≤ 10 then (0, e.extend (leNat (s.dictRead index sub).2.2)) else (16, 0) := by
  simp only [State.windowValue, he, h, Entry.scalar]
  by_cases ht : e.type ≤ 10 <;> simp [ht]

/-! ### Writes of BAR2 -/

section WindowWrite

variable {s : State} {off : BitVec 24} {eight : Bool} {val : Word}

theorem windowWrite_refused (h : ¬s.dictUp .host = true ∨ off.toNat % (if eight then 8 else 4) ≠ 0) :
    exec (.windowWrite off eight val) s = .next s := by
  rw [exec_windowWrite, execWindowWrite, if_pos (by simpa using h)]

/-- A write of the block buffer's half changes the bytes it covers, and the buffer only. -/
theorem windowWrite_buffer (hup : s.dictUp .host = true) (ha : off.toNat % (if eight then 8 else 4) = 0) (hlow : ¬off.toNat < 0x800000) :
    ∃ t, exec (.windowWrite off eight val) s = .next t ∧ t = { s with dict := { s.dict with buf := t.dict.buf } } ∧
      ∀ k, Sparse.get 0 t.dict.buf k =
        if off.toNat - 0x800000 ≤ k ∧ k < off.toNat - 0x800000 + (if eight then 8 else 4) then
          val.extractLsb' (8 * (k - (off.toNat - 0x800000))) 8
        else Sparse.get 0 s.dict.buf k := by
  have hge := Nat.le_of_not_lt hlow
  refine ⟨_, by rw [exec_windowWrite, execWindowWrite, if_neg (by simp [hup, ha]), if_pos hge], rfl, fun k => ?_⟩
  simp only [get_writeMem_some, getElem?_toBytes, bufOff_eq, ofNat_div_pow_eq_extract]
  generalize (if eight = true then 8 else 4) = n
  generalize off.toNat - 0x800000 = a
  by_cases h1 : a ≤ k
  · by_cases h2 : k < a + n
    · simp [h1, h2, show k - a < n by omega]
    · simp [h1, h2, show ¬k - a < n by omega]
  · simp [h1]

/-- A write of the scalar half is a write of the entry its place names. -/
theorem windowWrite_scalar (hup : s.dictUp .host = true) (ha : off.toNat % (if eight then 8 else 4) = 0) (hlow : off.toNat < 0x800000) :
    exec (.windowWrite off eight val) s =
      .next (s.windowStore (s.dict.page.toNat * 4096 + off.toNat / 2048) (off.toNat / 8 % 256) eight val) := by
  rw [exec_windowWrite, execWindowWrite, if_neg (by simp [hup, ha]), if_neg (by omega), State.windowEntry_eq]

end WindowWrite

section WindowStore

variable {s : State} {index sub : Nat} {e : Entry} {eight : Bool} {val : Word}

theorem State.windowStore_absent {c : Nat} (h : entryAt index sub = .inl c) : s.windowStore index sub eight val = s.report .host c := by
  simp [State.windowStore, h]

theorem State.windowStore_block (h : entryAt index sub = .inr e) (ht : 10 < e.type) : s.windowStore index sub eight val = s.report .host 16 := by
  simp [State.windowStore, h, Entry.scalar, show ¬e.type ≤ 10 by omega]

theorem State.windowStore_unfit (h : entryAt index sub = .inr e) (ht : e.type ≤ 10)
    (hf : eight = false ∨ e.extend (val.toNat % 2 ^ (8 * e.size)) ≠ val) : s.windowStore index sub eight val = s.report .host 8 := by
  simp only [State.windowStore, h, Entry.scalar, ht, decide_true, Bool.not_true, Bool.false_eq_true, if_false]
  rw [if_pos (by simpa using hf)]

theorem State.windowStore_fit (h : entryAt index sub = .inr e) (ht : e.type ≤ 10) (hf : e.extend (val.toNat % 2 ^ (8 * e.size)) = val) :
    s.windowStore index sub true val = s.writeReport .host index sub e.type (toBytes (val.toNat % 2 ^ (8 * e.size)) e.size) true := by
  have hi : index ≠ 0x8010 := by
    intro hi
    rw [hi] at h
    have := entryAt_ownKey h
    omega
  simp only [State.windowStore, h, Entry.scalar, ht, hf]
  simp [s.writeReport_host_block hi _ _ _ false true]

end WindowStore

/-- The write of an entry by the host, as a command. -/
theorem exec_registerWrite_entry (s : State) (p : Path) (index sub type : Nat) (bs : List Byte) (val : Word)
    (hi : index < 2 ^ 16) (hs : sub < 2 ^ 8) (ht : type < 2 ^ 4) :
    exec (.registerWrite (.entry p (BitVec.ofNat 16 index) (BitVec.ofNat 8 sub) (BitVec.ofNat 4 type) bs) val) s =
      .next (s.writeReport p index sub type bs true) := by
  simp only [exec_registerWrite, execRegisterWrite, BitVec.toNat_ofNat, Nat.mod_eq_of_lt hi, Nat.mod_eq_of_lt hs, Nat.mod_eq_of_lt ht]

/-! ### EVT_POP (R489, R559) -/

/-- The word of EVT_POP for an event: VALID, OVF, CODE and SEQ. -/
def eventWord (ovf : Bool) (code : BitVec 16) (seq : BitVec 32) : Word := packW [(1, 63), (b2n ovf, 62), (code.toNat, 32), (seq.toNat, 0)]

theorem eventWord_toNat (ovf : Bool) (code : BitVec 16) (seq : BitVec 32) :
    (eventWord ovf code seq).toNat = 2 ^ 63 + b2n ovf * 2 ^ 62 + code.toNat * 2 ^ 32 + seq.toNat := by
  have := code.isLt
  have := seq.isLt
  have : b2n ovf ≤ 1 := by cases ovf <;> decide
  simp only [eventWord, packW, List.foldl, BitVec.toNat_ofNat]
  omega

theorem eventWord_fields (ovf : Bool) (code : BitVec 16) (seq : BitVec 32) :
    (eventWord ovf code seq).getLsbD 63 = true ∧ (eventWord ovf code seq).getLsbD 62 = ovf ∧
      (eventWord ovf code seq).extractLsb' 48 14 = 0 ∧ (eventWord ovf code seq).extractLsb' 32 16 = code ∧
      (eventWord ovf code seq).extractLsb' 0 32 = seq := by
  have hc := code.isLt
  have hq := seq.isLt
  have ho : b2n ovf ≤ 1 := by cases ovf <;> decide
  have hb : decide (b2n ovf = 1) = ovf := by cases ovf <;> rfl
  refine ⟨?_, ?_, BitVec.eq_of_toNat_eq ?_, BitVec.eq_of_toNat_eq ?_, BitVec.eq_of_toNat_eq ?_⟩
  · rw [BitVec.getLsbD, eventWord_toNat, Nat.testBit_eq_decide_div_mod_eq]
    exact decide_eq_true (by omega)
  · rw [BitVec.getLsbD, eventWord_toNat, Nat.testBit_eq_decide_div_mod_eq]
    refine Eq.trans (decide_eq_decide.mpr ?_) hb
    omega
  all_goals
    rw [BitVec.extractLsb'_toNat, eventWord_toNat, Nat.shiftRight_eq_div_pow]
  · show _ = 0
    omega
  · omega
  · omega

section EvtPop

variable {s : State} {v : Via}

theorem evtPop_down (h : s.boot.hostUp = false) : exec (.evtPop v) s = .next s := by simp [exec_evtPop, execEvtPop, h]

theorem evtPop_none (h : s.boot.hostUp = true) (hn : s.dict.unread = Option.none) :
    exec (.evtPop v) s = .next { s with dict := { s.dict with rdata := 0 } } := by simp [exec_evtPop, execEvtPop, h, hn]

/-- The debug path sees the oldest unread event and leaves it unread. -/
theorem evtPop_debug {e : BitVec 256} (h : s.boot.hostUp = true) (hn : s.dict.unread = some e) :
    exec (.evtPop .debug) s = .next { s with dict := { s.dict with
      rdata := eventWord s.dict.evtOvf (e.extractLsb' 176 16) (e.extractLsb' 128 32) } } := by
  simp [exec_evtPop, execEvtPop, h, hn, eventWord]

/-- Any other read takes the oldest unread event. -/
theorem evtPop_take {e : BitVec 256} (h : s.boot.hostUp = true) (hn : s.dict.unread = some e) (hv : v ≠ .debug) :
    exec (.evtPop v) s = .next { s with dict := { s.dict with
      rdata := eventWord s.dict.evtOvf (e.extractLsb' 176 16) (e.extractLsb' 128 32), evtRead := e.extractLsb' 128 32, evtOvf := false } } := by
  simp [exec_evtPop, execEvtPop, h, hn, hv, eventWord]

end EvtPop

/-! ### Block commands (R491, R492) -/

/-- What starting a block operation comes to: nothing, a start, or ERR. -/
theorem State.blockStart_cases (s : State) (op : BlockOp) :
    (¬s.dictUp .host = true → s.blockStart op = s) ∧
    (s.dictUp .host = true → s.dict.busy = Option.none → s.blockStart op = { s with dict := { s.dict with busy := some op } }) ∧
    (s.dictUp .host = true → s.dict.busy ≠ Option.none → s.blockStart op = { s with dict := { s.dict with werr := true } }) := by
  refine ⟨fun h => ?_, fun h hb => ?_, fun h hb => ?_⟩
  · simp [State.blockStart, h]
  · simp [State.blockStart, h, hb]
  · simp [State.blockStart, h, Option.isSome_iff_ne_none.mpr hb]

section BlockEnd

variable {s : State}

theorem dictCmdAbort_idle (h : s.dict.busy = Option.none ∨ ¬s.dictUp .host = true) : exec .dictCmdAbort s = .next s := by
  rw [exec_dictCmdAbort, execDictCmdAbort, State.blockAbort, if_neg]
  rintro ⟨h1, h2⟩
  rcases h with h | h
  · simp [h] at h1
  · exact h h2

theorem dictCmdAbort_busy (h : s.dict.busy ≠ Option.none) (hup : s.dictUp .host = true) :
    exec .dictCmdAbort s = .next (s.blockEnd 15 0) := by
  rw [exec_dictCmdAbort, execDictCmdAbort, State.blockAbort, if_pos ⟨Option.isSome_iff_ne_none.mpr h, hup⟩]

theorem dictCmdComplete_idle (h : s.dict.busy = Option.none ∨ ¬s.dictUp .host = true) : exec .dictCmdComplete s = .next s := by
  rw [exec_dictCmdComplete, execDictCmdComplete]
  rcases h with h | h
  · rw [h]
  · split
    · rw [if_neg h]
    · rfl

theorem dictCmdComplete_busy {op : BlockOp} (h : s.dict.busy = some op) (hup : s.dictUp .host = true) :
    exec .dictCmdComplete s = .next (s.blockRun op) := by
  simp [exec_dictCmdComplete, execDictCmdComplete, h, hup]

end BlockEnd

/-- A host's report is seen exactly while the dictionary serves the host; it changes DICT_STAT's code and ERR only. -/
theorem State.report_host (s : State) (code : Nat) :
    (s.dictUp .host = true → s.report .host code =
      { s with dict := { s.dict with code := BitVec.ofNat 8 code, werr := s.dict.werr || decide (code ≠ 0) } }) ∧
    (¬s.dictUp .host = true → s.report .host code = s) := by
  constructor <;> intro h <;> simp [State.report, h]

@[simp] theorem State.report_dictUp (s : State) (p q : Path) (code : Nat) : (s.report p code).dictUp q = s.dictUp q := by
  unfold State.report
  split
  · split <;> rfl
  · rfl

/-- A completed block write ends with what the write of the entry reports. -/
theorem State.blockRun_write {s : State} {type : BitVec 4} {index : BitVec 16} {sub : BitVec 8} {n : Nat} (hn : n ≤ 2 ^ 23) :
    ∃ (u : State) (w : Bool) (code m : Nat),
      u = s.writeReport .host index.toNat sub.toNat type.toNat ((List.range n).map (fun k => Sparse.get 0 s.dict.buf k)) true ∧
      s.blockRun (.write type index sub n) = ({ u with dict := { u.dict with werr := w } } : State).blockEnd code m ∧
      (u.dictUp .host = true → u.dict.code = BitVec.ofNat 8 code ∧ w = u.dict.werr) ∧ (code = 0 → m = n) ∧ (code ≠ 0 → m = 0) := by
  have hb : (List.range n).map (fun k => Sparse.get 0 s.dict.buf k) = readMem s.dict.buf 0 n := by simp [readMem_eq_map]
  rw [hb, State.writeReport]
  generalize hr : s.writeEntry .host index.toNat sub.toNat type.toNat (readMem s.dict.buf 0 n) true = r
  refine ⟨_, r.2.dict.werr || decide (r.1 ≠ 0), r.1, if r.1 = 0 then n else 0, rfl, ?_, fun hup => ?_, fun h => if_pos h, fun h => if_neg h⟩
  · have hs : s.blockRun (.write type index sub n) =
        ({ r.2 with dict := { r.2.dict with werr := r.2.dict.werr || decide (r.1 ≠ 0) } } : State).blockEnd r.1 (if r.1 = 0 then n else 0) := by
      simp only [State.blockRun, hr, if_neg (show ¬2 ^ 23 < n by omega)]
    rw [hs]
    by_cases hup : r.2.dictUp .host = true
    · rw [(r.2.report_host r.1).1 hup]; rfl
    · rw [(r.2.report_host r.1).2 hup]
  · rw [State.report_dictUp] at hup
    rw [(r.2.report_host r.1).1 hup]
    exact ⟨rfl, rfl⟩

end Sys2Proof.Machine
end

section
/-! The host's access to the dictionary, put together. -/

namespace Sys2Proof.Machine

/-- Settles O45: the window, EVT_POP and the block commands, each by what its command answers. -/
theorem hostAccess : Obligations.HostAccess := by
  unfold Obligations.HostAccess
  refine ⟨?_, ?_⟩
  · intro s off eight val e v ev index sub up low r raw extended buffer reads n narrow signed fits popped oldest
    have reads_of {x : Word} {code : Nat} (hup : up) (ha : off.toNat % 8 = 0) (hl : low) (hv : s.windowValue index sub = (code, x)) :
        reads x code := by
      have h := windowRead_scalar hup ha hl
      rw [show s.windowValue (s.dict.page.toNat * 4096 + off.toNat / 2048) (off.toNat / 8 % 256) = (code, x) from hv] at h
      exact h
    have narrow_lt : narrow < 2 ^ (8 * e.size) := Nat.mod_lt _ (Nat.two_pow_pos _)
    refine ⟨windowRead_refused, windowWrite_refused, windowRead_buffer, fun hup ha hl hr => ?_, fun hup ha hl hr he ht => ?_,
      fun hup ha hl hr he ht hraw => ?_, windowWrite_buffer, fun hup ha hl => ⟨fun c hc => ?_, fun he ht => ?_, fun he ht hf => ?_,
      fun he ht h8 hf => ?_⟩, evtPop_down, evtPop_none, fun hup ho => ?_⟩
    · exact reads_of hup ha hl (State.windowValue_refused hr)
    · exact reads_of hup ha hl (by rw [State.windowValue_entry hr he, if_neg (by omega)])
    · obtain ⟨h1, h8⟩ := entryAt_scalar_size he ht
      refine ⟨e.extend raw, reads_of hup ha hl (by rw [State.windowValue_entry hr he, if_pos ht]), ?_⟩
      by_cases hs : 6 ≤ e.type ∧ e.type ≤ 9
      · simp only [extended, if_pos hs]
        exact Entry.toInt_extend hs h1 h8 hraw
      · simp only [extended, if_neg hs]
        exact Entry.toNat_extend hs h8 hraw
    · rw [windowWrite_scalar hup ha hl, State.windowStore_absent hc]
    · rw [windowWrite_scalar hup ha hl, State.windowStore_block he ht]
    · obtain ⟨h1, h8⟩ := entryAt_scalar_size he ht
      have unfit := mt (Entry.extend_eq_iff val h1 h8 narrow_lt).mp
      rw [windowWrite_scalar hup ha hl, State.windowStore_unfit he ht (hf.imp_right unfit)]
    · obtain ⟨h1, hs8⟩ := entryAt_scalar_size he ht
      have fit := (Entry.extend_eq_iff val h1 hs8 narrow_lt).mpr hf
      have hoff := off.isLt
      have hpage := s.dict.page.isLt
      have hindex : index < 2 ^ 16 := by
        have : off.toNat / 2048 < 4096 := by omega
        omega
      have hsub : sub < 2 ^ 8 := Nat.mod_lt _ (by decide)
      rw [exec_registerWrite_entry _ _ _ _ _ _ _ hindex hsub (by omega), windowWrite_scalar hup ha hl, h8, State.windowStore_fit he ht fit]
    · exact ⟨_, eventWord_fields _ _ _, evtPop_debug hup ho, evtPop_take hup ho⟩
  · intro s index sub type len n up starts ended
    have starts_of (c : Instr) (op : BlockOp) (h : exec c s = .next (s.blockStart op)) : starts c op := by
      obtain ⟨hdown, hstart, hbusy⟩ := s.blockStart_cases op
      exact ⟨fun hu => by rw [h, hdown hu], fun hu hb => by rw [h, hstart hu hb], fun hu hb => by rw [h, hbusy hu hb]⟩
    refine ⟨starts_of _ _ rfl, starts_of _ _ rfl, fun h => ⟨dictCmdAbort_idle h, dictCmdComplete_idle h⟩, dictCmdAbort_busy,
      fun hb hup => ?_, fun hb hup hn => ?_, fun hb hup hn => ?_⟩
    · refine ⟨_, dictCmdComplete_busy hb hup, fun k => ?_⟩
      rw [get_writeMem_some, if_pos (Nat.zero_le k), Nat.sub_zero]
    · rw [dictCmdComplete_busy hb hup, State.blockRun, if_pos hn]; rfl
    · obtain ⟨u, w, code, m, hu, hrun, hcode, hm, h0⟩ := State.blockRun_write (s := s) (type := type) (index := index) (sub := sub) hn
      exact ⟨u, w, code, m, by rw [hu]; rfl, by rw [dictCmdComplete_busy hb hup, hrun]; rfl, hcode, hm, h0⟩

end Sys2Proof.Machine
end

section
/-! Control space: what csr.r, csr.w and the scalar accesses to the own core's control words come to (R48, R61, R62), and what a register write
does at the word it names (R11, R489). -/

namespace Sys2Proof.Machine

/-! ### Completion on a state that the instruction changed -/

section Completion

variable {s t : State} {w : Who}

/-- A change of a thread before an instruction completes is part of what the completed instruction did. -/
theorem State.retired_modThread (n : Nat) (f g : Thread → Thread) : (t.modThread w f).retired w n g = t.retired w n (fun h => g (f h)) := by
  simp only [State.retired, State.modThread_modThread]

/-- An instruction completes on whatever state it left, if that asks no halt of its thread. -/
theorem settle_done_of_undisturbed (h : (t.thread w).undisturbed) (long : Bool) :
    s.settle w long (.done t) = t.retired w (if long then 8 else 4) id := by
  have key := State.thread_countRetired (t.modThread w (fun h => h.advance (if long then 8 else 4))) w
  rw [State.thread_modThread] at key
  exact State.stepEnd_of_none (by rw [key]; exact h.1) (by rw [key]; exact h.2)

/-- The same where its last effect is on its thread. -/
theorem settle_done_modThread {f : Thread → Thread} (h : (f (t.thread w)).undisturbed) (long : Bool) :
    s.settle w long (.done (t.modThread w f)) = t.retired w (if long then 8 else 4) f := by
  rw [settle_done_of_undisturbed (by rwa [State.thread_modThread]), State.retired_modThread]; rfl

theorem Thread.undisturbed_setReg {h : Thread} (hq : h.undisturbed) (r : BitVec 5) (v : Word) : (h.setReg r v).undisturbed := by
  rwa [Thread.undisturbed, Thread.setReg_haltReq, Thread.setReg_stepping]

theorem Thread.undisturbed_rebase {h : Thread} (hq : h.undisturbed) (rb : BitVec 5) (upd : Option Word) : (h.rebase rb upd).undisturbed := by
  cases upd with
  | none => exact hq
  | some v => exact Thread.undisturbed_setReg hq rb v

end Completion

/-! ### A load whose data is there at once -/

/-- Writing a register leaves the program counter, the given word and the outstanding loads to themselves. -/
theorem Thread.setReg_frame (h : Thread) (r : BitVec 5) (v : Word) (pc : Word) (g) (ls : List LoadOp) :
    ({ h with pc := pc, given := g, loads := ls } : Thread).setReg r v = { h.setReg r v with pc := pc, given := g, loads := ls } := by
  unfold Thread.setReg; split <;> rfl

@[simp] theorem Thread.setReg_pc (h : Thread) (r v) : (h.setReg r v).pc = h.pc := by rw [Thread.setReg_eq]
@[simp] theorem Thread.setReg_loads (h : Thread) (r v) : (h.setReg r v).loads = h.loads := by rw [Thread.setReg_eq]
@[simp] theorem Thread.rebase_pc (h : Thread) (rb upd) : (h.rebase rb upd).pc = h.pc := by cases upd <;> simp [Thread.rebase]
@[simp] theorem Thread.rebase_loads (h : Thread) (rb upd) : (h.rebase rb upd).loads = h.loads := by cases upd <;> simp [Thread.rebase]

theorem Thread.rebase_frame (h : Thread) (rb : BitVec 5) (upd : Option Word) (pc : Word) (g) (ls : List LoadOp) :
    ({ h with pc := pc, given := g, loads := ls } : Thread).rebase rb upd = { h.rebase rb upd with pc := pc, given := g, loads := ls } := by
  cases upd with
  | none => rfl
  | some v => exact Thread.setReg_frame h rb v pc g ls

/-- A whole word loads as it stands. -/
theorem extendScalar_word (v : Word) : extendScalar (toBytes v.toNat 8) 8 false = v := by
  simp [extendScalar, ofNat_leNat_toBytes]

/-- What a finished load of a whole word does to its thread. -/
def Thread.loadWord (h : Thread) (rd : BitVec 5) (v : Word) (rb : BitVec 5) (upd : Option Word) : Thread := (h.setReg rd v).rebase rb upd

/-- The outstanding load of a whole word whose data is there. -/
def wordLoad (pc : Word) (rd : BitVec 5) (v : Word) (rb : BitVec 5) (upd : Option Word) : LoadOp :=
  { pc := pc, long := false, kind := .scalar rd 8 false, parts := [.data (toBytes v.toNat 8)], upd := upd.map (fun x => (rb, x)) }

theorem wordLoad_finish (pc : Word) (rd : BitVec 5) (v : Word) (rb : BitVec 5) (upd : Option Word) (h : Thread) :
    (wordLoad pc rd v rb upd).finish h (toBytes v.toNat 8) = h.loadWord rd v rb upd := by
  cases upd <;> simp [wordLoad, LoadOp.finish, Thread.loadWord, Thread.rebase, extendScalar_word]

/-- A thread that has sent a load and gone on to its next instruction. -/
def Thread.sentLoad (h : Thread) (op : LoadOp) : Thread := ({ h with loads := h.loads ++ [op] } : Thread).advance 4

/-- Sending and finishing a load with no other one outstanding comes to the finished load and the next instruction. -/
theorem Thread.loadWord_sentLoad {h : Thread} (hl : h.loads = []) (op : LoadOp) (rd : BitVec 5) (v : Word) (rb : BitVec 5) (upd : Option Word) :
    ({ (h.sentLoad op).loadWord rd v rb upd with loads := (h.sentLoad op).loads.drop 1 } : Thread) = (h.loadWord rd v rb upd).advance 4 := by
  have hset := h.setReg_frame rd v (h.pc + 4#64) Option.none [op]
  simp only [Thread.loadWord, Thread.sentLoad, Thread.advance, hl, List.nil_append, hset, Thread.rebase_frame, Thread.rebase_pc, Thread.setReg_pc]
  congr 1
  simp [hl]

/-- The only outstanding load of a thread retires if its data is there. -/
theorem State.retire_wordLoad {t : State} {w : Who} {pc : Word} {rd : BitVec 5} {v : Word} {rb : BitVec 5} {upd : Option Word}
    (hl : (t.thread w).loads = [wordLoad pc rd v rb upd]) :
    State.retire 1 t w = ((t.modThread w (fun h => { h.loadWord rd v rb upd with loads := h.loads.drop 1 })).countRetired w).stepEnd w := by
  have hkind : (wordLoad pc rd v rb upd).kind = .scalar rd 8 false := rfl
  have hparts : scanParts (wordLoad pc rd v rb upd).parts [] = .all (toBytes v.toNat 8) := rfl
  simp only [State.retire, hl, hkind, hparts, wordLoad_finish]

/-- A load that has its data and no older load before it completes at once. -/
theorem settle_sent_wordLoad {s t : State} {w : Who} (hl : (t.thread w).loads = []) (hq : (t.thread w).undisturbed) (pc : Word)
    (rd : BitVec 5) (v : Word) (rb : BitVec 5) (upd : Option Word) :
    s.settle w false (.sent (t.pushLoad w (wordLoad pc rd v rb upd))) = t.retired w 4 (fun h => h.loadWord rd v rb upd) := by
  have hfin : ((t.thread w).loadWord rd v rb upd).undisturbed := Thread.undisturbed_rebase (Thread.undisturbed_setReg hq _ _) _ _
  have hloads : ((t.modThread w (fun h => h.sentLoad (wordLoad pc rd v rb upd))).thread w).loads = [wordLoad pc rd v rb upd] := by
    rw [State.thread_modThread, Thread.sentLoad, Thread.advance, hl]; rfl
  have hsent : s.settle w false (.sent (t.pushLoad w (wordLoad pc rd v rb upd))) =
      State.retire 1 (t.modThread w (fun h => h.sentLoad (wordLoad pc rd v rb upd))) w := by
    simp only [State.settle, State.pushLoad, State.modThread_modThread]
    exact congrArg (fun n => State.retire n _ w) (congrArg List.length hloads)
  have hthread : t.modThread w (fun h => { (h.sentLoad (wordLoad pc rd v rb upd)).loadWord rd v rb upd with
      loads := (h.sentLoad (wordLoad pc rd v rb upd)).loads.drop 1 }) = t.modThread w (fun h => (h.loadWord rd v rb upd).advance 4) := by
    simp only [State.modThread, Thread.loadWord_sentLoad hl]
  have hdone := settle_done_modThread (s := t) (f := fun h => h.loadWord rd v rb upd) hfin false
  rw [State.settle, State.modThread_modThread] at hdone
  rw [hsent, State.retire_wordLoad hloads, State.modThread_modThread, hthread]
  exact hdone

/-! ### Reading control space -/

/-- A change of a core that leaves its threads alone leaves every thread alone. -/
theorem State.thread_modCore {s : State} {c : CoreIx} {f : Core → Core} (hf : (f (s.core c)).threads = (s.core c).threads) (w : Who) :
    (s.modCore c f).thread w = s.thread w := by
  by_cases hc : w.core = c
  · subst hc
    simp [State.thread, Core.thread, hf]
  · simp [State.thread, State.core_modCore_other _ _ hc]

theorem State.queDropRead_thread (s : State) (v : Via) (c : CoreIx) (q : BitVec 4) (w : Who) :
    (s.queDropRead v c q).2.thread w = s.thread w := by
  unfold State.queDropRead State.modQueue
  split
  · rfl
  · exact State.thread_modCore rfl w

theorem State.queWord_thread (s : State) (v : Via) (c : CoreIx) (q : BitVec 4) (o : Nat) (w : Who) :
    (s.queWord v c q o).2.thread w = s.thread w := by
  unfold State.queWord
  split
  case h_5 => exact s.queDropRead_thread v c q w
  all_goals rfl

theorem State.pmcGuard_thread (s : State) (v : Via) (c : CoreIx) (bit : Nat) (x : BitVec 48) (w : Who) :
    (s.pmcGuard v c bit x).2.thread w = s.thread w := by
  unfold State.pmcGuard
  split
  · exact State.thread_modCore (f := fun k => { k with pmcDeny := true }) rfl w
  · rfl

theorem State.pmcRead_thread (s : State) (v : Via) (c : CoreIx) (off : Nat) (w : Who) : (s.pmcRead v c off).2.thread w = s.thread w := by
  simp only [State.pmcRead, apply_ite Prod.snd, apply_ite (fun t : State => t.thread w), State.pmcGuard_thread, ite_self]

/-- Reading a control word changes no thread. -/
theorem State.ctlRead_thread (s : State) (v : Via) (c : CoreIx) (off : Nat) (w : Who) : (s.ctlRead v c off).2.thread w = s.thread w := by
  simp only [State.ctlRead, apply_ite Prod.snd, apply_ite (fun t : State => t.thread w), State.queWord_thread, State.pmcRead_thread, ite_self]

/-! ### csr.r, csr.w, ld.d and st.d -/

section Instructions

variable {s : State} {i : Iss}

theorem State.undisturbed_of_ready {long : Bool} (h : s.ready i long = true) : (s.thread i.who).undisturbed := by
  obtain ⟨_, _, _, _, hhalt, hstep, _⟩ := State.ready_cases h
  exact ⟨hhalt, hstep⟩

theorem csrR_done (h : s.ready i false = true) (rd : BitVec 5) {off : BitVec 16} (ha : off.toNat % 8 = 0) :
    exec (.csrR i rd off) s = .next ((s.ctlRead (.thread i.who) i.who.core off.toNat).2.retired i.who 4
      (fun h => h.setReg rd (s.ctlRead (.thread i.who) i.who.core off.toNat).1)) := by
  have hq : ((s.ctlRead (.thread i.who) i.who.core off.toNat).2.thread i.who).undisturbed := by
    rw [State.ctlRead_thread]
    exact State.undisturbed_of_ready h
  rw [exec_csrR, execCsrR, issue_of_ready h, if_neg (not_not_intro ha)]
  exact congrArg Host.Outcome.next (settle_done_modThread (Thread.undisturbed_setReg hq rd _) false)

theorem csrW_done (h : s.ready i false = true) (rs : BitVec 5) {off : BitVec 16} (ha : off.toNat % 8 = 0)
    (hw : s.ctlWaits (.thread i.who) i.who.core off.toNat ((s.thread i.who).reg rs) = false)
    (hq : ((s.ctlWrite (.thread i.who) i.who.core off.toNat ((s.thread i.who).reg rs)).thread i.who).undisturbed) :
    exec (.csrW i rs off) s =
      .next ((s.ctlWrite (.thread i.who) i.who.core off.toNat ((s.thread i.who).reg rs)).retired i.who 4 id) := by
  rw [exec_csrW, execCsrW, issue_of_ready h]
  dsimp only
  rw [if_neg (not_not_intro ha), hw]
  exact congrArg _ (settle_done_of_undisturbed hq false)

theorem csrR_unaligned (h : s.ready i false = true) (rd : BitVec 5) {off : BitVec 16} (ha : off.toNat % 8 ≠ 0) :
    exec (.csrR i rd off) s = .next (s.settle i.who false (.trap s (illegal 0x03))) := by
  rw [exec_csrR, execCsrR, issue_of_ready h, if_pos ha]

theorem csrW_unaligned (h : s.ready i false = true) (rs : BitVec 5) {off : BitVec 16} (ha : off.toNat % 8 ≠ 0) :
    exec (.csrW i rs off) s = .next (s.settle i.who false (.trap s (illegal 0x0C))) := by
  rw [exec_csrW, execCsrW, issue_of_ready h]
  dsimp only
  rw [if_pos ha]

variable {rb : BitVec 5} {m : MemF} {a : Word} {upd : Option Word} {off : Nat} {page : Option Nat}

theorem ldD_ctl (h : s.ready i false = true) {rd : BitVec 5}
    (hr : s.reaches i.who rb (some rd) m .read 8 a upd (.ctl i.who.core off) page) :
    exec (.ldD i rd rb m) s = .next ((s.ctlRead (.thread i.who) i.who.core off).2.retired i.who 4
      (fun h => h.loadWord rd (s.ctlRead (.thread i.who) i.who.core off).1 rb upd)) := by
  obtain ⟨_, _, _, hloads, _⟩ := State.ready_cases h
  obtain ⟨haddr, hwatch, halign, hplace⟩ := hr
  have hwatch : s.watchpoint i.who m.g a 8 true false = Option.none := hwatch
  have hplace : s.place i.who m.g .read true a 8 = .at_ (.ctl i.who.core off) page := hplace
  have hthread := s.ctlRead_thread (.thread i.who) i.who.core off i.who
  have hq := hthread ▸ State.undisturbed_of_ready h
  rw [exec_ldD, execLdD, scalarLoad, issue_of_ready h]
  simp only [haddr, hwatch, halign, hplace, hloads, List.isEmpty_nil, ne_eq, not_true_eq_false, if_false, if_true, decide_true]
  exact congrArg Host.Outcome.next (settle_sent_wordLoad (hthread ▸ hloads) hq _ rd _ rb upd)

theorem stD_ctl (h : s.ready i false = true) {rd : BitVec 5}
    (hr : s.reaches i.who rb Option.none m .write 8 a upd (.ctl i.who.core off) page)
    (hw : s.ctlWaits (.thread i.who) i.who.core off ((s.thread i.who).reg rd) = false)
    (hq : ((s.ctlWrite (.thread i.who) i.who.core off ((s.thread i.who).reg rd)).thread i.who).undisturbed) :
    exec (.stD i rd rb m) s = .next ((s.ctlWrite (.thread i.who) i.who.core off ((s.thread i.who).reg rd)).retired i.who 4
      (fun h => h.rebase rb upd)) := by
  obtain ⟨haddr, hwatch, halign, hplace⟩ := hr
  have hwatch : s.watchpoint i.who m.g a 8 false true = Option.none := hwatch
  have hplace : s.place i.who m.g .write true a 8 = .at_ (.ctl i.who.core off) page := hplace
  rw [exec_stD, execStD, scalarStore, issue_of_ready h]
  simp only [haddr, hwatch, halign, hplace, hw, ne_eq, not_true_eq_false, if_false, Bool.false_eq_true, decide_true]
  exact congrArg _ (settle_done_modThread (Thread.undisturbed_rebase hq rb upd) false)

end Instructions

/-! ### Register writes (R11) -/

section RegisterWrite

variable {s : State} {v : Via} {c : CoreIx} {val : Word}

/-- Whether a register write reaches a control word: the main domain is on, its core is present, and the debug path is enabled. -/
def State.writable (s : State) (v : Via) (c : CoreIx) : Prop :=
  s.boot.mainOn = true ∧ s.present c = true ∧ ¬(v = .debug ∧ storedIn s.dict.vals 0x8060 0 ≠ [1])

/-- Only the words of a thread's block can make a write wait. -/
theorem State.ctlWaits_outside_blocks {off : Nat} (h : off < 0x100 ∨ 0x1000 ≤ off) : s.ctlWaits v c off val = false := by
  rw [State.ctlWaits, blockOf, if_neg (by omega), if_neg (by omega)]

theorem registerWrite_ignored {off : BitVec 16} (h : off.toNat % 8 ≠ 0 ∨ ¬s.writable v c) :
    exec (.registerWrite (.control v c off) val) s = .next s := by
  rw [exec_registerWrite, execRegisterWrite]
  refine if_pos ?_
  rcases h with h | h
  · exact .inl h
  · simp only [State.writable, State.debugOn] at h ⊢
    by_cases h1 : s.boot.mainOn = true
    · by_cases h2 : s.present c = true
      · simp only [h1, h2, true_and, not_not] at h
        exact .inr (.inr (.inr (.inl (by simpa using h))))
      · exact .inr (.inr (.inl h2))
    · exact .inr (.inl h1)

theorem registerWrite_reaches {off : BitVec 16} (h : s.writable v c) (ha : off.toNat % 8 = 0) (hb : off.toNat < 0x100 ∨ 0x1000 ≤ off.toNat) :
    exec (.registerWrite (.control v c off) val) s = .next (s.ctlWrite v c off.toNat val) := by
  obtain ⟨hon, hpresent, hdebug⟩ := h
  rw [exec_registerWrite, execRegisterWrite]
  refine if_neg ?_
  rintro (h | h | h | h | h)
  · exact h ha
  · exact h hon
  · exact h hpresent
  · exact hdebug ⟨h.1, by simpa [State.debugOn] using h.2⟩
  · rw [State.ctlWaits_outside_blocks hb] at h
    exact Bool.false_ne_true h

theorem State.ctlWrite_unused {off : Nat} (h : (0x1000 ≤ off ∧ off < 0x2000) ∨ (0xB000 ≤ off ∧ off < 0xE000) ∨ 0xF200 ≤ off) :
    s.ctlWrite v c off val = s := by
  rcases h with h | h | h <;> simp (disch := omega) only [State.ctlWrite, if_pos, if_neg]

/-- The command word of a queue. -/
theorem State.ctlWrite_queCmd {off : Nat} (ha : off % 64 = 16) (h1 : 0x4000 ≤ off) (h2 : off < 0x4400) :
    s.ctlWrite v c off val = s.queCmd c (BitVec.ofNat 4 ((off - 0x4000) / 64)) (val.extractLsb' 0 2).toNat := by
  simp (disch := omega) only [State.ctlWrite, if_pos, if_neg, ha, State.queStore]

/-- XL_INV's bit 63 is what tells its two commands apart. -/
theorem exec_xlInv (s : State) (v : Via) (c : CoreIx) (val : Word) :
    exec (if val.getLsbD 63 then .xlInvModule v c val else .xlInvTeam v c val) s = .next (s.xlInvWrite c val) := by
  by_cases h : val.getLsbD 63 = true
  · have hval : val ||| 0x8000000000000000 = val := by
      rw [show (0x8000000000000000 : Word) = BitVec.twoPow 64 63 by decide]
      refine BitVec.eq_of_getLsbD_eq fun k hk => ?_
      by_cases hk63 : k = 63
      · simp [hk63, h]
      · simp [BitVec.getLsbD_twoPow, Ne.symm hk63]
    rw [if_pos h, exec_xlInvModule, execXlInvModule, hval]
  · have hval : BitVec.ofNat 64 (val.toNat % 2 ^ 63) = val := by
      rw [BitVec.getLsbD, Nat.testBit_eq_decide_div_mod_eq, decide_eq_true_eq] at h
      have := val.isLt
      rw [Nat.mod_eq_of_lt (by omega), BitVec.ofNat_toNat, BitVec.setWidth_eq]
    rw [if_neg h, exec_xlInvTeam, execXlInvTeam, hval]

/-- A register write of BAR0 is the write of its word. -/
theorem registerWrite_bar0 (off : BitVec 16) : exec (.registerWrite (.bar0 off) val) s = .next (s.bar0Write off.toNat val) := rfl

theorem State.bar0Write_down (h : s.boot.hostUp = false) (off : Nat) : s.bar0Write off val = s := by simp [State.bar0Write, h]

/-- BAR0 has three words that a write changes: DICT_PAGE, DICT_CMD and DICT_STAT. -/
theorem State.bar0Write_other {off : Nat} (h1 : off ≠ 8) (h2 : off ≠ 16) (h3 : off ≠ 24) : s.bar0Write off val = s := by
  simp [State.bar0Write, h1, h2, h3]

theorem State.bar0Write_page (h : s.boot.hostUp = true) :
    s.bar0Write 8 val = { s with dict := { s.dict with page := val.extractLsb' 0 4 } } := by simp [State.bar0Write, h]

theorem State.bar0Write_status (h : s.boot.hostUp = true) :
    s.bar0Write 24 val =
      { s with dict := { s.dict with done := s.dict.done && !(val.getLsbD 62), werr := s.dict.werr && !(val.getLsbD 61) } } := by
  simp [State.bar0Write, h]

theorem State.bar0Write_command (h : s.boot.hostUp = true) : s.bar0Write 16 val = s.dictCmd val := by simp [State.bar0Write, h]

/-- The operation of a written DICT_CMD. -/
theorem State.dictCmd_cases (s : State) (val : Word) :
    (val.extractLsb' 60 4 = 1 → s.dictCmd val = s.blockStart (.read (val.extractLsb' 40 16) (val.extractLsb' 32 8))) ∧
    (val.extractLsb' 60 4 = 2 → s.dictCmd val =
      s.blockStart (.write (val.extractLsb' 56 4) (val.extractLsb' 40 16) (val.extractLsb' 32 8) (val.extractLsb' 0 32).toNat)) ∧
    (val.extractLsb' 60 4 = 3 → s.dictCmd val = s.blockAbort) := by
  refine ⟨fun h => ?_, fun h => ?_, fun h => ?_⟩ <;> simp [State.dictCmd, h]

/-- The operation of a written QUE_CMD. -/
theorem State.queCmd_cases (s : State) (c : CoreIx) (q : BitVec 4) (op : BitVec 2) :
    (op = 1 → s.queCmd c q op.toNat = s.queOpen c q) ∧ (op = 2 → s.queCmd c q op.toNat = s.queClose c q) ∧
      (op = 3 → s.queCmd c q op.toNat = s.queReset c q) := by
  refine ⟨fun h => ?_, fun h => ?_, fun h => ?_⟩ <;> simp [State.queCmd, h]

end RegisterWrite

/-! ### A stored scalar: PWR_OP_MAX (R516) -/

/-- A write of PWR_OP_MAX that its path, class, type and length allow is refused above 2 and stored otherwise. -/
theorem State.writeReport_pwrOpMax (s : State) (p : Path) (one : Byte) :
    s.writeReport p 0x2700 0 2 [one] true =
      if s.writeCode p 0x2700 0 2 1 true ≠ 0 then s.report p (s.writeCode p 0x2700 0 2 1 true)
      else if 2 < one.toNat then s.report p 9
      else ({ s with dict := { s.dict with vals := Sparse.set s.dict.vals (256 * 0x2700) [one] } } : State).report p 0 := by
  have hentry : entryAt 0x2700 0 = .inr ⟨2, .rw, 1, 0⟩ := by decide
  have happly : s.applyEntry 0x2700 0 [one] = s.scalarWrite 0x2700 0 ⟨2, .rw, 1, 0⟩ one.toNat := by
    simp [State.applyEntry, hentry, leNat]
  have hbytes : toBytes one.toNat 1 = [one] := by simp [toBytes]
  rw [State.writeReport, State.writeEntry, if_neg (fun h => absurd h.1 (by decide)), State.writePlain, happly, List.length_singleton]
  by_cases hcode : s.writeCode p 0x2700 0 2 1 true = 0
  · by_cases hv : 2 < one.toNat
    · simp [hcode, hv, State.scalarWrite, State.scalarCode, valueOk]
    · simp [hcode, hv, State.scalarWrite, State.scalarCode, valueOk, State.dictStore, valueMask, hbytes, Nat.le_of_not_lt hv]
  · simp [hcode]

/-- Settles O53: the instructions by what they complete with, a register write by the word it names. -/
theorem registerWrites : Obligations.RegisterWrites := by
  unfold Obligations.RegisterWrites
  refine ⟨?_, ?_⟩
  · intro s i rd rs off h c rdw v wrs quiet
    exact ⟨csrR_done h rd, csrW_done h rs, fun ha => ⟨csrR_unaligned h rd ha, csrW_unaligned h rs ha⟩,
      fun rb m a upd o page => ⟨ldD_ctl h, stD_ctl h⟩⟩
  · intro s v c off val p one ctl bar debug reached q code op
    have ctl_of {o : BitVec 16} (h : reached) (ha : o.toNat % 8 = 0) (hb : o.toNat < 0x100 ∨ 0x1000 ≤ o.toNat) :
        exec (ctl o) s = .next (s.ctlWrite v c o.toNat val) := registerWrite_reaches h ha hb
    have hop : exec op s = _ := congrArg Host.Outcome.next (s.writeReport_pwrOpMax p one)
    obtain ⟨hread, hwrite, habort⟩ := s.dictCmd_cases val
    obtain ⟨hopen, hclose, hreset⟩ := s.queCmd_cases c q (val.extractLsb' 0 2)
    refine ⟨registerWrite_ignored, fun h => ctl_of h (by decide) (by decide), fun h => ctl_of h (by decide) (by decide), fun h => ?_,
      fun h => ctl_of h (by decide) (by decide), fun h => ctl_of h (by decide) (by decide), fun h => ctl_of h (by decide) (by decide),
      fun h ha h1 h2 => ?_, fun h ha hu => ?_, fun h => ?_, fun h1 h2 h3 => ?_, fun h => ⟨?_, ?_, fun ho => ?_, fun ho => ?_, fun ho => ?_⟩,
      fun hc => ?_, fun hc hv => ?_, fun hc hv => ?_⟩
    · rw [exec_xlInv]
      exact ctl_of h (by decide) (by decide)
    · have hque : exec (ctl off) s = .next (s.queCmd c q (val.extractLsb' 0 2).toNat) := by
        rw [ctl_of h (by omega) (by omega), State.ctlWrite_queCmd ha h1 h2]
      exact ⟨fun ho => by rw [hque, hopen ho]; rfl, fun ho => by rw [hque, hclose ho]; rfl, fun ho => by rw [hque, hreset ho]; rfl⟩
    · rw [ctl_of h ha (by omega), State.ctlWrite_unused hu]
    · rw [registerWrite_bar0, State.bar0Write_down h]
    · rw [registerWrite_bar0, State.bar0Write_other (toNat_ne h1) (toNat_ne h2) (toNat_ne h3)]
    · exact congrArg Host.Outcome.next (State.bar0Write_page h)
    · exact congrArg Host.Outcome.next (State.bar0Write_status h)
    · exact congrArg Host.Outcome.next ((State.bar0Write_command h).trans (hread ho))
    · exact congrArg Host.Outcome.next ((State.bar0Write_command h).trans (hwrite ho))
    · exact congrArg Host.Outcome.next ((State.bar0Write_command h).trans (habort ho))
    · rw [hop, if_pos hc]
    · rw [hop, if_neg (not_not_intro hc), if_pos hv]
    · rw [hop, if_neg (not_not_intro hc), if_neg (by omega)]

end Sys2Proof.Machine
end

section
/-! Reading a table whose entries were all changed: what `Sparse.mapVals` leaves at each key. -/

namespace Sys2Proof.Machine

variable {α : Type} [DecidableEq α] {d : α}

/-- A canonical table holds nothing below its bound. -/
theorem Sparse.get_below {m : Sparse α} {b k : Nat} (h : Sparse.wfFrom d b m = true) (hk : k < b) : Sparse.get d m k = d := by
  induction m generalizing b with
  | nil => rfl
  | cons e m ih =>
    obtain ⟨j, v⟩ := e
    simp only [Sparse.wfFrom, Bool.and_eq_true, decide_eq_true_eq] at h
    obtain ⟨⟨hb, _⟩, hm⟩ := h
    rw [Sparse.get, if_neg (by omega)]
    exact ih hm (by omega)

theorem Sparse.get_mapVals_from {m : Sparse α} {b : Nat} {f : Nat → α → α} (h : Sparse.wfFrom d b m = true) (hf : ∀ k, f k d = d) (k : Nat) :
    Sparse.get d (Sparse.mapVals d f m) k = f k (Sparse.get d m k) := by
  induction m generalizing b with
  | nil => exact (hf k).symm
  | cons e m ih =>
    obtain ⟨j, v⟩ := e
    simp only [Sparse.wfFrom, Bool.and_eq_true, decide_eq_true_eq] at h
    obtain ⟨_, hm⟩ := h
    have hrest := ih hm
    by_cases hj : j = k
    · subst hj
      by_cases hv : f j v = d
      · rw [Sparse.mapVals, if_pos hv, hrest, Sparse.get_below hm (Nat.lt_succ_self j), hf j, Sparse.get, if_pos rfl, hv]
      · rw [Sparse.mapVals, if_neg hv, Sparse.get, if_pos rfl, Sparse.get, if_pos rfl]
    · by_cases hv : f j v = d
      · rw [Sparse.mapVals, if_pos hv, hrest, Sparse.get, if_neg hj]
      · rw [Sparse.mapVals, if_neg hv, Sparse.get, if_neg hj, hrest, Sparse.get, if_neg hj]

/-- Every entry of a canonical table is changed, and an absent one stays absent. -/
theorem Sparse.get_mapVals {m : Sparse α} {f : Nat → α → α} (h : Sparse.wf d m = true) (hf : ∀ k, f k d = d) (k : Nat) :
    Sparse.get d (Sparse.mapVals d f m) k = f k (Sparse.get d m k) := Sparse.get_mapVals_from h hf k

omit [DecidableEq α] in
/-- What a fold does to one component of its state is what the single steps do to it. -/
theorem foldl_invariant {β γ : Type} (P : β → Prop) {f : β → γ → β} {l : List γ} {b : β} (h : P b) (step : ∀ b, ∀ a ∈ l, P b → P (f b a)) :
    P (l.foldl f b) := by
  induction l generalizing b with
  | nil => exact h
  | cons a l ih => exact ih (step b a List.mem_cons_self h) (fun b c hc => step b c (List.mem_cons_of_mem _ hc))

end Sys2Proof.Machine
end

section
/-! Side effects: what counting, reporting and sending leave alone. Counters, events, packets and the state of the ports change on the way of many
operations, and nothing else of the cores, the dies, the module's registers and the boot words. -/

namespace Sys2Proof.Machine

/-- Nothing differs but saturation flags and counters, the size table's generation, the dictionary's events, and what is under way. -/
structure State.Aside (s t : State) : Prop where
  boot : t.boot = s.boot
  overlay : t.dict.ovlActive = s.dict.ovlActive
  mod : t.mod = { s.mod with agg := t.mod.agg, szGen := t.mod.szGen }
  core : ∀ c, t.core c = { s.core c with pmcSat := (t.core c).pmcSat }
  die : ∀ d, t.die d = { s.die d with pmc := (t.die d).pmc }
  coresWf : Sparse.wf {} s.cores = true → Sparse.wf {} t.cores = true
  diesWf : Sparse.wf {} s.dies = true → Sparse.wf {} t.dies = true

namespace State.Aside

/-- Whatever touches neither table, the boot words, nor the module's registers is a side effect. -/
theorem of_tables {s t : State} (hc : t.cores = s.cores) (hd : t.dies = s.dies) (hb : t.boot = s.boot)
    (ho : t.dict.ovlActive = s.dict.ovlActive) (hm : t.mod = { s.mod with agg := t.mod.agg, szGen := t.mod.szGen }) : s.Aside t where
  boot := hb
  overlay := ho
  mod := hm
  core c := by rw [State.core, hc]; rfl
  die d := by rw [State.die, hd]; rfl
  coresWf h := hc ▸ h
  diesWf h := hd ▸ h

theorem refl (s : State) : s.Aside s := of_tables rfl rfl rfl rfl rfl

theorem trans {s t u : State} (h : s.Aside t) (h' : t.Aside u) : s.Aside u where
  boot := h'.boot.trans h.boot
  overlay := h'.overlay.trans h.overlay
  mod := h'.mod.trans (by rw [h.mod])
  core c := (h'.core c).trans (by rw [h.core c])
  die d := (h'.die d).trans (by rw [h.die d])
  coresWf hw := h'.coresWf (h.coresWf hw)
  diesWf hw := h'.diesWf (h.diesWf hw)

theorem selftest {s t : State} (h : s.Aside t) : t.mod.selftest = s.mod.selftest := by rw [h.mod]

theorem foldl {γ : Type} {f : State → γ → State} {l : List γ} {s : State} (h : ∀ s a, State.Aside s (f s a)) : s.Aside (l.foldl f s) :=
  foldl_invariant (s.Aside ·) (refl s) (fun t a _ ht => ht.trans (h t a))

theorem ite {p : Prop} [Decidable p] {s t u : State} (ht : s.Aside t) (hu : s.Aside u) : s.Aside (if p then t else u) := by
  split
  · exact ht
  · exact hu

end State.Aside

open State.Aside

/-! ### Counters, events and packets -/

section
variable (s : State)

theorem State.aside_emit (o : Out) : s.Aside (s.emit o) := of_tables rfl rfl rfl rfl rfl
theorem State.aside_feedAgg (e : Nat) (d : Option DieIx) (n : Nat) : s.Aside (s.feedAgg e d n) := of_tables rfl rfl rfl rfl rfl
theorem State.aside_countMod (e n : Nat) : s.Aside (s.countMod e n) := s.aside_feedAgg e _ n
theorem State.aside_modTeam (t : BitVec 8) (f : Team → Team) : s.Aside (s.modTeam t f) := of_tables rfl rfl rfl rfl rfl
theorem State.aside_modRing (r : BitVec 6) (f : Ring → Ring) : s.Aside (s.modRing r f) := of_tables rfl rfl rfl rfl rfl
theorem State.aside_modPort (p : BitVec 4) (f : Port → Port) : s.Aside (s.modPort p f) := of_tables rfl rfl rfl rfl rfl

theorem State.aside_satCore (c : CoreIx) : s.Aside (s.modCore c (fun x => { x with pmcSat := true })) where
  boot := rfl
  overlay := rfl
  mod := rfl
  core e := by
    by_cases h : e = c
    · subst h; rw [State.core_modCore]
    · rw [State.core_modCore_other _ _ h]
  die _ := rfl
  coresWf h := Sparse.wf_put _ _ h
  diesWf h := h

theorem State.aside_satCores (cs : List CoreIx) : s.Aside (s.satCores cs) := foldl (fun s c => s.aside_satCore c)

omit s in
theorem State.diesWf_modDie {s : State} (h : Sparse.wf {} s.dies = true) (d : DieIx) (f : Die → Die) : Sparse.wf {} (s.modDie d f).dies = true :=
  Sparse.wf_upd _ _ h

theorem State.aside_diePmc (d : DieIx) (g : Sparse (BitVec 48) → Sparse (BitVec 48)) :
    s.Aside (s.modDie d (fun x => { x with pmc := g x.pmc })) where
  boot := rfl
  overlay := rfl
  mod := rfl
  core _ := rfl
  die e := by
    by_cases h : e = d
    · subst h; rw [State.die_modDie]
    · rw [State.die_modDie_other _ _ h]
  coresWf h := h
  diesWf h := State.diesWf_modDie h d _

theorem State.aside_countTeam (t : BitVec 8) (e n : Nat) : s.Aside (s.countTeam t e n) := by
  refine ite (.trans ?_ (State.aside_satCores _ _)) ?_ <;>
    exact (s.aside_feedAgg e _ n).trans (State.aside_modTeam _ t _)

theorem State.aside_countDie (d : DieIx) (e n : Nat) : s.Aside (s.countDie d e n) := by
  have h := (s.aside_feedAgg e (some d) n).trans (State.aside_diePmc _ d (fun x => Sparse.put 0 x e (pmcAdd (Sparse.get 0 (s.die d).pmc e) n)))
  exact ite (h.trans (State.aside_satCores _ _)) h

theorem State.aside_event (code : Nat) (d : DieIx) (arg vector : Nat) : s.Aside (s.event code d arg vector) :=
  ite (refl s) (of_tables rfl rfl rfl rfl rfl)

theorem State.aside_sizeChanged : s.Aside s.sizeChanged := by
  have h : s.Aside { s with mod := { s.mod with szGen := s.mod.szGen + 1 } } := of_tables rfl rfl rfl rfl rfl
  exact h.trans (State.aside_event _ 0x0001 0 (s.mod.szGen + 1).toNat 0)

theorem State.aside_sendReq (d : DieIx) (k : Packet) (n : Nat) (r) : s.Aside (s.sendReq d k n r) :=
  ite (of_tables rfl rfl rfl rfl rfl) (of_tables rfl rfl rfl rfl rfl)

/-! ### Ports (R393 to R403) -/

theorem State.aside_sendGroup (p : BitVec 4) (j : BitVec 2) : s.Aside (s.sendGroup p j) :=
  ite (refl s) ((s.aside_modPort p _).trans (State.aside_emit _ _))

theorem State.aside_pumpFor (n : Nat) (p : BitVec 4) (j : BitVec 2) : s.Aside (State.pumpFor n s p j) := by
  induction n generalizing s with
  | zero => exact refl s
  | succ n ih => exact ite (refl s) ((s.aside_sendGroup p j).trans (ih _))

theorem State.aside_sendOn (d : DieIx) (p : BitVec 4) (j : BitVec 2) (k : Packet) : s.Aside (s.sendOn d p j k) :=
  ite ((s.aside_modPort p _).trans (State.aside_pumpFor _ _ _ _)) (refl s)

theorem State.aside_probeDue (m : BitVec 12) : s.Aside (s.probeDue m) := of_tables rfl rfl rfl rfl rfl

theorem State.aside_route (d : DieIx) (k : Packet) : s.Aside (s.route d k) := by
  unfold State.route
  dsimp only
  split
  · exact s.aside_probeDue _
  · exact (s.aside_sendOn d _ _ k).trans (of_tables rfl rfl rfl rfl rfl)

theorem State.aside_routeAll (l : List (DieIx × Packet)) : s.Aside (l.foldl (fun s e => s.route e.1 e.2) s) :=
  foldl fun s e => s.aside_route e.1 e.2

theorem State.aside_peerUp (p : BitVec 4) (j : BitVec 2) (up : Bool) : s.Aside (s.peerUp p j up) := by
  refine ite (refl s) (.trans ?_ (State.aside_sizeChanged _))
  exact of_tables rfl rfl rfl rfl rfl

theorem State.aside_portDown (p : BitVec 4) (j : BitVec 2) : s.Aside (s.portDown p j) := by
  unfold State.portDown
  dsimp only
  split
  · exact refl s
  · refine .trans (.trans ?_ (State.aside_routeAll _ _)) (State.aside_peerUp _ _ _ _)
    split
    · exact .trans (s.aside_modPort p _) (State.aside_probeDue _ _)
    · exact s.aside_modPort p _

theorem State.aside_portsDown (p : BitVec 4) : s.Aside (subPorts.foldl (fun s j => s.portDown p j) s) := foldl fun s j => s.aside_portDown p j

theorem State.aside_allPortsDown : s.Aside s.allPortsDown := foldl fun s p => s.aside_portsDown p

theorem State.aside_trainPort (p : BitVec 4) : s.Aside (s.trainPort p) :=
  ite (s.aside_portsDown p) ((s.aside_portsDown p).trans (State.aside_modPort _ _ _))

theorem State.aside_trainPorts : s.Aside s.trainPorts := foldl fun s p => s.aside_trainPort p

end

end Sys2Proof.Machine
end

section
/-! Calm operations: what the endings of items, messages, DMA channels and streams leave of the words that containment looks at. `A` names the cores
an operation is about; of every other core the fence, the matrix queue, the receive queues and the states of the threads stay. -/

namespace Sys2Proof.Machine

/-- The words of a core that containment looks at are the same. -/
structure Core.SameStand (x y : Core) : Prop where
  fenced : y.fenced = x.fenced
  mq : y.mq = x.mq
  queues : y.queues = x.queues
  state : ∀ n, (y.thread n).state = (x.thread n).state

theorem Core.SameStand.refl (x : Core) : x.SameStand x := ⟨rfl, rfl, rfl, fun _ => rfl⟩

theorem Core.SameStand.trans {x y z : Core} (h : x.SameStand y) (h' : y.SameStand z) : x.SameStand z :=
  ⟨h'.fenced.trans h.fenced, h'.mq.trans h.mq, h'.queues.trans h.queues, fun n => (h'.state n).trans (h.state n)⟩

/-- The tables of the cores and of their threads are in canonical form. -/
structure State.CoresWf (s : State) : Prop where
  cores : Sparse.wf {} s.cores = true
  threads : ∀ c, Sparse.wf {} (s.core c).threads = true

structure State.Calm (A : CoreIx → Prop) (s t : State) : Prop where
  boot : t.boot = s.boot
  overlay : t.dict.ovlActive = s.dict.ovlActive
  mod : t.mod = { s.mod with agg := t.mod.agg, szGen := t.mod.szGen }
  coresWf : s.CoresWf → t.CoresWf
  core : s.CoresWf → ∀ c, ¬A c → (s.core c).SameStand (t.core c)
  diesWf : Sparse.wf {} s.dies = true → Sparse.wf {} t.dies = true
  die : Sparse.wf {} s.dies = true → ∀ d, (t.die d).safehold = (s.die d).safehold ∧ (t.die d).monitor = (s.die d).monitor

/-! ### Making and joining calm operations -/

section
variable {A : CoreIx → Prop} {s t u : State}

theorem State.Aside.calm (h : s.Aside t) : s.Calm A t where
  boot := h.boot
  overlay := h.overlay
  mod := h.mod
  coresWf hw := ⟨h.coresWf hw.cores, fun c => by rw [h.core c]; exact hw.threads c⟩
  core _ c _ := by rw [h.core c]; exact ⟨rfl, rfl, rfl, fun _ => rfl⟩
  diesWf := h.diesWf
  die _ d := by rw [h.die d]; exact ⟨rfl, rfl⟩

namespace State.Calm

theorem refl (s : State) : s.Calm A s := (State.Aside.refl s).calm

theorem of_tables (hc : t.cores = s.cores) (hd : t.dies = s.dies) (hb : t.boot = s.boot) (ho : t.dict.ovlActive = s.dict.ovlActive)
    (hm : t.mod = { s.mod with agg := t.mod.agg, szGen := t.mod.szGen }) : s.Calm A t := (State.Aside.of_tables hc hd hb ho hm).calm

theorem trans (h : s.Calm A t) (h' : t.Calm A u) : s.Calm A u where
  boot := h'.boot.trans h.boot
  overlay := h'.overlay.trans h.overlay
  mod := h'.mod.trans (by rw [h.mod])
  coresWf hw := h'.coresWf (h.coresWf hw)
  core hw c hc := (h.core hw c hc).trans (h'.core (h.coresWf hw) c hc)
  diesWf hw := h'.diesWf (h.diesWf hw)
  die hw d := ⟨(h'.die (h.diesWf hw) d).1.trans (h.die hw d).1, (h'.die (h.diesWf hw) d).2.trans (h.die hw d).2⟩

theorem mono {B : CoreIx → Prop} (h : s.Calm A t) (hAB : ∀ c, A c → B c) : s.Calm B t :=
  { h with core := fun hw c hc => h.core hw c (fun ha => hc (hAB c ha)) }

theorem foldl {γ : Type} {f : State → γ → State} {l : List γ} (h : ∀ s a, a ∈ l → State.Calm A s (f s a)) : s.Calm A (l.foldl f s) :=
  foldl_invariant (s.Calm A ·) (refl s) (fun t a ha ht => ht.trans (h t a ha))

theorem ite {p : Prop} [Decidable p] (ht : s.Calm A t) (hu : s.Calm A u) : s.Calm A (if p then t else u) := by
  split
  · exact ht
  · exact hu

/-- An operation that is about no core in particular leaves every core's stand. -/
theorem everyCore (h : s.Calm (fun _ => False) t) (hw : s.CoresWf) (c : CoreIx) : (s.core c).SameStand (t.core c) := h.core hw c id

theorem headStopped (h : s.Calm A t) : t.boot.headStopped = s.boot.headStopped := by rw [h.boot]

theorem selftest (h : s.Calm A t) : t.mod.selftest = s.mod.selftest := by rw [h.mod]

theorem rowCols (h : s.Calm A t) : t.mod.rowCols = s.mod.rowCols := by rw [h.mod]

theorem present (h : s.Calm A t) (c : CoreIx) : t.present c = s.present c := by rw [State.present, h.rowCols]; rfl

end State.Calm

/-! ### Single updates -/

theorem State.coresWf_modCore (h : s.CoresWf) (c : CoreIx) {f : Core → Core} (hf : Sparse.wf {} (f (s.core c)).threads = true) :
    (s.modCore c f).CoresWf where
  cores := Sparse.wf_put _ _ h.cores
  threads e := by
    by_cases he : e = c
    · subst he; rwa [State.core_modCore]
    · rw [State.core_modCore_other _ _ he]; exact h.threads e

/-- A change of one core that is an exception, or keeps what containment looks at. -/
theorem State.calm_modCore (s : State) (c : CoreIx) {f : Core → Core} (hs : A c ∨ (s.core c).SameStand (f (s.core c)))
    (hw : Sparse.wf {} (s.core c).threads = true → Sparse.wf {} (f (s.core c)).threads = true) : s.Calm A (s.modCore c f) where
  boot := rfl
  overlay := rfl
  mod := rfl
  coresWf h := State.coresWf_modCore h c (hw (h.threads c))
  core _ e he := by
    by_cases hc : e = c
    · subst hc
      rw [State.core_modCore]
      exact hs.resolve_left he
    · rw [State.core_modCore_other _ _ hc]; exact .refl _
  diesWf h := h
  die _ _ := ⟨rfl, rfl⟩

/-- A change of one core that leaves its threads alone. -/
theorem State.calm_modCore_same (s : State) (c : CoreIx) {f : Core → Core} (hf : (f (s.core c)).fenced = (s.core c).fenced)
    (hm : (f (s.core c)).mq = (s.core c).mq) (hq : (f (s.core c)).queues = (s.core c).queues)
    (ht : (f (s.core c)).threads = (s.core c).threads) : s.Calm A (s.modCore c f) :=
  s.calm_modCore c (.inr ⟨hf, hm, hq, fun n => by rw [Core.thread, ht]; rfl⟩) (fun h => ht ▸ h)

theorem Core.state_setThread (x : Core) (n : ThrIx) (h : Thread) (m : ThrIx) :
    ((x.setThread n h).thread m).state = if m = n then h.state else (x.thread m).state := by
  split
  · next hm => subst hm; rw [Core.thread_setThread]
  · next hm => rw [Core.thread_setThread_other _ _ hm]

theorem State.calm_setThread (s : State) (w : Who) {g : Thread} (hs : A w.core ∨ g.state = (s.thread w).state) : s.Calm A (s.setThread w g) := by
  refine s.calm_modCore w.core (hs.imp_right fun hg => ⟨rfl, rfl, rfl, fun n => ?_⟩) (fun h => Sparse.wf_put _ _ h)
  rw [Core.state_setThread]
  split
  · next hn => rw [hn]; exact hg
  · rfl

/-- A change of one thread that keeps its state, or of a core that is an exception. -/
theorem State.calm_modThread (s : State) (w : Who) {f : Thread → Thread} (hs : A w.core ∨ (f (s.thread w)).state = (s.thread w).state) :
    s.Calm A (s.modThread w f) := s.calm_setThread w hs

theorem State.calm_modDie (s : State) (d : DieIx) {f : Die → Die} (hs : (f (s.die d)).safehold = (s.die d).safehold)
    (hm : (f (s.die d)).monitor = (s.die d).monitor) : s.Calm A (s.modDie d f) where
  boot := rfl
  overlay := rfl
  mod := rfl
  coresWf h := ⟨h.cores, h.threads⟩
  core _ c _ := .refl _
  diesWf h := State.diesWf_modDie h d f
  die _ e := by
    by_cases he : e = d
    · subst he; rw [State.die_modDie]; exact ⟨hs, hm⟩
    · rw [State.die_modDie_other _ _ he]; exact ⟨rfl, rfl⟩

/-- Every listed core is changed: the shape of `State.clearResv`, `State.invWaits` and `State.unmapCore`. -/
def State.mapCores (s : State) (g : Nat → Core → Core) : State := { s with cores := Sparse.mapVals {} g s.cores }

theorem State.core_mapCores (h : Sparse.wf {} s.cores = true) {g : Nat → Core → Core} (hg : ∀ k, g k {} = {}) (c : CoreIx) :
    (s.mapCores g).core c = g c.toNat (s.core c) := Sparse.get_mapVals h hg c.toNat

theorem State.coresWf_mapCores (h : s.CoresWf) {g : Nat → Core → Core} (hg : ∀ k, g k {} = {})
    (hw : ∀ k (x : Core), Sparse.wf {} x.threads = true → Sparse.wf {} (g k x).threads = true) : (s.mapCores g).CoresWf where
  cores := Sparse.wf_mapVals _ h.cores
  threads c := by rw [State.core_mapCores h.cores hg]; exact hw _ _ (h.threads c)

theorem State.calm_mapCores (s : State) {g : Nat → Core → Core} (hg : ∀ k, g k {} = {})
    (hs : ∀ k (x : Core), Sparse.wf {} x.threads = true → x.SameStand (g k x))
    (hw : ∀ k (x : Core), Sparse.wf {} x.threads = true → Sparse.wf {} (g k x).threads = true) : s.Calm A (s.mapCores g) where
  boot := rfl
  overlay := rfl
  mod := rfl
  coresWf h := State.coresWf_mapCores h hg hw
  core h c _ := by rw [State.core_mapCores h.cores hg]; exact hs _ _ (h.threads c)
  diesWf h := h
  die _ _ := ⟨rfl, rfl⟩

/-- A change of all threads of a core that keeps their states. -/
theorem Core.sameStand_mapThreads {x : Core} (h : Sparse.wf {} x.threads = true) {f : Thread → Thread} (hf : f {} = {})
    (hs : ∀ h, (f h).state = h.state) : x.SameStand { x with threads := Sparse.mapVals {} (fun _ h => f h) x.threads } := by
  refine ⟨rfl, rfl, rfl, fun n => ?_⟩
  rw [Core.thread, Sparse.get_mapVals h (fun _ => hf), hs]
  rfl

end

end Sys2Proof.Machine
end

section
/-! Which operations are calm: messages, the endings of items, DMA channels and streams, and the overlay of SAFEHOLD. -/

namespace Sys2Proof.Machine

open State.Calm

section
variable {A : CoreIx → Prop} (s : State)

/-! ### Messages (R279, R297, R309, R361) -/

theorem State.calm_modTeam (t : BitVec 8) (f : Team → Team) : s.Calm A (s.modTeam t f) := (s.aside_modTeam t f).calm
theorem State.calm_modChan (t : BitVec 8) (k : BitVec 3) (f : Chan → Chan) : s.Calm A (s.modChan t k f) := s.calm_modTeam t _
theorem State.calm_modRing (r : BitVec 6) (f : Ring → Ring) : s.Calm A (s.modRing r f) := (s.aside_modRing r f).calm
theorem State.calm_modLed (r : BitVec 6) (k : BitVec 10) (f : Ledger → Ledger) : s.Calm A (s.modLed r k f) := s.calm_modRing r _
theorem State.calm_countMod (e n : Nat) : s.Calm A (s.countMod e n) := (s.aside_countMod e n).calm
theorem State.calm_countTeam (t : BitVec 8) (e n : Nat) : s.Calm A (s.countTeam t e n) := (s.aside_countTeam t e n).calm
theorem State.calm_sendReq (d : DieIx) (k : Packet) (n : Nat) (r) : s.Calm A (s.sendReq d k n r) := (s.aside_sendReq d k n r).calm
theorem State.calm_emit (o : Out) : s.Calm A (s.emit o) := (s.aside_emit o).calm
theorem State.calm_event (code : Nat) (d : DieIx) (arg v : Nat) : s.Calm A (s.event code d arg v) := (s.aside_event code d arg v).calm
theorem State.calm_dropMsg (n : Nat) : s.Calm A (s.dropMsg n) := of_tables rfl rfl rfl rfl rfl
theorem State.calm_dropEngine (p : EngineRead → Bool) : s.Calm A (s.dropEngine p) := of_tables rfl rfl rfl rfl rfl

theorem State.calm_notified (o : MsgFrom) (code : BitVec 3) : s.Calm A (s.notified o code) := by
  unfold State.notified
  split
  · exact ite (s.calm_modChan _ _ _) ((s.calm_modChan _ _ _).trans (State.calm_countTeam _ _ _ _))
  · exact s.calm_modCore_same _ rfl rfl rfl rfl
  · exact refl s

theorem State.calm_pendMsg (m : Msg) (leaves : Bool) : s.Calm A (s.pendMsg m leaves) := by
  unfold State.pendMsg
  split
  · exact ite (refl s) (s.calm_modThread _ (.inr rfl))
  · exact refl s

theorem State.calm_leaveMsg (m : Msg) : s.Calm A (s.leaveMsg m) := by
  unfold State.leaveMsg
  dsimp only
  split
  · exact (s.calm_dropMsg _).trans (State.calm_notified _ _ _)
  · refine ite (.trans ?_ (State.calm_pendMsg _ _ _)) (.trans (.trans ?_ (State.calm_pendMsg _ _ _)) (State.calm_sendReq _ _ _ _ _)) <;>
      exact of_tables rfl rfl rfl rfl rfl

theorem State.calm_sendMsg (o : MsgFrom) (kind : BitVec 2) (thr : ThrIx) (sender target : BitVec 22) (q : BitVec 4) (epoch : BitVec 16)
    (bs : List Byte) (one : Bool) (limit : Option Nat) : s.Calm A (s.sendMsg o kind thr sender target q epoch bs one limit) := by
  unfold State.sendMsg
  refine ite (of_tables rfl rfl rfl rfl rfl) (.trans ?_ (State.calm_leaveMsg _ _))
  exact of_tables rfl rfl rfl rfl rfl

theorem State.calm_releaseChannel (sender target : BitVec 22) (q : BitVec 4) : s.Calm A (s.releaseChannel sender target q) :=
  foldl fun s m _ => ite (refl s) (s.calm_leaveMsg m)

theorem State.calm_endMsg (m : Msg) : s.Calm A (s.endMsg m) := (s.calm_dropMsg _).trans (State.calm_releaseChannel _ _ _ _)

/-! ### Records and the endings of items (R456, R459, R461) -/

theorem State.calm_clearResv (p : Loc → Bool) : s.Calm A (s.clearResv p) :=
  s.calm_mapCores (fun _ => rfl)
    (fun _ _ h => Core.sameStand_mapThreads h rfl fun _ => (apply_ite Thread.state _ _ _).trans (ite_self _)) (fun _ _ h => Sparse.wf_mapVals _ h)

theorem State.calm_performLoft (d : DieIx) (o : Nat) (bs : List (Option Byte)) : s.Calm A (s.perform (.loft d o) bs) :=
  ((s.calm_modDie d rfl rfl).trans (State.calm_modDie _ d rfl rfl)).trans ((State.calm_clearResv _ _).trans (State.calm_modDie _ d rfl rfl))

theorem State.calm_pokeLoft (a : Word) (bs : List Byte) : s.Calm A (s.pokeLoft a bs) := s.calm_performLoft _ _ _

theorem State.calm_putRecord (r : BitVec 6) (k : BitVec 10) (rc : Nat) : s.Calm A (s.putRecord r k rc) := by
  unfold State.putRecord
  refine ite (.trans ?_ (State.calm_sendReq _ _ _ _ _)) (ite (.trans ?_ (State.calm_pokeLoft _ _ _))
    (.trans (.trans ?_ (State.calm_emit _ _)) (State.calm_emit _ _))) <;>
    exact s.calm_modRing r _

theorem State.calm_unbind (l : Ledger) (h : BitVec 16) : s.Calm A (s.unbind l h) := ite (s.calm_modThread _ (.inr rfl)) (refl s)

theorem State.calm_forgetDelivery (r : BitVec 6) (k : BitVec 10) : s.Calm A (s.forgetDelivery r k) := by
  unfold State.forgetDelivery
  exact .trans (foldl fun s m _ => s.calm_endMsg m) (of_tables rfl rfl rfl rfl rfl)

theorem State.calm_closeItem (r : BitVec 6) (k : BitVec 10) (status cause : Nat) (loc : BitVec 32) :
    s.Calm A (s.closeItem r k status cause loc) := by
  unfold State.closeItem
  refine ite (refl s) (ite (s.calm_countMod _ _) (.trans (.trans (.trans ?_ (State.calm_modLed _ _ _ _)) (State.calm_countMod _ _ _)) (State.calm_putRecord _ _ _ _)))
  exact (s.calm_unbind _ _).trans (State.calm_forgetDelivery _ _ _)

theorem State.calm_startHold (w : Who) (r : BitVec 6) (k : BitVec 10) : s.Calm A (s.startHold w r k) :=
  (s.calm_modLed r k _).trans (State.calm_modThread _ w (.inr rfl))

theorem State.calm_endItem (r : BitVec 6) (k : BitVec 10) (status cause : Nat) (loc : BitVec 32) :
    s.Calm A (s.endItem r k status cause loc) := by
  unfold State.endItem
  split
  · exact (s.calm_startHold _ r k).trans (State.calm_countMod _ _ _)
  · exact (s.calm_closeItem r k _ _ _).trans (State.calm_countMod _ _ _)
  · exact s.calm_closeItem r k status cause loc

theorem State.calm_failItems (w : Who) (status cause : Nat) (loc : BitVec 32) : s.Calm A (s.failItems w status cause loc) := by
  unfold State.failItems
  exact .trans (foldl fun s i _ => s.calm_endItem _ _ status cause loc) (State.calm_modThread _ w (.inr rfl))

theorem State.calm_endItems (p : BitVec 6 → Ledger → Bool) (status cause : Nat) (loc : BitVec 32) : s.Calm A (s.endItems p status cause loc) :=
  foldl fun s k _ => ite (s.calm_endItem k.1 k.2 status cause loc) (refl s)

/-! ### DMA channels and streams (R214, R229 to R237, R381) -/

theorem State.calm_dmaNotify (t : BitVec 8) (c : BitVec 3) : s.Calm A (s.dmaNotify t c) := by
  unfold State.dmaNotify
  dsimp only
  split
  · exact refl s
  · split
    · exact (s.calm_modChan t c _).trans (State.calm_countTeam _ _ _ _)
    · exact s.calm_sendMsg _ _ _ _ _ _ _ _ _ _

theorem State.calm_dmaEnd (t : BitVec 8) (c : BitVec 3) (code : BitVec 4) : s.Calm A (s.dmaEnd t c code) :=
  ((s.calm_modChan t c _).trans (State.calm_modTeam _ t _)).trans ((State.calm_dropEngine _ _).trans (State.calm_dmaNotify _ t c))

theorem State.calm_dmaStop (t : BitVec 8) (c : BitVec 3) (code : BitVec 4) : s.Calm A (s.dmaStop t c code) :=
  ite (s.calm_modChan t c _) (s.calm_dmaEnd t c code)

theorem State.calm_abortCoreDma (c : CoreIx) : s.Calm A (s.abortCoreDma c) :=
  foldl fun s _ _ => ite (s.calm_dmaStop _ _ _) (refl s)

theorem State.calm_movement (c : CoreIx) : s.Calm A (s.movement c) := s.calm_modDie _ rfl rfl

theorem State.calm_leftWait (w : Who) : s.Calm A (s.leftWait w) := ite (s.calm_movement _) (refl s)

theorem State.calm_modStream (w : Who) (k : BitVec 3) (f : Stream → Stream) : s.Calm A (s.modStream w k f) := s.calm_modThread w (.inr rfl)

theorem State.calm_relayLost (n : Nat) (c : CoreIx) (x : Stream) (b : Bool) : s.Calm A (State.relayLost n s c x b) := by
  induction n generalizing s c x b with
  | zero => exact refl s
  | succ n ih =>
    unfold State.relayLost
    split
    · exact refl s
    · next w k _ =>
      refine ite (refl s) (ite (of_tables rfl rfl rfl rfl rfl) ?_)
      exact ite ((s.calm_modStream w k _).trans (ih _ _ _ _)) (s.calm_modStream w k _)

theorem State.calm_stopStream (w : Who) (k : BitVec 3) (b : Bool) : s.Calm A (s.stopStream w k b) := by
  unfold State.stopStream
  refine ite (.trans ?_ (State.calm_relayLost _ _ _ _ _)) ?_ <;>
    exact (s.calm_modStream w k _).trans (of_tables rfl rfl rfl rfl rfl)

theorem State.calm_stopStreams (w : Who) (b : Bool) : s.Calm A (s.stopStreams w b) := foldl fun s k _ => s.calm_stopStream w k b

end

end Sys2Proof.Machine
end

section
/-! Cores that stop: what a fence or SAFEHOLD leaves of a core's threads and queues, over every core of a list (R58, R305, R445). -/

namespace Sys2Proof.Machine

/-- A fold whose step establishes a fact about its element, and keeps it of every other, establishes it of every element. -/
theorem foldl_each {β γ : Type} {f : β → γ → β} {I : β → Prop} {P : γ → β → Prop} (inv : ∀ b a, I b → I (f b a))
    (made : ∀ b a, I b → P a (f b a)) (kept : ∀ b a c, I b → P c b → P c (f b a)) {l : List γ} {b : β} (hb : I b) :
    ∀ a ∈ l, P a (l.foldl f b) := by
  have later : ∀ (l : List γ) (b : β) (a : γ), I b → P a b → P a (l.foldl f b) := by
    intro l
    induction l with
    | nil => exact fun _ _ _ h => h
    | cons c l ih => exact fun b a hb h => ih _ a (inv b c hb) (kept b c a hb h)
  induction l generalizing b with
  | nil => exact fun _ h => absurd h (List.not_mem_nil)
  | cons c l ih =>
    intro a ha
    rcases List.mem_cons.mp ha with rfl | ha
    · exact later l _ a (inv b a hb) (made b a hb)
    · exact ih (inv b c hb) a ha

theorem mem_whos (w : Who) : w ∈ whos w.core := by
  have h : ∀ n : ThrIx, n ∈ allThreads := by decide
  exact List.mem_map.mpr ⟨w.thr, h w.thr, rfl⟩

theorem core_of_mem_whos {w : Who} {c : CoreIx} (h : w ∈ whos c) : w.core = c := by
  obtain ⟨_, _, rfl⟩ := List.mem_map.mp h
  rfl

/-! ### The threads of a core (R58) -/

section
variable {s : State} {c : CoreIx}

/-- One thread of a core that stops enters FENCED. -/
def State.fenceThread (s : State) (w : Who) : State :=
  ((s.leftWait w).stopStreams w true).modThread w (fun h =>
    { h with state := .fenced, hold := .none, memHold := .none, loads := [], stepping := false })

theorem State.fenceThreads_eq (s : State) (c : CoreIx) : s.fenceThreads c = (whos c).foldl State.fenceThread s := rfl

theorem State.calm_fenceThread_streams {A : CoreIx → Prop} (s : State) (w : Who) : s.Calm A ((s.leftWait w).stopStreams w true) :=
  (s.calm_leftWait w).trans (State.calm_stopStreams _ w true)

theorem State.calm_fenceThread (s : State) (w : Who) : s.Calm (· = w.core) (s.fenceThread w) :=
  (s.calm_fenceThread_streams w).trans (State.calm_modThread _ w (.inl rfl))

theorem State.fenceThread_state (h : s.CoresWf) (w v : Who) :
    ((s.fenceThread w).thread v).state = if v = w then .fenced else (s.thread v).state := by
  split
  · next hv => subst hv; rw [State.fenceThread, State.thread_modThread]
  · next hv =>
    rw [State.fenceThread, State.thread_modThread_other _ _ hv]
    exact ((s.calm_fenceThread_streams w).everyCore h v.core).state v.thr

theorem Core.setThread_queues (x : Core) (n : ThrIx) (h : Thread) : (x.setThread n h).queues = x.queues := rfl

theorem State.fenceThread_queues (h : s.CoresWf) (w : Who) (c : CoreIx) :
    ((s.fenceThread w).core c).queues = (s.core c).queues := by
  have hstream := (s.calm_fenceThread_streams w).everyCore h c
  by_cases hc : c = w.core
  · rw [hc] at hstream ⊢
    rw [State.fenceThread, State.core_modThread, Core.setThread_queues, hstream.queues]
  · rw [State.fenceThread, State.core_modThread_other _ _ _ hc]
    exact hstream.queues

theorem State.calm_fenceThreads (s : State) (c : CoreIx) : s.Calm (· = c) (s.fenceThreads c) := by
  rw [State.fenceThreads_eq]
  exact State.Calm.foldl fun s w hw => (s.calm_fenceThread w).mono fun _ h => h.trans (core_of_mem_whos hw)

theorem State.fenceThreads_state (h : s.CoresWf) (n : ThrIx) : ((s.fenceThreads c).thread ⟨c, n⟩).state = .fenced :=
  foldl_each (I := State.CoresWf) (P := fun w s => (s.thread w).state = .fenced) (fun s w h => (s.calm_fenceThread w).coresWf h)
    (fun s w h => by rw [State.fenceThread_state h, if_pos rfl])
    (fun s w v h hv => by rw [State.fenceThread_state h, hv, ite_self]) h ⟨c, n⟩ (mem_whos ⟨c, n⟩)

theorem State.fenceThreads_queues (h : s.CoresWf) : ((s.fenceThreads c).core c).queues = (s.core c).queues :=
  (foldl_invariant (fun t : State => t.CoresWf ∧ (t.core c).queues = (s.core c).queues) ⟨h, rfl⟩
    fun t w _ ⟨ht, hq⟩ => ⟨(t.calm_fenceThread w).coresWf ht, (State.fenceThread_queues ht w c).trans hq⟩).2

/-! ### The queues of a core (R305) -/

/-- A queue that its core's fence closes. -/
def Queue.shut (x : Queue) (bump : Bool) : Queue := { x with opn := false, epoch := if bump then x.epoch + 1 else x.epoch }

theorem State.queue_modQueue_other (s : State) (c : CoreIx) {q p : BitVec 4} (f : Queue → Queue) (h : p ≠ q) :
    (s.modQueue c q f).queue c p = s.queue c p := by
  simp [State.queue, State.modQueue, Sparse.get_upd_other _ _ _ (toNat_ne h)]

theorem State.closeQueues_queue (s : State) (c : CoreIx) (bump : Bool) (q : BitVec 4) :
    (s.closeQueues c bump).queue c q = (s.queue c q).shut bump := by
  have upTo : ∀ n ≤ 16, ((List.range n).foldl (fun s k => s.modQueue c (BitVec.ofNat 4 k) (fun x => x.shut bump)) s).queue c q =
      if q.toNat < n then (s.queue c q).shut bump else s.queue c q := by
    intro n
    induction n with
    | zero => exact fun _ => rfl
    | succ n ih =>
      intro hn
      have hk : (BitVec.ofNat 4 n).toNat = n := by rw [BitVec.toNat_ofNat]; omega
      rw [List.range_succ, List.foldl_append, List.foldl_cons, List.foldl_nil]
      by_cases hq : q = BitVec.ofNat 4 n
      · rw [← hq, State.queue_modQueue, ih (by omega), hq, hk, if_neg (Nat.lt_irrefl n), if_pos (Nat.lt_succ_self n)]
      · have hne : q.toNat ≠ n := hk ▸ toNat_ne hq
        rw [State.queue_modQueue_other _ _ _ hq, ih (by omega)]
        exact if_congr (by omega) rfl rfl
  exact (upTo 16 le_rfl).trans (if_pos q.isLt)

/-- A core whose queues close differs in nothing but its queues. -/
theorem State.closeQueues_core (s : State) (c : CoreIx) (bump : Bool) :
    (s.closeQueues c bump).core c = { s.core c with queues := ((s.closeQueues c bump).core c).queues } :=
  foldl_invariant (fun t : State => t.core c = { s.core c with queues := (t.core c).queues }) rfl
    fun t k _ ht => by rw [State.modQueue, State.core_modCore, ht]

theorem State.calm_closeQueues (s : State) (c : CoreIx) (bump : Bool) : s.Calm (· = c) (s.closeQueues c bump) :=
  State.Calm.foldl fun s _ _ => s.calm_modCore c (.inl rfl) id

/-! ### A core that stops -/

/-- A core whose threads stand fenced is marked so, and its matrix queue is emptied. -/
def State.markFenced (s : State) (c : CoreIx) : State := s.modCore c (fun x => { x with fenced := true, mq := [], retry := Option.none })

theorem State.core_markFenced (s : State) (c : CoreIx) :
    (s.markFenced c).core c = { s.core c with fenced := true, mq := [], retry := Option.none } := s.core_modCore c _

theorem State.calm_markFenced (s : State) (c : CoreIx) : s.Calm (· = c) (s.markFenced c) := s.calm_modCore c (.inl rfl) id

theorem State.thread_markFenced (s : State) (w : Who) : (s.markFenced w.core).thread w = s.thread w := by
  rw [State.thread, State.core_markFenced]
  rfl

theorem State.queue_markFenced (s : State) (c : CoreIx) (q : BitVec 4) : (s.markFenced c).queue c q = s.queue c q := by
  rw [State.queue, State.core_markFenced]
  rfl

/-- The threads, queues and channels of a core stop, and the core is fenced: what a core fence and SAFEHOLD share (R58, R445). -/
def State.stopCore (s : State) (c : CoreIx) : State := (((s.fenceThreads c).closeQueues c true).abortCoreDma c).markFenced c

theorem State.holdCore_eq (s : State) (c : CoreIx) : s.holdCore c = if (s.core c).fenced ∨ ¬s.present c then s else s.stopCore c := rfl

/-- A core of `s` stands stopped in `t`. -/
structure State.Stopped (s t : State) (c : CoreIx) : Prop where
  fenced : (t.core c).fenced = true
  mq : (t.core c).mq = []
  state : ∀ n, (t.thread ⟨c, n⟩).state = .fenced
  queue : ∀ q, t.queue c q = (s.queue c q).shut true

theorem State.Stopped.of_same {s t u : State} {c : CoreIx} (h : s.Stopped t c) (hu : (t.core c).SameStand (u.core c)) : s.Stopped u c where
  fenced := hu.fenced.trans h.fenced
  mq := hu.mq.trans h.mq
  state n := (hu.state n).trans (h.state n)
  queue q := by rw [State.queue, hu.queues]; exact h.queue q

theorem State.Stopped.from_same {s t u : State} {c : CoreIx} (h : t.Stopped u c) (hs : (s.core c).SameStand (t.core c)) : s.Stopped u c :=
  { h with queue := fun q => by rw [h.queue q, State.queue, hs.queues]; rfl }

theorem State.calm_stopCore (s : State) (c : CoreIx) : s.Calm (· = c) (s.stopCore c) :=
  (((s.calm_fenceThreads c).trans (State.calm_closeQueues _ c true)).trans (State.calm_abortCoreDma _ c)).trans (State.calm_markFenced _ c)

theorem Core.thread_of_threads {x y : Core} (h : x.threads = y.threads) (n : ThrIx) : x.thread n = y.thread n := by
  rw [Core.thread, h, Core.thread]

theorem State.thread_closeQueues (s : State) (c : CoreIx) (bump : Bool) (n : ThrIx) : (s.closeQueues c bump).thread ⟨c, n⟩ = s.thread ⟨c, n⟩ := by
  have h : ((s.closeQueues c bump).core c).threads = (s.core c).threads := by rw [State.closeQueues_core]
  exact Core.thread_of_threads h n

theorem State.stopCore_stopped (h : s.CoresWf) (c : CoreIx) : s.Stopped (s.stopCore c) c := by
  have hf := (s.calm_fenceThreads c).coresWf h
  have hq := (State.calm_closeQueues _ c true).coresWf hf
  have hd := (State.calm_abortCoreDma _ c).everyCore hq c
  refine ⟨by rw [State.stopCore, State.core_markFenced], by rw [State.stopCore, State.core_markFenced], fun n => ?_, fun q => ?_⟩
  · rw [State.stopCore, State.thread_markFenced _ ⟨c, n⟩]
    refine (hd.state n).trans ?_
    have hthread := (s.fenceThreads c).thread_closeQueues c true n
    exact (congrArg Thread.state hthread).trans (State.fenceThreads_state h n)
  · have hclose := (s.fenceThreads c).closeQueues_queue c true q
    rw [State.queue, State.queue, State.fenceThreads_queues h] at hclose
    rw [State.stopCore, State.queue_markFenced, State.queue, hd.queues]
    exact hclose

/-! ### Cores in SAFEHOLD (R443, R445) -/

theorem State.calm_holdCore (s : State) (c : CoreIx) : s.Calm (· = c) (s.holdCore c) := by
  rw [State.holdCore_eq]
  exact State.Calm.ite (.refl s) (s.calm_stopCore c)

/-- A stopped core stays stopped while other cores, or it again, are held. -/
theorem State.Stopped.holdCore {u : State} (h : u.Stopped s c) (hw : s.CoresWf) (e : CoreIx) : u.Stopped (s.holdCore e) c := by
  by_cases he : c = e
  · subst he
    rwa [State.holdCore_eq, if_pos (.inl h.fenced)]
  · exact h.of_same ((s.calm_holdCore e).core hw c he)

theorem State.holdCore_stopped (h : s.CoresWf) (hp : s.present c = true) (hf : (s.core c).fenced = false) : s.Stopped (s.holdCore c) c := by
  rw [State.holdCore_eq, if_neg (by simp [hp, hf])]
  exact State.stopCore_stopped h c

/-- From `u` to `s`, the present cores that `P` names have been held, and the others are as they were. -/
structure State.Holding (u s : State) (P : CoreIx → Prop) : Prop where
  wf : s.CoresWf
  cols : s.mod.rowCols = u.mod.rowCols
  held : ∀ c, P c → u.present c = true → (u.core c).fenced = false → u.Stopped s c
  same : ∀ c, ¬P c → (u.core c).SameStand (s.core c)

theorem State.Holding.of_calm {u t : State} {P : CoreIx → Prop} (h : u.Holding s P) (ht : s.Calm (fun _ => False) t) : u.Holding t P where
  wf := ht.coresWf h.wf
  cols := ht.rowCols.trans h.cols
  held c hc hp hf := (h.held c hc hp hf).of_same (ht.core h.wf c id)
  same c hc := (h.same c hc).trans (ht.core h.wf c id)

theorem State.Holding.holdCore {u : State} {P : CoreIx → Prop} (h : u.Holding s P) (e : CoreIx) :
    u.Holding (s.holdCore e) (fun c => P c ∨ c = e) where
  wf := (s.calm_holdCore e).coresWf h.wf
  cols := (s.calm_holdCore e).rowCols.trans h.cols
  held c hc hp hf := by
    by_cases hP : P c
    · exact (h.held c hP hp hf).holdCore h.wf e
    · obtain rfl : c = e := hc.resolve_left hP
      have hs := h.same c hP
      refine (State.holdCore_stopped h.wf ?_ (hs.fenced.trans hf)).from_same hs
      rw [State.present, h.cols]; exact hp
  same c hc := by
    simp only [not_or] at hc
    exact (h.same c hc.1).trans ((s.calm_holdCore e).core h.wf c hc.2)

theorem State.Holding.holdCores {u : State} {P : CoreIx → Prop} (h : u.Holding s P) (cs : List CoreIx) :
    u.Holding (cs.foldl (fun s c => s.holdCore c) s) (fun c => P c ∨ c ∈ cs) := by
  induction cs generalizing s P with
  | nil => simpa using h
  | cons e cs ih => simpa [or_assoc] using ih (h.holdCore e)

theorem mem_dieCores {d : DieIx} {c : CoreIx} : c ∈ dieCores d ↔ coreDie c = d := by
  simp only [dieCores, List.mem_map, List.mem_range, coreDie]
  constructor
  · rintro ⟨k, _, rfl⟩
    exact BitVec.extractLsb'_append_eq_left
  · rintro rfl
    refine ⟨(c.extractLsb' 0 8).toNat, BitVec.isLt _, ?_⟩
    rw [BitVec.ofNat_toNat, BitVec.setWidth_eq]
    refine BitVec.eq_of_getLsbD_eq fun i hi => ?_
    rw [BitVec.getLsbD_append]
    split
    · next h => simp [h]
    · next h => simp [show 8 + (i - 8) = i by omega, show i - 8 < 2 by omega]

end

end Sys2Proof.Machine
end

section
/-! SAFEHOLD of a die and of the module, and what leads to it (R440 to R447, R484). -/

namespace Sys2Proof.Machine

variable {s : State}

/-! ### Events (R499) -/

/-- The code field of an event word. -/
theorem eventCode (now code die seq arg : Nat) (hd : die < 4) (hs : seq < 2 ^ 32) :
    (BitVec.ofNat 256 (now * 2 ^ 192 + code * 2 ^ 176 + die * 2 ^ 174 + seq * 2 ^ 128 + arg % 2 ^ 128)).extractLsb' 176 16 = BitVec.ofNat 16 code := by
  refine BitVec.eq_of_toNat_eq ?_
  rw [BitVec.extractLsb'_toNat, BitVec.toNat_ofNat, BitVec.toNat_ofNat, Nat.shiftRight_eq_div_pow]
  omega

/-- While the head groom runs, an event is the last of the log. -/
theorem State.event_last (h : s.boot.headStopped = false) (code : Nat) (d : DieIx) (arg v : Nat) :
    ∃ e, (s.event code d arg v).dict.evtLog.getLast? = some e ∧ e.extractLsb' 176 16 = BitVec.ofNat 16 code := by
  rw [State.event, if_neg (by rw [h]; decide)]
  refine ⟨_, ?_, eventCode s.now code d.toNat (s.dict.evtSeq + 1).toNat arg d.isLt (BitVec.isLt _)⟩
  dsimp only [State.emit]
  split
  · next hfull =>
    rw [List.getLast?_drop, if_neg (by have := of_decide_eq_true hfull; omega), List.getLast?_concat]
  · rw [List.getLast?_concat]

/-! ### The overlay of SAFEHOLD (R251, R484) -/

section
variable {A : CoreIx → Prop}

theorem State.calm_dropDieEntries (s : State) (p : Nat × Word → Bool) :
    s.Calm A { s with dies := Sparse.mapVals {} (fun _ (x : Die) => { x with walkL1 := x.walkL1.filter p }) s.dies } where
  boot := rfl
  overlay := rfl
  mod := rfl
  coresWf h := ⟨h.cores, h.threads⟩
  core _ _ _ := .refl _
  diesWf h := Sparse.wf_mapVals _ h
  die h d := by
    have hd := Sparse.get_mapVals (f := fun _ (x : Die) => { x with walkL1 := x.walkL1.filter p }) h (fun _ => rfl) d.toNat
    rw [State.die, hd]
    exact ⟨rfl, rfl⟩

theorem State.calm_invDrop (s : State) (c : CoreIx) (val : Word) : s.Calm A (s.invDrop c val) := by
  unfold State.invDrop
  refine .ite (.trans ?_ (State.calm_dropDieEntries _ _)) ?_ <;> exact .of_tables rfl rfl rfl rfl rfl

/-- What an invalidation does to an access that waits. -/
def Thread.rewait (h : Thread) (val : Word) (f : Xlate → Xlate) : Thread :=
  match h.hold with
  | .xlate y => if invNames val y.page then { h with hold := .xlate (f y) } else h
  | _ => h

/-- What it does to a thread. -/
def Thread.invalidated (h : Thread) (val : Word) (f : Xlate → Xlate) (given : Bool) : Thread :=
  let h := h.rewait val f
  match h.given with
  | some (p, _) => if given ∧ invNames val p then { h with given := Option.none } else h
  | Option.none => h

theorem Thread.rewait_state (h : Thread) (val : Word) (f : Xlate → Xlate) : (h.rewait val f).state = h.state := by
  unfold Thread.rewait
  split
  · split <;> rfl
  · rfl

theorem Thread.invalidated_state (h : Thread) (val : Word) (f : Xlate → Xlate) (given : Bool) : (h.invalidated val f given).state = h.state := by
  rw [← h.rewait_state val f, Thread.invalidated]
  split
  · split <;> rfl
  · rfl

theorem State.calm_invWaits (s : State) (c : CoreIx) (val : Word) (f : Xlate → Xlate) (given : Bool) : s.Calm A (s.invWaits c val f given) := by
  refine s.calm_mapCores (g := fun k x => if invScope val c (coreTeam (BitVec.ofNat 10 k)) then
    { x with threads := Sparse.mapVals {} (fun _ h => h.invalidated val f given) x.threads } else x) (fun k => ?_) (fun k x h => ?_) (fun k x h => ?_)
  · exact ite_self _
  · split
    · exact Core.sameStand_mapThreads h rfl fun h => h.invalidated_state val f given
    · exact .refl _
  · split
    · exact Sparse.wf_mapVals _ h
    · exact h

theorem State.calm_xlInvAll (s : State) : s.Calm A s.xlInvAll := (s.calm_invDrop 0 _).trans (State.calm_invWaits _ _ _ _ _)

theorem State.calm_newRoot (s : State) (p : Prop) [Decidable p] : s.Calm A (if p then s else s.xlInvAll) := .ite (.refl s) s.calm_xlInvAll

theorem State.calm_leaveDeepcal (s : State) (p : Prop) [Decidable p] :
    s.Calm A (if p then { s with far := { s.far with calibrating := false } }.trainPorts else s) := by
  refine .ite (.trans ?_ (State.aside_trainPorts _).calm) (.refl s)
  exact .of_tables rfl rfl rfl rfl rfl

/-- But for the overlay itself, the switch to the overlay SAFEHOLD is calm. -/
theorem State.calm_setOverlay_safehold (s : State) : State.Calm A { s with dict := { s.dict with ovlActive := 5 } } (s.setOverlay 5) := by
  have hboot : (s.boot.modSafe && decide ((5 : BitVec 8) = 5)) = s.boot.modSafe := Bool.and_true _
  unfold State.setOverlay
  dsimp only
  rw [if_neg (by decide : ¬(5 : BitVec 8) = 3), hboot]
  refine .trans (.trans (.trans ?_ (State.calm_newRoot _ _)) (State.calm_leaveDeepcal _ _)) (State.calm_event _ _ _ _ _)
  exact .of_tables rfl rfl rfl rfl rfl

end

end Sys2Proof.Machine
end

section
/-! Ports that go down: which sub-ports are up after one went down, and after all did (R397, R447). -/

namespace Sys2Proof.Machine

variable {s t u : State}

/-- The same sub-ports are up. -/
def State.SameUp (s t : State) : Prop := ∀ q, (t.port q).up = (s.port q).up

theorem State.SameUp.refl (s : State) : s.SameUp s := fun _ => rfl

theorem State.SameUp.trans (h : s.SameUp t) (h' : t.SameUp u) : s.SameUp u := fun q => (h' q).trans (h q)

theorem State.SameUp.of_ports (h : t.fab.ports = s.fab.ports) : s.SameUp t := fun q => by rw [State.port, h]; rfl

theorem State.SameUp.ite {p : Prop} [Decidable p] (ht : s.SameUp t) (hu : s.SameUp u) : s.SameUp (if p then t else u) := by
  split
  · exact ht
  · exact hu

@[simp] theorem State.port_modPort (s : State) (p : BitVec 4) (f : Port → Port) : (s.modPort p f).port p = f (s.port p) := by
  simp [State.port, State.modPort]

theorem State.port_modPort_other (s : State) {p q : BitVec 4} (f : Port → Port) (h : q ≠ p) : (s.modPort p f).port q = s.port q := by
  simp [State.port, State.modPort, Sparse.get_upd_other _ _ _ (toNat_ne h)]

theorem State.sameUp_modPort (s : State) (p : BitVec 4) {f : Port → Port} (hf : (f (s.port p)).up = (s.port p).up) : s.SameUp (s.modPort p f) := by
  intro q
  by_cases h : q = p
  · subst h; rw [State.port_modPort, hf]
  · rw [State.port_modPort_other _ _ h]

section
variable (s : State)

theorem State.sameUp_event (code : Nat) (d : DieIx) (arg v : Nat) : s.SameUp (s.event code d arg v) := .ite (.refl s) (.of_ports rfl)

theorem State.sameUp_sizeChanged : s.SameUp s.sizeChanged :=
  (State.SameUp.of_ports rfl : s.SameUp { s with mod := { s.mod with szGen := s.mod.szGen + 1 } }).trans
    (State.sameUp_event _ 0x0001 0 (s.mod.szGen + 1).toNat 0)

theorem State.sameUp_sendGroup (p : BitVec 4) (j : BitVec 2) : s.SameUp (s.sendGroup p j) :=
  .ite (.refl s) ((s.sameUp_modPort p rfl).trans (.of_ports rfl))

theorem State.sameUp_pumpFor (n : Nat) (p : BitVec 4) (j : BitVec 2) : s.SameUp (State.pumpFor n s p j) := by
  induction n generalizing s with
  | zero => exact .refl s
  | succ n ih => exact .ite (.refl s) ((s.sameUp_sendGroup p j).trans (ih _))

theorem State.sameUp_sendOn (d : DieIx) (p : BitVec 4) (j : BitVec 2) (k : Packet) : s.SameUp (s.sendOn d p j k) :=
  .ite ((s.sameUp_modPort p rfl).trans (State.sameUp_pumpFor _ _ _ _)) (.refl s)

theorem State.sameUp_route (d : DieIx) (k : Packet) : s.SameUp (s.route d k) := by
  unfold State.route
  dsimp only
  split
  · exact .of_ports rfl
  · exact (s.sameUp_sendOn d _ _ k).trans (.of_ports rfl)

theorem State.sameUp_routeAll (l : List (DieIx × Packet)) : s.SameUp (l.foldl (fun s e => s.route e.1 e.2) s) :=
  foldl_invariant (s.SameUp ·) (.refl s) (fun t e _ ht => ht.trans (t.sameUp_route e.1 e.2))

theorem State.sameUp_peerUp (p : BitVec 4) (j : BitVec 2) (up : Bool) : s.SameUp (s.peerUp p j up) := by
  unfold State.peerUp
  refine .ite (.refl s) (.trans ?_ (State.sameUp_sizeChanged _))
  exact .of_ports rfl

theorem State.portDown_up (p q : BitVec 4) (j : BitVec 2) : ((s.portDown p j).port q).up =
    if q = p then (s.port q).up &&& ~~~((1 : BitVec 4) <<< j.toNat) else (s.port q).up := by
  have hclear : ∀ (u : BitVec 4) (j : BitVec 2), u.getLsbD j.toNat = false → u &&& ~~~((1 : BitVec 4) <<< j.toNat) = u := by decide
  have hmod : ∀ f : Port → Port, (f (s.port p)).up = (s.port p).up &&& ~~~((1 : BitVec 4) <<< j.toNat) →
      ((s.modPort p f).port q).up = if q = p then (s.port q).up &&& ~~~((1 : BitVec 4) <<< j.toNat) else (s.port q).up := by
    intro f hf
    split
    · next h => subst h; rw [State.port_modPort, hf]
    · next h => rw [State.port_modPort_other _ _ h]
  unfold State.portDown
  dsimp only
  split
  · next hdown =>
    split
    · next h => rw [h, hclear _ _ (by simpa using hdown)]
    · rfl
  · refine ((State.sameUp_routeAll _ _).trans (State.sameUp_peerUp _ _ _ _) q).trans ?_
    split <;> exact hmod (fun x => { x.setLink j {} with up := x.up &&& ~~~((1 : BitVec 4) <<< j.toNat) }) rfl

/-- Every sub-port of a port goes down, and no other one comes up. -/
theorem State.portsDown_up (p q : BitVec 4) :
    ((subPorts.foldl (fun s j => s.portDown p j) s).port q).up = if q = p then 0 else (s.port q).up := by
  have hall : ∀ u : BitVec 4, (((u &&& ~~~((1 : BitVec 4) <<< 0)) &&& ~~~((1 : BitVec 4) <<< 1)) &&& ~~~((1 : BitVec 4) <<< 2)) &&&
      ~~~((1 : BitVec 4) <<< 3) = 0 := by decide
  simp only [subPorts, List.foldl_cons, List.foldl_nil, State.portDown_up]
  split
  · exact hall _
  · rfl

theorem mem_allPorts (p : BitVec 4) : p ∈ allPorts := by revert p; decide

theorem State.allPortsDown_up (p : BitVec 4) : (s.allPortsDown.port p).up = 0 :=
  foldl_each (I := fun _ => True) (P := fun p (s : State) => (s.port p).up = 0) (fun _ _ h => h)
    (fun s p _ => by rw [s.portsDown_up p p, if_pos rfl])
    (fun s p q _ h => by rw [s.portsDown_up p q, h, ite_self]) trivial p (mem_allPorts p)

end

end Sys2Proof.Machine
end

section
/-! SAFEHOLD of a die and of the module, a lockstep mismatch and a checker that fails its self-test: what each leaves (R441 to R447). -/

namespace Sys2Proof.Machine

variable {s t : State} {d : DieIx}

/-! ### A die in SAFEHOLD (R443, R445) -/

/-- The cores of a die that ran in `s` stand stopped in `t`, and the die is in SAFEHOLD. -/
structure State.DieHeld (s t : State) (d : DieIx) : Prop where
  safehold : (t.die d).safehold = true
  stopped : ∀ c, coreDie c = d → s.present c = true → (s.core c).fenced = false → s.Stopped t c

theorem State.DieHeld.from_same {u : State} (h : s.DieHeld t d) (hc : ∀ c, (u.core c).SameStand (s.core c))
    (hp : s.mod.rowCols = u.mod.rowCols) : u.DieHeld t d where
  safehold := h.safehold
  stopped c hd hpu hf := by
    have hps : s.present c = true := by rw [State.present, hp]; exact hpu
    exact (h.stopped c hd hps ((hc c).fenced.trans hf)).from_same (hc c)

theorem State.Holding.refl (h : s.CoresWf) : s.Holding s (fun _ => False) where
  wf := h
  cols := rfl
  held _ h := h.elim
  same _ _ := .refl _

/-- A die that enters SAFEHOLD is marked, and then its cores are held. -/
def State.markSafe (s : State) (d : DieIx) : State := s.modDie d (fun x => { x with safehold := true })

theorem State.calm_holdCores (s : State) (cs : List CoreIx) : s.Calm (fun _ => True) (cs.foldl (fun s c => s.holdCore c) s) :=
  .foldl fun s c _ => (s.calm_holdCore c).mono fun _ _ => trivial

/-- What SAFEHOLD of a die does before its event. -/
def State.holdDieItems (s : State) (d : DieIx) : State :=
  ((s.markSafe d).countMod 0x805 1).endItems (fun _ l => ((s.markSafe d).countMod 0x805 1).itemOnDie d l) stFault (faultCause 4 0)
    (((s.markSafe d).countMod 0x805 1).locDie d)

theorem State.safeDie_eq (h : (s.die d).safehold = false) :
    s.safeDie d = ((dieCores d).foldl (fun s c => s.holdCore c) (s.holdDieItems d)).safeholdEvent d := by
  rw [State.safeDie, if_neg (by rw [h]; decide)]
  rfl

theorem State.calm_holdDieItems {A : CoreIx → Prop} (s : State) (d : DieIx) : (s.markSafe d).Calm A (s.holdDieItems d) :=
  (State.calm_countMod _ _ _).trans (State.calm_endItems _ _ _ _ _)

theorem State.calm_safeholdEvent {A : CoreIx → Prop} (s : State) (d : DieIx) : s.Calm A (s.safeholdEvent d) := s.calm_event _ _ _ _

/-- Beside the mark of the die, SAFEHOLD of a die is calm but for cores. -/
theorem State.calm_safeDie (h : (s.die d).safehold = false) : (s.markSafe d).Calm (fun _ => True) (s.safeDie d) := by
  rw [State.safeDie_eq h]
  exact ((s.calm_holdDieItems d).trans (State.calm_holdCores _ _)).trans (State.calm_safeholdEvent _ d)

theorem State.safeDie_safehold (hd : Sparse.wf {} s.dies = true) (d : DieIx) : ((s.safeDie d).die d).safehold = true := by
  cases h : (s.die d).safehold with
  | true => rw [State.safeDie, if_pos h, h]
  | false => rw [((State.calm_safeDie h).die (State.diesWf_modDie hd d _) d).1, State.markSafe, State.die_modDie]

theorem State.safeDie_monitor (hd : Sparse.wf {} s.dies = true) (d : DieIx) : ((s.safeDie d).die d).monitor = (s.die d).monitor := by
  cases h : (s.die d).safehold with
  | true => rw [State.safeDie, if_pos h]
  | false => rw [((State.calm_safeDie h).die (State.diesWf_modDie hd d _) d).2, State.markSafe, State.die_modDie]

theorem State.safeDie_selftest (s : State) (d : DieIx) : (s.safeDie d).mod.selftest = s.mod.selftest := by
  cases h : (s.die d).safehold with
  | true => rw [State.safeDie, if_pos h]
  | false => exact (State.calm_safeDie h).selftest

theorem State.safeDie_held (hw : s.CoresWf) (hd : Sparse.wf {} s.dies = true) (h : (s.die d).safehold = false) : s.DieHeld (s.safeDie d) d where
  safehold := State.safeDie_safehold hd d
  stopped c hc hp hf := by
    have hmark : (s.markSafe d).CoresWf := ⟨hw.cores, hw.threads⟩
    have hheld := (((State.Holding.refl hmark).of_calm (s.calm_holdDieItems d)).holdCores (dieCores d)).of_calm
      (State.calm_safeholdEvent _ d)
    rw [State.safeDie_eq h]
    exact (hheld.held c (.inr (mem_dieCores.mpr hc)) hp hf).from_same (.refl _)

/-- The last event of a log has a code. -/
def State.LastEvent (t : State) (code : BitVec 16) : Prop := ∀ e ∈ t.dict.evtLog.getLast?, e.extractLsb' 176 16 = code

theorem State.lastEvent_event (h : s.boot.headStopped = false) (code : Nat) (d : DieIx) (arg v : Nat) :
    (s.event code d arg v).LastEvent (BitVec.ofNat 16 code) := by
  obtain ⟨e, he, hcode⟩ := State.event_last h code d arg v
  intro x hx
  rw [he, Option.mem_some_iff] at hx
  rwa [← hx]

theorem State.safeholdEvent_last (h : s.boot.headStopped = false) (d : DieIx) : (s.safeholdEvent d).LastEvent 0x8003 :=
  State.lastEvent_event h 0x8003 d s.safeState 2

theorem State.safeDie_event (h : (s.die d).safehold = false) (hl : s.boot.headStopped = false) : (s.safeDie d).LastEvent 0x8003 := by
  have hcalm := (s.calm_holdDieItems d).trans (State.calm_holdCores _ (dieCores d))
  rw [State.safeDie_eq h]
  exact State.safeholdEvent_last (hcalm.headStopped.trans hl) d

/-! ### The module in SAFEHOLD (R445, R484) -/

/-- One die of the module as the module enters SAFEHOLD. -/
def State.holdDie (s : State) (d : DieIx) : State := (dieCores d).foldl (fun s c => s.holdCore c) (s.markSafe d)

theorem State.calm_holdDie (s : State) (d : DieIx) : (s.markSafe d).Calm (fun _ => True) (s.holdDie d) := by
  rw [State.holdDie]
  exact State.calm_holdCores _ _

theorem State.holdDie_safehold (h : Sparse.wf {} s.dies = true) (d e : DieIx) :
    ((s.holdDie d).die e).safehold = if e = d then true else (s.die e).safehold := by
  rw [((s.calm_holdDie d).die (State.diesWf_modDie h d _) e).1, State.markSafe]
  split
  · next he => rw [he, State.die_modDie]
  · next he => rw [State.die_modDie_other _ _ he]

theorem State.holdDie_diesWf (h : Sparse.wf {} s.dies = true) (d : DieIx) : Sparse.wf {} (s.holdDie d).dies = true :=
  (s.calm_holdDie d).diesWf (State.diesWf_modDie h d _)

theorem State.Holding.holdDie {u : State} {P : CoreIx → Prop} (h : u.Holding s P) (d : DieIx) :
    u.Holding (s.holdDie d) (fun c => P c ∨ coreDie c = d) := by
  have hmark : u.Holding (s.markSafe d) P :=
    ⟨⟨h.wf.cores, h.wf.threads⟩, h.cols, fun c hP hp hf => (h.held c hP hp hf).of_same (.refl _), fun c hP => (h.same c hP).trans (.refl _)⟩
  have hcores := hmark.holdCores (dieCores d)
  simp only [mem_dieCores] at hcores
  exact hcores

theorem State.Holding.holdDies {u : State} {P : CoreIx → Prop} (h : u.Holding s P) (ds : List DieIx) :
    u.Holding (ds.foldl State.holdDie s) (fun c => P c ∨ coreDie c ∈ ds) := by
  induction ds generalizing s P with
  | nil => simpa using h
  | cons d ds ih => simpa [or_assoc] using ih (h.holdDie d)

theorem mem_allDies (d : DieIx) : d ∈ allDies := by revert d; decide

theorem State.holdDies_safehold (h : Sparse.wf {} s.dies = true) (d : DieIx) : ((allDies.foldl State.holdDie s).die d).safehold = true :=
  foldl_each (I := fun s : State => Sparse.wf {} s.dies = true) (P := fun d (s : State) => (s.die d).safehold = true)
    (fun s d h => State.holdDie_diesWf h d) (fun s d h => by rw [State.holdDie_safehold h, if_pos rfl])
    (fun s d e h he => by rw [State.holdDie_safehold h, he, ite_self]) h d (mem_allDies d)

theorem State.holdDies_words (s : State) (ds : List DieIx) :
    (ds.foldl State.holdDie s).boot = s.boot ∧ (ds.foldl State.holdDie s).dict.ovlActive = s.dict.ovlActive :=
  foldl_invariant (fun t : State => t.boot = s.boot ∧ t.dict.ovlActive = s.dict.ovlActive) ⟨rfl, rfl⟩ fun t d _ ht => by
    have h := t.calm_holdDie d
    exact ⟨h.boot.trans ht.1, h.overlay.trans ht.2⟩

/-- The module takes the overlay SAFEHOLD, if it does not have it, and saves its records. -/
def State.takeSafehold (s : State) : State := (if s.dict.ovlActive = 5 then s else s.setOverlay 5).saveRecords

theorem State.calm_takeSafehold {A : CoreIx → Prop} (s : State) : State.Calm A { s with dict := { s.dict with ovlActive := 5 } } s.takeSafehold := by
  have hoverlay : State.Calm A { s with dict := { s.dict with ovlActive := 5 } } (if s.dict.ovlActive = 5 then s else s.setOverlay 5) := by
    split
    · next h => exact .of_tables rfl rfl rfl h rfl
    · exact s.calm_setOverlay_safehold
  exact hoverlay.trans (.of_tables rfl rfl rfl rfl rfl)

/-- The module is marked. -/
def State.markModule (s : State) : State := { s with boot := { s.boot with modSafe := true } }

/-- The module is marked, and its items end. -/
def State.holdModule (s : State) : State :=
  let s := s.takeSafehold.markModule.countMod 0x805 1
  s.endItems (fun r _ => decide ((s.ring r).kind ≠ 2)) stFault (faultCause 4 0) s.locModule

theorem State.safeModule_eq (hm : s.boot.modSafe = false) (hl : s.boot.headStopped = false) :
    s.safeModule = (allDies.foldl State.holdDie s.holdModule).safeholdEvent 0 := by
  rw [State.safeModule, if_neg (by rw [hm, hl]; decide)]
  rfl

theorem State.Calm.markModule {A : CoreIx → Prop} (h : s.Calm A t) : s.markModule.Calm A t.markModule :=
  { h with
    boot := congrArg (fun b : Boot => { b with modSafe := true }) h.boot
    coresWf := fun hw => have hw' := h.coresWf ⟨hw.cores, hw.threads⟩; ⟨hw'.cores, hw'.threads⟩
    core := fun hw => h.core ⟨hw.cores, hw.threads⟩ }

theorem State.calm_holdModule {A : CoreIx → Prop} (s : State) :
    (State.markModule { s with dict := { s.dict with ovlActive := 5 } }).Calm A s.holdModule := by
  have hitems := State.calm_endItems (A := A) (s.takeSafehold.markModule.countMod 0x805 1)
    (fun r _ => decide (((s.takeSafehold.markModule.countMod 0x805 1).ring r).kind ≠ 2)) stFault (faultCause 4 0)
    (s.takeSafehold.markModule.countMod 0x805 1).locModule
  exact (s.calm_takeSafehold.markModule.trans (State.calm_countMod _ 0x805 1)).trans hitems

/-- What SAFEHOLD of the module leaves. -/
structure State.ModuleHeld (s t : State) : Prop where
  boot : t.boot = { s.boot with modSafe := true }
  overlay : t.dict.ovlActive = 5
  dies : ∀ d, s.DieHeld t d
  event : t.LastEvent 0x8003

theorem State.safeModule_held (hw : s.CoresWf) (hd : Sparse.wf {} s.dies = true) (hm : s.boot.modSafe = false)
    (hl : s.boot.headStopped = false) : s.ModuleHeld s.safeModule := by
  have hitems := s.calm_holdModule (A := fun _ => False)
  have hwords := State.holdDies_words s.holdModule allDies
  have hevent := State.calm_safeholdEvent (A := fun _ => False) (allDies.foldl State.holdDie s.holdModule) 0
  have hwf : (State.markModule { s with dict := { s.dict with ovlActive := 5 } }).CoresWf := ⟨hw.cores, hw.threads⟩
  have hdies : Sparse.wf {} (allDies.foldl State.holdDie s.holdModule).dies = true :=
    foldl_invariant (fun s : State => Sparse.wf {} s.dies = true) (hitems.diesWf hd) fun s d _ h => State.holdDie_diesWf h d
  have hheld := (((State.Holding.refl hwf).of_calm hitems).holdDies allDies).of_calm hevent
  rw [State.safeModule_eq hm hl]
  exact {
    boot := hevent.boot.trans (hwords.1.trans hitems.boot)
    overlay := hevent.overlay.trans (hwords.2.trans hitems.overlay)
    dies := fun d => {
      safehold := by rw [(hevent.die hdies d).1]; exact State.holdDies_safehold (hitems.diesWf hd) d
      stopped := fun c _ hp hf => (hheld.held c (.inr (mem_allDies _)) hp hf).from_same (.refl _) }
    event := State.safeholdEvent_last (by rw [hwords.1, hitems.boot]; exact hl) 0 }

/-! ### Monitor events and lockstep (R443, R447) -/

/-- The items in their DONE hold that a monitor event ends. -/
def State.endHolds (s : State) (m : MonScope) : State := s.endItems (fun _ l => decide (l.state = 4)) stFault (faultCause 5 0) (s.locMonitor m)

theorem State.calm_endHolds {A : CoreIx → Prop} (s : State) (m : MonScope) : s.Calm A (s.endHolds m) := s.calm_endItems _ _ _ _

theorem monitorEvent_die (s : State) (d : DieIx) :
    exec (.monitorEvent (.die d)) s = .next (((s.endHolds (.die d)).modDie d (fun x => { x with monitor := true })).safeDie d) := rfl

theorem monitorEvent_shared (s : State) : exec (.monitorEvent .shared) s =
    .next { s.endHolds .shared with boot := { (s.endHolds .shared).boot with monShared := true } }.safeModule := rfl

/-- The head groom stops: its event, and every port goes down. -/
theorem State.lockstep_head (h : s.boot.headStopped = false) :
    (s.lockstep 0).boot.headStopped = true ∧ (∀ p, ((s.lockstep 0).port p).up = 0) ∧ (s.lockstep 0).mod.selftest = s.mod.selftest := by
  have hcount := (s.aside_countMod 0x805 1).trans (State.aside_event _ 0x8002 0 0 2)
  rw [State.lockstep, if_neg (by decide), if_neg (by rw [h]; decide)]
  refine ⟨?_, fun p => State.allPortsDown_up _ p, ?_⟩
  · rw [(State.aside_allPortsDown _).boot]
  · exact (State.aside_allPortsDown _).selftest.trans hcount.selftest

theorem State.lockstep_stopped (h : s.boot.headStopped = true) : s.lockstep 0 = s := by
  rw [State.lockstep, if_neg (by decide), if_pos h]

theorem State.lockstep_die (h : d ≠ 0) : s.lockstep d = s.safeDie d := if_pos h

/-! ### Checkers (R442) -/

/-- The failed self-test as SAFE_SELFTEST and its event record it. -/
def State.noteSelftest (s : State) (d : DieIx) (kind core : Nat) : State :=
  { s with mod := { s.mod with selftest := s.selftestWord d kind core } }.event 0x8001 d (s.selftestWord d kind core).toNat 2

theorem State.calm_noteSelftest {A : CoreIx → Prop} (s : State) (d : DieIx) (kind core : Nat) :
    State.Calm A { s with mod := { s.mod with selftest := s.selftestWord d kind core } } (s.noteSelftest d kind core) := State.calm_event _ _ _ _ _

theorem State.noteSelftest_selftest (s : State) (d : DieIx) (kind core : Nat) :
    (s.noteSelftest d kind core).mod.selftest = s.selftestWord d kind core := by
  exact (s.calm_noteSelftest (A := fun _ => True) d kind core).selftest

theorem checkerSelftest_fails {k : Checker} (hd : checkerOnDie k d = true) (hw : s.testWaits k = false) :
    exec (.checkerSelftest d (some k)) s = .next (s.checkerFailed d k) := by
  rw [exec_checkerSelftest, execCheckerSelftest, if_pos (by rw [hd, hw]; decide)]

theorem checkerSelftest_passes {k : Checker} (h : checkerOnDie k d = false ∨ s.testWaits k = true) :
    exec (.checkerSelftest d (some k)) s = .next s := by
  rw [exec_checkerSelftest, execCheckerSelftest, if_neg (by rcases h with h | h <;> simp [h])]

/-- The items of a core's threads fail, and the core stops, as it is fenced with nobody's slot to blame. -/
def State.failCore (s : State) (c : CoreIx) (code : Nat) : State :=
  ((whos c).foldl (fun s w => s.failItems w stFault (faultCause 2 code) (locThread s w)) s).stopCore c

theorem State.fenceCore_eq (s : State) (c : CoreIx) (code : Nat) :
    s.fenceCore c code Option.none = if (s.core c).fenced then s.markBad c else ((s.failCore c code).markBad c).countMod 0x805 1 := rfl

theorem State.calm_failCore (s : State) (c : CoreIx) (code : Nat) : s.Calm (· = c) (s.failCore c code) :=
  (State.Calm.foldl fun s w _ => s.calm_failItems w _ _ _).trans (State.calm_stopCore _ c)

theorem State.markBad_eq (s : State) (c : CoreIx) : s.markBad c = { s with mod := { s.mod with badRun := (s.markBad c).mod.badRun } } := by
  unfold State.markBad
  dsimp only
  split <;> rfl

theorem State.countMod_badRun (s : State) (e n : Nat) : (s.countMod e n).mod.badRun = s.mod.badRun := rfl

theorem State.markBad_selftest (s : State) (c : CoreIx) : (s.markBad c).mod.selftest = s.mod.selftest := by rw [State.markBad_eq]

theorem State.mem_badRun_markBad (s : State) (c : CoreIx) :
    272 * (coreDie c).toNat + 17 * (coreRow c).toNat + s.physCol c ∈ (s.markBad c).mod.badRun := by
  unfold State.markBad
  dsimp only
  split
  · next h => exact List.contains_iff_mem.mp h
  · exact List.mem_append_right _ (List.mem_singleton_self _)

/-- What the fence of a core leaves: it is fenced and marked bad, and its threads are FENCED unless something else had fenced it before. -/
structure State.CoreFenced (s t : State) (c : CoreIx) : Prop where
  fenced : (t.core c).fenced = true
  bad : 272 * (coreDie c).toNat + 17 * (coreRow c).toNat + s.physCol c ∈ t.mod.badRun
  state : (s.core c).fenced = false → ∀ n, (t.thread ⟨c, n⟩).state = .fenced
  selftest : t.mod.selftest = s.mod.selftest

theorem State.fenceCore_fenced (hw : s.CoresWf) (c : CoreIx) (code : Nat) : s.CoreFenced (s.fenceCore c code Option.none) c := by
  rw [State.fenceCore_eq]
  cases h : (s.core c).fenced with
  | true =>
    rw [if_pos rfl]
    have hmark := s.markBad_eq c
    exact ⟨by rw [hmark]; exact h, s.mem_badRun_markBad c, fun h' => absurd (h.symm.trans h') (by decide), by rw [hmark]⟩
  | false =>
    rw [if_neg (by decide)]
    have hcalm := s.calm_failCore c code
    have hitems : s.Calm (fun _ => False) _ := State.Calm.foldl (l := whos c) fun s w _ =>
      s.calm_failItems w stFault (faultCause 2 code) (locThread s w)
    have hstop := State.stopCore_stopped (hitems.coresWf hw) c
    have hmark := (s.failCore c code).markBad_eq c
    have hphys : (s.failCore c code).physCol c = s.physCol c := by rw [State.physCol, hcalm.mod]; rfl
    have hcores : (((s.failCore c code).markBad c).countMod 0x805 1).cores = (s.failCore c code).cores := by rw [State.countMod_cores, hmark]
    refine ⟨?_, ?_, fun _ n => ?_, ?_⟩
    · rw [State.core, hcores]; exact hstop.fenced
    · have hbad := (s.failCore c code).mem_badRun_markBad c
      rw [hphys] at hbad
      rw [State.countMod_badRun]
      exact hbad
    · rw [State.thread, State.core, hcores]; exact hstop.state n
    · rw [(State.aside_countMod _ _ _).selftest, State.markBad_selftest]
      exact hcalm.selftest

end Sys2Proof.Machine
end

section
/-! The remap of a row: which physical columns carry its logical columns, and what that says of presence (R20 to R22, R27, R28). -/

namespace Sys2Proof.Machine

/-! ### Rows and columns -/

/-- Whether a core lies in a row. -/
def InRow (d : DieIx) (r : BitVec 4) (c : CoreIx) : Prop := coreDie c = d ∧ coreRow c = r

theorem coreIx_toNat (c : CoreIx) : c.toNat = 256 * (coreDie c).toNat + 16 * (coreRow c).toNat + (coreCol c).toNat := by
  simp only [coreDie, coreRow, coreCol, BitVec.extractLsb'_toNat, Nat.shiftRight_eq_div_pow]
  omega

theorem rowCore_toNat (d : DieIx) (r : BitVec 4) {k : Nat} (hk : k < 16) : (rowCore d r k).toNat = 256 * d.toNat + 16 * r.toNat + k := by
  have hr := r.isLt
  have hcol : r.toNat <<< 4 ||| k = 16 * r.toNat + k := by
    rw [← Nat.shiftLeft_add_eq_or_of_lt (show k < 2 ^ 4 from hk), Nat.shiftLeft_eq, Nat.mul_comm]
  rw [rowCore, BitVec.toNat_append, BitVec.toNat_append, BitVec.toNat_ofNat, Nat.mod_eq_of_lt (show k < 2 ^ 4 from hk), hcol,
    ← Nat.shiftLeft_add_eq_or_of_lt (show 16 * r.toNat + k < 2 ^ (4 + 4) by omega), Nat.shiftLeft_eq]
  omega

theorem rowCore_coreCol {d : DieIx} {r : BitVec 4} {c : CoreIx} (h : InRow d r c) : rowCore d r (coreCol c).toNat = c := by
  obtain ⟨rfl, rfl⟩ := h
  exact BitVec.eq_of_toNat_eq ((rowCore_toNat _ _ (coreCol c).isLt).trans (coreIx_toNat c).symm)

theorem coreCol_rowCore (d : DieIx) (r : BitVec 4) {k : Nat} (hk : k < 16) : (coreCol (rowCore d r k)).toNat = k := by
  rw [coreCol, BitVec.extractLsb'_toNat, rowCore_toNat d r hk, Nat.shiftRight_zero]
  omega

theorem inRow_rowCore (d : DieIx) (r : BitVec 4) {k : Nat} (hk : k < 16) : InRow d r (rowCore d r k) := by
  have hd := d.isLt
  have hr := r.isLt
  have hn := rowCore_toNat d r hk
  have hix := coreIx_toNat (rowCore d r k)
  have hcol := coreCol_rowCore d r hk
  have hrow := (coreRow (rowCore d r k)).isLt
  exact ⟨BitVec.eq_of_toNat_eq (by omega), BitVec.eq_of_toNat_eq (by omega)⟩

theorem rowCore_append (d : DieIx) (r n : BitVec 4) : rowCore d r n.toNat = d ++ (r ++ n) := by rw [rowCore, BitVec.ofNat_toNat, BitVec.setWidth_eq]

/-- The number of a row in the tables of the remap. -/
def rowIx (d : DieIx) (r : BitVec 4) : Nat := 16 * d.toNat + r.toNat

theorem core_row_index {d : DieIx} {r : BitVec 4} (c : CoreIx) : c.toNat / 16 = rowIx d r ↔ InRow d r c := by
  have hcol := (coreCol c).isLt
  have hrow := (coreRow c).isLt
  have hr := r.isLt
  rw [coreIx_toNat, rowIx, InRow, ← BitVec.toNat_inj, ← BitVec.toNat_inj]
  omega

/-! ### The plan of a row -/

theorem mem_badCols {s : State} {d : DieIx} {r : BitVec 4} {k : Nat} : k ∈ s.badCols d r ↔
    k < 17 ∧ (272 * d.toNat + 17 * r.toNat + k ∈ s.mod.badFuse ∨ 272 * d.toNat + 17 * r.toNat + k ∈ s.mod.badRun) := by
  simp [State.badCols]

theorem badCols_sorted (s : State) (d : DieIx) (r : BitVec 4) : (s.badCols d r).Pairwise (· < ·) := List.pairwise_lt_range.filter _

/-- Three rising members are what a rising list of at least three has. -/
theorem three_le_length_iff {l : List Nat} (h : l.Pairwise (· < ·)) : 3 ≤ l.length ↔ ∃ i j k, i < j ∧ j < k ∧ i ∈ l ∧ j ∈ l ∧ k ∈ l := by
  constructor
  · intro hl
    have hlt := List.pairwise_iff_getElem.mp h
    exact ⟨l[0], l[1], l[2], hlt 0 1 _ _ (by omega), hlt 1 2 _ _ (by omega), List.getElem_mem _, List.getElem_mem _, List.getElem_mem _⟩
  · rintro ⟨i, j, k, hij, hjk, hi, hj, hk⟩
    have hsub : [i, j, k] ⊆ l := by simp [hi, hj, hk]
    have hnodup : [i, j, k].Nodup := by simp; omega
    exact (hnodup.subperm hsub).length_le

theorem rowPlan_length_le (bad : List Nat) : (rowPlan bad).length ≤ 16 := by
  unfold rowPlan
  split
  · exact Nat.zero_le _
  · exact List.length_take_le 16 _

theorem rowPlan_offline {bad : List Nat} (h : 3 ≤ bad.length) : rowPlan bad = [] := if_pos h

section
variable {bad : List Nat} (h : ¬3 ≤ bad.length)
include h

theorem rowPlan_online : rowPlan bad = ((List.range 17).filter (fun p => !(bad.contains p))).take 16 := if_neg h

theorem rowPlan_sorted : (rowPlan bad).Pairwise (· < ·) := by
  rw [rowPlan_online h]
  exact (List.pairwise_lt_range.filter _).sublist (List.take_sublist 16 _)

theorem rowPlan_good {k : Nat} (hk : k ∈ rowPlan bad) : k < 17 ∧ k ∉ bad := by
  rw [rowPlan_online h] at hk
  simpa using List.mem_of_mem_take hk

/-- A good column that the plan leaves out comes after sixteen others. -/
theorem rowPlan_rest {k : Nat} (hk : k < 17) (hgood : k ∉ bad) (hout : k ∉ rowPlan bad) :
    (rowPlan bad).length = 16 ∧ ∀ j ∈ rowPlan bad, j < k := by
  rw [rowPlan_online h] at hout ⊢
  have hmem : k ∈ (List.range 17).filter (fun p => !(bad.contains p)) := by simp [hk, hgood]
  have hsorted : ((List.range 17).filter (fun p => !(bad.contains p))).Pairwise (· < ·) := List.pairwise_lt_range.filter _
  rw [← List.take_append_drop 16 (List.filter _ _)] at hmem hsorted
  have hdrop := (List.mem_append.mp hmem).resolve_left hout
  refine ⟨?_, fun j hj => (List.pairwise_append.mp hsorted).2.2 j hj k hdrop⟩
  have := List.length_pos_of_mem hdrop
  rw [List.length_drop] at this
  rw [List.length_take]
  omega

end

/-- The plan of a row with one bad column. -/
theorem rowPlan_one {k : Nat} (hk : k < 17) : (rowPlan [k]).length = 16 ∧
    ∀ n < 16, (rowPlan [k]).getD n 16 = if n < k then n else n + 1 := by
  have h : ∀ k : Fin 17, (rowPlan [k.val]).length = 16 ∧ ∀ n : Fin 16, (rowPlan [k.val]).getD n.val 16 = if n.val < k.val then n.val else n.val + 1 := by
    decide
  exact ⟨(h ⟨k, hk⟩).1, fun n hn => (h ⟨k, hk⟩).2 ⟨n, hn⟩⟩

theorem badCols_one {s : State} {d : DieIx} {r : BitVec 4} {k : Nat} (hk : k < 17) (h : ∀ j, j < 17 →
    (272 * d.toNat + 17 * r.toNat + j ∈ s.mod.badFuse ∨ 272 * d.toNat + 17 * r.toNat + j ∈ s.mod.badRun ↔ j = k)) : s.badCols d r = [k] := by
  have hmem : ∀ j, j ∈ s.badCols d r ↔ j ∈ [k] := by
    intro j
    rw [mem_badCols, List.mem_singleton]
    constructor
    · exact fun ⟨hj, hbad⟩ => (h j hj).mp hbad
    · rintro rfl
      exact ⟨hk, (h j hk).mpr rfl⟩
  exact List.Perm.eq_of_pairwise (le := (· < ·)) (fun a b _ _ hab hba => absurd hab (by omega)) (badCols_sorted s d r) (List.pairwise_singleton _ _)
    ((List.perm_ext_iff_of_nodup ((badCols_sorted s d r).imp (fun h => Nat.ne_of_lt h)) (List.nodup_singleton k)).mpr hmem)

theorem colMask_getLsbD (n : Nat) (k : BitVec 4) : (colMask n).getLsbD k.toNat = decide (k.toNat < n) := by
  have hk := k.isLt
  rw [colMask, BitVec.getLsbD_ofNat, Nat.testBit_two_pow_sub_one, decide_eq_true (by omega : k.toNat < 16), Bool.true_and]

/-! ### The tables after a remap -/

/-- The tables that name the columns of a row as its remap writes them. -/
def State.replan (s : State) (d : DieIx) (r : BitVec 4) : State :=
  { s with mod := { s.mod with rowMap := Sparse.put (List.range 16) s.mod.rowMap (rowIx d r) (rowPlan (s.badCols d r)),
                               rowCols := Sparse.put 0xFFFF s.mod.rowCols (rowIx d r) (colMask (rowPlan (s.badCols d r)).length) } }

section
variable {s : State} {d : DieIx} {r : BitVec 4}

theorem State.replan_present {c : CoreIx} (h : InRow d r c) :
    (s.replan d r).present c = decide ((coreCol c).toNat < (rowPlan (s.badCols d r)).length) := by
  rw [State.present, (core_row_index c).mpr h, State.replan, Sparse.get_put_same]
  exact colMask_getLsbD _ _

theorem State.replan_present_other {c : CoreIx} (h : ¬InRow d r c) : (s.replan d r).present c = s.present c := by
  rw [State.present, State.replan, Sparse.get_put_other _ _ _ (fun e => h ((core_row_index c).mp e))]
  rfl

theorem State.replan_physCol {c : CoreIx} (h : InRow d r c) : (s.replan d r).physCol c = (rowPlan (s.badCols d r)).getD (coreCol c).toNat 16 := by
  rw [State.physCol, (core_row_index c).mpr h, State.replan, Sparse.get_put_same]

theorem State.replan_rowMap : Sparse.get (List.range 16) (s.replan d r).mod.rowMap (rowIx d r) = rowPlan (s.badCols d r) := Sparse.get_put_same _ _ _ _

end

end Sys2Proof.Machine
end

section
/-! The end of a row quiesce: its threads stop, its queues close, and the row is mapped anew (R25, R448, R449). -/

namespace Sys2Proof.Machine

variable {s : State} {d : DieIx} {r : BitVec 4}

/-! ### The threads of a row -/

/-- A thread that a drain waits for. -/
def Thread.Running (h : Thread) : Prop := h.state = .run ∨ h.state = .wait ∨ h.state = .halt

theorem Thread.rests_cases {h : Thread} (hr : ¬h.Running) : h.state = .free ∨ h.state = .done ∨ h.state = .fenced := by
  unfold Thread.Running at hr
  cases hs : h.state <;> simp_all

/-- The present cores of a row, and their threads. -/
def State.rowCores (s : State) (d : DieIx) (r : BitVec 4) : List CoreIx := ((List.range 16).map (rowCore d r)).filter s.present

def State.rowThreads (s : State) (d : DieIx) (r : BitVec 4) : List Who := (s.rowCores d r).flatMap whos

theorem mem_rowCores {c : CoreIx} : c ∈ s.rowCores d r ↔ InRow d r c ∧ s.present c = true := by
  rw [State.rowCores, List.mem_filter, List.mem_map]
  refine and_congr_left fun _ => ⟨?_, fun h => ⟨_, List.mem_range.mpr (coreCol c).isLt, rowCore_coreCol h⟩⟩
  rintro ⟨k, hk, rfl⟩
  exact inRow_rowCore d r (List.mem_range.mp hk)

theorem mem_rowThreads {w : Who} : w ∈ s.rowThreads d r ↔ InRow d r w.core ∧ s.present w.core = true := by
  rw [State.rowThreads, List.mem_flatMap, ← mem_rowCores]
  refine ⟨?_, fun h => ⟨_, h, mem_whos w⟩⟩
  rintro ⟨c, hc, hw⟩
  rwa [core_of_mem_whos hw]

/-- Whether a thread of a present core of the row still runs. -/
def State.rowBusy (s : State) (d : DieIx) (r : BitVec 4) : Prop := ∃ w, InRow d r w.core ∧ s.present w.core = true ∧ (s.thread w).Running

theorem rowBusy_iff : ((s.rowThreads d r).any (fun w => decide ((s.thread w).state = .run ∨ (s.thread w).state = .wait ∨ (s.thread w).state = .halt))) = true ↔
    s.rowBusy d r := by
  simp only [List.any_eq_true, decide_eq_true_eq, mem_rowThreads, State.rowBusy, and_assoc]
  rfl

/-! ### The states that QUIESCE_DRAIN_END passes through -/

/-- The row once its threads have stopped, its items are held, and its queues are closed. -/
def State.rowDrained (s : State) (d : DieIx) (r : BitVec 4) : State :=
  (s.rowCores d r).foldl (fun s c => s.closeQueues c false)
    (((s.rowThreads d r).foldl (fun s w => (s.drainThread w).dropRelay w) s).holdItems d r)

/-- The row once it is mapped anew and its cores are copied. -/
def State.copied (s : State) (d : DieIx) (r : BitVec 4) (lost : List (BitVec 4 × Nat)) : State :=
  ((s.rowDrained d r).remapRow d r).copyPoison d r ((s.rowDrained d r).movedCols ((s.rowDrained d r).remapRow d r) d r) lost

/-- The row once its present cores have reopened, and the quiesce is over. -/
def State.reopened (s : State) (d : DieIx) (r : BitVec 4) (lost : List (BitVec 4 × Nat)) : State :=
  (((s.rowCores d r).filter (s.copied d r lost).present).foldl (fun s c => s.reopen c) (s.copied d r lost)).modDie d
    (fun x => { x with quiesce := Option.none })

/-- The row's quiesce is over; a size table that differs is announced. -/
def State.rowEnd (s : State) (d : DieIx) (r : BitVec 4) (lost : List (BitVec 4 × Nat)) : State :=
  if (s.reopened d r lost).mod.rowCols = (s.rowDrained d r).mod.rowCols then s.reopened d r lost else (s.reopened d r lost).sizeChanged

section
variable (hq : (s.die d).quiesce = some { row := r }) (lost : List (BitVec 4 × Nat))
include hq

theorem drainEnd_busy (hb : s.rowBusy d r) : exec (.quiesceDrainEnd d ⟨false, lost⟩) s = .next s := by
  simp only [exec_quiesceDrainEnd, execQuiesceDrainEnd, hq]
  exact if_pos ⟨rowBusy_iff.mpr hb, Bool.false_ne_true⟩

theorem drainEnd_done (hb : ¬s.rowBusy d r) : exec (.quiesceDrainEnd d ⟨false, lost⟩) s = .next (s.rowEnd d r lost) := by
  simp only [exec_quiesceDrainEnd, execQuiesceDrainEnd, hq]
  exact if_neg fun h => hb (rowBusy_iff.mp h.1)

theorem drainEnd_limit : exec (.quiesceDrainEnd d ⟨true, lost⟩) s = .next ((s.endsInTime d r).rowEnd d r lost) := by
  simp only [exec_quiesceDrainEnd, execQuiesceDrainEnd, hq]
  exact if_neg fun h => h.2 trivial

end

/-- No thread of the row ends in time where none of the ends that wait is of the row. -/
theorem State.endsInTime_none (h : ∀ i rs1, Instr.endThread i rs1 ∈ s.pending → ¬InRow d r i.who.core) : s.endsInTime d r = s := by
  refine foldl_invariant (· = s) rfl fun t c hc ht => ?_
  split
  · next i rs1 => exact (if_neg (h i rs1 hc)).trans ht
  · exact ht

theorem State.endsInTime_one {i : Iss} {rs1 : BitVec 5} {t : State} (hp : s.pending = [.endThread i rs1]) (hi : InRow d r i.who.core)
    (h : exec (.endThread i rs1) s = .next t) : s.endsInTime d r = t := by
  have hex : execEndThread i rs1 s = .next t := h
  rw [State.endsInTime, hp, List.foldl_cons, List.foldl_nil]
  simp only [hex]
  exact if_pos hi

/-- Where no thread of the row ends in time, the drain that is over, or at its limit, ends the quiesce. -/
theorem drainEnd_ends (hq : (s.die d).quiesce = some { row := r }) (lost : List (BitVec 4 × Nat)) {limit : Bool}
    (hb : ¬s.rowBusy d r ∨ limit = true)
    (hcalm : limit = true → ∀ i rs1, Instr.endThread i rs1 ∈ s.pending → ¬InRow d r i.who.core) :
    exec (.quiesceDrainEnd d ⟨limit, lost⟩) s = .next (s.rowEnd d r lost) := by
  cases limit with
  | false => exact drainEnd_done hq lost (hb.resolve_right (by decide))
  | true => rw [drainEnd_limit hq, State.endsInTime_none (hcalm rfl)]

/-! ### The drain (R449) -/

/-- A core whose matrix queue and retry forget a thread. -/
def Core.forgetThread (x : Core) (n : ThrIx) : Core :=
  { x with mq := x.mq.filter (fun m => m.thr ≠ n),
           retry := match x.retry with | some r => if r.thr = n then Option.none else some r | Option.none => Option.none }

/-- A thread that the limit stops: its items fail, its streams stop, and it is fenced. -/
def State.fenceDrained (s : State) (w : Who) : State :=
  (((s.leftWait w).failItems w stAbort 2 (locThread s w)).stopStreams w false).modThread w (fun h =>
    { h with state := .fenced, hold := .none, memHold := .none, loads := [], stepping := false })

/-- Its work in the matrix queue is gone too. -/
def State.stopDrained (s : State) (w : Who) : State := (s.fenceDrained w).modCore w.core (fun x => x.forgetThread w.thr)

theorem State.drainThread_running {w : Who} (h : (s.thread w).Running) : s.drainThread w = s.stopDrained w := if_pos h

theorem State.drainThread_rests {w : Who} (h : ¬(s.thread w).Running) : s.drainThread w = s := if_neg h

theorem State.calm_stopDrained_items {A : CoreIx → Prop} (s : State) (w : Who) :
    s.Calm A (((s.leftWait w).failItems w stAbort 2 (locThread s w)).stopStreams w false) :=
  ((s.calm_leftWait w).trans (State.calm_failItems _ w _ _ _)).trans (State.calm_stopStreams _ w false)

theorem State.calm_forgetThread (s : State) (w : Who) : s.Calm (· = w.core) (s.modCore w.core (fun x => x.forgetThread w.thr)) :=
  s.calm_modCore _ (.inl rfl) id

theorem State.thread_modCore_threads (s : State) (c : CoreIx) {f : Core → Core} (hf : ∀ x : Core, (f x).threads = x.threads) (v : Who) :
    (s.modCore c f).thread v = s.thread v := by
  by_cases hv : v.core = c
  · rw [State.thread, hv, State.core_modCore, Core.thread_of_threads (hf _), State.thread, hv]
  · rw [State.thread, State.core_modCore_other _ _ hv, State.thread]

theorem State.thread_modQueue (s : State) (c : CoreIx) (q : BitVec 4) (f : Queue → Queue) (v : Who) : (s.modQueue c q f).thread v = s.thread v := by
  refine s.thread_modCore_threads c ?_ v
  exact fun _ => rfl

theorem State.thread_forgetThread (s : State) (w v : Who) : (s.modCore w.core (fun x => x.forgetThread w.thr)).thread v = s.thread v := by
  refine s.thread_modCore_threads w.core ?_ v
  exact fun _ => rfl

theorem State.calm_fenceDrained (s : State) (w : Who) : s.Calm (· = w.core) (s.fenceDrained w) :=
  (s.calm_stopDrained_items w).trans (State.calm_modThread _ w (.inl rfl))

theorem State.calm_stopDrained (s : State) (w : Who) : s.Calm (· = w.core) (s.stopDrained w) :=
  (s.calm_fenceDrained w).trans (State.calm_forgetThread _ w)

theorem State.calm_drainThread (s : State) (w : Who) : s.Calm (· = w.core) (s.drainThread w) :=
  .ite (s.calm_stopDrained w) (.refl s)

theorem State.stopDrained_state (h : s.CoresWf) (w v : Who) :
    ((s.stopDrained w).thread v).state = if v = w then .fenced else (s.thread v).state := by
  rw [State.stopDrained, State.thread_forgetThread, State.fenceDrained]
  split
  · next hv => subst hv; rw [State.thread_modThread]
  · next hv =>
    rw [State.thread_modThread_other _ _ hv]
    exact ((s.calm_stopDrained_items w).everyCore h v.core).state v.thr

theorem State.drainThread_self (h : s.CoresWf) (w : Who) : ¬((s.drainThread w).thread w).Running := by
  by_cases hw : (s.thread w).Running
  · rw [State.drainThread_running hw, Thread.Running, State.stopDrained_state h, if_pos rfl]
    decide
  · rwa [State.drainThread_rests hw]

theorem State.drainThread_kept (h : s.CoresWf) (w v : Who) (hv : ¬(s.thread v).Running) : ¬((s.drainThread w).thread v).Running := by
  by_cases hw : (s.thread w).Running
  · rw [State.drainThread_running hw, Thread.Running, State.stopDrained_state h]
    split
    · decide
    · exact hv
  · rwa [State.drainThread_rests hw]

theorem State.calm_dropRelay {A : CoreIx → Prop} (s : State) (w : Who) : s.Calm A (s.dropRelay w) :=
  .foldl fun s k _ => .ite (.refl s) (s.calm_stopStream w k false)

theorem State.Calm.rests {t : State} (h : s.Calm (fun _ => False) t) (hw : s.CoresWf) {v : Who} (hv : ¬(s.thread v).Running) :
    ¬(t.thread v).Running := by
  have hs : (t.thread v).state = (s.thread v).state := (h.everyCore hw v.core).state v.thr
  unfold Thread.Running at hv ⊢
  rwa [hs]

/-- One thread of the row stops, if it must, and its relay chains too. -/
def State.drainOne (s : State) (w : Who) : State := (s.drainThread w).dropRelay w

theorem State.calm_drainOne (s : State) (w : Who) : s.Calm (· = w.core) (s.drainOne w) := (s.calm_drainThread w).trans (State.calm_dropRelay _ w)

theorem State.calm_drainThreads (s : State) (d : DieIx) (r : BitVec 4) : s.Calm (InRow d r) ((s.rowThreads d r).foldl State.drainOne s) :=
  .foldl fun s w hw => (s.calm_drainOne w).mono fun c hc => by rw [hc]; exact (mem_rowThreads.mp hw).1

theorem State.drainThreads_rest (h : s.CoresWf) {w : Who} (hw : w ∈ s.rowThreads d r) :
    ¬(((s.rowThreads d r).foldl State.drainOne s).thread w).Running :=
  foldl_each (I := State.CoresWf) (P := fun w s => ¬(s.thread w).Running) (fun s w h => (s.calm_drainOne w).coresWf h)
    (fun s w h => (State.calm_dropRelay _ w).rests ((s.calm_drainThread w).coresWf h) (State.drainThread_self h w))
    (fun s w v h hv => (State.calm_dropRelay _ w).rests ((s.calm_drainThread w).coresWf h) (State.drainThread_kept h w v hv)) h w hw

theorem State.calm_holdItems {A : CoreIx → Prop} (s : State) (d : DieIx) (r : BitVec 4) : s.Calm A (s.holdItems d r) :=
  .of_tables rfl rfl rfl rfl rfl

theorem State.calm_closeRow (s : State) {d : DieIx} {r : BitVec 4} {cs : List CoreIx} (h : ∀ c ∈ cs, InRow d r c) :
    s.Calm (InRow d r) (cs.foldl (fun s c => s.closeQueues c false) s) :=
  .foldl fun s c hc => (s.calm_closeQueues c false).mono fun e he => by rw [he]; exact h c hc

theorem State.rowDrained_eq (s : State) (d : DieIx) (r : BitVec 4) : s.rowDrained d r =
    (s.rowCores d r).foldl (fun s c => s.closeQueues c false) (((s.rowThreads d r).foldl State.drainOne s).holdItems d r) := rfl

theorem State.calm_rowDrained (s : State) (d : DieIx) (r : BitVec 4) : s.Calm (InRow d r) (s.rowDrained d r) := by
  rw [State.rowDrained_eq]
  exact ((s.calm_drainThreads d r).trans (State.calm_holdItems _ d r)).trans (State.calm_closeRow _ fun c hc => (mem_rowCores.mp hc).1)

theorem State.closeQueues_thread (s : State) (c : CoreIx) (bump : Bool) (w : Who) : (s.closeQueues c bump).thread w = s.thread w :=
  foldl_invariant (fun t : State => t.thread w = s.thread w) rfl fun t _ _ ht => (t.thread_modQueue c _ _ w).trans ht

theorem State.rowDrained_rest (h : s.CoresWf) {w : Who} (hw : w ∈ s.rowThreads d r) : ¬((s.rowDrained d r).thread w).Running := by
  have hclose : (s.rowDrained d r).thread w = ((s.rowThreads d r).foldl State.drainOne s).thread w := by
    rw [State.rowDrained_eq]
    exact foldl_invariant (fun t : State => t.thread w = ((s.rowThreads d r).foldl State.drainOne s).thread w) rfl
      fun t c _ ht => (t.closeQueues_thread c false w).trans ht
  rw [hclose]
  exact State.drainThreads_rest h hw

end Sys2Proof.Machine
end

section
/-! The remap at the end of a row quiesce: the columns that become absent, the copied words, and the cores that reopen (R22, R25, R27, R28, R449). -/

namespace Sys2Proof.Machine

variable {s t : State} {d : DieIx} {r : BitVec 4}

/-! ### Calm operations keep the tables of the remap -/

theorem State.Calm.physCol {A : CoreIx → Prop} (h : s.Calm A t) (c : CoreIx) : t.physCol c = s.physCol c := by
  rw [State.physCol, h.mod]
  rfl

theorem State.Calm.badCols {A : CoreIx → Prop} (h : s.Calm A t) (d : DieIx) (r : BitVec 4) : t.badCols d r = s.badCols d r := by
  rw [State.badCols, h.mod]
  rfl

theorem State.Calm.rowMap {A : CoreIx → Prop} (h : s.Calm A t) : t.mod.rowMap = s.mod.rowMap := by rw [h.mod]

theorem State.Calm.replan {A : CoreIx → Prop} (h : s.Calm A t) (d : DieIx) (r : BitVec 4) : (s.replan d r).Calm A (t.replan d r) where
  boot := h.boot
  overlay := h.overlay
  mod := by
    rw [State.replan, State.replan, h.badCols]
    dsimp only
    rw [h.mod]
  coresWf hw := have hw' := h.coresWf ⟨hw.cores, hw.threads⟩; ⟨hw'.cores, hw'.threads⟩
  core hw := h.core ⟨hw.cores, hw.threads⟩
  diesWf := h.diesWf
  die := h.die

/-! ### Columns that become absent (R27) -/

/-- A core whose station and lane entries no longer name another. -/
def Core.unmapped (x : Core) (id : BitVec 22) : Core :=
  { x with stnEntry := Sparse.mapVals 0 (fun _ (e : Word) =>
             if e.extractLsb' 62 2 = 1 ∧ e.extractLsb' 38 22 = id then (e.extractLsb' 0 62).zeroExtend 64 else e) x.stnEntry,
           stnLane := Sparse.mapVals 0 (fun _ (e : Word) =>
             if e.getLsbD 63 ∧ e.extractLsb' 38 22 = id then (e.extractLsb' 0 63).zeroExtend 64 else e) x.stnLane }

theorem State.unmapCore_eq (s : State) (c : CoreIx) : s.unmapCore c = s.mapCores (fun _ x => x.unmapped (s.coreId c)) := rfl

theorem State.calm_unmapCore {A : CoreIx → Prop} (s : State) (c : CoreIx) : s.Calm A (s.unmapCore c) := by
  rw [State.unmapCore_eq]
  exact s.calm_mapCores (fun _ => rfl) (fun _ _ _ => ⟨rfl, rfl, rfl, fun _ => rfl⟩) (fun _ _ h => h)

/-- A core whose column is gone. -/
def State.dropCol (s : State) (c : CoreIx) : State := (s.setCore c {}).unmapCore c

theorem State.calm_setCore_empty (s : State) (c : CoreIx) : s.Calm (· = c) (s.setCore c {}) :=
  s.calm_modCore c (f := fun _ => {}) (.inl rfl) (fun _ => rfl)

theorem State.calm_dropCol (s : State) (c : CoreIx) : s.Calm (· = c) (s.dropCol c) :=
  (s.calm_setCore_empty c).trans (State.calm_unmapCore _ c)

theorem State.dropCol_core (h : s.CoresWf) (c e : CoreIx) :
    (s.dropCol c).core e = (if e = c then {} else s.core e).unmapped ((s.setCore c {}).coreId c) := by
  rw [State.dropCol, State.unmapCore_eq, State.core_mapCores ((s.calm_setCore_empty c).coresWf h).cores (fun _ => rfl)]
  split
  · next he => rw [he, State.core_setCore]
  · next he => rw [State.core_setCore_other _ _ he]

theorem State.remapRow_eq (s : State) (d : DieIx) (r : BitVec 4) : s.remapRow d r =
    ((List.range 16).drop (rowPlan (s.badCols d r)).length).foldl (fun s k => s.dropCol (rowCore d r k)) (s.replan d r) := rfl

theorem mem_drop_range {m n k : Nat} : k ∈ (List.range n).drop m ↔ m ≤ k ∧ k < n := by
  simp only [List.mem_iff_getElem, List.length_drop, List.length_range, List.getElem_drop, List.getElem_range]
  exact ⟨fun ⟨i, hi, he⟩ => by omega, fun h => ⟨k - m, by omega, by omega⟩⟩

theorem State.calm_remapRow (s : State) (d : DieIx) (r : BitVec 4) :
    (s.replan d r).Calm (fun c => InRow d r c ∧ (s.replan d r).present c = false) (s.remapRow d r) := by
  rw [State.remapRow_eq]
  refine .foldl fun t k hk => (t.calm_dropCol (rowCore d r k)).mono ?_
  rintro c rfl
  obtain ⟨hplan, hk⟩ := mem_drop_range.mp hk
  have hrow := inRow_rowCore d r hk
  refine ⟨hrow, ?_⟩
  rw [State.replan_present hrow, coreCol_rowCore d r hk]
  exact decide_eq_false (by omega)

/-- The contents of a core whose column becomes absent are gone. -/
theorem State.remapRow_absent (h : s.CoresWf) {c : CoreIx} (hrow : InRow d r c) (hp : (s.replan d r).present c = false) :
    (s.remapRow d r).core c = {} := by
  rw [State.replan_present hrow, decide_eq_false_iff_not] at hp
  have hcol := (coreCol c).isLt
  have hgone := foldl_each (I := State.CoresWf) (P := fun k (t : State) => t.core (rowCore d r k) = {}) (f := fun s k => s.dropCol (rowCore d r k))
    (fun t k ht => (t.calm_dropCol _).coresWf ht)
    (fun t k ht => by rw [State.dropCol_core ht, if_pos rfl]; rfl)
    (fun t k j ht hj => by rw [State.dropCol_core ht, hj, ite_self]; rfl)
    (l := (List.range 16).drop (rowPlan (s.badCols d r)).length) (b := s.replan d r) ⟨h.cores, h.threads⟩
    (coreCol c).toNat (mem_drop_range.mpr (by omega))
  rwa [rowCore_coreCol hrow] at hgone

/-! ### The words that are copied with poison (R25, R444) -/

theorem mem_movedCols {k : Nat} : k ∈ s.movedCols t d r ↔
    k < 16 ∧ t.present (rowCore d r k) = true ∧ s.physCol (rowCore d r k) ≠ t.physCol (rowCore d r k) := by
  simp [State.movedCols]

section
variable (moved : List Nat)

/-- One word that the copy finds uncorrectable. -/
def State.copyWord (s : State) (d : DieIx) (r : BitVec 4) (e : BitVec 4 × Nat) : State :=
  if moved.contains e.1.toNat ∧ e.2 < 0x100000 then
    (s.logError d 1 1 (s.coreId (rowCore d r e.1.toNat)).toNat).modCore (rowCore d r e.1.toNat)
      (fun x => { x with lsPoison := Sparse.put false x.lsPoison e.2 true })
  else s

theorem State.copyPoison_eq (s : State) (d : DieIx) (r : BitVec 4) (lost : List (BitVec 4 × Nat)) :
    s.copyPoison d r moved lost = lost.foldl (fun s e => s.copyWord moved d r e) s := rfl

theorem State.calm_logError {A : CoreIx → Prop} (s : State) (d : DieIx) (unit kind addr : Nat) : s.Calm A (s.logError d unit kind addr) :=
  s.calm_modDie d rfl rfl

theorem State.core_logError (s : State) (d : DieIx) (unit kind addr : Nat) (c : CoreIx) : (s.logError d unit kind addr).core c = s.core c := rfl

theorem State.calm_copyWord {A : CoreIx → Prop} (s : State) (e : BitVec 4 × Nat) : s.Calm A (s.copyWord moved d r e) :=
  .ite ((s.calm_logError d 1 1 _).trans (State.calm_modCore_same _ _ rfl rfl rfl rfl)) (.refl s)

theorem State.calm_copyPoison {A : CoreIx → Prop} (s : State) (lost : List (BitVec 4 × Nat)) : s.Calm A (s.copyPoison d r moved lost) := by
  rw [State.copyPoison_eq]
  exact .foldl fun s e _ => s.calm_copyWord moved e

variable {moved}

/-- A core whose column did not move takes no part in the copy. -/
theorem State.copyPoison_core_other {c : CoreIx} (h : ∀ k ∈ moved, rowCore d r k ≠ c) (lost : List (BitVec 4 × Nat)) :
    (s.copyPoison d r moved lost).core c = s.core c := by
  refine foldl_invariant (fun t : State => t.core c = s.core c) rfl fun t e _ ht => ?_
  split
  · next he => rw [State.core_modCore_other _ _ (Ne.symm (h _ (List.contains_iff_mem.mp he.1))), State.core_logError, ht]
  · exact ht

/-- The poison of a word of a core. -/
def State.lsPoisoned (s : State) (c : CoreIx) (n : Nat) : Prop := Sparse.get false (s.core c).lsPoison n = true

theorem State.copyWord_made {e : BitVec 4 × Nat} (hm : e.1.toNat ∈ moved) (hn : e.2 < 0x100000) :
    (s.copyWord moved d r e).lsPoisoned (rowCore d r e.1.toNat) e.2 := by
  rw [State.copyWord, if_pos ⟨List.contains_iff_mem.mpr hm, hn⟩, State.lsPoisoned, State.core_modCore]
  dsimp only
  rw [Sparse.get_put_same]

theorem State.copyWord_kept {c : CoreIx} {n : Nat} (e : BitVec 4 × Nat) (h : s.lsPoisoned c n) : (s.copyWord moved d r e).lsPoisoned c n := by
  unfold State.copyWord
  split
  · by_cases hc : c = rowCore d r e.1.toNat
    · rw [State.lsPoisoned, hc, State.core_modCore]
      dsimp only
      by_cases hn : n = e.2
      · rw [hn, Sparse.get_put_same]
      · rw [Sparse.get_put_other _ _ _ hn, State.core_logError, ← hc]; exact h
    · rw [State.lsPoisoned, State.core_modCore_other _ _ hc, State.core_logError]; exact h
  · exact h

theorem State.copyPoison_lsPoisoned {lost : List (BitVec 4 × Nat)} {e : BitVec 4 × Nat} (he : e ∈ lost) (hm : e.1.toNat ∈ moved) (hn : e.2 < 0x100000) :
    (s.copyPoison d r moved lost).lsPoisoned (rowCore d r e.1.toNat) e.2 := by
  have hall := foldl_each (I := fun _ : State => True) (f := fun s e => s.copyWord moved d r e) (l := lost) (b := s)
    (P := fun e t => e.1.toNat ∈ moved → e.2 < 0x100000 → t.lsPoisoned (rowCore d r e.1.toNat) e.2)
    (fun _ _ _ => trivial) (fun _ _ _ hm hn => State.copyWord_made hm hn) (fun _ a _ _ h hm hn => State.copyWord_kept a (h hm hn)) trivial
  exact hall e he hm hn

end

/-! ### The cores that reopen (R449) -/

/-- A fenced thread of a core that reopens is FREE. -/
def Thread.reopened (h : Thread) : Thread := if h.state = .fenced then { h with state := .free } else h

theorem Thread.reopened_state (h : Thread) : h.reopened.state = if h.state = .fenced then .free else h.state := by
  unfold Thread.reopened
  split <;> rfl

theorem State.reopen_core (s : State) (c : CoreIx) : (s.reopen c).core c =
    { s.core c with fenced := false, threads := Sparse.mapVals {} (fun _ h => h.reopened) (s.core c).threads } := s.core_modCore c _

theorem State.reopen_core_other (s : State) {c e : CoreIx} (h : e ≠ c) : (s.reopen c).core e = s.core e := s.core_modCore_other _ h

theorem State.calm_reopen (s : State) (c : CoreIx) : s.Calm (· = c) (s.reopen c) := by
  refine s.calm_modCore c (.inl rfl) fun h => ?_
  exact Sparse.wf_mapVals _ h

theorem State.reopen_state (h : s.CoresWf) (c : CoreIx) (n : ThrIx) :
    ((s.reopen c).thread ⟨c, n⟩).state = if (s.thread ⟨c, n⟩).state = .fenced then .free else (s.thread ⟨c, n⟩).state := by
  have hget := Sparse.get_mapVals (f := fun _ (h : Thread) => h.reopened) (h.threads c) (fun _ => rfl) n.toNat
  rw [State.thread, State.reopen_core, Core.thread, hget, Thread.reopened_state]
  rfl

theorem State.reopen_lsPoisoned {e : CoreIx} {n : Nat} (c : CoreIx) (h : s.lsPoisoned e n) : (s.reopen c).lsPoisoned e n := by
  by_cases he : e = c
  · subst he
    rw [State.lsPoisoned, State.reopen_core]
    exact h
  · rw [State.lsPoisoned, State.reopen_core_other _ he]
    exact h

/-- A core is open, and each of its threads is FREE or DONE. -/
def State.coreOpen (s : State) (c : CoreIx) : Prop := (s.core c).fenced = false ∧ ∀ n, (s.thread ⟨c, n⟩).state = .free ∨ (s.thread ⟨c, n⟩).state = .done

/-- No thread of a core runs. -/
def State.coreRests (s : State) (c : CoreIx) : Prop := ∀ n, ¬(s.thread ⟨c, n⟩).Running

theorem State.coreOpen.rests {c : CoreIx} (h : s.coreOpen c) : s.coreRests c := by
  intro n hr
  rcases h.2 n with h | h <;> simp [Thread.Running, h] at hr

theorem State.reopen_open (h : s.CoresWf) {c : CoreIx} (hr : s.coreRests c) : (s.reopen c).coreOpen c := by
  refine ⟨by rw [State.reopen_core], fun n => ?_⟩
  rw [State.reopen_state h]
  rcases Thread.rests_cases (hr n) with h | h | h <;> simp [h]

theorem State.reopen_open_other {c e : CoreIx} (he : e ≠ c) (h : s.coreOpen e) : (s.reopen c).coreOpen e := by
  have hcore := s.reopen_core_other he
  exact ⟨by rw [hcore]; exact h.1, fun n => by rw [State.thread, hcore]; exact h.2 n⟩

theorem State.reopen_rests (h : s.CoresWf) (c : CoreIx) {e : CoreIx} (hr : s.coreRests e) : (s.reopen c).coreRests e := by
  by_cases he : e = c
  · subst he; exact (State.reopen_open h hr).rests
  · intro n
    rw [State.thread, State.reopen_core_other _ he]
    exact hr n

/-- The cores of a list reopen. -/
def State.reopenAll (s : State) (cs : List CoreIx) : State := cs.foldl (fun s c => s.reopen c) s

theorem State.reopenAll_open {cs : List CoreIx} (h : s.CoresWf) (hr : ∀ c ∈ cs, s.coreRests c) : ∀ c ∈ cs, (s.reopenAll cs).coreOpen c := by
  have hall := foldl_each (I := fun t : State => t.CoresWf ∧ ∀ c ∈ cs, t.coreRests c) (P := fun c (t : State) => c ∈ cs → t.coreOpen c) (f := fun s c => s.reopen c)
    (fun t c ht => ⟨(t.calm_reopen c).coresWf ht.1, fun e he => State.reopen_rests ht.1 c (ht.2 e he)⟩)
    (fun t c ht hc => State.reopen_open ht.1 (ht.2 c hc))
    (fun t c e ht ho he => by
      by_cases hec : e = c
      · subst hec; exact State.reopen_open ht.1 (ht.2 e he)
      · exact State.reopen_open_other hec (ho he))
    (l := cs) (b := s) ⟨h, hr⟩
  exact fun c hc => hall c hc hc

theorem State.reopenAll_core_other {cs : List CoreIx} {c : CoreIx} (h : c ∉ cs) : (s.reopenAll cs).core c = s.core c :=
  foldl_invariant (fun t : State => t.core c = s.core c) rfl fun t e he ht =>
    (t.reopen_core_other (fun hc => h (by rwa [hc]))).trans ht

theorem State.reopenAll_lsPoisoned {cs : List CoreIx} {c : CoreIx} {n : Nat} (h : s.lsPoisoned c n) : (s.reopenAll cs).lsPoisoned c n :=
  foldl_invariant (fun t : State => t.lsPoisoned c n) h fun _ e _ ht => State.reopen_lsPoisoned e ht

theorem State.calm_reopenAll {cs : List CoreIx} (s : State) (h : ∀ c ∈ cs, InRow d r c) : s.Calm (InRow d r) (s.reopenAll cs) :=
  .foldl fun s c hc => (s.calm_reopen c).mono fun e he => by rw [he]; exact h c hc

end Sys2Proof.Machine
end

section
/-! What the end of a row quiesce leaves, and the remaps of a row with one and with three bad columns (R22, R28). -/

namespace Sys2Proof.Machine

variable {s : State} {d : DieIx} {r : BitVec 4} (lost : List (BitVec 4 × Nat))

/-! ### The state after the quiesce -/

/-- The cores of the row that reopen. -/
def State.openCores (s : State) (d : DieIx) (r : BitVec 4) (lost : List (BitVec 4 × Nat)) : List CoreIx :=
  (s.rowCores d r).filter (s.copied d r lost).present

theorem mem_openCores {c : CoreIx} : c ∈ s.openCores d r lost ↔ (InRow d r c ∧ s.present c = true) ∧ (s.copied d r lost).present c = true := by
  rw [State.openCores, List.mem_filter, mem_rowCores]

theorem State.copied_eq (s : State) (d : DieIx) (r : BitVec 4) : s.copied d r lost =
    ((s.rowDrained d r).remapRow d r).copyPoison d r ((s.rowDrained d r).movedCols ((s.rowDrained d r).remapRow d r) d r) lost := rfl

theorem State.reopened_eq (s : State) (d : DieIx) (r : BitVec 4) : s.reopened d r lost =
    ((s.copied d r lost).reopenAll (s.openCores d r lost)).modDie d (fun x => { x with quiesce := Option.none }) := rfl

theorem State.calm_replanned (s : State) (d : DieIx) (r : BitVec 4) :
    (s.replan d r).Calm (InRow d r) ((s.rowDrained d r).replan d r) := (s.calm_rowDrained d r).replan d r

theorem State.calm_remapped (s : State) (d : DieIx) (r : BitVec 4) : (s.replan d r).Calm (InRow d r) ((s.rowDrained d r).remapRow d r) :=
  (s.calm_replanned d r).trans ((State.calm_remapRow _ d r).mono fun _ h => h.1)

theorem State.calm_copied {A : CoreIx → Prop} (s : State) (d : DieIx) (r : BitVec 4) : ((s.rowDrained d r).remapRow d r).Calm A (s.copied d r lost) := by
  rw [State.copied_eq]
  exact State.calm_copyPoison _ _ lost

theorem State.calm_reopened (s : State) (d : DieIx) (r : BitVec 4) : (s.copied d r lost).Calm (InRow d r) (s.reopened d r lost) := by
  rw [State.reopened_eq]
  exact (State.calm_reopenAll _ fun c hc => ((mem_openCores lost).mp hc).1.1).trans (State.calm_modDie _ d rfl rfl)

theorem State.aside_rowEnd (s : State) (d : DieIx) (r : BitVec 4) : (s.reopened d r lost).Aside (s.rowEnd d r lost) :=
  .ite (.refl _) (State.aside_sizeChanged _)

/-- After the new plan, the end of the quiesce is calm but for the row. -/
theorem State.calm_rowEnd (s : State) (d : DieIx) (r : BitVec 4) : (s.replan d r).Calm (InRow d r) (s.rowEnd d r lost) :=
  (((s.calm_remapped d r).trans (s.calm_copied lost d r)).trans (s.calm_reopened lost d r)).trans (s.aside_rowEnd lost d r).calm

theorem State.rowEnd_quiesce (s : State) (d : DieIx) (r : BitVec 4) : ((s.rowEnd d r lost).die d).quiesce = Option.none := by
  rw [(s.aside_rowEnd lost d r).die d, State.reopened_eq, State.die_modDie]

theorem State.event_cores (s : State) (code : Nat) (d : DieIx) (arg v : Nat) : (s.event code d arg v).cores = s.cores := by
  unfold State.event
  split <;> rfl

theorem State.rowEnd_core (s : State) (d : DieIx) (r : BitVec 4) (c : CoreIx) :
    (s.rowEnd d r lost).core c = ((s.copied d r lost).reopenAll (s.openCores d r lost)).core c := by
  have hcores : (s.rowEnd d r lost).cores = (s.reopened d r lost).cores := by
    unfold State.rowEnd
    split
    · rfl
    · rw [State.sizeChanged, State.event_cores]
  rw [State.core, hcores, State.reopened_eq]
  rfl

/-! ### Presence and columns -/

section
variable {c : CoreIx}

theorem State.rowEnd_present (h : InRow d r c) :
    (s.rowEnd d r lost).present c = decide ((coreCol c).toNat < (rowPlan (s.badCols d r)).length) :=
  ((s.calm_rowEnd lost d r).present c).trans (State.replan_present h)

theorem State.rowEnd_physCol (h : InRow d r c) :
    (s.rowEnd d r lost).physCol c = (rowPlan (s.badCols d r)).getD (coreCol c).toNat 16 :=
  ((s.calm_rowEnd lost d r).physCol c).trans (State.replan_physCol h)

theorem State.rowEnd_present_eq (s : State) (d : DieIx) (r : BitVec 4) (c : CoreIx) :
    (s.rowEnd d r lost).present c = ((s.rowDrained d r).remapRow d r).present c :=
  ((s.calm_rowEnd lost d r).present c).trans ((s.calm_remapped d r).present c).symm

theorem State.rowEnd_physCol_eq (s : State) (d : DieIx) (r : BitVec 4) (c : CoreIx) :
    (s.rowEnd d r lost).physCol c = ((s.rowDrained d r).remapRow d r).physCol c :=
  ((s.calm_rowEnd lost d r).physCol c).trans ((s.calm_remapped d r).physCol c).symm

theorem State.copied_present (s : State) (d : DieIx) (r : BitVec 4) (c : CoreIx) :
    (s.copied d r lost).present c = (s.rowEnd d r lost).present c :=
  ((s.calm_copied (A := InRow d r) lost d r).present c).trans (s.rowEnd_present_eq lost d r c).symm

/-! ### The cores of the row -/

/-- A core of the row that was present and stays so reopens. -/
theorem State.rowEnd_open (h : s.CoresWf) (hrow : InRow d r c) (hp : s.present c = true) (ht : (s.rowEnd d r lost).present c = true) :
    (s.rowEnd d r lost).coreOpen c := by
  have hdrained := (s.calm_rowDrained d r).coresWf h
  have hreplan : ((s.rowDrained d r).replan d r).CoresWf := ⟨hdrained.cores, hdrained.threads⟩
  have hcopied := (s.calm_copied (A := InRow d r) lost d r).coresWf ((State.calm_remapRow _ d r).coresWf hreplan)
  have hstays (e : CoreIx) (he : (s.copied d r lost).present e = true) :
      ((s.rowDrained d r).core e).SameStand ((s.copied d r lost).core e) := by
    refine ((State.calm_remapRow _ d r).trans (s.calm_copied lost d r)).core hreplan e fun hgone => ?_
    have hremap : ((s.rowDrained d r).replan d r).present e = (s.copied d r lost).present e :=
      (((State.calm_remapRow _ d r).trans (s.calm_copied lost d r)).present e).symm
    rw [hremap, he] at hgone
    exact absurd hgone.2 (by decide)
  have hrests : ∀ e ∈ s.openCores d r lost, (s.copied d r lost).coreRests e := by
    intro e he n
    obtain ⟨hcore, hep⟩ := (mem_openCores lost).mp he
    have hstate : ((s.copied d r lost).thread ⟨e, n⟩).state = ((s.rowDrained d r).thread ⟨e, n⟩).state := (hstays e hep).state n
    have hrest := State.rowDrained_rest h (w := ⟨e, n⟩) (mem_rowThreads.mpr hcore)
    unfold Thread.Running at hrest ⊢
    rwa [hstate]
  have hopen := State.reopenAll_open hcopied hrests c
    ((mem_openCores lost).mpr ⟨⟨hrow, hp⟩, (s.copied_present lost d r c).trans ht⟩)
  have hcore := s.rowEnd_core lost d r c
  exact ⟨by rw [hcore]; exact hopen.1, fun n => by rw [State.thread, hcore]; exact hopen.2 n⟩

/-- A core whose column becomes absent holds nothing. -/
theorem State.rowEnd_absent (h : s.CoresWf) (hrow : InRow d r c) (ht : (s.rowEnd d r lost).present c = false) :
    (s.rowEnd d r lost).core c = {} := by
  have hremap := (s.rowEnd_present_eq lost d r c).symm.trans ht
  have hreplan := ((State.calm_remapRow (s.rowDrained d r) d r).present c).symm.trans hremap
  rw [State.rowEnd_core, State.reopenAll_core_other, State.copied_eq, State.copyPoison_core_other]
  · exact State.remapRow_absent ((s.calm_rowDrained d r).coresWf h) hrow hreplan
  · rintro k hk rfl
    rw [(mem_movedCols.mp hk).2.1] at hremap
    exact absurd hremap (by decide)
  · intro hc
    rw [mem_openCores, State.copied_present, ht] at hc
    exact absurd hc.2 (by decide)

/-- A word that the copy of a moved core finds uncorrectable is poisoned. -/
theorem State.rowEnd_lsPoisoned {e : BitVec 4 × Nat} (he : e ∈ lost) (hn : e.2 < 0x100000)
    (ht : (s.rowEnd d r lost).present (rowCore d r e.1.toNat) = true)
    (hcol : (s.rowEnd d r lost).physCol (rowCore d r e.1.toNat) ≠ s.physCol (rowCore d r e.1.toNat)) :
    (s.rowEnd d r lost).lsPoisoned (rowCore d r e.1.toNat) e.2 := by
  rw [State.rowEnd_present_eq] at ht
  rw [State.rowEnd_physCol_eq, ← (s.calm_rowDrained d r).physCol] at hcol
  rw [State.lsPoisoned, State.rowEnd_core]
  refine State.reopenAll_lsPoisoned ?_
  rw [State.copied_eq]
  exact State.copyPoison_lsPoisoned he (mem_movedCols.mpr ⟨e.1.isLt, ht, hcol.symm⟩) hn

end

/-! ### One bad column (R22) -/

theorem not_inRow {c : CoreIx} (h : coreDie c ≠ d ∨ coreRow c ≠ r) : ¬InRow d r c := fun hc => h.elim (· hc.1) (· hc.2)

/-- Where every thread of a row stands still, its drain is over. -/
theorem not_rowBusy (h : ∀ w, coreDie w.core = d → coreRow w.core = r →
    (s.thread w).state ≠ .run ∧ (s.thread w).state ≠ .wait ∧ (s.thread w).state ≠ .halt) : ¬s.rowBusy d r := by
  rintro ⟨w, ⟨hd, hr⟩, _, hrun⟩
  obtain ⟨h1, h2, h3⟩ := h w hd hr
  exact hrun.elim h1 (·.elim h2 h3)

/-- Settles O56: the plan of a row with one bad column skips that column. -/
theorem remapAroundOneBadCore : Obligations.RemapAroundOneBadCore := by
  intro s d r k limit lost hq hcalm hk hbad hrest
  have hends := drainEnd_ends hq lost (limit := limit) (hrest.symm.imp_left not_rowBusy) (fun hl i rs1 hi => not_inRow (hcalm hl i rs1 hi))
  obtain ⟨hlen, hplan⟩ := rowPlan_one hk
  refine ⟨_, hends, fun n => ?_⟩
  have hn : n.toNat < 16 := n.isLt
  have hrow := inRow_rowCore d r hn
  have hcol := coreCol_rowCore d r hn
  rw [rowCore_append] at hrow hcol
  dsimp only
  rw [State.rowEnd_present lost hrow, State.rowEnd_physCol lost hrow, badCols_one hk hbad, hlen, hcol, hplan _ hn]
  exact ⟨decide_eq_true hn, fun h => if_pos h, fun h => if_neg (by omega)⟩

/-! ### Three bad columns (R28) -/

/-- SZ_ROW_COLS of a die and a row. -/
theorem State.dictValue_rowCols (s : State) (d : DieIx) (r : BitVec 4) :
    s.dictValue (0x1120 + d.toNat) r.toNat = toBytes (Sparse.get 0xFFFF s.mod.rowCols (rowIx d r)).toNat 2 := by
  have hd := d.isLt
  have hlive : s.liveEntry (0x1120 + d.toNat) r.toNat = some (toBytes (Sparse.get 0xFFFF s.mod.rowCols (rowIx d r)).toNat 2) := by
    unfold State.liveEntry rowIx
    simp only [show ∀ k, k < 0x1120 → (0x1120 + d.toNat = k) = False from fun k hk => by simp; omega, if_false, Nat.reduceLT,
      Nat.add_sub_cancel_left, show (0x1120 ≤ 0x1120 + d.toNat ∧ 0x1120 + d.toNat ≤ 0x1123) = True by simp; omega, if_true]
  rw [State.dictValue, if_neg (by omega), hlive]
  rfl

/-- Settles O57: the plan of a row with three bad columns is empty. -/
theorem threeBadCoresTakeRowOffline : Obligations.ThreeBadCoresTakeRowOffline := by
  intro s d r i j k limit lost hcores hthreads hq hcalm hij hjk hk hbad hrest
  have hends := drainEnd_ends hq lost (limit := limit) (hrest.symm.imp_left not_rowBusy) (fun hl e rs1 he => not_inRow (hcalm hl e rs1 he))
  have hmem (n : Nat) (hn : n ∈ [i, j, k]) (hlt : n < 17) : n ∈ s.badCols d r := mem_badCols.mpr ⟨hlt, hbad n hn⟩
  have hthree := (three_le_length_iff (badCols_sorted s d r)).mpr
    ⟨i, j, k, hij, hjk, hmem i (by simp) (by omega), hmem j (by simp) (by omega), hmem k (by simp) hk⟩
  have hplan := rowPlan_offline hthree
  have hend := s.calm_rowEnd lost d r
  refine ⟨_, hends, ?_, fun n => ?_, fun w hw => ?_⟩
  · rw [State.dictValue_rowCols, hend.rowCols, State.replan, Sparse.get_put_same, hplan]
    decide
  · have hrow := inRow_rowCore d r n.isLt
    rw [rowCore_append] at hrow
    rw [State.rowEnd_present lost hrow, hplan]
    exact decide_eq_false (Nat.not_lt_zero _)
  · have hsame := hend.core ⟨hcores, hthreads⟩ w.core (not_inRow hw)
    exact ⟨hsame.state w.thr, (hend.present _).trans (State.replan_present_other (not_inRow hw)), hsame.fenced⟩

end Sys2Proof.Machine
end

section
/-! Containment (R440 to R449): monitor events, lockstep, the self-test of the checkers, and the row quiesce. -/

namespace Sys2Proof.Machine

variable {s t : State} {d : DieIx}

/-! ### Monitor events (R440, R443, R445) -/

/-- The words by which a statement says that a core stands stopped. -/
theorem State.Stopped.words {c : CoreIx} (h : s.Stopped t c) : (t.core c).fenced = true ∧ (t.core c).mq = [] ∧
    (∀ n, (t.thread ⟨c, n⟩).state = .fenced) ∧ ∀ q, (t.queue c q).opn = false ∧ (t.queue c q).epoch = (s.queue c q).epoch + 1 :=
  ⟨h.fenced, h.mq, h.state, fun q => by rw [h.queue q]; exact ⟨rfl, rfl⟩⟩

theorem State.DieHeld.words (h : s.DieHeld t d) : (t.die d).safehold = true ∧ ∀ c, coreDie c = d → s.present c = true → (s.core c).fenced = false →
    (t.core c).fenced = true ∧ (t.core c).mq = [] ∧ (∀ n, (t.thread ⟨c, n⟩).state = .fenced) ∧
    ∀ q, (t.queue c q).opn = false ∧ (t.queue c q).epoch = (s.queue c q).epoch + 1 :=
  ⟨h.safehold, fun c hc hp hf => (h.stopped c hc hp hf).words⟩

/-- The state on which a monitor event of a die puts it in SAFEHOLD. -/
def State.dieMonitored (s : State) (d : DieIx) : State := (s.endHolds (.die d)).modDie d (fun x => { x with monitor := true })

section
variable (hw : s.CoresWf) (hd : Sparse.wf {} s.dies = true)
include hw hd

theorem monitorEvent_die_holds (d : DieIx) : ∃ t, exec (.monitorEvent (.die d)) s = .next t ∧ (t.die d).monitor = true ∧ (t.die d).safehold = true ∧
    ((s.die d).safehold = false → s.DieHeld t d ∧ (s.boot.headStopped = false → t.LastEvent 0x8003)) := by
  have hends := s.calm_endHolds (A := fun _ => False) (.die d)
  have hdies : Sparse.wf {} (s.dieMonitored d).dies = true := State.diesWf_modDie (hends.diesWf hd) d _
  have hcores : (s.dieMonitored d).CoresWf := ⟨(hends.coresWf hw).cores, (hends.coresWf hw).threads⟩
  refine ⟨(s.dieMonitored d).safeDie d, monitorEvent_die s d, ?_, State.safeDie_safehold hdies d, fun h => ?_⟩
  · rw [State.safeDie_monitor hdies, State.dieMonitored, State.die_modDie]
  · have hsafe : ((s.dieMonitored d).die d).safehold = false := by
      rw [State.dieMonitored, State.die_modDie]
      exact (hends.die hd d).1.trans h
    exact ⟨(State.safeDie_held hcores hdies hsafe).from_same (hends.everyCore hw) hends.rowCols,
      fun hl => State.safeDie_event hsafe (hends.headStopped.trans hl)⟩

theorem monitorEvent_shared_holds (hl : s.boot.headStopped = false) (hm : s.boot.modSafe = false) :
    ∃ t, exec (.monitorEvent .shared) s = .next t ∧ t.boot.monShared = true ∧ t.boot.modSafe = true ∧ t.dict.ovlActive = 5 ∧
      (∀ d, s.DieHeld t d) ∧ t.LastEvent 0x8003 := by
  have hends := s.calm_endHolds (A := fun _ => False) .shared
  have hcores := hends.coresWf hw
  have hheld := State.safeModule_held (s := { s.endHolds .shared with boot := { (s.endHolds .shared).boot with monShared := true } })
    ⟨hcores.cores, hcores.threads⟩ (hends.diesWf hd) (by rw [hends.boot]; exact hm) (by rw [hends.boot]; exact hl)
  refine ⟨_, monitorEvent_shared s, ?_, ?_, hheld.overlay, fun d => (hheld.dies d).from_same (hends.everyCore hw) hends.rowCols, hheld.event⟩ <;>
    rw [hheld.boot]

omit hd in
/-- In a module that is in SAFEHOLD, a monitor event only ends the items in their DONE hold. -/
theorem monitorEvent_shared_again (hm : s.boot.modSafe = true) : ∃ t, exec (.monitorEvent .shared) s = .next t ∧ t.boot.monShared = true ∧
    ∀ w, (t.thread w).state = (s.thread w).state := by
  have hends := s.calm_endHolds (A := fun _ => False) .shared
  refine ⟨{ s.endHolds .shared with boot := { (s.endHolds .shared).boot with monShared := true } }, ?_, rfl,
    fun w => (hends.everyCore hw w.core).state w.thr⟩
  rw [monitorEvent_shared, State.safeModule, if_pos (.inl (by rw [hends.boot]; exact hm))]

/-! ### Lockstep (R447) -/

theorem lockstepMismatch_die (hd0 : d ≠ 0) (h : (s.die d).safehold = false) : ∃ t, exec (.lockstepMismatch d) s = .next t ∧
    s.DieHeld t d ∧ (s.boot.headStopped = false → t.LastEvent 0x8003) :=
  ⟨s.safeDie d, by rw [exec_lockstepMismatch, execLockstepMismatch, State.lockstep_die hd0], State.safeDie_held hw hd h, State.safeDie_event h⟩

end

/-! ### The self-test of the checkers (R441, R442) -/

section
variable (s)

theorem checkerFailed_core (c : CoreIx) : s.checkerFailed d (.core c) = (s.noteSelftest d 1 (s.coreId c).toNat).fenceCore c 0 Option.none := by
  simp only [State.checkerFailed, State.noteSelftest]
theorem checkerFailed_die (e : DieIx) : s.checkerFailed d (.die e) = (s.noteSelftest d 2 0).safeDie e := by
  simp only [State.checkerFailed, State.noteSelftest]
theorem checkerFailed_thaex (p : BitVec 4) :
    s.checkerFailed d (.thaex p) = subPorts.foldl (fun s j => s.portDown p j) ((s.noteSelftest d 3 0).countMod 0x805 1) := by
  simp only [State.checkerFailed, State.noteSelftest]
theorem checkerFailed_lockstep (e : DieIx) : s.checkerFailed d (.lockstep e) = (s.noteSelftest d 4 0).lockstep e := by
  simp only [State.checkerFailed, State.noteSelftest]

end

theorem State.noteSelftest_diesWf (hd : Sparse.wf {} s.dies = true) (d : DieIx) (kind core : Nat) : Sparse.wf {} (s.noteSelftest d kind core).dies = true :=
  (s.calm_noteSelftest (A := fun _ => False) d kind core).diesWf hd

theorem State.noteSelftest_headStopped (s : State) (d : DieIx) (kind core : Nat) :
    (s.noteSelftest d kind core).boot.headStopped = s.boot.headStopped :=
  (s.calm_noteSelftest (A := fun _ => False) d kind core).headStopped

/-- A core, and its column, are the same after SAFE_SELFTEST is written and its event sent. -/
structure State.SameCore (s t : State) (c : CoreIx) : Prop where
  coresWf : s.CoresWf → t.CoresWf
  stand : s.CoresWf → (s.core c).SameStand (t.core c)
  physCol : t.physCol c = s.physCol c

theorem State.Calm.sameCore (h : s.Calm (fun _ => False) t) (c : CoreIx) : s.SameCore t c := ⟨h.coresWf, fun hw => h.everyCore hw c, h.physCol c⟩

theorem State.SameCore.trans {u : State} {c : CoreIx} (h : s.SameCore t c) (h' : t.SameCore u c) : s.SameCore u c where
  coresWf hw := h'.coresWf (h.coresWf hw)
  stand hw := (h.stand hw).trans (h'.stand (h.coresWf hw))
  physCol := h'.physCol.trans h.physCol

theorem State.sameCore_selftest (s : State) (word : BitVec 128) (c : CoreIx) : s.SameCore { s with mod := { s.mod with selftest := word } } c :=
  ⟨fun hw => ⟨hw.cores, hw.threads⟩, fun _ => .refl _, rfl⟩

theorem State.sameCore_noteSelftest (s : State) (d : DieIx) (kind core : Nat) (c : CoreIx) : s.SameCore (s.noteSelftest d kind core) c :=
  (s.sameCore_selftest (s.selftestWord d kind core) c).trans ((s.calm_noteSelftest d kind core).sameCore c)

theorem checkerSelftest_core (hw : s.CoresWf) {c : CoreIx} (hc : coreDie c = d) (hr : (s.core c).retry = Option.none) :
    ∃ t, exec (.checkerSelftest d (some (.core c))) s = .next t ∧ (t.core c).fenced = true ∧
      272 * (coreDie c).toNat + 17 * (coreRow c).toNat + s.physCol c ∈ t.mod.badRun ∧
      ((s.core c).fenced = false → ∀ n, (t.thread ⟨c, n⟩).state = .fenced) ∧ t.mod.selftest = s.selftestWord d 1 (s.coreId c).toNat := by
  have hnote := s.sameCore_noteSelftest d 1 (s.coreId c).toNat c
  have hfenced := State.fenceCore_fenced (hnote.coresWf hw) c 0
  have hbad := hfenced.bad
  rw [hnote.physCol] at hbad
  have htest : s.testWaits (.core c) = false := by rw [State.testWaits, hr]; rfl
  refine ⟨_, checkerSelftest_fails (decide_eq_true hc) htest, ?_⟩
  rw [checkerFailed_core]
  exact ⟨hfenced.fenced, hbad, fun h => hfenced.state ((hnote.stand hw).fenced.trans h),
    hfenced.selftest.trans (s.noteSelftest_selftest _ _ _)⟩

theorem checkerSelftest_die (hd : Sparse.wf {} s.dies = true) : ∃ t, exec (.checkerSelftest d (some (.die d))) s = .next t ∧
    (t.die d).safehold = true ∧ t.mod.selftest = s.selftestWord d 2 0 := by
  refine ⟨_, checkerSelftest_fails (decide_eq_true rfl) rfl, ?_⟩
  rw [checkerFailed_die]
  exact ⟨State.safeDie_safehold (State.noteSelftest_diesWf hd d 2 0) d,
    (State.safeDie_selftest _ d).trans (s.noteSelftest_selftest d 2 0)⟩

theorem checkerSelftest_thaex {p : BitVec 4} (hp : portDie p = d) : ∃ t, exec (.checkerSelftest d (some (.thaex p))) s = .next t ∧
    (t.port p).up = 0 ∧ t.mod.selftest = s.selftestWord d 3 0 := by
  have hside := (State.aside_countMod (s.noteSelftest d 3 0) 0x805 1).trans (State.aside_portsDown _ p)
  refine ⟨_, checkerSelftest_fails (decide_eq_true hp) rfl, ?_⟩
  rw [checkerFailed_thaex]
  exact ⟨by rw [State.portsDown_up, if_pos rfl], hside.selftest.trans (s.noteSelftest_selftest d 3 0)⟩

theorem checkerSelftest_lockstep (hd : Sparse.wf {} s.dies = true) : ∃ t, exec (.checkerSelftest d (some (.lockstep d))) s = .next t ∧
    t.mod.selftest = s.selftestWord d 4 0 ∧ (d ≠ 0 → (t.die d).safehold = true) ∧ (d = 0 → t.boot.headStopped = true) := by
  have hword := s.noteSelftest_selftest d 4 0
  refine ⟨_, checkerSelftest_fails (decide_eq_true rfl) rfl, ?_⟩
  rw [checkerFailed_lockstep]
  by_cases h0 : d = 0
  · subst h0
    cases h : s.boot.headStopped with
    | true =>
      have hstop := (s.noteSelftest_headStopped 0 4 0).trans h
      rw [State.lockstep_stopped hstop]
      exact ⟨hword, fun h0 => absurd rfl h0, fun _ => hstop⟩
    | false =>
      obtain ⟨hstop, _, hself⟩ := State.lockstep_head ((s.noteSelftest_headStopped 0 4 0).trans h)
      exact ⟨hself.trans hword, fun h0 => absurd rfl h0, fun _ => hstop⟩
  · rw [State.lockstep_die h0]
    exact ⟨(State.safeDie_selftest _ d).trans hword, fun _ => State.safeDie_safehold (State.noteSelftest_diesWf hd d 4 0) d, fun h => absurd h h0⟩

/-! ### The row quiesce (R448, R449) -/

section
variable {p : Path} {val : BitVec 16}

theorem rowQuiesce_refused (h : s.writeCode p 0x4220 0 3 2 true ≠ 0) :
    exec (.rowQuiesce p val) s = .next (s.report p (s.writeCode p 0x4220 0 3 2 true)) := by
  rw [exec_rowQuiesce, execRowQuiesce, if_pos h]

theorem rowQuiesce_taken (h : s.writeCode p 0x4220 0 3 2 true = 0) : exec (.rowQuiesce p val) s =
    .next ((if (s.die (val.extractLsb' 8 2)).quiesce.isSome then s
      else s.modDie (val.extractLsb' 8 2) (fun x => { x with quiesce := some { row := val.extractLsb' 0 4 } })).report p 0) := by
  rw [exec_rowQuiesce, execRowQuiesce, if_neg (not_not_intro h)]

end

section
variable {r : BitVec 4} {limit : Bool} {lost : List (BitVec 4 × Nat)}

/-- The words of a plan: the good columns in ascending order, as many as there are logical columns, or none. -/
theorem rowPlan_words {P : Nat → Prop} (hP : ∀ k, k < 17 → (P k ↔ k ∈ s.badCols d r)) :
    (rowPlan (s.badCols d r)).length ≤ 16 ∧
    ((∃ i j k, i < j ∧ j < k ∧ k < 17 ∧ P i ∧ P j ∧ P k) → rowPlan (s.badCols d r) = []) ∧
    (¬(∃ i j k, i < j ∧ j < k ∧ k < 17 ∧ P i ∧ P j ∧ P k) → (rowPlan (s.badCols d r)).Pairwise (· < ·) ∧
      (∀ k ∈ rowPlan (s.badCols d r), k < 17 ∧ ¬P k) ∧
      (∀ k, k < 17 → ¬P k → k ∉ rowPlan (s.badCols d r) → (rowPlan (s.badCols d r)).length = 16 ∧ ∀ j ∈ rowPlan (s.badCols d r), j < k)) := by
  have hthree : 3 ≤ (s.badCols d r).length ↔ ∃ i j k, i < j ∧ j < k ∧ k < 17 ∧ P i ∧ P j ∧ P k := by
    rw [three_le_length_iff (badCols_sorted s d r)]
    constructor
    · rintro ⟨i, j, k, hij, hjk, hi, hj, hk⟩
      have hk17 := (mem_badCols.mp hk).1
      exact ⟨i, j, k, hij, hjk, hk17, (hP i (by omega)).mpr hi, (hP j (by omega)).mpr hj, (hP k hk17).mpr hk⟩
    · rintro ⟨i, j, k, hij, hjk, hk17, hi, hj, hk⟩
      exact ⟨i, j, k, hij, hjk, (hP i (by omega)).mp hi, (hP j (by omega)).mp hj, (hP k hk17).mp hk⟩
  refine ⟨rowPlan_length_le _, fun h => rowPlan_offline (hthree.mpr h), fun h => ?_⟩
  have hfew := fun h3 => h (hthree.mp h3)
  refine ⟨rowPlan_sorted hfew, fun k hk => ?_, fun k hk hgood hout => rowPlan_rest hfew hk (fun hb => hgood ((hP k hk).mpr hb)) hout⟩
  obtain ⟨hlt, hgood⟩ := rowPlan_good hfew hk
  exact ⟨hlt, fun hb => hgood ((hP k hlt).mp hb)⟩

/-- A drain that runs goes on. -/
theorem drainEnd_waits (hq : (s.die d).quiesce = some { row := r }) (hb : s.rowBusy d r) (hl : limit = false) :
    exec (.quiesceDrainEnd d ⟨limit, lost⟩) s = .next s := by
  rw [hl]
  exact drainEnd_busy hq lost hb

/-- A thread that ends in the C-cycle of the limit has ended before it. -/
theorem drainEnd_after_end {i : Iss} {rs1 : BitVec 5} {u : State} (hq : (s.die d).quiesce = some { row := r }) (hl : limit = true)
    (hp : s.pending = [.endThread i rs1]) (hi : InRow d r i.who.core) (hs : exec (.endThread i rs1) s = .next u)
    (hu : exec (.endThread i rs1) u = .next u) (hup : u.pending = s.pending) (huq : (u.die d).quiesce = (s.die d).quiesce) :
    exec (.quiesceDrainEnd d ⟨limit, lost⟩) s = exec (.quiesceDrainEnd d ⟨limit, lost⟩) u := by
  rw [hl, drainEnd_limit hq, drainEnd_limit (huq.trans hq), State.endsInTime_one hp hi hs, State.endsInTime_one (hup.trans hp) hi hu]

theorem State.rowEnd_rowMap (s : State) (d : DieIx) (r : BitVec 4) (lost : List (BitVec 4 × Nat)) :
    Sparse.get (List.range 16) (s.rowEnd d r lost).mod.rowMap (16 * d.toNat + r.toNat) = rowPlan (s.badCols d r) := by
  rw [(s.calm_rowEnd lost d r).rowMap]
  exact State.replan_rowMap

end

/-- Settles O43: what each containment event leaves, and the plan and the cores of a row that is mapped anew. -/
theorem containment : Obligations.Containment := by
  refine ⟨fun s d hcores hdies hthreads => ?_, fun s p val d limit lost => ?_⟩
  · have hw : s.CoresWf := ⟨hcores, hthreads⟩
    refine ⟨?_, fun hl hm => ?_, monitorEvent_shared_again hw, rfl, rfl, fun hd0 hsafe => ?_, fun hl => ?_, fun hl => ?_, rfl,
      fun k hk => checkerSelftest_passes (.inl hk), fun c _ hr => ?_, fun c => checkerSelftest_core hw, checkerSelftest_die hdies,
      fun p => checkerSelftest_thaex, checkerSelftest_lockstep hdies⟩
    · obtain ⟨t, ht, hmon, hsafe, hheld⟩ := monitorEvent_die_holds hw hdies d
      exact ⟨t, ht, hmon, hsafe, fun h => (hheld h).imp_left State.DieHeld.words⟩
    · obtain ⟨t, ht, hmon, hsafe, hovl, hheld, hlast⟩ := monitorEvent_shared_holds hw hdies hl hm
      exact ⟨t, ht, hmon, hsafe, hovl, fun d => (hheld d).words, hlast⟩
    · obtain ⟨t, ht, hheld, hlast⟩ := lockstepMismatch_die hw hdies hd0 hsafe
      exact ⟨t, ht, hheld.words, hlast⟩
    · obtain ⟨hstop, hup, _⟩ := State.lockstep_head hl
      exact ⟨s.lockstep 0, rfl, hstop, hup⟩
    · rw [exec_lockstepMismatch, execLockstepMismatch, State.lockstep_stopped hl]
    · exact checkerSelftest_passes (.inr (Option.isSome_iff_ne_none.mpr hr))
  · refine ⟨rowQuiesce_refused, fun h hq => ?_, fun h hq => ?_, fun hq => ?_, fun r hq => ?_⟩
    · rw [rowQuiesce_taken h, if_pos (Option.isSome_iff_ne_none.mpr hq)]
    · rw [rowQuiesce_taken h, if_neg (by rw [hq]; decide)]
    · rw [exec_quiesceDrainEnd, execQuiesceDrainEnd, hq]
    · refine ⟨drainEnd_waits hq, fun i rs1 u hl hp hi hs hu => drainEnd_after_end hq hl hp hi hs hu, fun hb hcalm hcores hthreads => ?_⟩
      have hw : s.CoresWf := ⟨hcores, hthreads⟩
      obtain ⟨hlen, hoff, hon⟩ := rowPlan_words (s := s) (d := d) (r := r)
        (P := fun k => 272 * d.toNat + 17 * r.toNat + k ∈ s.mod.badFuse ∨ 272 * d.toNat + 17 * r.toNat + k ∈ s.mod.badRun)
        fun k hk => by rw [mem_badCols, and_iff_right hk]
      refine ⟨s.rowEnd d r lost, _, drainEnd_ends hq lost hb hcalm, s.rowEnd_quiesce lost d r, s.rowEnd_rowMap d r lost, hlen, hoff, hon,
        fun c hc => ?_, fun c hc ht hp => State.rowEnd_open lost hw hc hp ht, fun c hc => State.rowEnd_absent lost hw hc,
        fun e he hn ht hcol => State.rowEnd_lsPoisoned lost he hn ht hcol⟩
      rw [State.rowEnd_present lost hc, decide_eq_true_eq]

end Sys2Proof.Machine
end

section
/-! Power stages and secure boot: what stays when the main domain switches off, and when it switches on (R506 to R511, R526 to R529). -/

namespace Sys2Proof.Machine

variable {s t : State}

/-! ### Memory that reads zero -/

/-- A change of every entry gives each key a property that the default and every change have. -/
theorem Sparse.get_mapVals_all {α : Type} [DecidableEq α] {d : α} {f : Nat → α → α} {P : α → Prop} (hd : P d) (hf : ∀ k x, P (f k x)) (m : Sparse α) (k : Nat) :
    P (Sparse.get d (Sparse.mapVals d f m) k) := by
  induction m with
  | nil => exact hd
  | cons e m ih =>
    obtain ⟨j, v⟩ := e
    rw [Sparse.mapVals]
    split
    · exact ih
    · rw [Sparse.get]
      split
      · exact hf j v
      · exact ih

/-- A die whose Loft, HBM and DDR hold nothing. -/
def Die.blank (x : Die) : Prop := x.loft = [] ∧ x.hbm = [] ∧ x.ddr = []

theorem State.byteAt_congr (hc : t.cores = s.cores) (hd : t.dies = s.dies) (l : Loc) : t.byteAt l = s.byteAt l := by
  cases l <;> simp only [State.byteAt, State.readLoc, State.core, State.die, hc, hd]

theorem State.byteAt_blank (hc : s.cores = []) (hd : ∀ d, (s.die d).blank) (l : Loc) : s.byteAt l = 0 := by
  cases l with
  | ls c o => simp only [State.byteAt, State.readLoc, State.core, hc]; rfl
  | loft d o => rw [State.byteAt, State.readLoc, (hd d).1]; rfl
  | hbm d o => rw [State.byteAt, State.readLoc, (hd d).2.1]; rfl
  | ddr d o => rw [State.byteAt, State.readLoc, (hd d).2.2]; rfl
  | ctl _ _ => rfl
  | remote _ _ => rfl

/-! ### The main domain without power (R506, R511) -/

theorem State.mainReset_blank (s : State) (d : DieIx) : (s.mainReset.die d).blank :=
  Sparse.get_mapVals_all (P := Die.blank) ⟨rfl, rfl, rfl⟩ (fun _ _ => ⟨rfl, rfl, rfl⟩) s.dies d.toNat

theorem State.mainReset_byteAt (s : State) (l : Loc) : s.mainReset.byteAt l = 0 := State.byteAt_blank rfl s.mainReset_blank l

theorem State.mainReset_die (hd : Sparse.wf {} s.dies = true) (d : DieIx) : s.mainReset.die d = (s.die d).groomPart :=
  Sparse.get_mapVals (f := fun _ (x : Die) => x.groomPart) hd (fun _ => rfl) d.toNat

/-- The main domain has lost its contents; the Grooms' own words of each die stay. -/
def State.Emptied (s t : State) : Prop :=
  t.cores = [] ∧ t.teams = [] ∧ t.writes = [] ∧ t.acks = [] ∧ t.reads = [] ∧ t.msgs = [] ∧ t.contribs = [] ∧ t.relays = [] ∧ t.fab = {} ∧
    (∀ l, t.byteAt l = 0) ∧ ∀ d, (t.die d).errlog = (s.die d).errlog ∧ (t.die d).ddrBytes = (s.die d).ddrBytes ∧ (t.die d).safehold = (s.die d).safehold

theorem State.mainReset_emptied (hd : Sparse.wf {} s.dies = true) : s.Emptied s.mainReset := by
  refine ⟨rfl, rfl, rfl, rfl, rfl, rfl, rfl, rfl, rfl, s.mainReset_byteAt, fun d => ?_⟩
  rw [State.mainReset_die hd]
  exact ⟨rfl, rfl, rfl⟩

theorem State.Emptied.withBoot (h : s.Emptied t) (b : Boot) : s.Emptied { t with boot := b } := by
  obtain ⟨hcores, hteams, hwrites, hacks, hreads, hmsgs, hcontribs, hrelays, hfab, hbytes, hdies⟩ := h
  exact ⟨hcores, hteams, hwrites, hacks, hreads, hmsgs, hcontribs, hrelays, hfab,
    fun l => (State.byteAt_congr rfl rfl l).trans (hbytes l), hdies⟩

/-- The main domain is off, and the boot words show a stage. -/
def State.Off (s t : State) (stage : BitVec 8) : Prop :=
  s.Emptied t ∧ t.boot.mainOn = false ∧ t.boot.rails = false ∧ t.boot.stage = stage ∧ t.boot.clocks = false

theorem State.mainOff_off (hd : Sparse.wf {} s.dies = true) (stage : BitVec 8) : s.Off (s.mainOff stage) stage :=
  ⟨(State.mainReset_emptied hd).withBoot _, rfl, rfl, rfl, rfl⟩

/-- Words of the boot domain that do not say whether the main domain is on may change. -/
theorem State.Off.withBoot {stage : BitVec 8} (h : s.Off t stage) {b : Boot} (hm : b.mainOn = t.boot.mainOn) (hr : b.rails = t.boot.rails)
    (hs : b.stage = t.boot.stage) (hc : b.clocks = t.boot.clocks) : s.Off { t with boot := b } stage := by
  obtain ⟨hempty, hmain, hrails, hstage, hclocks⟩ := h
  exact ⟨hempty.withBoot b, hm.trans hmain, hr.trans hrails, hs.trans hstage, hc.trans hclocks⟩

theorem State.endItems_none (h : s.rings = []) (p : BitVec 6 → Ledger → Bool) (status cause : Nat) (loc : BitVec 32) : s.endItems p status cause loc = s := by
  rw [State.endItems, State.ledgerSlots, h]
  rfl

theorem railFault_off (hd : Sparse.wf {} s.dies = true) {rail : BitVec 16} (hm : s.boot.mainOn = true) (hst : s.boot.stage.toNat < 6) :
    ∃ t, exec (.railFault rail) s = .next t ∧ s.Off t 8 ∧ t.boot.fail = BitVec.ofNat 32 (rail.toNat * 256 + s.boot.stage.toNat) := by
  refine ⟨_, ?_, (State.mainOff_off hd 8).withBoot (b := { (s.mainOff 8).boot with fail := BitVec.ofNat 32 (rail.toNat * 256 + s.boot.stage.toNat) })
    rfl rfl rfl rfl, rfl⟩
  rw [exec_railFault, execRailFault, if_neg (by rw [hm]; simp; omega)]

theorem railFault_stays {rail : BitVec 16} (h : s.boot.mainOn = false ∨ 6 ≤ s.boot.stage.toNat) : exec (.railFault rail) s = .next s := by
  rw [exec_railFault, execRailFault, if_pos (by simpa using h)]

theorem inputUndervolt_off (hd : Sparse.wf {} s.dies = true) (hm : s.boot.mainOn = true) :
    ∃ t, exec .inputUndervolt s = .next t ∧ s.Off t s.standbyStage :=
  ⟨_, by rw [exec_inputUndervolt, execInputUndervolt, if_pos hm], State.mainOff_off hd _⟩

theorem inputUndervolt_stays (hm : s.boot.mainOn = false) : exec .inputUndervolt s = .next s := by
  rw [exec_inputUndervolt, execInputUndervolt, if_neg (by rw [hm]; decide)]

/-- Where no item is to end, PWR_EN only switches the main domain off. -/
theorem pwrEnDeassert_off (hd : Sparse.wf {} s.dies = true) (h : s.boot.mainOn = false ∨ s.rings = []) :
    ∃ t, exec .pwrEnDeassert s = .next t ∧ s.Off t s.standbyStage ∧ t.boot.pwrEn = false ∧ t.boot.tripped = false := by
  have hitems : (if s.boot.mainOn then s.endAllItems else s) = s := by
    rcases h with hm | hr
    · exact if_neg (by rw [hm]; decide)
    · rw [State.endAllItems, State.endItems_none hr, ite_self]
  refine ⟨_, ?_, (State.mainOff_off hd s.standbyStage).withBoot
    (b := { (s.mainOff s.standbyStage).boot with pwrEn := false, tripped := false }) rfl rfl rfl rfl, rfl, rfl⟩
  rw [exec_pwrEnDeassert, execPwrEnDeassert, hitems]

/-! ### The main domain switches on (R508, R509) -/

/-- Whether the boot words let the main domain start. -/
def Boot.starts (b : Boot) : Bool := b.pwrEn && b.refClk && decide (b.stage = 2) && !b.tripped

theorem State.tryMain_eq (s : State) : s.tryMain = { s with boot := { s.boot with mainOn := s.boot.mainOn || s.boot.starts } } := by
  have hstarts : (s.boot.pwrEn ∧ s.boot.stage = 2 ∧ s.boot.refClk ∧ ¬s.boot.tripped) ↔ s.boot.starts = true := by
    simp [Boot.starts]
    tauto
  unfold State.tryMain
  by_cases h : s.boot.starts = true
  · rw [if_pos (hstarts.mpr h), h, Bool.or_true]
  · rw [if_neg (fun h' => h (hstarts.mp h')), Bool.eq_false_iff.mpr h, Bool.or_false]

theorem referenceClockPresent_eq (s : State) : exec .referenceClockPresent s = .next { s with
    boot := { s.boot with refClk := true, mainOn := s.boot.mainOn || (s.boot.pwrEn && true && decide (s.boot.stage = 2) && !s.boot.tripped) } } := by
  rw [exec_referenceClockPresent, execReferenceClockPresent, State.tryMain_eq]
  rfl

theorem pwrEnAssert_eq (h : s.boot.aon = true) : exec .pwrEnAssert s = .next { s with
    boot := { s.boot with pwrEn := true, mainOn := s.boot.mainOn || (true && s.boot.refClk && decide (s.boot.stage = 2) && !s.boot.tripped) } } := by
  rw [exec_pwrEnAssert, execPwrEnAssert, if_neg (by rw [h]; decide), State.tryMain_eq]
  rfl

theorem pwrEnAssert_stays (h : s.boot.aon = false) : exec .pwrEnAssert s = .next s := by
  rw [exec_pwrEnAssert, execPwrEnAssert, if_pos (by rw [h]; decide)]

/-! ### The ROM (R508, R526 to R529) -/

theorem standbyStart_stays (ha : s.boot.aon = true) (hs : s.boot.stage ≠ 1) : exec .standbyStart s = .next s := by
  rw [exec_standbyStart, execStandbyStart, if_pos ⟨ha, hs⟩]

theorem standbyStart_eq (h : s.boot.aon = false ∨ s.boot.stage = 1) : exec .standbyStart s = .next { s with
    boot := { s.boot with aon := true, stage := 1, headStopped := false }, dict := s.dict.cold, rings := [] } := by
  rw [exec_standbyStart, execStandbyStart, if_neg (by rintro ⟨ha, hs⟩; rcases h with h | h <;> simp_all)]

theorem firmwareVerify_stays {a b : Option Image} (h : s.boot.aon = false ∨ s.boot.stage ≠ 1) : exec (.firmwareVerify a b) s = .next s := by
  rw [exec_firmwareVerify, execFirmwareVerify, if_pos (by simpa using h)]

/-- The bank that the ROM chooses. -/
theorem State.bootBank_eq (s : State) : s.bootBank =
    if ((s.bankAt s.boot.pointer).isSome && decide (s.boot.attempts < 2)) = true then some s.boot.pointer
    else if (s.bankAt (s.boot.pointer + 1)).isSome = true then some (s.boot.pointer + 1) else Option.none := by
  simp only [State.bootBank, Bool.and_eq_true, decide_eq_true_eq]

/-- The banks hold what the ROM accepts of them. -/
def State.withBanks (s : State) (a b : Option Image) : State := { s with boot := { s.boot with bankA := s.verified a, bankB := s.verified b } }

theorem State.bankAt_withBanks (s : State) (a b : Option Image) (k : BitVec 1) : (s.withBanks a b).bankAt k = s.verified (if k = 0 then a else b) :=
  (apply_ite s.verified _ _ _).symm

section
variable (ha : s.boot.aon = true) (hs : s.boot.stage = 1) (a b : Option Image)
include ha hs

/-- The ROM boots a bank it accepts. -/
theorem firmwareVerify_boots {k : BitVec 1} (hk : (s.withBanks a b).bootBank = some k) :
    exec (.firmwareVerify a b) s = .next ({ s.withBanks a b with boot := { (s.withBanks a b).boot with booted := k, stage := 2 } } : State).tryMain := by
  rw [exec_firmwareVerify, execFirmwareVerify, if_neg (by simp [ha, hs])]
  simp only [State.withBanks] at hk ⊢
  rw [hk]

/-- Without one it stays in RECOVERY. -/
theorem firmwareVerify_recovers (hk : (s.withBanks a b).bootBank = Option.none) :
    exec (.firmwareVerify a b) s = .next { s.withBanks a b with boot := { (s.withBanks a b).boot with stage := 7 } } := by
  rw [exec_firmwareVerify, execFirmwareVerify, if_neg (by simp [ha, hs])]
  simp only [State.withBanks] at hk ⊢
  rw [hk]

end

/-- Whether the ROM boots the bank of the pointer, or the other. -/
def State.bootsFirst (s : State) (a b : Option Image) : Bool :=
  (s.verified (if s.boot.pointer = 0 then a else b)).isSome && decide (s.boot.attempts < 2)

def State.bootsSecond (s : State) (a b : Option Image) : Bool :=
  !s.bootsFirst a b && (s.verified (if s.boot.pointer + 1 = 0 then a else b)).isSome

theorem State.bootBank_withBanks (s : State) (a b : Option Image) : (s.withBanks a b).bootBank =
    if s.bootsFirst a b = true then some s.boot.pointer else if s.bootsSecond a b = true then some (s.boot.pointer + 1) else Option.none := by
  rw [State.bootBank_eq, State.bankAt_withBanks, State.bankAt_withBanks]
  cases h : s.bootsFirst a b with
  | true => exact if_pos h
  | false =>
    rw [State.bootsSecond, h, Bool.not_false, Bool.true_and, if_neg Bool.false_ne_true]
    exact if_neg (Bool.eq_false_iff.mp h)

/-- What FIRMWARE_VERIFY leaves while the ROM runs. -/
theorem firmwareVerify_holds (ha : s.boot.aon = true) (hs : s.boot.stage = 1) (a b : Option Image) :
    ∃ t, exec (.firmwareVerify a b) s = .next t ∧ t.boot.bankA = s.verified a ∧ t.boot.bankB = s.verified b ∧
      (s.bootsFirst a b = true → t.boot.booted = s.boot.pointer ∧ t.boot.stage = 2) ∧
      (s.bootsSecond a b = true → t.boot.booted = s.boot.pointer + 1 ∧ t.boot.stage = 2) ∧
      (s.bootsFirst a b = false → s.bootsSecond a b = false → t.boot.stage = 7) ∧
      t.boot.mainOn = (s.boot.mainOn || ((s.bootsFirst a b || s.bootsSecond a b) &&
        (s.boot.pwrEn && s.boot.refClk && decide ((2 : BitVec 8) = 2) && !s.boot.tripped))) := by
  have hbank := s.bootBank_withBanks a b
  cases h1 : s.bootsFirst a b with
  | true =>
    have h2 : s.bootsSecond a b = false := by rw [State.bootsSecond, h1]; rfl
    rw [h1, if_pos rfl] at hbank
    refine ⟨_, firmwareVerify_boots ha hs a b hbank, ?_⟩
    rw [State.tryMain_eq, h2]
    exact ⟨rfl, rfl, fun _ => ⟨rfl, rfl⟩, fun h => absurd h (by decide), fun h => absurd h (by decide), rfl⟩
  | false =>
    cases h2 : s.bootsSecond a b with
    | true =>
      rw [h1, h2, if_neg (by decide), if_pos rfl] at hbank
      refine ⟨_, firmwareVerify_boots ha hs a b hbank, ?_⟩
      rw [State.tryMain_eq]
      exact ⟨rfl, rfl, fun h => absurd h (by decide), fun _ => ⟨rfl, rfl⟩, fun _ h => absurd h (by decide), rfl⟩
    | false =>
      rw [h1, h2, if_neg (by decide), if_neg (by decide)] at hbank
      refine ⟨_, firmwareVerify_recovers ha hs a b hbank, rfl, rfl, fun h => absurd h (by decide), fun h => absurd h (by decide), fun _ _ => rfl, ?_⟩
      exact (Bool.or_false _).symm

end Sys2Proof.Machine
end

section
/-! Cold reset: what the remap of every row and the announcement leave of the state at its start (R19, R418, R477, R507, R509, R521, R534). -/

namespace Sys2Proof.Machine

variable {s t u : State}

/-! ### What a remap leaves alone -/

/-- Nothing differs but the cores, the tables of the remap, the size table's generation, and the events. -/
def State.Remapping (s t : State) : Prop :=
  t = { s with cores := t.cores, outbox := t.outbox,
               mod := { s.mod with rowMap := t.mod.rowMap, rowCols := t.mod.rowCols, szGen := t.mod.szGen },
               dict := { s.dict with evtSeq := t.dict.evtSeq, evtLog := t.dict.evtLog, evtOvf := t.dict.evtOvf, emerg := t.dict.emerg } }

namespace State.Remapping

theorem refl (s : State) : s.Remapping s := rfl

theorem trans (h : s.Remapping t) (h' : t.Remapping u) : s.Remapping u := by
  unfold State.Remapping at h
  exact Eq.trans h' (by rw [h])

theorem foldl {γ : Type} {f : State → γ → State} {l : List γ} (h : ∀ s a, State.Remapping s (f s a)) : s.Remapping (l.foldl f s) :=
  foldl_invariant (s.Remapping ·) (refl s) (fun t a _ ht => ht.trans (h t a))

theorem ite {p : Prop} [Decidable p] (ht : s.Remapping t) (hu : s.Remapping u) : s.Remapping (if p then t else u) := by
  split
  · exact ht
  · exact hu

theorem boot (h : s.Remapping t) : t.boot = s.boot := by rw [h]

theorem dict (h : s.Remapping t) : t.dict.vals = s.dict.vals ∧ t.dict.ownSeq = s.dict.ownSeq ∧ t.dict.ovlActive = s.dict.ovlActive := by
  rw [h]
  exact ⟨rfl, rfl, rfl⟩

theorem transit (h : s.Remapping t) : t.rings = s.rings ∧ t.teams = s.teams ∧ t.writes = s.writes ∧ t.reads = s.reads ∧ t.msgs = s.msgs := by
  rw [h]
  exact ⟨rfl, rfl, rfl, rfl, rfl⟩

theorem time (h : s.Remapping t) : t.time = s.time := by rw [h]

theorem far (h : s.Remapping t) : t.far = s.far := by rw [h]

theorem badFuse (h : s.Remapping t) : t.mod.badFuse = s.mod.badFuse := by rw [h]

theorem modules (h : s.Remapping t) : t.mod.modules = s.mod.modules := by rw [h]

theorem id (h : s.Remapping t) : t.mod.id = s.mod.id := by rw [h]

end State.Remapping

theorem State.remapping_modCore (s : State) (c : CoreIx) (f : Core → Core) : s.Remapping (s.modCore c f) := rfl

theorem State.remapping_dropCol (s : State) (c : CoreIx) : s.Remapping (s.dropCol c) := rfl

theorem State.remapping_replan (s : State) (d : DieIx) (r : BitVec 4) : s.Remapping (s.replan d r) := rfl

theorem State.remapping_remapRow (s : State) (d : DieIx) (r : BitVec 4) : s.Remapping (s.remapRow d r) := by
  rw [State.remapRow_eq]
  exact (s.remapping_replan d r).trans (.foldl fun t k => t.remapping_dropCol _)

theorem State.remapping_remapAll (s : State) : s.Remapping s.remapAll := .foldl fun t r => t.remapping_remapRow r.1 r.2

theorem State.remapping_splitDefault (s : State) (cs : List CoreIx) : s.Remapping (s.splitDefault cs) :=
  .ite (.refl s) (.foldl fun t c => t.remapping_modCore c _)

theorem State.remapping_event (s : State) (code : Nat) (d : DieIx) (arg v : Nat) : s.Remapping (s.event code d arg v) := .ite (.refl s) rfl

theorem State.remapping_nextGeneration (s : State) : s.Remapping { s with mod := { s.mod with szGen := s.mod.szGen + 1 } } := rfl

theorem State.remapping_sizeChanged (s : State) : s.Remapping s.sizeChanged := s.remapping_nextGeneration.trans (State.remapping_event _ _ _ _ _)

theorem State.remapping_remapped (s : State) : s.Remapping s.remapped := by
  have h := s.remapping_remapAll.trans (State.remapping_splitDefault _ (allDies.flatMap dieCores))
  exact .ite h (h.trans (State.remapping_sizeChanged _))

/-! ### The state at the start of a cold reset -/

/-- The bank that a cold reset boots (R529). -/
def State.coldBank (s : State) : BitVec 1 := s.bootBank.getD s.boot.booted

/-- The main domain is reset, and what flash and fuses hold is loaded. -/
def State.coldStart (s : State) : State :=
  { s.mainReset with
    dies := Sparse.mapVals {} (fun _ (x : Die) => ({ monitor := x.monitor, ddrBytes := x.ddrBytes } : Die)) s.mainReset.dies
    dict := s.dict.cold
    rings := []
    far := { recs := loadRecords s.far.flash s.time, flash := s.far.flash }
    mod := s.mod.cold
    boot := (s.mainReset.boot.cold s.coldBank).counterResume
    time := 0 }

theorem State.coldReset_eq (s : State) : s.coldReset =
    if (s.mod.modules, s.mod.id) = (s.coldStart.remapped.mod.modules, s.coldStart.remapped.mod.id) then s.coldStart.remapped
    else s.coldStart.remapped.sizeChanged := rfl

theorem State.remapping_coldReset (s : State) : s.coldStart.Remapping s.coldReset := by
  rw [State.coldReset_eq]
  exact .ite (State.remapping_remapped _) ((State.remapping_remapped _).trans (State.remapping_sizeChanged _))

/-! ### Its words -/

theorem Boot.counterResume_words (b : Boot) : b.counterResume = { b with attCount := b.counterResume.attCount, attFuses := b.counterResume.attFuses } := by
  unfold Boot.counterResume
  split <;> rfl

theorem Boot.counterResume_stored {b : Boot} {v : Nat} (h : b.attStored = some v) :
    b.counterResume.attCount = max v (b.attFuses * 2 ^ 28) ∧ b.counterResume.attFuses = b.attFuses := by
  rw [Boot.counterResume, h]
  exact ⟨rfl, rfl⟩

theorem Boot.counterResume_lost {b : Boot} (h : b.attStored = Option.none) :
    b.counterResume.attCount = b.attFuses * 2 ^ 28 ∧ b.counterResume.attFuses = b.attFuses + 1 := by
  rw [Boot.counterResume, h]
  exact ⟨rfl, rfl⟩

/-- A record without its VALID bit. -/
theorem extract_below_valid (x : BitVec 256) : (x.extractLsb' 0 255).zeroExtend 256 = x &&& ~~~((1 : BitVec 256) <<< 255) := by
  refine BitVec.eq_of_getLsbD_eq fun i hi => ?_
  simp only [BitVec.truncate_eq_setWidth, BitVec.getLsbD_setWidth, BitVec.getLsbD_extractLsb', BitVec.getLsbD_and, BitVec.getLsbD_not, BitVec.getLsbD_shiftLeft]
  by_cases h : i < 255
  · simp [hi, h]
  · obtain rfl : i = 255 := by omega
    simp

theorem loadRecords_eq (flash : Sparse (BitVec 256)) (now : Nat) : loadRecords flash now =
    flash.map (fun e => (e.1, if Config.flashFails e.1 now then e.2 &&& ~~~((1 : BitVec 256) <<< 255) else e.2)) := by
  refine List.map_congr_left fun e _ => ?_
  rw [extract_below_valid]
  split <;> rfl

/-- The bank by the words that show which banks hold an image. -/
theorem State.coldBank_eq (s : State) : s.coldBank =
    if (s.bankAt s.boot.pointer).isSome = true ∧ s.boot.attempts < 2 then s.boot.pointer
    else if (s.bankAt (s.boot.pointer + 1)).isSome = true then s.boot.pointer + 1 else s.boot.booted := by
  unfold State.coldBank State.bootBank
  dsimp only
  split
  · rfl
  · split <;> rfl

theorem State.coldStart_boot (s : State) : s.coldStart.boot = (s.mainReset.boot.cold s.coldBank).counterResume := rfl

theorem State.coldStart_headStopped (s : State) : s.coldStart.boot.headStopped = false := by
  rw [State.coldStart_boot, Boot.counterResume_words]
  rfl

theorem State.coldStart_mod (s : State) : s.coldStart.mod = s.mod.cold := rfl

/-- SZ_MODULES and the module ID at their defaults are announced if they were others. -/
theorem State.coldReset_announced (h : s.mod.modules ≠ 1 ∨ s.mod.id ≠ 0) :
    ∃ e, s.coldReset.dict.evtLog.getLast? = some e ∧ e.extractLsb' 176 16 = (0x0001 : BitVec 16) := by
  have hremap := s.coldStart.remapping_remapped
  have hdiffer : ¬(s.mod.modules, s.mod.id) = (s.coldStart.remapped.mod.modules, s.coldStart.remapped.mod.id) := by
    rw [hremap.modules, hremap.id, s.coldStart_mod, Prod.mk.injEq]
    exact fun hs => h.elim (· hs.1) (· hs.2)
  rw [State.coldReset_eq, if_neg hdiffer]
  refine State.event_last ?_ 0x0001 0 _ 0
  exact (congrArg Boot.headStopped hremap.boot).trans s.coldStart_headStopped

/-- What a cold reset leaves, with the bank it boots. -/
def State.ColdWords (s t : State) (bank : BitVec 1) : Prop :=
  t.boot.stage = 4 ∧ t.boot.resetN = true ∧ t.boot.hostUp = true ∧ t.boot.clocks = true ∧ t.boot.headStopped = false ∧ t.boot.modSafe = false ∧ t.time = 0 ∧
    t.boot.booted = bank ∧ t.boot.attempts = (if bank = s.boot.pointer then s.boot.attempts + 1 else s.boot.attempts) ∧ t.dict.vals = s.dict.flash ∧
    t.dict.ownSeq = s.dict.flashSeq ∧ t.dict.ovlActive = 0 ∧ t.rings = [] ∧ t.teams = [] ∧ t.writes = [] ∧ t.reads = [] ∧ t.msgs = [] ∧
    t.mod.badFuse = s.mod.badFuse ∧
    t.far.recs = s.far.flash.map (fun e => (e.1, if Config.flashFails e.1 s.time then e.2 &&& ~~~((1 : BitVec 256) <<< 255) else e.2)) ∧
    t.mod.modules = 1 ∧ t.mod.id = 0 ∧
    (s.mod.modules ≠ 1 ∨ s.mod.id ≠ 0 → ∃ e ∈ t.dict.evtLog.getLast?, e.extractLsb' 176 16 = (0x0001 : BitVec 16)) ∧
    (∀ v, s.boot.attStored = some v → t.boot.attCount = max v (s.boot.attFuses * 2 ^ 28) ∧ t.boot.attFuses = s.boot.attFuses) ∧
    (s.boot.attStored = Option.none → t.boot.attCount = s.boot.attFuses * 2 ^ 28 ∧ t.boot.attFuses = s.boot.attFuses + 1)

/-- The boot words after a cold reset. -/
theorem State.coldReset_boot (s : State) : s.coldReset.boot = (s.mainReset.boot.cold s.coldBank).counterResume :=
  s.remapping_coldReset.boot.trans s.coldStart_boot

theorem State.coldReset_words (hr : s.boot.resetN = true) : s.ColdWords s.coldReset s.coldBank := by
  have h := s.remapping_coldReset
  obtain ⟨hvals, hseq, hovl⟩ := h.dict
  obtain ⟨hrings, hteams, hwrites, hreads, hmsgs⟩ := h.transit
  have hboot := s.coldReset_boot
  have hwords := hboot.trans (Boot.counterResume_words _)
  refine ⟨by rw [hwords]; rfl, by rw [hwords]; exact hr, by rw [hwords]; rfl, by rw [hwords]; rfl, by rw [hwords]; rfl, by rw [hwords]; rfl, h.time,
    by rw [hwords]; rfl, by rw [hwords]; rfl, hvals, hseq, hovl, hrings, hteams, hwrites, hreads, hmsgs, h.badFuse, ?_, h.modules, h.id,
    s.coldReset_announced, fun v hv => ?_, fun hv => ?_⟩
  · rw [h.far, ← loadRecords_eq]
    rfl
  · rw [hboot]
    exact Boot.counterResume_stored hv
  · rw [hboot]
    exact Boot.counterResume_lost hv

/-! ### The release of RESET_N, and good rails (R507, R509, R521, R567) -/

/-- The bank that a cold reset boots, by the words that show which banks hold an image. -/
theorem State.coldReset_words_of (hr : s.boot.resetN = true) : s.ColdWords s.coldReset
    (if (s.bankAt s.boot.pointer).isSome = true ∧ s.boot.attempts < 2 then s.boot.pointer
     else if (s.bankAt (s.boot.pointer + 1)).isSome = true then s.boot.pointer + 1 else s.boot.booted) := by
  rw [← s.coldBank_eq]
  exact State.coldReset_words hr

theorem coldReset_stays (h : s.boot.aon = false) : exec .coldReset s = .next s := by
  rw [exec_coldReset, execColdReset, if_pos (by rw [h]; decide)]

/-- RESET_N goes high. -/
def State.released (s : State) : State := { s with boot := { s.boot with resetN := true } }

theorem coldReset_runs (ha : s.boot.aon = true) (hr : s.boot.rails = true) (hs : s.boot.stage = 3) : exec .coldReset s = .next s.released.coldReset := by
  rw [exec_coldReset, execColdReset, if_neg (by rw [ha]; decide)]
  exact congrArg Host.Outcome.next (if_pos ⟨hr, hs⟩)

theorem coldReset_early (ha : s.boot.aon = true) (h : s.boot.rails = false ∨ s.boot.stage ≠ 3) : exec .coldReset s = .next s.released := by
  rw [exec_coldReset, execColdReset, if_neg (by rw [ha]; decide)]
  refine congrArg Host.Outcome.next (if_neg fun hc => ?_)
  exact h.elim (fun hr => Bool.false_ne_true (hr.symm.trans hc.1)) (fun hs => hs hc.2)

/-- The rails are good. -/
def State.railed (s : State) : State := { s with boot := { s.boot with rails := true, stage := 3 } }

/-- The rails rise toward RAILS_GOOD. -/
def Boot.rising (b : Boot) : Prop := b.mainOn = true ∧ b.rails = false ∧ b.stage = 2

theorem rising_iff : ¬(¬s.starting ∨ s.boot.stage ≠ 2) ↔ s.boot.rising := by
  simp [State.starting, Boot.rising, and_assoc]

theorem railsGood_stays (h : ¬s.boot.rising) : exec .railsGood s = .next s := by
  rw [exec_railsGood, execRailsGood, if_pos (not_not.mp (fun hn => h (rising_iff.mp hn)))]

theorem railsGood_runs (h : s.boot.rising) (hr : s.boot.resetN = true) : exec .railsGood s = .next s.railed.coldReset := by
  rw [exec_railsGood, execRailsGood, if_neg (rising_iff.mpr h)]
  exact congrArg Host.Outcome.next (if_pos hr)

theorem railsGood_held (h : s.boot.rising) (hr : s.boot.resetN = false) : exec .railsGood s = .next s.railed := by
  rw [exec_railsGood, execRailsGood, if_neg (rising_iff.mpr h)]
  exact congrArg Host.Outcome.next (if_neg (fun hc => Bool.false_ne_true (hr.symm.trans hc)))

/-- RESET_N low holds the host and the main domain in reset. -/
theorem resetNAssert_holds (s : State) : ∃ t, exec .resetNAssert s = .next t ∧ t.boot.resetN = false ∧ t.boot.hostUp = false ∧ t.boot.clocks = false ∧
    (s.boot.rails = true → t.boot.stage = 3) ∧ (s.boot.rails = false → t.boot.stage = s.boot.stage) ∧ t.cores = [] ∧ t.teams = [] ∧ t.writes = [] ∧
    t.reads = [] ∧ t.msgs = [] ∧ t.fab = {} ∧ t.rings = s.rings ∧ t.dict = s.dict ∧ ∀ l, t.byteAt l = 0 := by
  have hblank := State.mainReset_blank { s with boot := { s.boot with resetN := false, hostUp := false } }
  refine ⟨_, rfl, ?_⟩
  cases hr : s.boot.rails with
  | true =>
    rw [if_pos (show (State.mainReset { s with boot := { s.boot with resetN := false, hostUp := false } }).boot.rails = true from hr)]
    exact ⟨rfl, rfl, rfl, fun _ => rfl, fun h => absurd h (by decide), rfl, rfl, rfl, rfl, rfl, rfl, rfl, rfl, State.byteAt_blank rfl hblank⟩
  | false =>
    rw [if_neg (show ¬(State.mainReset { s with boot := { s.boot with resetN := false, hostUp := false } }).boot.rails = true from
      fun h => Bool.false_ne_true (hr.symm.trans h))]
    exact ⟨rfl, rfl, rfl, fun h => absurd h (by decide), fun _ => rfl, rfl, rfl, rfl, rfl, rfl, rfl, rfl, rfl, State.byteAt_blank rfl hblank⟩

end Sys2Proof.Machine
end

section
/-! Memory training and READY: what the DIMMs count, and what training leaves alone (R244 to R246, R417, R509, R510, R530). -/

namespace Sys2Proof.Machine

variable {s t u : State} {dimms : List (Option Dimm)} {d : DieIx}

/-! ### Side effects leave memory alone -/

theorem State.sameMemory_trans (h : s.sameMemory t) (h' : t.sameMemory u) : s.sameMemory u := fun l => (h' l).trans (h l)

/-- Memory is what the cores' local stores and the dies' memories hold. -/
theorem State.sameMemory_of (hc : ∀ c, (t.core c).ls = (s.core c).ls)
    (hd : ∀ d, (t.die d).loft = (s.die d).loft ∧ (t.die d).hbm = (s.die d).hbm ∧ (t.die d).ddr = (s.die d).ddr) : s.sameMemory t := by
  intro l
  cases l with
  | ls c o => simp only [State.byteAt, State.readLoc, hc c]
  | loft d o => simp only [State.byteAt, State.readLoc, (hd d).1]
  | hbm d o => simp only [State.byteAt, State.readLoc, (hd d).2.1]
  | ddr d o => simp only [State.byteAt, State.readLoc, (hd d).2.2]
  | ctl _ _ => rfl
  | remote _ _ => rfl

theorem State.Aside.sameMemory (h : s.Aside t) : s.sameMemory t :=
  State.sameMemory_of (fun c => by rw [h.core c]) (fun d => by rw [h.die d]; exact ⟨rfl, rfl, rfl⟩)

theorem State.Aside.ddrBytes (h : s.Aside t) (d : DieIx) : (t.die d).ddrBytes = (s.die d).ddrBytes := by rw [h.die d]

/-! ### The records select (R417) -/

section
variable (s)

theorem State.aside_countStale (d : DieIx) (flag : Bool) : s.Aside (s.countStale d flag) := .ite (s.aside_countDie d _ _) (.refl s)

theorem State.aside_selectLane (p : BitVec 4) (tx : Bool) (lane : Nat) : s.Aside (s.selectLane p tx lane) :=
  .ite (.refl s) ((s.aside_modPort p _).trans (State.aside_countStale _ _ _))

theorem State.aside_modMem (x : MemUnit) (f : MemTrack → MemTrack) : s.Aside (s.modMem x f) := .of_tables rfl rfl rfl rfl rfl

theorem State.aside_memLevel (x : MemUnit) : s.Aside (s.memLevel x) :=
  .ite ((s.aside_modMem x _).trans (State.aside_countDie _ _ _ _)) (s.aside_modMem x _)

theorem State.aside_selectMem (x : MemUnit) : s.Aside (s.selectMem x) :=
  ((s.aside_modMem x _).trans (State.aside_countStale _ _ _)).trans (State.aside_memLevel _ x)

theorem State.aside_selectDroop (d : DieIx) (dom : Nat) : s.Aside (s.selectDroop d dom) := by
  refine .trans ?_ (State.aside_countStale _ d _)
  exact .of_tables rfl rfl rfl rfl rfl

theorem State.aside_reselect (d : DieIx) : s.Aside (s.reselect d) := by
  unfold State.reselect
  refine .trans (.trans ?_ (.foldl fun s x => s.aside_selectMem x)) (.foldl fun s k => s.aside_selectDroop d k)
  exact .foldl fun s p => .foldl fun s l => (s.aside_selectLane p false l).trans (State.aside_selectLane _ p true l)

end

/-! ### The DIMM population (R244 to R246) -/

/-- The dies' sizes of DDR are as the DIMMs give them. -/
def State.sized (s : State) (dimms : List (Option Dimm)) : State :=
  allDies.foldl (fun s d => s.modDie d (fun x => { x with ddrBytes := popBytes (dieDimms dimms d) })) s

theorem State.modDie_sameMemory (s : State) (d : DieIx) {f : Die → Die}
    (hf : (f (s.die d)).loft = (s.die d).loft ∧ (f (s.die d)).hbm = (s.die d).hbm ∧ (f (s.die d)).ddr = (s.die d).ddr) : s.sameMemory (s.modDie d f) := by
  refine State.sameMemory_of (fun _ => rfl) fun e => ?_
  by_cases he : e = d
  · subst he; rw [State.die_modDie]; exact hf
  · rw [State.die_modDie_other _ _ he]; exact ⟨rfl, rfl, rfl⟩

theorem State.sized_sameMemory (s : State) : s.sameMemory (s.sized dimms) :=
  foldl_invariant (s.sameMemory ·) (fun _ => rfl) fun t d _ ht => State.sameMemory_trans ht (t.modDie_sameMemory d ⟨rfl, rfl, rfl⟩)

theorem State.sized_ddrBytes (s : State) (d : DieIx) : ((s.sized dimms).die d).ddrBytes = popBytes (dieDimms dimms d) := by
  have hall := foldl_each (I := fun _ : State => True) (f := fun s d => s.modDie d (fun x => { x with ddrBytes := popBytes (dieDimms dimms d) }))
    (P := fun d t => (t.die d).ddrBytes = popBytes (dieDimms dimms d)) (l := allDies) (b := s)
    (fun _ _ _ => trivial) (fun t d _ => by rw [State.die_modDie])
    (fun t d e _ he => by
      by_cases hed : e = d
      · subst hed; rw [State.die_modDie]
      · rwa [State.die_modDie_other _ _ hed]) trivial
  exact hall d (mem_allDies d)

/-- DDR_DIMM_INFO of every channel. -/
def dimmWords (dimms : List (Option Dimm)) : Sparse (BitVec 32) := (List.range 16).foldl (fun t ch => Sparse.put 0 t ch (dimmInfo dimms ch)) []

/-- The sizes and the DIMM words are taken, and what follows is announcements. -/
theorem State.aside_populate (s : State) (dimms : List (Option Dimm)) :
    (State.sized { s with mod := { s.mod with dimm := dimmWords dimms } } dimms).Aside (s.populate dimms) := by
  have hsize : ∀ (t u : State), t.Aside (if allDies.all (fun d => (t.die d).ddrBytes = (u.die d).ddrBytes) then t else t.sizeChanged) :=
    fun t _ => .ite (.refl t) t.aside_sizeChanged
  have hevents : ∀ t : State, t.Aside (allDies.foldl (fun s d => if popValid (dieDimms dimms d) then s else s.event 0x0002 d 0 1) t) :=
    fun t => .foldl fun s d => .ite (.refl s) (s.aside_event _ _ _ _)
  exact (hsize _ s).trans (hevents _)

theorem State.populate_sameMemory (s : State) (dimms : List (Option Dimm)) : s.sameMemory (s.populate dimms) :=
  State.sameMemory_trans (State.sized_sameMemory _) (s.aside_populate dimms).sameMemory

theorem State.populate_ddrBytes (s : State) (dimms : List (Option Dimm)) (d : DieIx) :
    ((s.populate dimms).die d).ddrBytes = popBytes (dieDimms dimms d) :=
  ((s.aside_populate dimms).ddrBytes d).trans (State.sized_ddrBytes _ d)

/-- One channel's DIMM, if it may be used. -/
theorem getElem?_of_getD {n : Nat} {y : Option Dimm} (h : dimms.getD n Option.none = y) : dimms[n]? = some y ∨ dimms[n]? = Option.none ∧ y = Option.none := by
  rw [List.getD_eq_getElem?_getD] at h
  cases hn : dimms[n]? with
  | none => rw [hn] at h; exact .inr ⟨rfl, h.symm⟩
  | some z => rw [hn] at h; exact .inl (congrArg some h)

theorem dieDimms_empty (h : ∀ k, k < 4 → dimms.getD (4 * d.toNat + k) Option.none = Option.none) : dieDimms dimms d = [] := by
  refine List.filterMap_eq_nil_iff.mpr fun k hk => ?_
  rcases getElem?_of_getD (h k (List.mem_range.mp hk)) with h | ⟨h, _⟩ <;> rw [h]

theorem dieDimms_full {x : Dimm} (hx : Dimm.eligible x = true) (h : ∀ k, k < 4 → dimms.getD (4 * d.toNat + k) Option.none = some x) :
    dieDimms dimms d = [(0, x), (1, x), (2, x), (3, x)] := by
  have hone : ∀ k, k < 4 → dimms[4 * d.toNat + k]? = some (some x) := fun k hk =>
    (getElem?_of_getD (h k hk)).resolve_right (fun hn => Option.some_ne_none x hn.2)
  have hmap : dieDimms dimms d = (List.range 4).filterMap (fun k => some (k, x)) := by
    refine List.filterMap_congr fun k hk => ?_
    rw [hone k (List.mem_range.mp hk)]
    exact if_pos hx
  rw [hmap]
  rfl

theorem popBytes_full (x : Dimm) : popBytes [(0, x), (1, x), (2, x), (3, x)] = 4 * 2 ^ (x.cap.toNat + 35) := by
  rw [popBytes, if_pos (by simp [popValid])]
  simp only [List.map_cons, List.map_nil, List.foldl_cons, List.foldl_nil]
  omega

theorem popBytes_empty : popBytes [] = 0 := rfl

/-! ### Memory trained (R509) -/

theorem memoryTrained_stays (h : s.boot.stage ≠ 4) : exec (.memoryTrained dimms) s = .next s := by
  rw [exec_memoryTrained, execMemoryTrained, if_pos h]

/-- The records select and the ports train. -/
def State.trained (s : State) (dimms : List (Option Dimm)) : State := (allDies.foldl (fun s d => s.reselect d) (s.populate dimms)).trainPorts

theorem State.aside_trained (s : State) (dimms : List (Option Dimm)) : (s.populate dimms).Aside (s.trained dimms) :=
  .trans (.foldl fun s d => s.aside_reselect d) (State.aside_trainPorts _)

theorem memoryTrained_eq (h : s.boot.stage = 4) :
    exec (.memoryTrained dimms) s = .next { s.trained dimms with boot := { (s.trained dimms).boot with stage := 5 } } := by
  rw [exec_memoryTrained, execMemoryTrained, if_neg (not_not_intro h)]
  rfl

theorem State.withBoot_sameMemory (s : State) (b : Boot) : s.sameMemory { s with boot := b } := fun l => State.byteAt_congr rfl rfl l

theorem State.withBoot_die (s : State) (b : Boot) (d : DieIx) : ({ s with boot := b } : State).die d = s.die d := rfl

/-- Training ends stage 4, counts the DIMMs, and leaves memory alone. -/
theorem memoryTrained_holds (h : s.boot.stage = 4) (dimms : List (Option Dimm)) : ∃ t, exec (.memoryTrained dimms) s = .next t ∧ t.boot.stage = 5 ∧
    s.sameMemory t ∧ ∀ d, (t.die d).ddrBytes = popBytes (dieDimms dimms d) :=
by
  have hsame := State.sameMemory_trans (s.populate_sameMemory dimms) (s.aside_trained dimms).sameMemory
  have hbytes (d : DieIx) := ((s.aside_trained dimms).ddrBytes d).trans (s.populate_ddrBytes dimms d)
  refine ⟨_, memoryTrained_eq h, ?_⟩
  generalize s.trained dimms = t at hsame hbytes
  exact ⟨rfl, State.sameMemory_trans hsame (t.withBoot_sameMemory _), fun d => by rw [State.withBoot_die, hbytes]⟩

/-! ### READY (R510, R530) -/

/-- Whether the fabric has been discovered, or has nothing to discover. -/
def State.fabricReady (s : State) : Prop := s.boot.warming = true ∨ s.mod.everJoined = true ∨ ∀ p ∈ s.fab.ports, p.2.up = 0

theorem fabricReady_iff : (s.boot.warming ∨ s.mod.everJoined ∨ s.noPortUp) ↔ s.fabricReady := by
  simp only [State.fabricReady, State.noPortUp, List.all_eq_true, decide_eq_true_eq]

theorem ready_stays (h : s.boot.stage ≠ 5 ∨ ¬s.fabricReady) : exec .ready s = .next s := by
  rw [exec_ready, execReady, if_pos (h.imp_right (fun hn hd => hn (fabricReady_iff.mp hd)))]

/-- The boot words and the module's registers at READY. -/
def State.readied (s : State) : State :=
  { s with boot := { s.boot with stage := 6, warming := false, attempts := if s.boot.booted = s.boot.pointer then 0 else s.boot.attempts },
           mod := { s.mod with provisional := !s.mod.everJoined } }

theorem ready_eq (hs : s.boot.stage = 5) (hd : s.fabricReady) : exec .ready s = .next s.readied.svnAdvance := by
  rw [exec_ready, execReady, if_neg (not_or.mpr ⟨not_not_intro hs, not_not_intro (fabricReady_iff.mpr hd)⟩)]
  rfl

theorem State.svnAdvance_eq (s : State) : s.svnAdvance = { s with boot := { s.boot with minSvn := s.svnAdvance.boot.minSvn } } := by
  unfold State.svnAdvance
  split
  · split <;> rfl
  · rfl

/-- An image that asks for it raises the fused SVN to its own. -/
theorem State.svnAdvance_raises {x : Bank} (h : s.bankAt s.boot.booted = some x) (ha : x.advance = true) :
    s.svnAdvance.boot.minSvn.toNat = max s.boot.minSvn.toNat x.svn.toNat := by
  simp only [State.svnAdvance, h, ha, if_true, BitVec.le_def]
  split <;> omega

theorem State.svnAdvance_keeps (h : ∀ x, s.bankAt s.boot.booted = some x → x.advance = false) : s.svnAdvance = s := by
  unfold State.svnAdvance
  split
  · next x hx => exact if_neg (by rw [h x hx]; decide)
  · rfl

theorem ready_holds (hs : s.boot.stage = 5) (hd : s.fabricReady) : ∃ t, exec .ready s = .next t ∧ t.boot.stage = 6 ∧ t.boot.warming = false ∧
    t.mod.provisional = !s.mod.everJoined ∧ (s.boot.booted = s.boot.pointer → t.boot.attempts = 0) ∧
    (s.boot.booted ≠ s.boot.pointer → t.boot.attempts = s.boot.attempts) ∧
    (∀ x, s.bankAt s.boot.booted = some x → x.advance = true → t.boot.minSvn.toNat = max s.boot.minSvn.toNat x.svn.toNat) ∧
    ((∀ x, s.bankAt s.boot.booted = some x → x.advance = false) → t.boot.minSvn = s.boot.minSvn) ∧ s.sameMemory t := by
  have hsvn := s.readied.svnAdvance_eq
  refine ⟨_, ready_eq hs hd, by rw [hsvn]; rfl, by rw [hsvn]; rfl, by rw [hsvn]; rfl, fun h => ?_, fun h => ?_, fun x hx ha => ?_, fun h => ?_, fun l => ?_⟩
  · rw [hsvn]; exact if_pos h
  · rw [hsvn]; exact if_neg h
  · exact State.svnAdvance_raises (s := s.readied) hx ha
  · rw [State.svnAdvance_keeps (s := s.readied) h]; rfl
  · rw [hsvn]; exact State.byteAt_congr rfl rfl l

end Sys2Proof.Machine
end

section
/-! Power and reset: the power stages with the ROM, and the cold reset up to READY (R508 to R510, R521, R526 to R529). -/

namespace Sys2Proof.Machine

variable {s : State}

/-- What is left once the always-on domain has lost its power: what is in flash and fuses (R506). -/
theorem alwaysOnPowerLoss_holds (s : State) : ∃ t, exec .alwaysOnPowerLoss s = .next t ∧ t.boot.aon = false ∧ t.boot.mainOn = false ∧ t.cores = [] ∧ t.rings = [] ∧
    t.dict.vals = [] ∧ t.dict.flash = s.dict.flash ∧ t.dict.flashSeq = s.dict.flashSeq ∧ t.far.flash = s.far.flash ∧ t.boot.minSvn = s.boot.minSvn ∧
    t.boot.pointer = s.boot.pointer ∧ t.boot.attempts = s.boot.attempts ∧ t.boot.attFuses = s.boot.attFuses ∧ t.boot.attStored = s.boot.attStored ∧
    t.mod.badFuse = s.mod.badFuse ∧ t.time = 0 ∧ ∀ l, t.byteAt l = 0 :=
  ⟨_, rfl, rfl, rfl, rfl, rfl, rfl, rfl, rfl, rfl, rfl, rfl, rfl, rfl, rfl, rfl, rfl, State.byteAt_blank rfl (fun _ => ⟨rfl, rfl, rfl⟩)⟩

/-- An ECC RDIMM that R244 admits. -/
theorem eligible_of {x : Dimm} (hr : x.rdimm = true) (hm : 8000 ≤ x.mts) (he : x.ecc = true) (hw : x.width = 1 ∨ x.width = 2) (hl : 1 ≤ x.cap.toNat)
    (hu : x.cap.toNat ≤ 3) : Dimm.eligible x = true := by
  simp only [Dimm.eligible, hr, he, Bool.true_and, Bool.and_eq_true, decide_eq_true_eq]
  exact ⟨⟨⟨hm, trivial⟩, hw⟩, hl, hu⟩

/-- Settles O49: the power stages with the ROM's choice of a bank, and what the cold reset, training and READY leave. -/
theorem powerAndReset : Obligations.PowerAndReset := by
  refine ⟨fun s a b rail hd => ?_, fun s dimms d x => ?_⟩
  · refine ⟨standbyStart_stays, fun h => ⟨_, standbyStart_eq h, rfl, rfl, rfl, rfl, rfl, rfl, rfl⟩, firmwareVerify_stays,
      fun ha hs => firmwareVerify_holds ha hs a b, ⟨_, referenceClockPresent_eq s, rfl⟩, pwrEnAssert_stays, fun ha => ⟨_, pwrEnAssert_eq ha, rfl⟩,
      railFault_stays, railFault_off hd, inputUndervolt_stays, inputUndervolt_off hd, fun hm => pwrEnDeassert_off hd (.inl hm),
      fun _ hr => pwrEnDeassert_off hd (.inr hr), ⟨_, rfl, rfl⟩, alwaysOnPowerLoss_holds s⟩
  · refine ⟨coldReset_stays, fun ha hr hs => ⟨_, coldReset_runs ha hr hs, State.coldReset_words_of (s := s.released) rfl⟩,
      fun ha h => ⟨_, coldReset_early ha h, rfl⟩, railsGood_stays,
      fun h hr => ⟨_, railsGood_runs h hr, State.coldReset_words_of (s := s.railed) hr⟩, fun h hr => ⟨_, railsGood_held h hr, rfl⟩,
      resetNAssert_holds s, memoryTrained_stays, fun hs => ?_, ready_stays, fun hs hready => ?_⟩
    · obtain ⟨t, ht, hstage, hsame, hbytes⟩ := memoryTrained_holds hs dimms
      refine ⟨t, ht, hstage, hsame, fun hnone => ?_, fun hr hm he hw hl hu hall => ?_⟩
      · rw [hbytes, dieDimms_empty hnone, popBytes_empty]
      · rw [hbytes, dieDimms_full (eligible_of hr hm he hw hl hu) hall, popBytes_full]
    · exact ready_holds hs hready

end Sys2Proof.Machine
end

section
/-! Integer, compare, predicate and fixed-point forms: what each completes with (R61, R69 to R71, R580). -/

namespace Sys2Proof.Machine

/-! ### Arithmetic: the words of the spec and the words of the model -/

/-- A field of the low bits, read as a signed number. -/
theorem signedOf_toNat {w n : Nat} (v : BitVec w) (hn : 0 < n) : signedOf n v.toNat = (v.extractLsb' 0 n).toInt := by
  have hhalf : (2 : Nat) ^ n = 2 * 2 ^ (n - 1) := by rw [← pow_succ']; congr 1; omega
  have hcast : ((2 : Int) ^ n) = ((2 ^ n : Nat) : Int) := by push_cast; rfl
  rw [signedOf, BitVec.toInt_eq_toNat_cond, BitVec.extractLsb'_toNat, Nat.shiftRight_zero, hcast]
  split <;> split <;> omega

/-- The source of a scalar fixed-point form (R69). -/
theorem fxSource_eq (wide : Bool) (v : Word) : fxSource wide v = (v.extractLsb' 0 (if wide then 32 else 16)).toInt := by
  cases wide <;> exact signedOf_toNat v (by decide)

theorem toNat_extract_six (b : Word) : (b.extractLsb' 0 6).toNat = b.toNat % 64 := by
  rw [BitVec.extractLsb'_toNat, Nat.shiftRight_zero]

/-- The upper half of a 128-bit integer. -/
theorem ofInt_div_eq_extract (z : Int) : BitVec.ofInt 64 (z / 2 ^ 64) = (BitVec.ofInt 128 z).extractLsb' 64 64 := by
  apply BitVec.eq_of_toNat_eq
  rw [BitVec.toNat_ofInt, BitVec.extractLsb'_toNat, BitVec.toNat_ofInt, Nat.shiftRight_eq_div_pow]
  omega

theorem mulHigh_eq (a b : Word) : mulHigh a b = (a.signExtend 128 * b.signExtend 128).extractLsb' 64 64 := by
  rw [mulHigh, wordOfInt, ofInt_div_eq_extract, BitVec.ofInt_mul]
  rfl

theorem mulHighU_eq (a b : Word) : mulHighU a b = (a.zeroExtend 128 * b.zeroExtend 128).extractLsb' 64 64 := by
  have hlt : a.toNat * b.toNat < 2 ^ 128 := by
    calc a.toNat * b.toNat < 2 ^ 64 * 2 ^ 64 := Nat.mul_lt_mul'' a.isLt b.isLt
      _ = 2 ^ 128 := by norm_num
  apply BitVec.eq_of_toNat_eq
  rw [mulHighU, BitVec.toNat_ofNat, BitVec.extractLsb'_toNat, BitVec.toNat_mul, Nat.shiftRight_eq_div_pow,
    BitVec.toNat_setWidth_of_le (by decide), BitVec.toNat_setWidth_of_le (by decide), Nat.mod_eq_of_lt hlt]

theorem divS_eq (a b : Word) : divS a b = if b = 0 then BitVec.allOnes 64 else a.sdiv b := by
  rw [divS, wordOfInt]
  refine if_congr Iff.rfl rfl (BitVec.eq_of_toInt_eq ?_)
  rw [BitVec.toInt_ofInt, BitVec.toInt_sdiv]

theorem remS_eq (a b : Word) : remS a b = if b = 0 then a else a.srem b := by
  rw [remS, wordOfInt, ← BitVec.toInt_srem, BitVec.ofInt_toInt]

theorem divU_eq (a b : Word) : divU a b = if b = 0 then BitVec.allOnes 64 else a / b := by
  rw [divU, ← BitVec.toNat_udiv, BitVec.ofNat_toNat, BitVec.setWidth_eq]

theorem remU_eq (a b : Word) : remU a b = if b = 0 then a else a % b := by
  rw [remU, ← BitVec.toNat_umod, BitVec.ofNat_toNat, BitVec.setWidth_eq]

/-- Of two equal words either is the smaller one. -/
theorem ite_le_eq_ite_slt {α : Sort*} {a b : Word} {x y : α} (h : a = b → x = y) :
    (if a.toInt ≤ b.toInt then x else y) = if a.slt b then x else y := by
  rw [BitVec.slt_eq_decide]
  by_cases hlt : a.toInt < b.toInt
  · simp [hlt, hlt.le]
  · by_cases heq : a.toInt = b.toInt
    · simp [heq, h (BitVec.eq_of_toInt_eq heq)]
    · have hle : ¬a.toInt ≤ b.toInt := by omega
      simp [hlt, hle]

theorem lui_value (imm : BitVec 16) : (imm ++ (0 : BitVec 16)).signExtend 64 = BitVec.ofInt 64 (imm.toInt * 65536) := by
  rw [BitVec.signExtend, show imm ++ (0 : BitVec 16) = imm ++ 0#16 from rfl, BitVec.toInt_append_zero]
  norm_num [mul_comm]

/-! ### Completion of the shared forms -/

section Forms

variable {s : State} {i : Iss} (h : s.ready i false = true)
include h

theorem alu_done (opc : Nat) (rd rs1 rs2 : BitVec 5) (f : Word → Word → Word) :
    alu i opc rd rs1 rs2 f s = .next (s.retired i.who 4 (fun g => g.setReg rd (f ((s.thread i.who).reg rs1) ((s.thread i.who).reg rs2)))) := by
  rw [alu, issue_done (f := fun g => g.setReg rd (f (g.reg rs1) (g.reg rs2))) h rfl (by simp) (by simp)]
  exact congrArg Host.Outcome.next (State.retired_congr rfl)

theorem aluImm_done (opc : Nat) (rd rs1 : BitVec 5) (v : Word) (f : Word → Word → Word) :
    aluImm i opc rd rs1 v f s = .next (s.retired i.who 4 (fun g => g.setReg rd (f ((s.thread i.who).reg rs1) v))) := by
  rw [aluImm, issue_done (f := fun g => g.setReg rd (f (g.reg rs1) v)) h rfl (by simp) (by simp)]
  exact congrArg Host.Outcome.next (State.retired_congr rfl)

/-- A predicate form with a destination p1 to p7 writes it; any other destination field raises 0x01. -/
theorem predOp_done (rd : BitVec 5) (f : Thread → Word) :
    predOp i rd f s = .next (if 1 ≤ rd.toNat ∧ rd.toNat ≤ 7 then s.retired i.who 4 (fun g => g.setPred (rd.truncate 3) (f (s.thread i.who)))
      else s.settle i.who false (.trap s { code := 0x01, detail := 0x02 })) := by
  have hfield : (rd = 0 ∨ 8 ≤ rd.toNat) ↔ ¬(1 ≤ rd.toNat ∧ rd.toNat ≤ 7) := by bv_omega
  by_cases hp : 1 ≤ rd.toNat ∧ rd.toNat ≤ 7
  · rw [predOp, issue_done (f := fun g => g.setPred (rd.extractLsb' 0 3) (f g)) h (if_neg (by rw [hfield]; exact not_not_intro hp))
      (by simp) (by simp), if_pos hp]
    refine congrArg Host.Outcome.next (State.retired_congr ?_)
    rw [show rd.extractLsb' 0 3 = rd.truncate 3 by simp [BitVec.truncate_eq_setWidth, BitVec.setWidth_eq_extractLsb' (by decide : 3 ≤ 5)]]
  · rw [predOp, issue_of_ready h, if_pos (hfield.mpr hp), if_neg hp]
    rfl

theorem cmpOp_done (rd rs1 rs2 : BitVec 5) (f : Word → Word → Bool) :
    cmpOp i rd rs1 rs2 f s = .next (if 1 ≤ rd.toNat ∧ rd.toNat ≤ 7 then s.retired i.who 4 (fun g => g.setPred (rd.truncate 3)
        (if f ((s.thread i.who).reg rs1) ((s.thread i.who).reg rs2) then BitVec.allOnes 64 else 0))
      else s.settle i.who false (.trap s { code := 0x01, detail := 0x02 })) :=
  predOp_done h rd (fun g => predOf (f (g.reg rs1) (g.reg rs2)))

theorem fxToReg_done (rd : BitVec 5) (f : Thread → Int × Fit) : fxToReg i rd f s = .next (s.retired i.who 4 (fun g =>
    (g.setReg rd (BitVec.ofInt 64 (f (s.thread i.who)).1)).fxFlag (f (s.thread i.who)).2)) := by
  rw [fxToReg, issue_done (f := fun g => (g.setReg rd (wordOfInt (f g).1)).fxFlag (f g).2) h rfl (by simp) (by simp)]
  exact congrArg Host.Outcome.next (State.retired_congr rfl)

end Forms

/-! ### Shift by an immediate -/

theorem shli_field (imm : BitVec 16) : imm.extractLsb' 6 10 = 0 ↔ imm.toNat < 64 := by
  rw [← BitVec.toNat_inj, BitVec.extractLsb'_toNat, Nat.shiftRight_eq_div_pow]
  have := imm.isLt
  simp only [BitVec.ofNat_eq_ofNat, BitVec.toNat_ofNat]
  omega

theorem shli_done {s : State} {i : Iss} (h : s.ready i false = true) (rd rs1 : BitVec 5) {imm : BitVec 16} (hi : imm.toNat < 64) :
    exec (.shli i rd rs1 imm) s = .next (s.retired i.who 4 (fun g => g.setReg rd ((s.thread i.who).reg rs1 <<< imm.toNat))) := by
  rw [exec_shli, execShli, issue_done (f := fun g => g.setReg rd (g.reg rs1 <<< (imm.extractLsb' 0 6).toNat)) h
    (if_neg (not_not_intro ((shli_field imm).mpr hi))) (by simp) (by simp)]
  refine congrArg Host.Outcome.next (State.retired_congr ?_)
  rw [BitVec.extractLsb'_toNat, Nat.shiftRight_zero, Nat.mod_eq_of_lt hi]

theorem shli_traps {s : State} {i : Iss} (h : s.ready i false = true) (rd rs1 : BitVec 5) {imm : BitVec 16} (hi : 64 ≤ imm.toNat) :
    exec (.shli i rd rs1 imm) s = .next (s.settle i.who false (.trap s { code := 0x01, detail := 0x08 })) := by
  rw [exec_shli, execShli, issue_of_ready h, if_pos (fun hz => absurd ((shli_field imm).mp hz) (by omega))]
  rfl

/-- Settles O1: every register and immediate form is a case of one completion lemma, at the value the spec gives. -/
theorem integerResults : Obligations.IntegerResults := by
  refine ⟨fun s i rd rs1 rs2 h => ?_, fun s i rd rs1 imm h => ?_⟩
  · intro a b n gives
    have reg {c : Instr} {f : Word → Word → Word} {v : Word} (hc : exec c s = alu i 0x00 rd rs1 rs2 f s) (hv : f a b = v) : gives c v :=
      hc.trans (hv ▸ alu_done h 0x00 rd rs1 rs2 f)
    have hn : (b.extractLsb' 0 6).toNat = n := toNat_extract_six b
    exact ⟨reg (exec_addR ..) rfl, reg (exec_subR ..) rfl, reg (exec_andR ..) rfl, reg (exec_orR ..) rfl, reg (exec_xorR ..) rfl,
      reg (exec_shl ..) (by rw [hn]), reg (exec_shr ..) (by rw [hn]), reg (exec_sra ..) (by rw [hn]), reg (exec_mulR ..) rfl,
      reg (exec_mulh ..) (mulHigh_eq a b), reg (exec_mulhu ..) (mulHighU_eq a b), reg (exec_divR ..) (divS_eq a b),
      reg (exec_divu ..) (divU_eq a b), reg (exec_remR ..) (remS_eq a b), reg (exec_remu ..) (remU_eq a b),
      reg (exec_minR ..) (ite_le_eq_ite_slt id), reg (exec_maxR ..) (ite_le_eq_ite_slt Eq.symm)⟩
  · intro a gives
    have imm_ {c : Instr} {opc : Nat} {v : Word} {f : Word → Word → Word} (hc : exec c s = aluImm i opc rd rs1 v f s) : gives c (f a v) :=
      hc.trans (aluImm_done h opc rd rs1 v f)
    refine ⟨imm_ (exec_addi ..), imm_ (exec_andi ..), imm_ (exec_ori ..), imm_ (exec_xori ..), ?_, shli_done h rd rs1, shli_traps h rd rs1⟩
    exact (exec_lui ..).trans (lui_value imm ▸ issue_done (f := fun g => g.setReg rd ((imm ++ (0 : BitVec 16)).signExtend 64)) h rfl (by simp) (by simp))

/-- Settles O2: the predicate forms by their one completion lemma, the fixed-point forms by what they do to their thread. -/
theorem predicateAndFixedPointResults : Obligations.PredicateAndFixedPointResults := by
  refine ⟨fun s i rd rs1 rs2 ps1 ps2 h => ?_, fun s i rd rs1 rs2 x h => ?_⟩
  · intro a b p q gives cmp
    have holds {c : Instr} {f : Word → Word → Bool} {v : Bool} (hc : exec c s = cmpOp i rd rs1 rs2 f s) (hv : f a b = v) : cmp c v :=
      hc.trans (hv ▸ cmpOp_done h rd rs1 rs2 f)
    have writes {c : Instr} {f : Thread → Word} {v : Word} (hc : exec c s = predOp i rd f s) (hv : f (s.thread i.who) = v) : gives c v :=
      hc.trans (hv ▸ predOp_done h rd f)
    exact ⟨holds (exec_cmpEq ..) (beq_eq_decide a b).symm, holds (exec_cmpNe ..) (by rw [bne, beq_eq_decide, decide_not]),
      holds (exec_cmpLt ..) BitVec.slt_eq_decide.symm, holds (exec_cmpLtu ..) BitVec.ult_eq_decide.symm,
      holds (exec_cmpGe ..) BitVec.sle_eq_decide.symm, holds (exec_cmpGeu ..) BitVec.ule_eq_decide.symm,
      writes (exec_pand ..) rfl, writes (exec_por ..) rfl, writes (exec_pnot ..) (BitVec.xor_allOnes).symm⟩
  · intro bits src acc wr does fit res
    have hsrc (r : BitVec 5) : fxSource x.wide ((s.thread i.who).reg r) = src r := fxSource_eq _ _
    have hga : (s.thread i.who).ga x.ga = acc.toInt := rfl
    have toReg {c : Instr} {f : Thread → Int × Fit} {v : Int} (hc : exec c s = fxToReg i rd f s) (hv : f (s.thread i.who) = fit bits v) :
        does c (res v) := hc.trans ((fxToReg_done h rd f).trans (by rw [hv]))
    have changes {c : Instr} {k : Cls} {f g : Thread → Thread} (hc : exec c s = issue i 0x01 false k (fun s => .done (s.modThread i.who f)) s)
        (hg : f (s.thread i.who) = g (s.thread i.who)) (h1 : (f (s.thread i.who)).haltReq = (s.thread i.who).haltReq)
        (h2 : (f (s.thread i.who)).stepping = (s.thread i.who).stepping) : does c g :=
      hc.trans ((issue_done h rfl h1 h2).trans (congrArg Host.Outcome.next (State.retired_congr hg)))
    refine ⟨toReg (exec_qadd ..) ?_, toReg (exec_qsub ..) ?_, toReg (exec_qmul ..) ?_, changes (exec_qmac ..) ?_ (by simp) (by simp),
      toReg (exec_qext ..) rfl, changes (exec_qclr ..) rfl (by simp) (by simp), changes (exec_gaLo ..) rfl (by simp) (by simp),
      changes (exec_gaHi ..) rfl (by simp) (by simp), changes (exec_gaWr ..) rfl (by simp) (by simp)⟩
    · simp only [hsrc]; rfl
    · simp only [hsrc]; rfl
    · simp only [hsrc]; rfl
    · have hscale : (2 : Int) ^ (63 - 2 * (fxBits x.wide - 1)) = if x.wide then 2 else 2 ^ 33 := by cases x.wide <;> rfl
      simp only [hsrc, hga, hscale]
      rfl

end Sys2Proof.Machine
end

section
/-! The frame of a completed instruction: it changes its own thread and counters, and no memory (R541, R544). -/

namespace Sys2Proof.Machine

variable {s t u : State} {w : Who}

/-! ### Changes of one thread -/

namespace State.onlyThread

theorem trans (h : s.onlyThread t w) (h' : t.onlyThread u w) : s.onlyThread u w := by
  obtain ⟨⟨hst, hcores⟩, hthreads, hcore⟩ := h
  obtain ⟨⟨htu, hcores'⟩, hthreads', hcore'⟩ := h'
  refine ⟨⟨?_, fun e he => (hcores' e he).trans (hcores e he)⟩, fun v hv => (hthreads' v hv).trans (hthreads v hv), ?_⟩
  · rw [htu, hst]
  · rw [hcore', hcore]

/-- No thread holds memory. -/
theorem sameMemory (h : s.onlyThread t w) : s.sameMemory t := by
  obtain ⟨⟨hst, hcores⟩, _, hcore⟩ := h
  refine State.sameMemory_of (fun c => ?_) (fun d => ?_)
  · by_cases hc : c = w.core
    · rw [hc, hcore]
    · rw [hcores c hc]
  · rw [hst]
    exact ⟨rfl, rfl, rfl⟩

end State.onlyThread

theorem State.onlyThread_modThread (s : State) (w : Who) (f : Thread → Thread) : s.onlyThread (s.modThread w f) w :=
  ⟨⟨rfl, fun _ he => s.core_modThread_other w f he⟩, fun _ hv => s.thread_modThread_other f hv, by rw [State.core_modThread]; rfl⟩

/-! ### What counting leaves -/

theorem State.countThread_eq (s : State) (w : Who) (e n : Nat) : s.countThread w e n =
    { s with cores := (s.countThread w e n).cores, mod := { s.mod with agg := (s.countThread w e n).mod.agg } } := by
  unfold State.countThread
  dsimp only
  split <;> rfl

theorem State.countCore_eq (s : State) (c : CoreIx) (e n : Nat) : s.countCore c e n =
    { s with cores := (s.countCore c e n).cores, mod := { s.mod with agg := (s.countCore c e n).mod.agg } } := by
  unfold State.countCore
  dsimp only
  split <;> rfl

theorem State.countRetired_eq (s : State) (w : Who) : s.countRetired w =
    { s with cores := (s.countRetired w).cores, mod := { s.mod with agg := (s.countRetired w).mod.agg } } := by
  rw [State.countRetired, State.countCore_eq, State.countThread_eq]

theorem State.onlyThread_countRetired (s : State) (w : Who) : s.onlyThread (s.countRetired w) w :=
  ⟨⟨s.countRetired_eq w, fun _ he => s.core_countRetired_other w he⟩, fun _ hv => s.thread_countRetired_other hv, s.core_countRetired w⟩

/-! ### A completed instruction -/

theorem State.onlyThread_retired (s : State) (w : Who) (n : Nat) (f : Thread → Thread) : s.onlyThread (s.retired w n f) w :=
  (s.onlyThread_modThread w _).trans (State.onlyThread_countRetired _ w)

theorem State.thread_retired (s : State) (w : Who) (n : Nat) (f : Thread → Thread) :
    (s.retired w n f).thread w = { (f (s.thread w)).advance n with pmc := ((s.retired w n f).thread w).pmc } := by
  have h := (s.modThread w (fun h => (f h).advance n)).thread_countRetired w
  rwa [State.thread_modThread] at h

theorem State.thread_retired_other (s : State) {v : Who} (n : Nat) (f : Thread → Thread) (h : v ≠ w) : (s.retired w n f).thread v = s.thread v :=
  (s.onlyThread_retired w n f).2.1 v h

end Sys2Proof.Machine
end

section
/-! The frame of the register forms (R35, R61, R69 to R71, R580). -/

namespace Sys2Proof.Machine

variable {s : State} {i : Iss} {rd rs1 rs2 : BitVec 5} {imm : BitVec 16} {x : FxAux} {c : Instr}

/-- What a register form may change of its thread but the program counter and the counters. -/
def Thread.registersOnly (h g : Thread) : Prop := g = { h with g := g.g, p := g.p, ga0 := g.ga0, ga1 := g.ga1, fxstat := g.fxstat }

theorem Thread.registersOnly_setReg (h : Thread) (r : BitVec 5) (v : Word) : h.registersOnly (h.setReg r v) := by
  unfold Thread.setReg; split <;> rfl

theorem Thread.registersOnly_setPred (h : Thread) (p : BitVec 3) (v : Word) : h.registersOnly (h.setPred p v) := by
  unfold Thread.setPred; split <;> rfl

theorem Thread.registersOnly_setGa (h : Thread) (one : Bool) (v : BitVec 72) : h.registersOnly (h.setGa one v) := by cases one <;> rfl

theorem Thread.registersOnly_fxFlag {h g : Thread} (hg : h.registersOnly g) (f : Fit) : h.registersOnly (g.fxFlag f) := by
  rw [Thread.registersOnly] at hg
  rw [hg]
  cases f <;> rfl

/-- The thread after a register form that left `g`. -/
theorem State.thread_retired_of (s : State) (w : Who) (f : Thread → Thread) :
    ((s.retired w 4 f).thread w).g = (f (s.thread w)).g ∧ ((s.retired w 4 f).thread w).p = (f (s.thread w)).p ∧
      ((s.retired w 4 f).thread w).ga0 = (f (s.thread w)).ga0 ∧ ((s.retired w 4 f).thread w).ga1 = (f (s.thread w)).ga1 ∧
      ((s.retired w 4 f).thread w).fxstat = (f (s.thread w)).fxstat := by
  rw [State.thread_retired]
  exact ⟨rfl, rfl, rfl, rfl, rfl⟩

/-- A register form that completes with a change of registers only keeps the frame. -/
theorem State.retired_kept {w : Who} {f : Thread → Thread} (hf : (s.thread w).registersOnly (f (s.thread w))) :
    let g := (s.retired w 4 f).thread w
    s.onlyThread (s.retired w 4 f) w ∧ s.sameMemory (s.retired w 4 f) ∧
      g = { s.thread w with g := g.g, p := g.p, ga0 := g.ga0, ga1 := g.ga1, fxstat := g.fxstat, pc := (s.thread w).pc + 4, pmc := g.pmc,
                            given := Option.none } := by
  have hthread := s.thread_retired w 4 f
  rw [Thread.registersOnly] at hf
  refine ⟨s.onlyThread_retired w 4 f, (s.onlyThread_retired w 4 f).sameMemory, ?_⟩
  obtain ⟨hg, hp, h0, h1, hx⟩ := s.thread_retired_of w f
  rw [hg, hp, h0, h1, hx]
  conv_lhs => rw [hthread, hf]
  rfl

/-- A command changes registers of its thread, the program counter and counters only, and leaves the thread with a property. -/
def State.registersChange (s : State) (w : Who) (c : Instr) (P : Thread → Prop) : Prop :=
  ∃ t, exec c s = .next t ∧ (s.onlyThread t w ∧ s.sameMemory t ∧ t.thread w = { s.thread w with
    g := (t.thread w).g, p := (t.thread w).p, ga0 := (t.thread w).ga0, ga1 := (t.thread w).ga1, fxstat := (t.thread w).fxstat,
    pc := (s.thread w).pc + 4, pmc := (t.thread w).pmc, given := Option.none }) ∧ (t.thread w).reg 0 = 0 ∧ P (t.thread w)

/-- A form that completes with a change of registers only keeps the frame, and what the change leaves of the registers it leaves. -/
theorem registersChange_of {w : Who} {f : Thread → Thread} {P : Thread → Prop} (hc : exec c s = .next (s.retired w 4 f))
    (hf : (s.thread w).registersOnly (f (s.thread w)))
    (hP : ∀ g : Thread, g.g = (f (s.thread w)).g → g.p = (f (s.thread w)).p → g.ga0 = (f (s.thread w)).ga0 → g.ga1 = (f (s.thread w)).ga1 →
      g.fxstat = (f (s.thread w)).fxstat → P g) : s.registersChange w c P := by
  obtain ⟨hg, hp, h0, h1, hx⟩ := s.thread_retired_of w f
  exact ⟨_, hc, s.retired_kept hf, rfl, hP _ hg hp h0 h1 hx⟩

theorem Thread.reg_congr {g h : Thread} (hg : g.g = h.g) (r : BitVec 5) : g.reg r = h.reg r := by rw [Thread.reg, Thread.reg, hg]

theorem Thread.pred_congr {g h : Thread} (hg : g.p = h.p) (r : BitVec 3) : g.pred r = h.pred r := by rw [Thread.pred, Thread.pred, hg]

theorem Thread.reg_setReg_other (h : Thread) {r q : BitVec 5} (v : Word) (hq : q ≠ r) : (h.setReg r v).reg q = h.reg q := by
  rw [Thread.reg_setReg, if_neg (fun e => hq e.1)]

theorem Thread.pred_setPred_other (h : Thread) {r q : BitVec 3} (v : Word) (hq : q ≠ r) : (h.setPred r v).pred q = h.pred q := by
  rw [Thread.pred_setPred, if_neg (fun e => hq e.1)]

@[simp] theorem Thread.fxFlag_words (h : Thread) (f : Fit) :
    (h.fxFlag f).g = h.g ∧ (h.fxFlag f).p = h.p ∧ (h.fxFlag f).ga0 = h.ga0 ∧ (h.fxFlag f).ga1 = h.ga1 := by
  cases f <;> exact ⟨rfl, rfl, rfl, rfl⟩

/-- Settles O3: each form completes with a change of its thread that touches registers only, and each such change keeps the frame. -/
theorem registerFrame : Obligations.RegisterFrame := by
  intro s i rd rs1 rs2 ps1 ps2 imm x h th kept regs only
  have general {c : Instr} {v : Word} (hc : exec c s = .next (s.retired i.who 4 (fun g => g.setReg rd v))) :
      s.registersChange i.who c (fun g => regs g ∧ g.p = th.p ∧ g.ga0 = th.ga0 ∧ g.ga1 = th.ga1 ∧ g.fxstat = th.fxstat) := by
    refine registersChange_of hc (Thread.registersOnly_setReg _ _ _) fun g hg hp h0 h1 hx => ?_
    rw [Thread.setReg_eq] at hp h0 h1 hx
    exact ⟨fun r hr => (Thread.reg_congr hg r).trans (Thread.reg_setReg_other _ _ hr), hp, h0, h1, hx⟩
  have flagged {c : Instr} {v : Word} {f : Fit} (hc : exec c s = .next (s.retired i.who 4 (fun g => (g.setReg rd v).fxFlag f))) :
      s.registersChange i.who c (fun g => regs g ∧ g.p = th.p ∧ g.ga0 = th.ga0 ∧ g.ga1 = th.ga1) := by
    refine registersChange_of hc (Thread.registersOnly_fxFlag (Thread.registersOnly_setReg _ _ _) _) fun g hg hp h0 h1 _ => ?_
    obtain ⟨fg, fp, f0, f1⟩ := Thread.fxFlag_words (th.setReg rd v) f
    rw [fp, Thread.setReg_eq] at hp
    rw [f0, Thread.setReg_eq] at h0
    rw [f1, Thread.setReg_eq] at h1
    exact ⟨fun r hr => (Thread.reg_congr (hg.trans fg) r).trans (Thread.reg_setReg_other _ _ hr), hp, h0, h1⟩
  have accumulates {c : Instr} {v : BitVec 72} {f : Fit} (hc : exec c s = .next (s.retired i.who 4 (fun g => (g.setGa x.ga v).fxFlag f))) :
      s.registersChange i.who c (fun g => g.g = th.g ∧ g.p = th.p ∧ (x.ga = true → g.ga0 = th.ga0) ∧ (x.ga = false → g.ga1 = th.ga1)) := by
    refine registersChange_of hc (Thread.registersOnly_fxFlag (Thread.registersOnly_setGa _ _ _) _) fun g hg hp h0 h1 _ => ?_
    obtain ⟨fg, fp, f0, f1⟩ := Thread.fxFlag_words (th.setGa x.ga v) f
    rw [fg] at hg
    rw [fp] at hp
    rw [f0] at h0
    rw [f1] at h1
    cases hx : x.ga <;> rw [hx] at hg hp h0 h1
    · exact ⟨hg, hp, fun e => absurd e (by decide), fun _ => h1⟩
    · exact ⟨hg, hp, fun _ => h0, fun e => absurd e (by decide)⟩
  have predicate {c : Instr} {v : Word} (h7 : rd.toNat ≤ 7) (hc : exec c s = .next (s.retired i.who 4 (fun g => g.setPred (rd.truncate 3) v))) :
      s.registersChange i.who c (fun g => g.g = th.g ∧ (∀ p : BitVec 3, p.toNat ≠ rd.toNat →
        g.pred p = th.pred p) ∧ g.ga0 = th.ga0 ∧ g.ga1 = th.ga1 ∧ g.fxstat = th.fxstat) := by
    refine registersChange_of hc (Thread.registersOnly_setPred _ _ _) fun g hg hp h0 h1 hx => ?_
    rw [Thread.setPred_eq] at hg h0 h1 hx
    refine ⟨hg, fun p hne => (Thread.pred_congr hp p).trans (Thread.pred_setPred_other _ _ fun e => hne ?_), h0, h1, hx⟩
    rw [e, BitVec.truncate_eq_setWidth, BitVec.toNat_setWidth]
    omega
  obtain ⟨hreg, himm⟩ := integerResults
  obtain ⟨hcmp, hfx⟩ := predicateAndFixedPointResults
  obtain ⟨r1, r2, r3, r4, r5, r6, r7, r8, r9, r10, r11, r12, r13, r14, r15, r16, r17⟩ := hreg s i rd rs1 rs2 h
  obtain ⟨i1, i2, i3, i4, i5, hshift, _⟩ := himm s i rd rs1 imm h
  obtain ⟨c1, c2, c3, c4, c5, c6, c7, c8, c9⟩ := hcmp s i rd rs1 rs2 ps1 ps2 h
  obtain ⟨q1, q2, q3, q4, q5, q6, q7, q8, q9⟩ := hfx s i rd rs1 rs2 x h
  simp only [List.forall_mem_cons, List.not_mem_nil, false_imp_iff, implies_true, and_true]
  refine ⟨⟨general r1, general r2, general r3, general r4, general r5, general r6, general r7, general r8, general r9, general r10,
    general r11, general r12, general r13, general r14, general r15, general r16, general r17, general i1, general i2, general i3,
    general i4, general i5, general q7, general q8⟩, fun hi => general (hshift hi), ⟨flagged q1, flagged q2, flagged q3, flagged q5⟩,
    ⟨accumulates q4, accumulates (f := .fits) q6, accumulates (f := .fits) q9⟩, fun h1 h7 => ?_⟩
  have taken {c : Instr} {v : Word} (hc : exec c s = .next (if 1 ≤ rd.toNat ∧ rd.toNat ≤ 7 then s.retired i.who 4 (fun g => g.setPred (rd.truncate 3) v)
      else s.settle i.who false (.trap s { code := 0x01, detail := 0x02 }))) := predicate h7 (hc.trans (by rw [if_pos ⟨h1, h7⟩]))
  exact ⟨taken c1, taken c2, taken c3, taken c4, taken c5, taken c6, taken c7, taken c8, taken c9⟩

end Sys2Proof.Machine
end

section
/-! What an encoding spells (R60, R61, R85): each field of a format read back from the word that is its concatenation. -/

namespace Sys2Proof.Machine

theorem extract_low {m n s k : Nat} {x : BitVec m} {y : BitVec n} {f : BitVec k} (hf : y.extractLsb' s k = f)
    (h : s + k ≤ n := by decide) : (x ++ y).extractLsb' s k = f := (BitVec.extractLsb'_append_eq_of_add_le h).trans hf

theorem extract_high {m n : Nat} {x : BitVec m} {y : BitVec n} : (x ++ y).extractLsb' n m = x := by
  rw [BitVec.extractLsb'_append_eq_of_le (Nat.le_refl n), Nat.sub_self, BitVec.extractLsb'_eq_self]

theorem extract_top {m n s k : Nat} {x : BitVec m} {y : BitVec n} {f : BitVec k} (hf : x.extractLsb' (s - n) k = f)
    (h : n ≤ s := by decide) : (x ++ y).extractLsb' s k = f := (BitVec.extractLsb'_append_eq_of_le h).trans hf

theorem bit_low {m n i : Nat} {x : BitVec m} {y : BitVec n} {g : Bool} (hg : y.getLsbD i = g) (h : i < n := by decide) :
    (x ++ y).getLsbD i = g := by rw [BitVec.getLsbD_append, if_pos h, hg]

theorem bit_high {n : Nat} {g : Bool} {y : BitVec n} : (BitVec.ofBool g ++ y).getLsbD n = g := by
  rw [BitVec.getLsbD_append, if_neg (Nat.lt_irrefl n), Nat.sub_self, BitVec.getLsbD_ofBool]; simp

theorem bit_top {m n i : Nat} {x : BitVec m} {y : BitVec n} {g : Bool} (hg : x.getLsbD (i - n) = g) (h : n ≤ i := by decide) :
    (x ++ y).getLsbD i = g := by rw [BitVec.getLsbD_append, if_neg (Nat.not_lt.mpr h), hg]

/-- R60: a word of 32 bits whose bits 31:29 are not all ones spells the instruction it decodes to. -/
theorem decodeTableWord_short {x : BitVec 32} {c : Instr} (h : x.extractLsb' 29 3 ≠ 7) (hc : decodeInsn ⟨0, 0⟩ (0#32 ++ x) = c) :
    decodeTableWord 32 x.toNat = some c := by
  have hx : BitVec.ofNat 64 x.toNat = 0#32 ++ x := by
    apply BitVec.eq_of_toNat_eq
    rw [BitVec.toNat_append, ← Nat.shiftLeft_add_eq_or_of_lt x.isLt, BitVec.toNat_ofNat]
    simp; omega
  have hl : (0#32 ++ x).extractLsb' 29 3 = x.extractLsb' 29 3 := extract_low rfl
  rw [decodeTableWord, hx, hl, if_pos (.inl ⟨rfl, by simpa using h⟩), hc]

/-- R60, R85: a pair of words whose first one has bits 31:29 all ones spells the instruction it decodes to. -/
theorem decodeTableWord_far {hi lo : BitVec 32} {c : Instr} (h : lo.extractLsb' 29 3 = 7) (hc : decodeInsn ⟨0, 0⟩ (hi ++ lo) = c) :
    decodeTableWord 64 (lo.toNat + 2 ^ 32 * hi.toNat) = some c := by
  have hx : BitVec.ofNat 64 (lo.toNat + 2 ^ 32 * hi.toNat) = hi ++ lo := by
    apply BitVec.eq_of_toNat_eq
    rw [BitVec.toNat_append, ← Nat.shiftLeft_add_eq_or_of_lt lo.isLt, Nat.shiftLeft_eq, BitVec.toNat_ofNat]
    omega
  have hl : (hi ++ lo).extractLsb' 29 3 = 7 := extract_low h
  rw [decodeTableWord, hx, hl, if_pos (.inr ⟨rfl, rfl⟩), hc]

section
variable {c : Instr} {op : BitVec 6} {d a b : BitVec 5}

/-- Format R (R61). -/
theorem decode_R {aux : BitVec 5} {f : BitVec 6} (hop : op.extractLsb' 3 3 ≠ 7)
    (h : ∀ x : BitVec 64, x.extractLsb' 26 6 = op → fieldRd x = d → fieldRs1 x = a → fieldRs2 x = b → fieldAux x = aux → x.extractLsb' 0 6 = f →
      decodeInsn ⟨0, 0⟩ x = c) :
    decodeTableWord 32 (op ++ (d ++ (a ++ (b ++ (aux ++ f)))) : BitVec 32).toNat = some c :=
  decodeTableWord_short (ne_of_eq_of_ne (extract_top rfl) hop) (h _ (extract_low extract_high)
    (extract_low (extract_low extract_high))
    (extract_low (extract_low (extract_low extract_high)))
    (extract_low (extract_low (extract_low (extract_low extract_high))))
    (extract_low (extract_low (extract_low (extract_low (extract_low extract_high)))))
    (extract_low (extract_low (extract_low (extract_low (extract_low (extract_low BitVec.extractLsb'_eq_self)))))))

/-- Format I (R61). -/
theorem decode_I {imm : BitVec 16} (hop : op.extractLsb' 3 3 ≠ 7)
    (h : ∀ x : BitVec 64, x.extractLsb' 26 6 = op → fieldRd x = d → fieldRs1 x = a → x.extractLsb' 0 16 = imm → decodeInsn ⟨0, 0⟩ x = c) :
    decodeTableWord 32 (op ++ (d ++ (a ++ imm)) : BitVec 32).toNat = some c :=
  decodeTableWord_short (ne_of_eq_of_ne (extract_top rfl) hop) (h _ (extract_low extract_high)
    (extract_low (extract_low extract_high))
    (extract_low (extract_low (extract_low extract_high)))
    (extract_low (extract_low (extract_low (extract_low BitVec.extractLsb'_eq_self)))))

/-- Format R with the AUX of OPC 0x01 (R61). -/
theorem decode_fixed {y z g : Bool} {r : BitVec 2} {f : BitVec 6} (hop : op.extractLsb' 3 3 ≠ 7)
    (h : ∀ x : BitVec 64, x.extractLsb' 26 6 = op → fieldRd x = d → fieldRs1 x = a → fieldRs2 x = b → fieldFx x = ⟨y, r, z, g⟩ →
      x.extractLsb' 0 6 = f → decodeInsn ⟨0, 0⟩ x = c) :
    decodeTableWord 32 (op ++ (d ++ (a ++ (b ++ (BitVec.ofBool y ++ (r ++ (BitVec.ofBool z ++ (BitVec.ofBool g ++ f))))))) : BitVec 32).toNat = some c :=
  decodeTableWord_short (ne_of_eq_of_ne (extract_top rfl) hop) (h _ (extract_low extract_high)
    (extract_low (extract_low extract_high))
    (extract_low (extract_low (extract_low extract_high)))
    (extract_low (extract_low (extract_low (extract_low extract_high))))
    ((FxAux.mk.injEq ..).mpr ⟨bit_low (bit_low (bit_low (bit_low (bit_low bit_high)))),
      extract_low (extract_low (extract_low (extract_low (extract_low (extract_low extract_high))))),
      bit_low (bit_low (bit_low (bit_low (bit_low (bit_low (bit_low bit_high)))))),
      bit_low (bit_low (bit_low (bit_low (bit_low (bit_low (bit_low (bit_low bit_high)))))))⟩)
    (extract_low (extract_low (extract_low (extract_low (extract_low (extract_low (extract_low (extract_low (extract_low BitVec.extractLsb'_eq_self))))))))))

/-- Format M (R61). -/
theorem decode_M {mode : BitVec 2} {g nc : Bool} {disp : BitVec 12} (hop : op.extractLsb' 3 3 ≠ 7)
    (h : ∀ x : BitVec 64, x.extractLsb' 26 6 = op → fieldRd x = d → fieldRs1 x = a → fieldMem x = ⟨mode, g, nc, disp⟩ → decodeInsn ⟨0, 0⟩ x = c) :
    decodeTableWord 32 (op ++ (d ++ (a ++ (mode ++ (BitVec.ofBool g ++ (BitVec.ofBool nc ++ disp))))) : BitVec 32).toNat = some c :=
  decodeTableWord_short (ne_of_eq_of_ne (extract_top rfl) hop) (h _ (extract_low extract_high)
    (extract_low (extract_low extract_high))
    (extract_low (extract_low (extract_low extract_high)))
    ((MemF.mk.injEq ..).mpr ⟨extract_low (extract_low (extract_low (extract_low extract_high))),
      bit_low (bit_low (bit_low (bit_low (bit_low bit_high)))), bit_low (bit_low (bit_low (bit_low (bit_low (bit_low bit_high))))),
      extract_low (extract_low (extract_low (extract_low (extract_low (extract_low (extract_low BitVec.extractLsb'_eq_self))))))⟩))

/-- Format A (R64). -/
theorem decode_A {e : BitVec 3} {f : BitVec 8} (hop : op.extractLsb' 3 3 ≠ 7)
    (h : ∀ x : BitVec 64, x.extractLsb' 26 6 = op → fieldRd x = d → fieldRs1 x = a → fieldRs2 x = b → x.extractLsb' 8 3 = e → x.extractLsb' 0 8 = f →
      decodeInsn ⟨0, 0⟩ x = c) :
    decodeTableWord 32 (op ++ (d ++ (a ++ (b ++ (e ++ f)))) : BitVec 32).toNat = some c :=
  decodeTableWord_short (ne_of_eq_of_ne (extract_top rfl) hop) (h _ (extract_low extract_high)
    (extract_low (extract_low extract_high))
    (extract_low (extract_low (extract_low extract_high)))
    (extract_low (extract_low (extract_low (extract_low extract_high))))
    (extract_low (extract_low (extract_low (extract_low (extract_low extract_high)))))
    (extract_low (extract_low (extract_low (extract_low (extract_low (extract_low BitVec.extractLsb'_eq_self)))))))

/-- Format B (R61). -/
theorem decode_B {p : BitVec 3} {y : Bool} {off : BitVec 22} (hop : op.extractLsb' 3 3 ≠ 7)
    (h : ∀ x : BitVec 64, x.extractLsb' 26 6 = op → x.extractLsb' 23 3 = p → x.getLsbD 22 = y → x.extractLsb' 0 22 = off → decodeInsn ⟨0, 0⟩ x = c) :
    decodeTableWord 32 (op ++ (p ++ (BitVec.ofBool y ++ off)) : BitVec 32).toNat = some c :=
  decodeTableWord_short (ne_of_eq_of_ne (extract_top rfl) hop) (h _ (extract_low extract_high)
    (extract_low (extract_low extract_high))
    (bit_low (bit_low (bit_low bit_high)))
    (extract_low (extract_low (extract_low (extract_low BitVec.extractLsb'_eq_self)))))

/-- Format J (R61). -/
theorem decode_J {off : BitVec 21} (hop : op.extractLsb' 3 3 ≠ 7)
    (h : ∀ x : BitVec 64, x.extractLsb' 26 6 = op → fieldRd x = d → x.extractLsb' 0 21 = off → decodeInsn ⟨0, 0⟩ x = c) :
    decodeTableWord 32 (op ++ (d ++ off) : BitVec 32).toNat = some c :=
  decodeTableWord_short (ne_of_eq_of_ne (extract_top rfl) hop) (h _ (extract_low extract_high)
    (extract_low (extract_low extract_high))
    (extract_low (extract_low (extract_low BitVec.extractLsb'_eq_self))))

/-- Format R with the level of a fence in its AUX (R61, R276). -/
theorem decode_fence {e : BitVec 2} {level : BitVec 3} {f : BitVec 6} (hop : op.extractLsb' 3 3 ≠ 7)
    (h : ∀ x : BitVec 64, x.extractLsb' 26 6 = op → fieldRd x = d → fieldRs1 x = a → fieldRs2 x = b → x.extractLsb' 9 2 = e →
      x.extractLsb' 6 3 = level → x.extractLsb' 0 6 = f → decodeInsn ⟨0, 0⟩ x = c) :
    decodeTableWord 32 (op ++ (d ++ (a ++ (b ++ (e ++ (level ++ f))))) : BitVec 32).toNat = some c :=
  decodeTableWord_short (ne_of_eq_of_ne (extract_top rfl) hop) (h _ (extract_low extract_high)
    (extract_low (extract_low extract_high))
    (extract_low (extract_low (extract_low extract_high)))
    (extract_low (extract_low (extract_low (extract_low extract_high))))
    (extract_low (extract_low (extract_low (extract_low (extract_low extract_high)))))
    (extract_low (extract_low (extract_low (extract_low (extract_low (extract_low extract_high))))))
    (extract_low (extract_low (extract_low (extract_low (extract_low (extract_low (extract_low BitVec.extractLsb'_eq_self))))))))

/-- The vector format (R167). -/
theorem decode_vector {p : BitVec 3} {z y : Bool} {r : BitVec 2} {fm : BitVec 4} {gs vd v1 v2 v3 : BitVec 5} {imm : BitVec 16} {f : BitVec 6} (hop : op.extractLsb' 3 3 = 7)
    (h : ∀ x : BitVec 64, x.extractLsb' 26 6 = op → x.extractLsb' 20 6 = f → x.extractLsb' 61 3 = p → x.getLsbD 60 = z → x.extractLsb' 56 4 = fm →
      x.getLsbD 55 = y → x.extractLsb' 53 2 = r → x.extractLsb' 48 5 = gs → x.extractLsb' 32 16 = imm → x.extractLsb' 15 5 = vd →
      x.extractLsb' 10 5 = v1 → x.extractLsb' 5 5 = v2 → x.extractLsb' 0 5 = v3 → decodeInsn ⟨0, 0⟩ x = c) :
    decodeTableWord 64 ((op ++ (f ++ (vd ++ (v1 ++ (v2 ++ v3)))) : BitVec 32).toNat + 2 ^ 32 * (p ++ (BitVec.ofBool z ++ (fm ++ (BitVec.ofBool y ++ (r ++ (gs ++ imm))))) : BitVec 32).toNat) = some c :=
  decodeTableWord_far (extract_top hop) (h _ (extract_low extract_high)
    (extract_low (extract_low extract_high))
    (extract_top extract_high)
    (bit_top (bit_low bit_high))
    (extract_top (extract_low (extract_low extract_high)))
    (bit_top (bit_low (bit_low (bit_low bit_high))))
    (extract_top (extract_low (extract_low (extract_low (extract_low extract_high)))))
    (extract_top (extract_low (extract_low (extract_low (extract_low (extract_low extract_high))))))
    (extract_top (extract_low (extract_low (extract_low (extract_low (extract_low (extract_low BitVec.extractLsb'_eq_self)))))))
    (extract_low (extract_low (extract_low extract_high)))
    (extract_low (extract_low (extract_low (extract_low extract_high))))
    (extract_low (extract_low (extract_low (extract_low (extract_low extract_high)))))
    (extract_low (extract_low (extract_low (extract_low (extract_low (extract_low BitVec.extractLsb'_eq_self)))))))

/-- The matrix format (R98). -/
theorem decode_mm {f acc fa fb : BitVec 4} {ta tb : BitVec 3} {y z g : Bool} {e e' : BitVec 9} (hop : op.extractLsb' 3 3 = 7)
    (h : ∀ x : BitVec 64, x.extractLsb' 26 6 = op → x.extractLsb' 22 4 = f → x.extractLsb' 19 3 = ta → x.extractLsb' 16 3 = tb →
      x.extractLsb' 12 4 = acc → x.getLsbD 11 = y → x.getLsbD 10 = z → x.getLsbD 9 = g → x.extractLsb' 0 9 = e → x.extractLsb' 59 5 = d →
      x.extractLsb' 54 5 = a → x.extractLsb' 49 5 = b → x.extractLsb' 45 4 = fa → x.extractLsb' 41 4 = fb → x.extractLsb' 32 9 = e' → decodeInsn ⟨0, 0⟩ x = c) :
    decodeTableWord 64 ((op ++ (f ++ (ta ++ (tb ++ (acc ++ (BitVec.ofBool y ++ (BitVec.ofBool z ++ (BitVec.ofBool g ++ e))))))) : BitVec 32).toNat + 2 ^ 32 * (d ++ (a ++ (b ++ (fa ++ (fb ++ e')))) : BitVec 32).toNat) = some c :=
  decodeTableWord_far (extract_top hop) (h _ (extract_low extract_high)
    (extract_low (extract_low extract_high))
    (extract_low (extract_low (extract_low extract_high)))
    (extract_low (extract_low (extract_low (extract_low extract_high))))
    (extract_low (extract_low (extract_low (extract_low (extract_low extract_high)))))
    (bit_low (bit_low (bit_low (bit_low (bit_low (bit_low bit_high))))))
    (bit_low (bit_low (bit_low (bit_low (bit_low (bit_low (bit_low bit_high)))))))
    (bit_low (bit_low (bit_low (bit_low (bit_low (bit_low (bit_low (bit_low bit_high))))))))
    (extract_low (extract_low (extract_low (extract_low (extract_low (extract_low (extract_low (extract_low (extract_low BitVec.extractLsb'_eq_self)))))))))
    (extract_top extract_high)
    (extract_top (extract_low extract_high))
    (extract_top (extract_low (extract_low extract_high)))
    (extract_top (extract_low (extract_low (extract_low extract_high))))
    (extract_top (extract_low (extract_low (extract_low (extract_low extract_high)))))
    (extract_top (extract_low (extract_low (extract_low (extract_low (extract_low BitVec.extractLsb'_eq_self)))))))

/-- The accumulator format (R110). -/
theorem decode_acc {f acc : BitVec 4} {e k : Bool} {low : BitVec 11} {top : BitVec 27} (hop : op.extractLsb' 3 3 = 7)
    (h : ∀ x : BitVec 64, x.extractLsb' 26 6 = op → x.extractLsb' 22 4 = f → x.extractLsb' 17 5 = d → x.getLsbD 16 = e → x.extractLsb' 12 4 = acc →
      x.getLsbD 11 = k → x.extractLsb' 0 11 = low → x.extractLsb' 59 5 = a → x.extractLsb' 32 27 = top → decodeInsn ⟨0, 0⟩ x = c) :
    decodeTableWord 64 ((op ++ (f ++ (d ++ (BitVec.ofBool e ++ (acc ++ (BitVec.ofBool k ++ low))))) : BitVec 32).toNat + 2 ^ 32 * (a ++ top : BitVec 32).toNat) = some c :=
  decodeTableWord_far (extract_top hop) (h _ (extract_low extract_high)
    (extract_low (extract_low extract_high))
    (extract_low (extract_low (extract_low extract_high)))
    (bit_low (bit_low (bit_low (bit_low bit_high))))
    (extract_low (extract_low (extract_low (extract_low (extract_low extract_high)))))
    (bit_low (bit_low (bit_low (bit_low (bit_low (bit_low bit_high))))))
    (extract_low (extract_low (extract_low (extract_low (extract_low (extract_low (extract_low BitVec.extractLsb'_eq_self)))))))
    (extract_top extract_high)
    (extract_top (extract_low BitVec.extractLsb'_eq_self)))

/-- The tile memory format (R85). -/
theorem decode_tile {f td p : BitVec 3} {rs kf low : BitVec 5} {fm : BitVec 4} {g y : Bool} {top : BitVec 18} (hop : op.extractLsb' 3 3 = 7)
    (h : ∀ x : BitVec 64, x.extractLsb' 26 6 = op → x.extractLsb' 23 3 = f → x.extractLsb' 20 3 = td → x.extractLsb' 15 5 = b →
      x.extractLsb' 10 5 = rs → x.getLsbD 9 = g → x.getLsbD 8 = y → x.extractLsb' 5 3 = p → x.extractLsb' 0 5 = low → x.extractLsb' 59 5 = a →
      x.extractLsb' 54 5 = kf → x.extractLsb' 50 4 = fm → x.extractLsb' 32 18 = top → decodeInsn ⟨0, 0⟩ x = c) :
    decodeTableWord 64 ((op ++ (f ++ (td ++ (b ++ (rs ++ (BitVec.ofBool g ++ (BitVec.ofBool y ++ (p ++ low))))))) : BitVec 32).toNat + 2 ^ 32 * (a ++ (kf ++ (fm ++ top)) : BitVec 32).toNat) = some c :=
  decodeTableWord_far (extract_top hop) (h _ (extract_low extract_high)
    (extract_low (extract_low extract_high))
    (extract_low (extract_low (extract_low extract_high)))
    (extract_low (extract_low (extract_low (extract_low extract_high))))
    (extract_low (extract_low (extract_low (extract_low (extract_low extract_high)))))
    (bit_low (bit_low (bit_low (bit_low (bit_low (bit_low bit_high))))))
    (bit_low (bit_low (bit_low (bit_low (bit_low (bit_low (bit_low bit_high)))))))
    (extract_low (extract_low (extract_low (extract_low (extract_low (extract_low (extract_low (extract_low extract_high))))))))
    (extract_low (extract_low (extract_low (extract_low (extract_low (extract_low (extract_low (extract_low (extract_low BitVec.extractLsb'_eq_self)))))))))
    (extract_top extract_high)
    (extract_top (extract_low extract_high))
    (extract_top (extract_low (extract_low extract_high)))
    (extract_top (extract_low (extract_low (extract_low BitVec.extractLsb'_eq_self)))))

/-- The queue format with a timeout and an argument (R306). -/
theorem decode_send {tmo : BitVec 16} {arg e : BitVec 8} {f : BitVec 2} {y : Bool} {low : BitVec 8} (hop : op.extractLsb' 3 3 = 7)
    (h : ∀ x : BitVec 64, x.extractLsb' 26 6 = op → x.extractLsb' 24 2 = f → x.extractLsb' 19 5 = d → x.extractLsb' 14 5 = a →
      x.extractLsb' 9 5 = b → x.getLsbD 8 = y → x.extractLsb' 0 8 = low → x.extractLsb' 48 16 = tmo → x.extractLsb' 40 8 = arg →
      x.extractLsb' 32 8 = e → decodeInsn ⟨0, 0⟩ x = c) :
    decodeTableWord 64 ((op ++ (f ++ (d ++ (a ++ (b ++ (BitVec.ofBool y ++ low))))) : BitVec 32).toNat + 2 ^ 32 * (tmo ++ (arg ++ e) : BitVec 32).toNat) = some c :=
  decodeTableWord_far (extract_top hop) (h _ (extract_low extract_high)
    (extract_low (extract_low extract_high))
    (extract_low (extract_low (extract_low extract_high)))
    (extract_low (extract_low (extract_low (extract_low extract_high))))
    (extract_low (extract_low (extract_low (extract_low (extract_low extract_high)))))
    (bit_low (bit_low (bit_low (bit_low (bit_low (bit_low bit_high))))))
    (extract_low (extract_low (extract_low (extract_low (extract_low (extract_low (extract_low BitVec.extractLsb'_eq_self)))))))
    (extract_top extract_high)
    (extract_top (extract_low extract_high))
    (extract_top (extract_low (extract_low BitVec.extractLsb'_eq_self))))

/-- The queue format with a timeout and a mask (R306). -/
theorem decode_select {tmo mask : BitVec 16} {f : BitVec 2} {y : Bool} {low : BitVec 8} (hop : op.extractLsb' 3 3 = 7)
    (h : ∀ x : BitVec 64, x.extractLsb' 26 6 = op → x.extractLsb' 24 2 = f → x.extractLsb' 19 5 = d → x.extractLsb' 14 5 = a →
      x.extractLsb' 9 5 = b → x.getLsbD 8 = y → x.extractLsb' 0 8 = low → x.extractLsb' 48 16 = tmo → x.extractLsb' 32 16 = mask → decodeInsn ⟨0, 0⟩ x = c) :
    decodeTableWord 64 ((op ++ (f ++ (d ++ (a ++ (b ++ (BitVec.ofBool y ++ low))))) : BitVec 32).toNat + 2 ^ 32 * (tmo ++ mask : BitVec 32).toNat) = some c :=
  decodeTableWord_far (extract_top hop) (h _ (extract_low extract_high)
    (extract_low (extract_low extract_high))
    (extract_low (extract_low (extract_low extract_high)))
    (extract_low (extract_low (extract_low (extract_low extract_high))))
    (extract_low (extract_low (extract_low (extract_low (extract_low extract_high)))))
    (bit_low (bit_low (bit_low (bit_low (bit_low (bit_low bit_high))))))
    (extract_low (extract_low (extract_low (extract_low (extract_low (extract_low (extract_low BitVec.extractLsb'_eq_self)))))))
    (extract_top extract_high)
    (extract_top (extract_low BitVec.extractLsb'_eq_self)))

end

/-- R60: an opcode that the map leaves out. -/
theorem decodeInsn_reserved {x : BitVec 64} {op : BitVec 6} (hop : x.extractLsb' 26 6 = op)
    (h : op.toNat ∈ [0x0A, 0x0B, 0x0D, 0x0E, 0x0F, 0x17, 0x1D, 0x1E, 0x1F, 0x23, 0x25, 0x28, 0x30, 0x37]) :
    decodeInsn ⟨0, 0⟩ x = .nop { who := ⟨0, 0⟩, rsv := some op, found := .clean } := by
  have hbad : reservedInsn ⟨0, 0⟩ x = .nop { who := ⟨0, 0⟩, rsv := some op, found := .clean } := by rw [← hop]; rfl
  rw [← hbad]
  simp only [List.mem_cons, List.not_mem_nil, or_false] at h
  simp only [decodeInsn, hop]
  rcases h with h | h | h | h | h | h | h | h | h | h | h | h | h | h <;> simp only [h]

/-- R60: a FUNC of OPC 0x00 that the table leaves out. -/
theorem decodeInt_reserved {x : BitVec 64} {f : BitVec 6} (hf : x.extractLsb' 0 6 = f) (h : 17 ≤ f.toNat) (w : Who) :
    decodeInt w x = reservedInsn w x := by
  obtain ⟨k, hk⟩ := Nat.exists_eq_add_of_le' h
  have hf : fieldFunc x = k + 17 := by rw [fieldFunc, hf, hk]
  simp only [decodeInt, hf]

/-- Thread 0 of core 0, as an encoding that is not reserved names it. -/
def plainIss : Iss := { who := ⟨0, 0⟩, rsv := Option.none, found := .clean }

/-- Thread 0 of core 0, as a reserved encoding with this opcode names it. -/
def badIss (op : BitVec 6) : Iss := { who := ⟨0, 0⟩, rsv := some op, found := .clean }

/-- A word of 32 bits spells an instruction. -/
def Spells (x : BitVec 32) (c : Instr) : Prop := decodeTableWord 32 x.toNat = some c

/-- A pair of words, the second one named first, spells an instruction. -/
def FarSpells (hi lo : BitVec 32) (c : Instr) : Prop := decodeTableWord 64 (lo.toNat + 2 ^ 32 * hi.toNat) = some c

section
variable (d a b aux : BitVec 5) (imm : BitVec 16) (mode : BitVec 2) (g nc y z : Bool) (disp : BitVec 12) (offB : BitVec 22) (offJ : BitVec 21)
  (p td : BitVec 3) (f4 e4 acc : BitVec 4) (tmo mask : BitVec 16) (arg : BitVec 8) (r2 : BitVec 2) (op f6 : BitVec 6)

theorem spells_addR : Spells (0x00#6 ++ (d ++ (a ++ (b ++ (0#5 ++ 0#6))))) (.addR plainIss d a b) :=
  decode_R (by decide) fun x hop hd ha hb haux hf => by simp [decodeInsn, decodeInt, fieldFunc, issOf, plainIss, hop, hd, ha, hb, haux, hf]

theorem spells_maxR : Spells (0x00#6 ++ (d ++ (a ++ (b ++ (0#5 ++ 16#6))))) (.maxR plainIss d a b) :=
  decode_R (by decide) fun x hop hd ha hb haux hf => by simp [decodeInsn, decodeInt, fieldFunc, issOf, plainIss, hop, hd, ha, hb, haux, hf]

theorem spells_divR : Spells (0x00#6 ++ (d ++ (a ++ (b ++ (0#5 ++ 11#6))))) (.divR plainIss d a b) :=
  decode_R (by decide) fun x hop hd ha hb haux hf => by simp [decodeInsn, decodeInt, fieldFunc, issOf, plainIss, hop, hd, ha, hb, haux, hf]

theorem spells_cmpLt : Spells (0x02#6 ++ (d ++ (a ++ (b ++ (0#5 ++ 2#6))))) (.cmpLt plainIss d a b) :=
  decode_R (by decide) fun x hop hd ha hb haux hf => by simp [decodeInsn, decodeCmp, fieldFunc, issOf, plainIss, hop, hd, ha, hb, haux, hf]

theorem spells_qmul : Spells (0x01#6 ++ (d ++ (a ++ (b ++ (BitVec.ofBool y ++ (r2 ++ (BitVec.ofBool z ++ (BitVec.ofBool g ++ 2#6))))))))
    (.qmul plainIss d a b ⟨y, r2, z, g⟩) :=
  decode_fixed (by decide) fun x hop hd ha hb hq hf => by simp [decodeInsn, decodeFixed, fieldFunc, issOf, plainIss, hop, hd, ha, hb, hq, hf]

theorem spells_addi : Spells (0x04#6 ++ (d ++ (a ++ imm))) (.addi plainIss d a imm) :=
  decode_I (by decide) fun x hop hd ha hi => by simp [decodeInsn, issOf, plainIss, hop, hd, ha, hi]

theorem spells_shli : Spells (0x08#6 ++ (d ++ (a ++ imm))) (.shli plainIss d a imm) :=
  decode_I (by decide) fun x hop hd ha hi => by simp [decodeInsn, issOf, plainIss, hop, hd, ha, hi]

theorem spells_lui : Spells (0x09#6 ++ (d ++ (0#5 ++ imm))) (.lui plainIss d imm) :=
  decode_I (by decide) fun x hop hd ha hi => by simp [decodeInsn, issOf, plainIss, hop, hd, ha, hi]

theorem spells_csrR : Spells (0x03#6 ++ (d ++ (0#5 ++ imm))) (.csrR plainIss d imm) :=
  decode_I (by decide) fun x hop hd ha hi => by simp [decodeInsn, issOf, plainIss, hop, hd, ha, hi]

theorem spells_csrW : Spells (0x0C#6 ++ (0#5 ++ (a ++ imm))) (.csrW plainIss a imm) :=
  decode_I (by decide) fun x hop hd ha hi => by simp [decodeInsn, issOf, plainIss, hop, hd, ha, hi]

theorem spells_ldD : Spells (0x16#6 ++ (d ++ (a ++ (mode ++ (BitVec.ofBool g ++ (BitVec.ofBool nc ++ disp)))))) (.ldD plainIss d a ⟨mode, g, nc, disp⟩) :=
  decode_M (by decide) fun x hop hd ha hm => by simp [decodeInsn, issOf, plainIss, hop, hd, ha, hm]

theorem spells_stW : Spells (0x1A#6 ++ (d ++ (a ++ (mode ++ (BitVec.ofBool g ++ (BitVec.ofBool nc ++ disp)))))) (.stW plainIss d a ⟨mode, g, nc, disp⟩) :=
  decode_M (by decide) fun x hop hd ha hm => by simp [decodeInsn, issOf, plainIss, hop, hd, ha, hm]

theorem spells_casD : Spells (0x1C#6 ++ (d ++ (a ++ (b ++ (0#3 ++ 5#8))))) (.casD plainIss d a b) :=
  decode_A (by decide) fun x hop hd ha hb he hf => by simp [decodeInsn, decodeAtomic, issOf, plainIss, hop, hd, ha, hb, he, hf]

theorem spells_bp : Spells (0x20#6 ++ (p ++ (BitVec.ofBool y ++ offB))) (.bp plainIss p y offB ⟨false, []⟩) :=
  decode_B (by decide) fun x hop hp hy ho => by simp [-BitVec.getLsbD_eq_getElem, decodeInsn, issOf, plainIss, hop, hp, hy, ho]

theorem spells_jal : Spells (0x21#6 ++ (d ++ offJ)) (.jal plainIss d offJ) :=
  decode_J (by decide) fun x hop hd ho => by simp [decodeInsn, issOf, plainIss, hop, hd, ho]

theorem spells_fork : Spells (0x24#6 ++ (d ++ (a ++ (b ++ (0#5 ++ 0#6))))) (.fork plainIss d a b) :=
  decode_R (by decide) fun x hop hd ha hb haux hf => by simp [decodeInsn, fieldFunc, issOf, plainIss, hop, hd, ha, hb, haux, hf]

theorem spells_cacheInv : Spells (0x26#6 ++ (0#5 ++ (a ++ (b ++ (0#5 ++ 6#6))))) (.cacheInv plainIss a b) :=
  decode_R (by decide) fun x hop hd ha hb haux hf => by simp [decodeInsn, decodeSystem, fieldFunc, issOf, plainIss, hop, ha, hb, haux, hf]

theorem spells_fenceM : Spells (0x26#6 ++ (0#5 ++ (0#5 ++ (0#5 ++ (0#2 ++ (3#3 ++ 5#6)))))) (.fenceM plainIss) :=
  decode_fence (by decide) fun x hop _ _ _ he hl hf => by simp [decodeInsn, decodeSystem, decodeFence, fieldFunc, issOf, plainIss, hop, he, hl, hf]

theorem spells_hbWait : Spells (0x27#6 ++ (d ++ (a ++ (b ++ (0#5 ++ 1#6))))) (.hbWait plainIss d a b) :=
  decode_R (by decide) fun x hop hd ha hb haux hf => by simp [decodeInsn, fieldFunc, issOf, plainIss, hop, hd, ha, hb, haux, hf]

theorem spells_reservedAux : aux ≠ 0 → op = 0 → Spells (0x00#6 ++ (d ++ (a ++ (b ++ (aux ++ 0#6))))) (.addR (badIss op) d a b) :=
  fun hne h0 => decode_R (by decide) fun x hop hd ha hb haux hf => by simp [decodeInsn, decodeInt, fieldFunc, issOf, badIss, hop, hd, ha, hb, haux,
    hf, h0, show aux ≠ 0#5 from hne]

theorem spells_reservedFunc : 17 ≤ f6.toNat → op = 0 → Spells (0x00#6 ++ (d ++ (a ++ (b ++ (0#5 ++ f6))))) (.nop (badIss op)) :=
  fun h17 h0 => decode_R (by decide) fun x hop _ _ _ _ hf => by
    have hbad : reservedInsn ⟨0, 0⟩ x = .nop (badIss op) := by simp [reservedInsn, issOf, badIss, hop, h0]
    rw [← hbad, ← decodeInt_reserved hf h17 ⟨0, 0⟩]
    simp only [decodeInsn, hop]
    rfl

theorem spells_reservedOp : op.toNat ∈ [0x0A, 0x0B, 0x0D, 0x0E, 0x0F, 0x17, 0x1D, 0x1E, 0x1F, 0x23, 0x25, 0x28, 0x30, 0x37] →
    Spells (op ++ (d ++ (a ++ imm))) (.nop (badIss op)) :=
  fun hmem => decode_I (fun h7 => by
    rw [BitVec.toNat_eq, BitVec.extractLsb'_toNat] at h7
    revert hmem
    simp at h7 ⊢
    omega) fun x hop _ _ _ => decodeInsn_reserved hop hmem

theorem spells_vfma (v : BitVec 5) : FarSpells (p ++ (BitVec.ofBool g ++ (f4 ++ (BitVec.ofBool y ++ (r2 ++ (aux ++ imm)))))) (0x38#6 ++ (3#6 ++ (d ++ (a ++ (b ++ v)))))
    (.vfma plainIss { pred := p, zm := g, fmt := f4, sat := y, rnd := r2, gs := aux, imm := imm, vd := d, vs1 := a, vs2 := b, vs3 := v }) :=
  decode_vector (by decide) fun x hop hf hp hz hfm hy hr hgs himm h1 h2 h3 h4 => by
    simp [-BitVec.getLsbD_eq_getElem, decodeInsn, decodeVector, issOf, plainIss, hop, hf, hp, hz, hfm, hy, hr, hgs, himm, h1, h2, h3, h4]

theorem spells_mm : FarSpells (d ++ (a ++ (b ++ (f4 ++ (e4 ++ 0#9))))) (0x3A#6 ++ (0#4 ++ (td ++ (p ++ (acc ++ (BitVec.ofBool y ++ (BitVec.ofBool z ++ (BitVec.ofBool g ++ 0#9))))))))
    (.mm plainIss { ta := td, tb := p, acc := acc, ovw := y, tra := z, scs := g, mf := d, nf := a, kf := b, fmta := f4, fmtb := e4 }) :=
  decode_mm (by decide) fun x hop hf hta htb hacc hy hz hg hlow hd ha hb hfa hfb htop => by
    simp [-BitVec.getLsbD_eq_getElem, decodeInsn, decodeMatrix, issOf, plainIss, hop, hf, hta, htb, hacc, hy, hz, hg, hlow, hd, ha, hb, hfa, hfb, htop]

theorem spells_accRow : FarSpells (aux ++ 0#27) (0x3A#6 ++ (8#4 ++ (d ++ (BitVec.ofBool false ++ (f4 ++ (BitVec.ofBool false ++ 0#11)))))) (.accRow plainIss f4 d aux) :=
  decode_acc (by decide) fun x hop hf hd h16 hacc hkeep hlow ha htop => by
    simp [-BitVec.getLsbD_eq_getElem, decodeInsn, decodeMatrix, issOf, plainIss, hop, hf, hd, h16, hacc, hkeep, hlow, ha, htop]

theorem spells_tld : FarSpells (d ++ (a ++ (f4 ++ 0#18))) (0x3B#6 ++ (0#3 ++ (td ++ (b ++ (aux ++ (BitVec.ofBool g ++ (BitVec.ofBool y ++ (p ++ 0#5))))))))
    (.tld plainIss { td := td, rb := b, rs := aux, g := g, src := y, strm := p, rows := d, kf := a, fmt := f4 }) :=
  decode_tile (by decide) fun x hop hf htd hb hrs hg hy hp hlow ha hkf hfm htop => by
    simp [-BitVec.getLsbD_eq_getElem, decodeInsn, decodeTile, issOf, plainIss, hop, hf, htd, hb, hrs, hg, hy, hp, hlow, ha, hkf, hfm, htop]

theorem spells_sndQ : FarSpells (tmo ++ (arg ++ 0#8)) (0x3C#6 ++ (0#2 ++ (d ++ (a ++ (b ++ (BitVec.ofBool false ++ 0#8)))))) (.sndQ plainIss tmo arg d a b) :=
  decode_send (by decide) fun x hop hf hd ha hb hy hlow htmo harg he => by
    simp [-BitVec.getLsbD_eq_getElem, decodeInsn, decodeQueue, issOf, plainIss, hop, hf, hd, ha, hb, hy, hlow, htmo, harg, he]

theorem spells_selQ : FarSpells (tmo ++ mask) (0x3C#6 ++ (1#2 ++ (d ++ (a ++ (0#5 ++ (BitVec.ofBool y ++ 0#8)))))) (.selQ plainIss tmo mask y d a) :=
  decode_select (by decide) fun x hop hf hd ha hb hy hlow htmo hmask => by
    simp [-BitVec.getLsbD_eq_getElem, decodeInsn, decodeQueue, issOf, plainIss, hop, hf, hd, ha, hb, hy, hlow, htmo, hmask]

theorem spells_noOther : ∀ x : Nat, decodeTableWord 16 x = Option.none :=
  fun x => by simp [decodeTableWord]

end

/-- R411, R513: what the idle step does to system time while the clocks run. -/
theorem State.tick_time {s : State} (h : s.boot.clocks = true) :
    let period := cyclePeriod (s.die 0).op
    s.tick = { s with time := s.tick.time, fab := { s.fab with slew := s.tick.fab.slew } } ∧
    s.time + period - period / 5000 ≤ s.tick.time ∧ s.tick.time ≤ s.time + period + period / 5000 ∧
    (s.fab.slew = 0 → s.tick.time = s.time + period ∧ s.tick.fab.slew = 0) := by
  intro period
  have hle : period / 5000 ≤ period := Nat.div_le_self ..
  have ht : s.tick.time = (((s.time + period : Nat) : Int) + max (-((period / 5000 : Nat) : Int)) (min ((period / 5000 : Nat) : Int) s.fab.slew)).toNat := by
    simp [State.tick, h, period]
  have hs : s.tick.fab.slew = s.fab.slew - max (-((period / 5000 : Nat) : Int)) (min ((period / 5000 : Nat) : Int) s.fab.slew) := by
    simp [State.tick, h, period]
  refine ⟨?_, ?_, ?_, fun h0 => ?_⟩
  · simp [State.tick, h]
  · rw [ht]; omega
  · rw [ht]; omega
  · rw [ht, hs, h0]; omega

theorem step_idle (s : State) : step { s with pending := [] } = .next (State.tick { s with pending := [] }) := by
  simp [step]

/-- R37: every register of a thread as reset leaves it reads 0. -/
theorem Thread.reg_blank (r : BitVec 5) : ({} : Thread).reg r = 0 := by
  rw [Thread.reg]
  split
  · rfl
  · rfl

/-- Settles O58: `step` by its definition and the clamp of the slew, each encoding by the fields of its format, the reset state by evaluation. -/
theorem stepTakesFront : Obligations.StepTakesFront := by
  refine ⟨fun s c rest => ⟨rfl, fun h => ?_, fun h => ?_⟩, fun d a b aux imm mode g nc y z disp offB offJ p td f4 e4 tmo mask arg r2 op f6 => ?_,
    fun w c q k d r l => ?_⟩
  · rw [step_idle, State.tick, if_pos (by simp [h])]
  · exact ⟨_, step_idle s, State.tick_time (s := { s with pending := [] }) h⟩
  · exact ⟨spells_addR d a b, spells_maxR d a b, spells_divR d a b, spells_cmpLt d a b, spells_qmul d a b g y z r2, spells_addi d a imm,
      spells_shli d a imm, spells_lui d imm, spells_csrR d imm, spells_csrW a imm, spells_ldD d a mode g nc disp, spells_stW d a mode g nc disp,
      spells_casD d a b, spells_bp y offB p, spells_jal d offJ, spells_fork d a b, spells_cacheInv a b, spells_fenceM, spells_hbWait d a b,
      spells_reservedAux d a b aux op, spells_reservedFunc d a b op f6, spells_reservedOp d a imm op, spells_vfma d a b aux imm g y p f4 r2 _,
      spells_mm d a b g y z p td f4 e4 _, spells_accRow d aux f4, spells_tld d a b aux g y p td f4, spells_sndQ d a b tmo arg,
      spells_selQ d a y tmo mask, spells_noOther⟩
  · refine ⟨rfl, rfl, rfl, Thread.reg_blank, rfl, rfl, rfl, rfl, rfl, rfl, rfl, rfl, rfl, rfl, rfl, rfl, rfl, ?_, rfl⟩
    cases l <;> rfl
end Sys2Proof.Machine
end

section
/-! What a performed write does to a running thread, and the scalar stores (R62, R63, R73, R266). -/

namespace Sys2Proof.Machine

/-! ### Every entry of a table changed, where one entry stays -/

/-- An entry that a change of every listed one does not make the default is changed, whatever else the table lists. -/
theorem Sparse.get_mapVals_of_ne {α : Type} [DecidableEq α] {d : α} {m : Sparse α} {f : Nat → α → α} {k : Nat} (hd : f k d = d)
    (h : f k (Sparse.get d m k) ≠ d) : Sparse.get d (Sparse.mapVals d f m) k = f k (Sparse.get d m k) := by
  induction m with
  | nil => exact absurd hd h
  | cons e m ih =>
    obtain ⟨j, v⟩ := e
    by_cases hj : j = k
    · subst hj
      rw [Sparse.get, if_pos rfl] at h ⊢
      rw [Sparse.mapVals, if_neg h, Sparse.get, if_pos rfl]
    · rw [Sparse.get, if_neg hj] at h ⊢
      rw [Sparse.mapVals]
      split
      · exact ih h
      · rw [Sparse.get, if_neg hj, ih h]

/-! ### Clearing reservations -/

/-- A thread without its reservation, if a test names that. -/
def Thread.unreserve (h : Thread) (p : Loc → Bool) : Thread :=
  if (match h.resv with | some l => p l | Option.none => false) then { h with resv := Option.none } else h

theorem Thread.unreserve_eq (h : Thread) (p : Loc → Bool) : h.unreserve p = { h with resv := (h.unreserve p).resv } := by
  unfold Thread.unreserve
  split
  next l _ =>
    by_cases hp : p l = true
    · simp only [if_pos hp]
    · simp only [if_neg hp]
  · rfl

@[simp] theorem Thread.unreserve_state (h : Thread) (p) : (h.unreserve p).state = h.state := by rw [Thread.unreserve_eq]
@[simp] theorem Thread.unreserve_loads (h : Thread) (p) : (h.unreserve p).loads = h.loads := by rw [Thread.unreserve_eq]

theorem Thread.unreserve_of_none {h : Thread} (hr : h.resv = Option.none) (p : Loc → Bool) : h.unreserve p = h := by
  rw [Thread.unreserve, hr]; rfl

theorem Thread.undisturbed_unreserve {h : Thread} (hq : h.undisturbed) (p : Loc → Bool) : (h.unreserve p).undisturbed := by
  rwa [Thread.undisturbed, Thread.unreserve_eq]

/-- A core whose threads have lost the reservations a test names. -/
def Core.unreserve (x : Core) (p : Loc → Bool) : Core := { x with threads := Sparse.mapVals {} (fun _ h => h.unreserve p) x.threads }

theorem Core.thread_unreserve {x : Core} {k : BitVec 2} (hr : (x.thread k).state = .run) (p : Loc → Bool) :
    (x.unreserve p).thread k = (x.thread k).unreserve p := by
  refine Sparse.get_mapVals_of_ne rfl (fun h => ?_)
  have hs := congrArg Thread.state h
  rw [Thread.unreserve_state, show (Sparse.get {} x.threads k.toNat).state = .run from hr] at hs
  cases hs

/-- The core of a thread that runs loses reservations and nothing else. -/
theorem State.core_clearResv_of_run {s : State} {w : Who} (hr : (s.thread w).state = .run) (p : Loc → Bool) :
    (s.clearResv p).core w.core = (s.core w.core).unreserve p := by
  have hrun : (((s.core w.core).unreserve p).thread w.thr).state = .run := by
    rw [Core.thread_unreserve hr, Thread.unreserve_state]; exact hr
  refine Sparse.get_mapVals_of_ne (f := fun _ x => Core.unreserve x p) rfl (fun h => ?_)
  rw [show (s.core w.core).unreserve p = {} from h] at hrun
  cases hrun

theorem State.thread_clearResv_of_run {s : State} {w : Who} (hr : (s.thread w).state = .run) (p : Loc → Bool) :
    (s.clearResv p).thread w = (s.thread w).unreserve p := by
  rw [State.thread, State.core_clearResv_of_run hr]
  exact Core.thread_unreserve hr p

/-! ### A performed write -/

/-- The reservations a write ends (R65). -/
def breaks (l : Loc) (bs : List (Option Byte)) (r : Loc) : Bool := r.sameUnit l && touches l.off bs (r.off / 64)

theorem State.thread_modDie (s : State) (d : DieIx) (f : Die → Die) (w : Who) : (s.modDie d f).thread w = s.thread w := rfl

theorem State.thread_putLoc (s : State) (l : Loc) (bs : List (Option Byte)) (w : Who) : (s.putLoc l bs).thread w = s.thread w := by
  cases l with
  | ls c o => exact State.thread_modCore (by rfl) w
  | loft d o => rfl
  | hbm d o => rfl
  | ddr d o => rfl
  | ctl c o => rfl
  | remote m a => rfl

theorem State.thread_setPoisonOf (s : State) (l : Loc) (m : Sparse Bool) (w : Who) : (s.setPoisonOf l m).thread w = s.thread w := by
  cases l with
  | ls c o => exact State.thread_modCore (by rfl) w
  | loft d o => rfl
  | hbm d o => rfl
  | ddr d o => rfl
  | ctl c o => rfl
  | remote m a => rfl

theorem State.thread_closeMerges (s : State) (l : Loc) (bs : List (Option Byte)) (w : Who) : (s.closeMerges l bs).thread w = s.thread w := by
  cases l <;> rfl

/-- A performed write changes of a thread that runs only the reservation it ends. -/
theorem State.thread_perform_of_run {s : State} {w : Who} (hr : (s.thread w).state = .run) (l : Loc) (bs : List (Option Byte)) :
    (s.perform l bs).thread w = (s.thread w).unreserve (breaks l bs) := by
  have hput : ∀ m, ((s.putLoc l bs).setPoisonOf l m).thread w = s.thread w := fun m => by rw [State.thread_setPoisonOf, State.thread_putLoc]
  unfold State.perform
  rw [State.thread_closeMerges, State.thread_clearResv_of_run (by rw [hput, hr]), hput]
  rfl

theorem State.undisturbed_perform {s : State} {w : Who} (hr : (s.thread w).state = .run) (hq : (s.thread w).undisturbed) (l : Loc)
    (bs : List (Option Byte)) : ((s.perform l bs).thread w).undisturbed := by
  rw [State.thread_perform_of_run hr]
  exact Thread.undisturbed_unreserve hq _

/-! ### Scalar stores -/

theorem map_some_toBytes (v : Word) (size : Nat) : (toBytes v.toNat size).map some = lowBytes v size := by
  refine List.ext_getElem? fun k => ?_
  rw [lowBytes, List.getElem?_map, List.getElem?_map, getElem?_toBytes, ofNat_div_pow_eq_extract]
  by_cases hk : k < size
  · simp [hk]
  · simp [hk]

theorem Core.cacheStore_threads (x : Core) (base : Nat) (bs : List (Option Byte)) : (x.cacheStore base bs).threads = x.threads := by
  refine foldl_invariant (fun y : Core => y.threads = x.threads) rfl (fun y t _ hy => ?_)
  split
  · exact hy
  · exact hy

theorem State.thread_cacheNote (s : State) (c : CoreIx) (l : Loc) (page : Option Nat) (bs : List (Option Byte)) (w : Who) :
    (s.cacheNote c l page bs).thread w = s.thread w := by
  unfold State.cacheNote
  split
  · rfl
  · exact State.thread_modCore_threads s c (fun x => x.cacheStore_threads _ bs) w

theorem State.cacheNote_fields (s : State) (c : CoreIx) (l : Loc) (page : Option Nat) (bs : List (Option Byte)) :
    (s.cacheNote c l page bs).writes = s.writes ∧ (s.cacheNote c l page bs).nextSeq = s.nextSeq := by
  unfold State.cacheNote
  split
  · exact ⟨rfl, rfl⟩
  · exact ⟨rfl, rfl⟩

/-- A thread that waits for one more acknowledgement (R276). -/
def Thread.pendUp (h : Thread) : Thread := { h with pend := h.pend + 1 }

theorem Thread.undisturbed_pendUp {h : Thread} (hq : h.undisturbed) : h.pendUp.undisturbed := hq

/-- A write as it leaves a core's port for a place of this module (R266, R267). -/
def portWrite (s : State) (w : Who) (l : Loc) (page : Option Nat) (bytes : List (Option Byte)) : WFlight :=
  { seq := s.nextSeq, source := .port w.core, src := some w, dma := Option.none, loc := l, bytes, page, red := Option.none }

/-- A state after a write has left a core's port. -/
def State.sentWrite (s : State) (w : Who) (l : Loc) (page : Option Nat) (bytes : List (Option Byte)) : State :=
  { s with writes := s.writes ++ [portWrite s w l page bytes], nextSeq := s.nextSeq + 1 }

/-- A store to a place of this module that is not the own local store. -/
theorem State.store_sent {s : State} {w : Who} {l : Loc} (hl : l.here = true) (hown : ∀ o, l ≠ .ls w.core o) (page : Option Nat)
    (bs : List (Option Byte)) : s.store w l page bs =
      ((s.cacheNote w.core l page bs).sentWrite w l page bs).modThread w Thread.pendUp := by
  cases l with
  | ls c o =>
    have hc : c ≠ w.core := fun e => hown o (by rw [e])
    have hleaves : s.leaves w (.ls c o) = true := decide_eq_true hc
    simp only [State.store, State.storePast, hleaves, if_true, if_neg hc]
    rfl
  | loft d o => rfl
  | hbm d o => rfl
  | ddr d o => rfl
  | ctl c o => cases hl
  | remote m a => cases hl

/-- A store to the own local store is performed at once. -/
theorem State.store_own (s : State) (w : Who) (o : Nat) (page : Option Nat) (bs : List (Option Byte)) :
    s.store w (.ls w.core o) page bs = s.perform (.ls w.core o) bs := by
  simp [State.store, State.storePast, State.leaves]

/-- The body of a scalar store that reaches memory of this module. -/
theorem scalarStore_reached {s : State} {i : Iss} {rd rb : BitVec 5} {m : MemF} {a : Word} {upd : Option Word} {l : Loc} {page : Option Nat}
    {size : Nat} (h : s.ready i false = true) (hl : l.here = true) (hr : s.reaches i.who rb Option.none m .write size a upd l page) (opc : Nat) :
    scalarStore i opc rd rb m size s = .next (s.settle i.who false (.done
      ((s.store i.who l page (lowBytes ((s.thread i.who).reg rd) size)).modThread i.who (fun h => h.rebase rb upd)))) := by
  obtain ⟨haddr, hwatch, halign, hplace⟩ := hr
  rw [scalarStore, issue_of_ready h]
  simp only [haddr]
  rw [show s.watchpoint i.who m.g a size false true = Option.none from hwatch]
  simp only [hplace, halign, ne_eq, not_true, if_false, ← map_some_toBytes]
  cases l with
  | ctl c o => cases hl
  | remote m a => cases hl
  | ls c o => cases upd <;> rfl
  | loft d o => cases upd <;> rfl
  | hbm d o => cases upd <;> rfl
  | ddr d o => cases upd <;> rfl

theorem scalarStore_own {s : State} {i : Iss} {rd rb : BitVec 5} {m : MemF} {a : Word} {upd : Option Word} {o : Nat} {page : Option Nat}
    {size : Nat} (h : s.ready i false = true) (hr : s.reaches i.who rb Option.none m .write size a upd (.ls i.who.core o) page) (opc : Nat) :
    scalarStore i opc rd rb m size s = .next ((s.perform (.ls i.who.core o) (lowBytes ((s.thread i.who).reg rd) size)).retired i.who 4
      (fun h => h.rebase rb upd)) := by
  rw [scalarStore_reached h rfl hr, State.store_own]
  exact congrArg Host.Outcome.next (settle_done_modThread
    (Thread.undisturbed_rebase (State.undisturbed_perform (State.ready_cases h).1 (State.undisturbed_of_ready h) _ _) _ _) false)

theorem scalarStore_sent {s : State} {i : Iss} {rd rb : BitVec 5} {m : MemF} {a : Word} {upd : Option Word} {l : Loc} {page : Option Nat}
    {size : Nat} (h : s.ready i false = true) (hl : l.here = true) (hown : ∀ o, l ≠ .ls i.who.core o)
    (hr : s.reaches i.who rb Option.none m .write size a upd l page) (opc : Nat) :
    scalarStore i opc rd rb m size s =
      .next (((s.cacheNote i.who.core l page (lowBytes ((s.thread i.who).reg rd) size)).sentWrite i.who l page
        (lowBytes ((s.thread i.who).reg rd) size)).retired i.who 4 (fun h => h.pendUp.rebase rb upd)) := by
  have hq : ((s.thread i.who).pendUp.rebase rb upd).undisturbed :=
    Thread.undisturbed_rebase (Thread.undisturbed_pendUp (State.undisturbed_of_ready h)) _ _
  rw [← State.thread_cacheNote s i.who.core l page (lowBytes ((s.thread i.who).reg rd) size)] at hq
  rw [scalarStore_reached h hl hr, State.store_sent hl hown, State.modThread_modThread]
  exact congrArg Host.Outcome.next (settle_done_modThread hq false)

theorem State.sentWrite_cacheNote (s : State) (w : Who) (l : Loc) (page : Option Nat) (bs : List (Option Byte)) :
    (s.cacheNote w.core l page bs).sentWrite w l page bs =
      { s.cacheNote w.core l page bs with writes := s.writes ++ [portWrite s w l page bs], nextSeq := s.nextSeq + 1 } := by
  obtain ⟨hw, hn⟩ := s.cacheNote_fields w.core l page bs
  rw [State.sentWrite, portWrite, hw, hn, portWrite]

/-- Settles O6: the body of a store at a place it reaches, whose write is performed in the own local store and sent elsewhere. -/
theorem scalarStores : Obligations.ScalarStores := by
  intro s i rd rb m a upd l page h hl
  have key : ∀ size opc, s.reaches i.who rb Option.none m .write size a upd l page →
      ((∃ o, l = .ls i.who.core o) → scalarStore i opc rd rb m size s =
        .next ((s.perform l (lowBytes ((s.thread i.who).reg rd) size)).retired i.who 4 (fun h => h.rebase rb upd))) ∧
      ((∀ o, l ≠ .ls i.who.core o) → scalarStore i opc rd rb m size s =
        .next (({ (match l with | .ls _ _ => s | _ => s.cacheNote i.who.core l page (lowBytes ((s.thread i.who).reg rd) size)) with
          writes := s.writes ++ [portWrite s i.who l page (lowBytes ((s.thread i.who).reg rd) size)], nextSeq := s.nextSeq + 1 } : State).retired
            i.who 4 (fun h => h.pendUp.rebase rb upd))) := by
    intro size opc hr
    refine ⟨?_, fun hown => ?_⟩
    · rintro ⟨o, rfl⟩
      exact scalarStore_own h hr opc
    · rw [scalarStore_sent h hl hown hr, State.sentWrite_cacheNote]
      cases l <;> rfl
  exact ⟨fun hr => key 1 0x18 hr, fun hr => key 2 0x19 hr, fun hr => key 4 0x1A hr, fun hr => key 8 0x1B hr⟩

end Sys2Proof.Machine
end

section
/-! Addresses of scalar accesses, the scalar loads and their return (R62, R63, R72, R75, R76, R268). -/

namespace Sys2Proof.Machine

/-! ### Addresses (R62) -/

/-- The encodings of an address that raise trap 0x01 whatever the access (R62). -/
def badAddress (m : MemF) (rb : BitVec 5) : Prop :=
  (m.nc = true ∧ m.g = false) ∨ (m.mode = 3 ∧ (m.disp.extractLsb' 0 4 ≠ 0 ∨ 4 < (m.disp.extractLsb' 4 3).toNat)) ∨
    ((m.mode = 1 ∨ m.mode = 2) ∧ rb = 0)

section Address

variable {h : Thread} {rb : BitVec 5} {lr : Option (BitVec 5)} {m : MemF}

theorem memAddr_displaced (hn : m.nc = true → m.g = true) (hm : m.mode = 0) :
    memAddr h rb lr m = some (h.reg rb + m.disp.signExtend 64, Option.none) := by
  have hn' : ¬ (m.nc = true ∧ ¬ m.g = true) := fun hb => hb.2 (hn hb.1)
  simp only [memAddr, hm, if_neg hn']
  rfl

theorem memAddr_after (hn : m.nc = true → m.g = true) (hm : m.mode = 1) (hb : rb ≠ 0) (hl : lr ≠ some rb) :
    memAddr h rb lr m = some (h.reg rb, some (h.reg rb + m.disp.zeroExtend 64)) := by
  have hn' : ¬ (m.nc = true ∧ ¬ m.g = true) := fun hb => hb.2 (hn hb.1)
  have hb' : ¬ (rb = 0 ∨ lr = some rb) := fun hx => hx.elim hb hl
  simp only [memAddr, hm, if_neg hn', if_neg hb']
  rfl

theorem memAddr_before (hn : m.nc = true → m.g = true) (hm : m.mode = 2) (hb : rb ≠ 0) (hl : lr ≠ some rb) :
    memAddr h rb lr m = some (h.reg rb - m.disp.zeroExtend 64, some (h.reg rb - m.disp.zeroExtend 64)) := by
  have hn' : ¬ (m.nc = true ∧ ¬ m.g = true) := fun hb => hb.2 (hn hb.1)
  have hb' : ¬ (rb = 0 ∨ lr = some rb) := fun hx => hx.elim hb hl
  simp only [memAddr, hm, if_neg hn', if_neg hb']
  rfl

theorem memAddr_indexed (hn : m.nc = true → m.g = true) (hm : m.mode = 3) (h0 : m.disp.extractLsb' 0 4 = 0) {k : Word}
    (hk : scaleOf h (m.disp.extractLsb' 4 3).toNat = some k) :
    memAddr h rb lr m = some (h.reg rb + h.reg (m.disp.extractLsb' 7 5) * k, Option.none) := by
  have hn' : ¬ (m.nc = true ∧ ¬ m.g = true) := fun hb => hb.2 (hn hb.1)
  have h0' : ¬ m.disp.extractLsb' 0 4 ≠ 0 := fun hx => hx h0
  simp only [memAddr, hm, if_neg hn', if_neg h0', hk]
  rfl

theorem memAddr_bad (hb : badAddress m rb ∨ ((m.mode = 1 ∨ m.mode = 2) ∧ lr = some rb)) : memAddr h rb lr m = Option.none := by
  have hstep (hm : m.mode = 1 ∨ m.mode = 2) (hr : rb = 0 ∨ lr = some rb) : memAddr h rb lr m = Option.none := by
    rcases hm with hm | hm
    · simp only [memAddr, hm, if_pos hr]; simp
    · simp only [memAddr, hm, if_pos hr]; simp
  rcases hb with (⟨hn, hg⟩ | ⟨hm, hx⟩ | ⟨hm, hr⟩) | ⟨hm, hr⟩
  · simp [memAddr, hn, hg]
  · have hsc (hx : 4 < (m.disp.extractLsb' 4 3).toNat) : scaleOf h (m.disp.extractLsb' 4 3).toNat = Option.none := by
      rw [scaleOf, if_neg (by omega), if_neg (by omega)]
    rcases hx with hx | hx
    · simp only [memAddr, hm, if_pos hx]; simp
    · simp only [memAddr, hm, hsc hx]; simp
  · exact hstep hm (.inl hr)
  · exact hstep hm (.inr hr)

end Address

section Traps

variable {s : State} {i : Iss} {rd rb : BitVec 5} {m : MemF}

theorem scalarStore_bad (h : s.ready i false = true) (hb : badAddress m rb) (opc size : Nat) :
    scalarStore i opc rd rb m size s = .next (s.settle i.who false (.trap s (illegal opc))) := by
  rw [scalarStore, issue_of_ready h]
  simp only [memAddr_bad (.inl hb)]

theorem scalarLoad_bad (h : s.ready i false = true) (hb : badAddress m rb ∨ ((m.mode = 1 ∨ m.mode = 2) ∧ rb = rd)) (opc size : Nat) (signed : Bool) :
    scalarLoad i opc rd rb m size signed s = .next (s.settle i.who false (.trap s (illegal opc))) := by
  rw [scalarLoad, issue_of_ready h]
  simp only [memAddr_bad (hb.imp_right (fun hx => ⟨hx.1, congrArg some hx.2.symm⟩))]

end Traps

/-! ### A load that leaves (R63, R72) -/

/-- The outstanding scalar load of one part. -/
def scalarOp (pc : Word) (rd : BitVec 5) (size : Nat) (signed : Bool) (p : LoadPart) (rb : BitVec 5) (upd : Option Word) : LoadOp :=
  { pc, long := false, kind := .scalar rd size signed, parts := [p], upd := upd.map (fun v => (rb, v)) }

/-- What a scalar load that reaches memory of this module asks for. -/
theorem scalarLoad_reached {s : State} {i : Iss} {rd rb : BitVec 5} {m : MemF} {a : Word} {upd : Option Word} {l : Loc} {page : Option Nat}
    {size : Nat} (h : s.ready i false = true) (hl : l.here = true) (hr : s.reaches i.who rb (some rd) m .read size a upd l page) (opc : Nat)
    (signed : Bool) :
    scalarLoad i opc rd rb m size signed s = .next (s.settle i.who false (.sent ((s.askScalar i.who m.g m.nc a l page size).2.pushLoad i.who
      (scalarOp (s.thread i.who).pc rd size signed (s.askScalar i.who m.g m.nc a l page size).1 rb upd)))) := by
  obtain ⟨haddr, hwatch, halign, hplace⟩ := hr
  obtain ⟨_, _, _, _, _, _, _, _, hfound, _⟩ := State.ready_cases h
  rw [scalarLoad, issue_of_ready h]
  simp only [haddr]
  rw [show s.watchpoint i.who m.g a size true false = Option.none from hwatch]
  simp only [hplace, halign, ne_eq, not_true, if_false, hfound, reduceCtorEq]
  cases l with
  | ctl c o => cases hl
  | remote m a => cases hl
  | ls c o => rfl
  | loft d o => rfl
  | hbm d o => rfl
  | ddr d o => rfl

/-- A read of a thread as it leaves for a place of this module. -/
def threadRead (s : State) (w : Who) (at_ : Loc) (len : Nat) (a : Word) (page : Option Nat) (fill : Option (Nat × Bool)) (skip take : Nat) : RFlight :=
  { seq := s.nextSeq, who := w, loc := at_, len, addr := a, page, fill, skip, take, atom := Option.none, got := .no }

/-- A state after a read has left. -/
def State.sentRead (s : State) (f : RFlight) : State := { s with reads := s.reads ++ [f], nextSeq := s.nextSeq + 1 }

theorem State.startRead_here {s : State} {w : Who} {l : Loc} (hl : l.here = true) (len : Nat) (a : Word) (page : Option Nat)
    (fill : Option (Nat × Bool)) (skip take : Nat) :
    s.startRead w l len a page fill skip take Option.none = (.wait s.nextSeq, s.sentRead (threadRead s w l len a page fill skip take)) := by
  cases l with
  | ctl c o => rfl
  | remote m a => cases hl
  | ls c o => rfl
  | loft d o => rfl
  | hbm d o => rfl
  | ddr d o => rfl

/-- Only the thread that a change meets decides what it does. -/
theorem State.modThread_congr {s : State} {w : Who} {f g : Thread → Thread} (h : f (s.thread w) = g (s.thread w)) :
    s.modThread w f = s.modThread w g := by
  rw [State.modThread, h, State.modThread]

/-! ### What a sent load does as it issues (R268) -/

/-- A load that is no tile load. -/
def LoadOp.plain (op : LoadOp) : Prop := ∀ f sc next prior stream, op.kind ≠ .tile f sc next prior stream

theorem LoadOp.plain_scalar {op : LoadOp} {rd : BitVec 5} {size : Nat} {signed : Bool} (hk : op.kind = .scalar rd size signed) : op.plain :=
  fun _ _ _ _ _ h => by rw [hk] at h; cases h

/-- A load that still waits does not retire. -/
theorem State.retire_waits {s : State} {w : Who} {op : LoadOp} (hl : (s.thread w).loads = [op]) (hp : op.plain) {bs : List Byte}
    (hw : scanParts op.parts [] = .waits bs) : State.retire 1 s w = s := by
  simp only [State.retire, hl]
  split
  next hk => exact absurd hk (hp _ _ _ _ _)
  · rw [hw]

/-- The one outstanding load of a thread retires when its data is there. -/
theorem State.retire_all {s : State} {w : Who} {op : LoadOp} (hl : (s.thread w).loads = [op]) (hp : op.plain) {bs : List Byte}
    (ha : scanParts op.parts [] = .all bs) :
    State.retire 1 s w = ((s.modThread w (fun h => { op.finish h bs with loads := h.loads.drop 1 })).countRetired w).stepEnd w := by
  simp only [State.retire, hl]
  split
  next hk => exact absurd hk (hp _ _ _ _ _)
  · rw [ha]

/-- A thread that has gone on behind the one load it has sent. -/
def Thread.behindLoad (h : Thread) (n : Nat) (op : LoadOp) : Thread := { h with pc := h.pc + BitVec.ofNat 64 n, given := Option.none, loads := [op] }

/-- What sending the first load comes to before it may retire. -/
theorem settle_sent_first {s0 s : State} {w : Who} (hl : (s.thread w).loads = []) (long : Bool) (op : LoadOp) :
    s0.settle w long (.sent (s.pushLoad w op)) = State.retire 1 (s.modThread w (fun h => h.behindLoad (if long then 8 else 4) op)) w := by
  have hloads : ((s.modThread w (fun h => h.behindLoad (if long then 8 else 4) op)).thread w).loads = [op] := by
    rw [State.thread_modThread]; rfl
  have hsent : (s.pushLoad w op).modThread w (fun h => h.advance (if long then 8 else 4)) =
      s.modThread w (fun h => h.behindLoad (if long then 8 else 4) op) := by
    rw [State.pushLoad, State.modThread_modThread]
    exact State.modThread_congr (by simp only [Thread.advance, hl]; rfl)
  simp only [State.settle, hsent]
  rw [hloads, List.length_singleton]

/-- A thread sends a load that waits, with no older load outstanding: it goes on behind it. -/
theorem settle_sent_waiting {s0 s : State} {w : Who} (hl : (s.thread w).loads = []) (long : Bool) {op : LoadOp} (hp : op.plain) {bs : List Byte}
    (hw : scanParts op.parts [] = .waits bs) :
    s0.settle w long (.sent (s.pushLoad w op)) = s.modThread w (fun h => h.behindLoad (if long then 8 else 4) op) := by
  rw [settle_sent_first hl, State.retire_waits (by rw [State.thread_modThread]; rfl) hp hw]

/-- A thread that asks for no halt goes on after an instruction has been counted. -/
theorem State.stepEnd_countRetired {s : State} {w : Who} (hq : (s.thread w).undisturbed) :
    (s.countRetired w).stepEnd w = s.countRetired w := by
  have key := State.thread_countRetired s w
  exact State.stepEnd_of_none (by rw [key]; exact hq.1) (by rw [key]; exact hq.2)

/-- A finished load leaves the program counter, the given word and the outstanding loads to themselves. -/
theorem LoadOp.finish_frame (op : LoadOp) (h : Thread) (bs : List Byte) (pc : Word) (g) (ls : List LoadOp) :
    op.finish { h with pc := pc, given := g, loads := ls } bs = { op.finish h bs with pc := pc, given := g, loads := ls } := by
  unfold LoadOp.finish
  cases op.kind with
  | scalar rd size signed => cases op.upd with | none => exact Thread.setReg_frame .. | some p => simp only [Thread.setReg_frame]
  | atomic rd => cases op.upd with | none => exact Thread.setReg_frame .. | some p => simp only [Thread.setReg_frame]
  | vector vd mask zero =>
    cases op.upd with
    | none => rfl
    | some p => exact Thread.setReg_frame (h.setVec vd _) p.1 p.2 pc g ls
  | tile f sc next prior stream => cases op.upd with | none => rfl | some p => exact Thread.setReg_frame h p.1 p.2 pc g ls
  | pass n => cases op.upd with | none => rfl | some p => exact Thread.setReg_frame h p.1 p.2 pc g ls

theorem LoadOp.finish_pc (op : LoadOp) (h : Thread) (bs : List Byte) : (op.finish h bs).pc = h.pc := by
  have hsame := congrArg Thread.pc (op.finish_frame h bs h.pc h.given h.loads)
  exact hsame

theorem LoadOp.finish_loads (op : LoadOp) (h : Thread) (bs : List Byte) : (op.finish h bs).loads = h.loads := by
  have hsame := congrArg Thread.loads (op.finish_frame h bs h.pc h.given h.loads)
  exact hsame

theorem Thread.undisturbed_finish {h : Thread} (hq : h.undisturbed) (op : LoadOp) (bs : List Byte) : (op.finish h bs).undisturbed := by
  have hkind (g : Thread) (hg : g.undisturbed) : (match op.upd with | some (r, v) => g.setReg r v | Option.none => g).undisturbed := by
    cases op.upd with
    | none => exact hg
    | some p => exact Thread.undisturbed_setReg hg _ _
  unfold LoadOp.finish
  cases op.kind with
  | scalar rd size signed => exact hkind _ (Thread.undisturbed_setReg hq _ _)
  | atomic rd => exact hkind _ (Thread.undisturbed_setReg hq _ _)
  | vector vd mask zero => exact hkind _ hq
  | tile f sc next prior stream => exact hkind _ hq
  | pass n => exact hkind _ hq

/-- A load that has its data and no older load before it completes at once. -/
theorem settle_sent_data {s0 s : State} {w : Who} (hl : (s.thread w).loads = []) (hq : (s.thread w).undisturbed) (long : Bool) {op : LoadOp}
    (hp : op.plain) {bs : List Byte} (ha : scanParts op.parts [] = .all bs) :
    s0.settle w long (.sent (s.pushLoad w op)) = s.retired w (if long then 8 else 4) (fun h => op.finish h bs) := by
  have hpc := op.finish_pc (s.thread w) bs
  have hloads : (op.finish (s.thread w) bs).loads = [] := (op.finish_loads (s.thread w) bs).trans hl
  have hthread : (s.modThread w (fun h => h.behindLoad (if long then 8 else 4) op)).modThread w
      (fun h => { op.finish h bs with loads := h.loads.drop 1 }) =
      s.modThread w (fun h => (op.finish h bs).advance (if long then 8 else 4)) := by
    rw [State.modThread_modThread]
    refine State.modThread_congr ?_
    simp only [Thread.behindLoad, Thread.advance, LoadOp.finish_frame, List.drop_one, List.tail_cons, hpc, ← hloads]
  rw [settle_sent_first hl, State.retire_all (by rw [State.thread_modThread]; rfl) hp ha, hthread, State.stepEnd_countRetired]
  · rfl
  · rw [State.thread_modThread]
    exact Thread.undisturbed_finish hq op bs

theorem leNat_lt (bs : List Byte) : leNat bs < 256 ^ bs.length := by
  induction bs with
  | nil => simp [leNat]
  | cons b bs ih =>
    have hb := b.isLt
    rw [leNat, List.length_cons, pow_succ]
    omega

/-- Below its sign bit a value extends as it is, and from it on as the value less its modulus. -/
theorem extend_eq_signExtend {k n : Nat} (h1 : 1 ≤ k) (hn : n < 2 ^ k) :
    (if 2 ^ (k - 1) ≤ n % 2 ^ k then BitVec.ofNat 64 n - BitVec.ofNat 64 (2 ^ k) else BitVec.ofNat 64 n) =
      (BitVec.ofNat k n).signExtend 64 := by
  have hk2 : 2 ^ k = 2 * 2 ^ (k - 1) := by rw [← pow_succ', Nat.sub_add_cancel h1]
  rw [Nat.mod_eq_of_lt hn, BitVec.signExtend, BitVec.toInt_eq_toNat_cond, BitVec.toNat_ofNat, Nat.mod_eq_of_lt hn]
  by_cases hs : 2 ^ (k - 1) ≤ n
  · rw [if_pos hs, if_neg (by omega), Int.sub_eq_add_neg, BitVec.ofInt_add, BitVec.ofInt_neg, BitVec.ofInt_natCast, BitVec.ofInt_natCast, BitVec.sub_eq_add_neg]
  · rw [if_neg hs, if_pos (by omega), BitVec.ofInt_natCast]

/-- The model extends a loaded scalar as R62 does. -/
theorem extendScalar_eq_widen {bs : List Byte} {size : Nat} (hl : bs.length = size) (h1 : 1 ≤ size) (h8 : size ≤ 8) (signed : Bool) :
    extendScalar bs size signed = widen bs size signed := by
  have hn : leNat bs < 2 ^ (8 * size) := by rw [pow_mul, ← hl]; exact leNat_lt bs
  cases signed with
  | true => simpa [extendScalar, widen] using extend_eq_signExtend (by omega) hn
  | false =>
    have h64 : 2 ^ (8 * size) ≤ 2 ^ 64 := Nat.pow_le_pow_right (by decide) (by omega)
    refine BitVec.eq_of_toNat_eq ?_
    simp [extendScalar, widen, Nat.mod_eq_of_lt hn]

/-! ### A load whose data is there (R62, R268) -/

/-- What a finished scalar load does to its thread. -/
def Thread.loaded (h : Thread) (rd : BitVec 5) (v : Word) (rb : BitVec 5) (upd : Option Word) : Thread := (h.setReg rd v).rebase rb upd

theorem scalarOp_finish (pc : Word) (rd : BitVec 5) (size : Nat) (signed : Bool) (p : LoadPart) (rb : BitVec 5) (upd : Option Word) (h : Thread)
    (bs : List Byte) : (scalarOp pc rd size signed p rb upd).finish h bs = h.loaded rd (extendScalar bs size signed) rb upd := by
  cases upd <;> rfl

theorem length_toBytes (x n : Nat) : (toBytes x n).length = n := by
  induction n generalizing x with
  | zero => rfl
  | succ n ih => rw [toBytes, List.length_cons, ih]

/-- The state after a thread has sent the read of a scalar load and gone on. -/
def State.asksLoad (s : State) (w : Who) (rd : BitVec 5) (size : Nat) (signed : Bool) (rb : BitVec 5) (upd : Option Word) (f : RFlight) : State :=
  (s.sentRead f).modThread w (fun h => h.behindLoad 4 (scalarOp h.pc rd size signed (.wait s.nextSeq) rb upd))

section LoadIssue

variable {s : State} {i : Iss} {rd rb : BitVec 5} {m : MemF} {a : Word} {upd : Option Word} {l : Loc} {page : Option Nat} {size : Nat}

/-- A load that waits for a read: the thread goes on, and the read is in flight. -/
theorem settle_sent_read (h : s.ready i false = true) (f : RFlight) (signed : Bool) (rb : BitVec 5) (upd : Option Word) :
    s.settle i.who false (.sent ((s.sentRead f).pushLoad i.who (scalarOp (s.thread i.who).pc rd size signed (.wait s.nextSeq) rb upd))) =
      (s.sentRead f).modThread i.who (fun h => h.behindLoad 4 (scalarOp h.pc rd size signed (.wait s.nextSeq) rb upd)) := by
  obtain ⟨_, _, _, hloads, _⟩ := State.ready_cases h
  rw [settle_sent_waiting (s := s.sentRead f) hloads false (LoadOp.plain_scalar rfl) rfl]
  exact State.modThread_congr rfl

/-- A load past the data cache asks for its own bytes. -/
theorem scalarLoad_past (h : s.ready i false = true) (hl : l.here = true) (hr : s.reaches i.who rb (some rd) m .read size a upd l page)
    (hc : ¬(m.g = true ∧ m.nc = false ∧ cacheable a l = true)) (opc : Nat) (signed : Bool) :
    scalarLoad i opc rd rb m size signed s = .next ((s.sentRead (threadRead s i.who l size a page Option.none 0 size)).modThread i.who
      (fun h => h.behindLoad 4 (scalarOp h.pc rd size signed (.wait s.nextSeq) rb upd))) := by
  have hask : s.askScalar i.who m.g m.nc a l page size =
      (.wait s.nextSeq, s.sentRead (threadRead s i.who l size a page Option.none 0 size)) := by
    rw [State.askScalar, if_pos (by revert hc; cases m.g <;> cases m.nc <;> cases cacheable a l <;> decide), State.startRead_here hl]
  rw [scalarLoad_reached h hl hr, hask]
  exact congrArg Host.Outcome.next (settle_sent_read h _ signed rb upd)

theorem Loc.here_lineStart (hl : l.here = true) : l.lineStart.here = true := by cases l <;> exact hl

/-- A load that the data cache may hold and does not asks for its line. -/
theorem scalarLoad_miss (h : s.ready i false = true) (hl : l.here = true) (hr : s.reaches i.who rb (some rd) m .read size a upd l page)
    (hg : m.g = true) (hn : m.nc = false) (hc : cacheable a l = true) (hm : Sparse.find (s.core i.who.core).dcache (s.lineTag a) = Option.none)
    (opc : Nat) (signed : Bool) :
    scalarLoad i opc rd rb m size signed s =
      .next ((s.sentRead (threadRead s i.who l.lineStart 64 a page (some (s.lineTag a, true)) (a.toNat % 64) size)).modThread i.who
        (fun h => h.behindLoad 4 (scalarOp h.pc rd size signed (.wait s.nextSeq) rb upd))) := by
  have hask : s.askScalar i.who m.g m.nc a l page size =
      (.wait s.nextSeq, s.sentRead (threadRead s i.who l.lineStart 64 a page (some (s.lineTag a, true)) (a.toNat % 64) size)) := by
    rw [State.askScalar, if_neg (by simp [hg, hn, hc]), hm]
    exact State.startRead_here (Loc.here_lineStart hl) ..
  rw [scalarLoad_reached h hl hr, hask]
  exact congrArg Host.Outcome.next (settle_sent_read h _ signed rb upd)

/-- A load that the data cache holds completes at once. -/
theorem scalarLoad_hit (h : s.ready i false = true) (hl : l.here = true) (hr : s.reaches i.who rb (some rd) m .read size a upd l page)
    (hg : m.g = true) (hn : m.nc = false) (hc : cacheable a l = true) {v : BitVec 512}
    (hm : Sparse.find (s.core i.who.core).dcache (s.lineTag a) = some v) (h1 : 1 ≤ size) (h8 : size ≤ 8) (opc : Nat) (signed : Bool) :
    scalarLoad i opc rd rb m size signed s = .next (s.retired i.who 4 (fun h =>
      h.loaded rd (widen (toBytes (v.toNat / 2 ^ (8 * (a.toNat % 64))) size) size signed) rb upd)) := by
  obtain ⟨_, _, _, hloads, _⟩ := State.ready_cases h
  have hask : s.askScalar i.who m.g m.nc a l page size = (.data (toBytes (v.toNat / 2 ^ (8 * (a.toNat % 64))) size), s) := by
    rw [State.askScalar, if_neg (by simp [hg, hn, hc]), hm]
    rfl
  rw [scalarLoad_reached h hl hr, hask, ← extendScalar_eq_widen (length_toBytes _ _) h1 h8]
  rw [settle_sent_data hloads (State.undisturbed_of_ready h) false (LoadOp.plain_scalar rfl) rfl]
  simp only [scalarOp_finish]
  rfl

end LoadIssue

/-! ### The return of a scalar load (R75, R268) -/

/-- A search that one entry alone satisfies finds it. -/
theorem find?_unique {α : Type} {p : α → Bool} {l : List α} {a : α} (ha : a ∈ l) (hp : p a = true) (hu : ∀ b ∈ l, p b = true → b = a) :
    l.find? p = some a := by
  cases hfind : l.find? p with
  | none => exact absurd hp (List.find?_eq_none.mp hfind a ha)
  | some b => rw [hu b (List.mem_of_find?_eq_some hfind) (List.find?_some hfind)]

/-- A number that only one read in flight has finds that read. -/
theorem find?_seq {s : State} {f : RFlight} (hf : f ∈ s.reads) (hu : ∀ g ∈ s.reads, g.seq = f.seq → g = f) :
    s.reads.find? (fun g => g.seq = f.seq) = some f :=
  find?_unique hf (decide_eq_true rfl) (fun g hg hs => hu g hg (of_decide_eq_true hs))

/-- A thread whose one outstanding load has finished with these bytes. -/
def Thread.finished (h : Thread) (op : LoadOp) (bs : List Byte) : Thread := { op.finish h bs with loads := [] }

theorem Thread.setReg_loads_frame (h : Thread) (r : BitVec 5) (v : Word) (ls : List LoadOp) :
    ({ h with loads := ls } : Thread).setReg r v = { h.setReg r v with loads := ls } := by
  unfold Thread.setReg; split <;> rfl

/-- The data of a thread's one outstanding scalar load arrive: the load retires. -/
theorem State.deliver_scalar {s : State} {f : RFlight} {op : LoadOp} {rd : BitVec 5} {size : Nat} {signed : Bool} (bs : List Byte)
    (hu : ∀ g ∈ s.reads, g.seq = f.seq → g = f) (ha : f.atom = Option.none) (hl : (s.thread f.who).loads = [op])
    (hk : op.kind = .scalar rd size signed) (hp : op.parts = [.wait f.seq]) (hq : (s.thread f.who).undisturbed) :
    s.deliver f.who f.seq (.data bs) =
      (({ s with reads := s.reads.filter (fun g => g.seq ≠ f.seq) } : State).modThread f.who (fun h => h.finished op bs)).countRetired f.who := by
  have hatom : s.reads.any (fun g => decide (g.seq = f.seq) && g.atom.isSome) = false := by
    rw [List.any_eq_false]
    intro g hg
    by_cases hs : g.seq = f.seq
    · rw [hu g hg hs, ha]; simp
    · simp [hs]
  have hop : answerPart f.seq (.data bs) op = { op with parts := [.data bs] } := by simp [answerPart, hp]
  have hloads : ((({ s with reads := s.reads.filter (fun g => g.seq ≠ f.seq) } : State).modThread f.who (fun h =>
      { h with loads := h.loads.map (answerPart f.seq (.data bs)), pend := if false = true then h.pend - 1 else h.pend })).thread f.who).loads =
      [{ op with parts := [.data bs] }] := by
    rw [State.thread_modThread, ← hop]
    exact congrArg (List.map _) hl
  have hfin : ∀ h : Thread, h.loads = [op] →
      ({ ({ op with parts := [.data bs] } : LoadOp).finish { h with loads := h.loads.map (answerPart f.seq (.data bs)), pend := h.pend } bs with
        loads := (h.loads.map (answerPart f.seq (.data bs))).drop 1 } : Thread) = h.finished op bs := by
    intro h hl
    simp only [hl, List.map_cons, List.map_nil, List.drop_succ_cons, List.drop_zero, Thread.finished, LoadOp.finish, hk]
    cases op.upd with
    | none => simp only [Thread.setReg_loads_frame]
    | some p => simp only [Thread.setReg_loads_frame]
  have hq' : ((s.thread f.who).finished op bs).undisturbed := by
    simp only [Thread.finished, LoadOp.finish, hk]
    cases op.upd with
    | none => exact Thread.undisturbed_setReg hq _ _
    | some p => exact Thread.undisturbed_setReg (Thread.undisturbed_setReg hq _ _) _ _
  rw [State.deliver, hatom]
  rw [hloads, List.length_singleton, State.retire_all hloads (LoadOp.plain_scalar hk) rfl, State.modThread_modThread,
    State.modThread_congr (g := fun h => h.finished op bs) (hfin _ hl)]
  exact State.stepEnd_countRetired (by rw [State.thread_modThread]; exact hq')

/-- A place whose own bytes a read brings back as it returns: a local store, HBM or DDR of this module. -/
def Loc.direct (l : Loc) : Prop := l.here = true ∧ ∀ d o, l ≠ .loft d o

/-- A read that may be performed and meets no poison brings back its bytes. -/
theorem State.returned_direct {s : State} {f : RFlight} (hd : f.loc.direct) (hr : s.readReady f = true) (hp : s.poisoned f.part f.take = false) :
    s.returned f .none = some (.inr (s.readLoc f.loc f.len), s) := by
  obtain ⟨hh, hloft⟩ := hd
  unfold State.returned State.sense
  simp only [hp, Bool.false_eq_true, if_false, hr, if_true]
  split
  next hl => rw [hl] at hh; cases hh
  next hl _ => exact absurd hl (hloft _ _)
  next hl _ => exact absurd hl (hloft _ _)
  next hl _ => exact absurd hl (hloft _ _)
  next hl => rw [hl] at hh; cases hh
  · rfl

theorem length_readLoc (s : State) (l : Loc) (n : Nat) : (s.readLoc l n).length = n := by
  cases l with
  | ctl c o => exact List.length_replicate
  | remote m a => exact List.length_replicate
  | ls c o => exact length_readMem ..
  | loft d o => exact length_readMem ..
  | hbm d o => exact length_readMem ..
  | ddr d o => exact length_readMem ..

/-- A scalar load that waits for its one read, and that read. -/
structure State.ScalarWaits (s : State) (f : RFlight) (op : LoadOp) (rd : BitVec 5) (size : Nat) (signed : Bool) : Prop where
  sent : f ∈ s.reads
  only : ∀ g ∈ s.reads, g.seq = f.seq → g = f
  place : f.loc.direct
  atom : f.atom = Option.none
  engine : f.engine = Option.none
  ready : s.readReady f = true
  sound : s.poisoned f.part f.take = false
  loads : (s.thread f.who).loads = [op]
  kind : op.kind = .scalar rd size signed
  parts : op.parts = [.wait f.seq]
  width : size = 1 ∨ size = 2 ∨ size = 4 ∨ size = 8
  take : f.take = size
  fits : f.skip + size ≤ f.len
  quiet : (s.thread f.who).undisturbed

/-- The bytes of its line or word that a load takes. -/
def State.loadedBytes (s : State) (f : RFlight) (size : Nat) : List Byte := ((s.readLoc f.loc f.len).drop f.skip).take size

/-- A thread that has received the one load it waited for. -/
def Thread.received (h : Thread) (rd : BitVec 5) (v : Word) (upd : Option (BitVec 5 × Word)) : Thread :=
  match upd with
  | some (r, u) => ({ h.setReg rd v with loads := [] } : Thread).setReg r u
  | Option.none => { h.setReg rd v with loads := [] }

/-- The state after a load has returned and retired. -/
def State.loadRetired (s : State) (f : RFlight) (rd : BitVec 5) (v : Word) (upd : Option (BitVec 5 × Word)) : State :=
  (({ s with reads := s.reads.filter (fun g => g.seq ≠ f.seq) } : State).modThread f.who (fun h => h.received rd v upd)).countRetired f.who

section Returns

variable {s t : State} {f : RFlight} {op : LoadOp} {rd : BitVec 5} {size : Nat} {signed : Bool}

theorem Thread.finished_scalar (h : Thread) (hk : op.kind = .scalar rd size signed) (bs : List Byte) :
    h.finished op bs = h.received rd (extendScalar bs size signed) op.upd := by
  simp only [Thread.finished, LoadOp.finish, hk, Thread.received]
  cases op.upd with
  | none => rfl
  | some p => exact (Thread.setReg_loads_frame ..).symm

/-- What a load returns to a state with the same reads and threads. -/
theorem State.ScalarWaits.deliver (h : s.ScalarWaits f op rd size signed) (hr : t.reads = s.reads) (ht : t.thread f.who = s.thread f.who) :
    t.deliver f.who f.seq (.data (s.loadedBytes f size)) = t.loadRetired f rd (widen (s.loadedBytes f size) size signed) op.upd := by
  have hlen : (s.loadedBytes f size).length = size := by
    have := h.fits
    rw [State.loadedBytes, List.length_take, List.length_drop, length_readLoc]
    omega
  rw [State.deliver_scalar _ (hr ▸ h.only) h.atom (ht ▸ h.loads) h.kind h.parts (ht ▸ h.quiet), State.loadRetired,
    ← extendScalar_eq_widen hlen (by have := h.width; omega) (by have := h.width; omega)]
  simp only [Thread.finished_scalar _ h.kind]

/-- A returned load whose line is not installed. -/
theorem State.ScalarWaits.readBack (h : s.ScalarWaits f op rd size signed) (hf : ∀ t, f.fill ≠ some (t, true)) :
    s.readBack f .none = s.loadRetired f rd (widen (s.loadedBytes f size) size signed) op.upd := by
  have hinst : s.installFill f (s.readLoc f.loc f.len) = s := by
    unfold State.installFill
    split
    next t hfill => exact absurd hfill (hf t)
    · rfl
  rw [State.readBack, State.returned_direct h.place h.ready h.sound]
  dsimp only
  rw [hinst, h.take]
  exact h.deliver rfl rfl

/-- A core whose data cache holds a line. -/
def Core.install (x : Core) (tag : Nat) (v : BitVec 512) : Core := { x with dcache := Sparse.set x.dcache tag v }

/-- A returned load whose line is installed in a set that has a place. -/
theorem State.ScalarWaits.readBack_install (h : s.ScalarWaits f op rd size signed) {tag : Nat} (hf : f.fill = some (tag, true))
    (hp : s.poisoned f.loc f.len = false)
    (hset : ((s.core f.who.core).dcache.filter (fun e => e.1 % 256 = tag % 256 ∧ e.1 ≠ tag)).length < 4) :
    s.readBack f .none = (s.modCore f.who.core (fun x => x.install tag (BitVec.ofNat 512 (leNat (s.readLoc f.loc f.len))))).loadRetired f rd
      (widen (s.loadedBytes f size) size signed) op.upd := by
  have hinst : s.installFill f (s.readLoc f.loc f.len) =
      s.modCore f.who.core (fun x => x.install tag (BitVec.ofNat 512 (leNat (s.readLoc f.loc f.len)))) := by
    simp only [State.installFill, hf, hp, Bool.false_eq_true, if_false, State.cacheInstall, List.length_map, if_pos hset]
    rfl
  rw [State.readBack, State.returned_direct h.place h.ready h.sound]
  dsimp only
  rw [hinst, h.take]
  exact h.deliver rfl (State.thread_modCore rfl _)

theorem State.ScalarWaits.find (h : s.ScalarWaits f op rd size signed) : s.reads.find? (fun g => g.seq = f.seq) = some f :=
  find?_seq h.sent h.only

theorem State.ScalarWaits.loadDataReturn (h : s.ScalarWaits f op rd size signed) (hf : f.fill = Option.none) :
    exec (.loadDataReturn f.seq .none) s = .next (s.loadRetired f rd (widen (s.loadedBytes f size) size signed) op.upd) := by
  have htile : s.tileReadSeq f = false := by simp [State.tileReadSeq, h.loads, h.kind]
  rw [exec_loadDataReturn, execLoadDataReturn, h.find, ← h.readBack (by simp [hf])]
  simp [hf, h.engine, htile]

theorem State.ScalarWaits.cacheFillReturn (h : s.ScalarWaits f op rd size signed) (hf : f.fill.isSome = true) :
    exec (.cacheFillReturn f.seq ⟨.none, false⟩) s = .next (s.readBack f .none) := by
  rw [exec_cacheFillReturn, execCacheFillReturn, h.find]
  simp [hf, h.engine]

theorem State.ScalarWaits.cacheFillReturn_parity (h : s.ScalarWaits f op rd size signed) (hf : f.fill.isSome = true) :
    exec (.cacheFillReturn f.seq ⟨.none, true⟩) s = .next ((s.gotRead f.seq .no).countCore f.who.core 0x111 1) := by
  rw [exec_cacheFillReturn, execCacheFillReturn, h.find]
  simp [hf, h.engine, State.returned_direct h.place h.ready h.sound]

end Returns

/-- Settles O5: the address by its mode, the load by what the data cache holds, and its return by the one read it waits for. -/
theorem scalarLoads : Obligations.ScalarLoads := by
  refine ⟨fun s i rd rb m h => ⟨fun hn => ⟨?_, ?_, ?_, ?_, ?_⟩, fun hb => ?_, fun hb => ?_⟩, fun s i rd rb m a upd l page h hl => ?_,
    fun s f rd size signed op hf hu hd ha he hr hp hl hk hparts hw ht hfit hhalt hstep => ?_⟩
  · exact fun hm lr _ => memAddr_displaced hn hm
  · exact fun hm hb => memAddr_after hn hm hb (by simp)
  · exact fun hm hb => memAddr_before hn hm hb (by simp)
  · exact fun hm h0 hsc lr _ => memAddr_indexed hn hm h0 (if_pos hsc)
  · exact fun hm h0 hsc lr _ => memAddr_indexed hn hm h0 (by rw [scaleOf, if_neg (by omega), if_pos hsc])
  · have key (opc size : Nat) := scalarStore_bad (rd := rd) h hb opc size
    exact ⟨key 0x18 1, key 0x19 2, key 0x1A 4, key 0x1B 8⟩
  · have key (opc size : Nat) (signed : Bool) := scalarLoad_bad h hb opc size signed
    exact ⟨key 0x10 1 true, key 0x11 1 false, key 0x12 2 true, key 0x13 2 false, key 0x14 4 true, key 0x15 4 false, key 0x16 8 false⟩
  · have key (size opc : Nat) (signed : Bool) (h1 : 1 ≤ size) (h8 : size ≤ 8) (hr : s.reaches i.who rb (some rd) m .read size a upd l page) :
        (¬(m.g = true ∧ m.nc = false ∧ cacheable a l = true) → scalarLoad i opc rd rb m size signed s =
          .next (s.asksLoad i.who rd size signed rb upd (threadRead s i.who l size a page Option.none 0 size))) ∧
        ((m.g = true ∧ m.nc = false ∧ cacheable a l = true) → Sparse.find (s.core i.who.core).dcache (s.lineTag a) = Option.none →
          scalarLoad i opc rd rb m size signed s = .next (s.asksLoad i.who rd size signed rb upd
            (threadRead s i.who l.lineStart 64 a page (some (s.lineTag a, true)) (a.toNat % 64) size))) ∧
        ((m.g = true ∧ m.nc = false ∧ cacheable a l = true) → ∀ v, Sparse.find (s.core i.who.core).dcache (s.lineTag a) = some v →
          scalarLoad i opc rd rb m size signed s = .next (s.retired i.who 4 (fun h =>
            (h.setReg rd (widen (toBytes (v.toNat / 2 ^ (8 * (a.toNat % 64))) size) size signed)).rebase rb upd))) :=
      ⟨fun hc => scalarLoad_past h hl hr hc opc signed, fun ⟨hg, hn, hc⟩ hm => scalarLoad_miss h hl hr hg hn hc hm opc signed,
        fun ⟨hg, hn, hc⟩ v hm => scalarLoad_hit h hl hr hg hn hc hm h1 h8 opc signed⟩
    exact ⟨key 1 0x10 true (by decide) (by decide), key 1 0x11 false (by decide) (by decide), key 2 0x12 true (by decide) (by decide),
      key 2 0x13 false (by decide) (by decide), key 4 0x14 true (by decide) (by decide), key 4 0x15 false (by decide) (by decide),
      key 8 0x16 false (by decide) (by decide)⟩
  · have hwait : s.ScalarWaits f op rd size signed := ⟨hf, hu, hd, ha, he, hr, hp, hl, hk, hparts, hw, ht, hfit, hhalt, hstep⟩
    refine ⟨fun hfill => ?_, fun t hfill => ?_, fun t hfill hpois hset => ?_, fun hfill => ?_⟩
    · exact hwait.loadDataReturn hfill
    · rw [hwait.cacheFillReturn (by simp [hfill]), hwait.readBack (by simp [hfill])]
      rfl
    · rw [hwait.cacheFillReturn (by simp [hfill]), hwait.readBack_install hfill hpois hset]
      rfl
    · exact hwait.cacheFillReturn_parity hfill

end Sys2Proof.Machine
end

section
/-! Control flow: the fetch, branches and jumps, the cache operations, fences and sync.e (R36, R47, R61, R72, R74, R269, R276), and the fills that a
cache operation cancels (R75). -/

namespace Sys2Proof.Machine

/-! ### The fetch (R36, R60, R72, R196, R252) -/

/-- Bytes that the fetch of an instruction reads. -/
def fetchSize (long : Bool) (pc : Word) : Nat := if long ∧ pc.toNat % 8 = 0 then 8 else 4

section Fetch

variable {s : State} {i : Iss} {long : Bool} {opc : Nat} {c : Cls} {body : State → Res}

/-- A fetch that something stops ends the instruction before it does anything. -/
theorem issue_of_stop (h : s.steady i long = true) {r : Res} {l : Bool} (hf : s.fetchCheck i.who long .clean = .stop r l) :
    issue i opc long c body s = .next (s.settle i.who l r) := by
  obtain ⟨h1, h2, h3, h4, h5, _, h7, h8, h9, h10⟩ := State.steady_cases h
  have e : (s.settleHold i.who).haltIfAsked i.who = s := by
    rw [State.settleHold_of_none h3, State.haltIfAsked_of_none h5]
  have hc : s.canIssue i.who c = true := by simp [State.canIssue, h1, h2, h3, h4, h5, h7, loadsAllow]
  have hl : issLong i long = long := by simp [issLong, h8]
  simp only [issue, e, hc, hl, h9, hf]
  simp

variable {w : Who}

theorem State.fetchCheck_misaligned (hb : s.breakpoint w = Option.none) (hp : (s.thread w).pc.toNat % 4 ≠ 0) :
    s.fetchCheck w long .clean = .stop (.trap s (misaligned 4 (s.thread w).pc)) false := by
  simp only [State.fetchCheck, hb, if_pos hp]

theorem State.fetchCheck_space (hb : s.breakpoint w = Option.none) (hp : (s.thread w).pc.toNat % 4 = 0) (hs : adSpace (s.thread w).pc = 3) :
    s.fetchCheck w long .clean = .stop (.trap s (violation 1 (s.thread w).pc)) false := by
  simp only [State.fetchCheck, hb, if_neg (not_not_intro hp), if_pos hs]

/-- The fetch from an aligned address outside space 3 goes by what the address resolves to. -/
theorem State.fetchCheck_resolved (hb : s.breakpoint w = Option.none) (hp : (s.thread w).pc.toNat % 4 = 0) (hs : adSpace (s.thread w).pc ≠ 3) :
    s.fetchCheck w long .clean =
      match s.resolve w.core .fetch false (s.thread w).pc (fetchSize long (s.thread w).pc) with
      | .bad t => .stop (.trap s t) false
      | .miss page => .stop (.wait (s.missHold w { page, fetch := true, tval := (s.thread w).pc })) false
      | .at_ l _ => if (s.core w.core).icache.contains (s.lineTag (s.thread w).pc) then .ok s
        else s.fetchLine w (s.thread w).pc l (fetchSize long (s.thread w).pc) .none := by
  simp only [State.fetchCheck, hb, if_neg (not_not_intro hp), if_neg hs]
  rfl

/-- The line of an instruction in this module is installed, or its poison traps. -/
theorem State.fetchLine_here {l : Loc} (hl : l.here = true) (pc : Word) (n : Nat) :
    s.fetchLine w pc l n .none = if s.poisoned l n then .stop (.trap s { code := 0x0A, detail := 5, tval := pc }) false
      else .ok (s.icacheInstall w.core (s.lineTag pc)) := by
  have hsense : s.fetchLine w pc l n .none = match s.sense w.core l n .none pc with
      | (some t, s) => .stop (.trap s t) false
      | (Option.none, s) => .ok (s.icacheInstall w.core (s.lineTag pc)) := by
    cases l with
    | remote m a => cases hl
    | ctl c o => cases hl
    | ls c o => rfl
    | loft d o => rfl
    | hbm d o => rfl
    | ddr d o => rfl
  rw [hsense, State.sense]
  cases s.poisoned l n <;> rfl

/-- Installing a line of the instruction cache changes one core's cache, and perhaps the counter of free values. -/
theorem State.icacheInstall_eq (s : State) (c : CoreIx) (tag : Nat) :
    ∃ n out, s.icacheInstall c tag = ({ s with free := n } : State).modCore c (fun x =>
      { x with icache := x.icache.filter (fun t => decide (t ≠ tag ∧ t ≠ out)) ++ [tag] }) := by
  unfold State.icacheInstall
  dsimp only
  split
  · exact ⟨s.free, tag, rfl⟩
  · exact ⟨_, _, rfl⟩

theorem State.thread_icacheInstall (s : State) (c : CoreIx) (tag : Nat) (w : Who) : (s.icacheInstall c tag).thread w = s.thread w := by
  obtain ⟨n, out, h⟩ := s.icacheInstall_eq c tag
  rw [h]
  exact State.thread_modCore rfl w

theorem State.steady_icacheInstall (h : s.steady i long = true) (tag : Nat) : (s.icacheInstall i.who.core tag).steady i long = true := by
  have hr : ((s.icacheInstall i.who.core tag).core i.who.core).retry = (s.core i.who.core).retry := by
    obtain ⟨n, out, h⟩ := s.icacheInstall_eq i.who.core tag
    rw [h, State.core_modCore]
    rfl
  rw [State.steady] at h ⊢
  rwa [State.thread_icacheInstall, hr]

theorem State.mem_icacheInstall (s : State) (c : CoreIx) (tag : Nat) : tag ∈ ((s.icacheInstall c tag).core c).icache := by
  obtain ⟨n, out, h⟩ := s.icacheInstall_eq c tag
  rw [h, State.core_modCore]
  simp

section Resolved

variable (h : s.steady i long = true) (hb : s.breakpoint i.who = Option.none) (hp : (s.thread i.who).pc.toNat % 4 = 0)
  (hs : adSpace (s.thread i.who).pc ≠ 3)

include hb hp hs

/-- A line the instruction cache does not hold is read first. -/
theorem fetchCheck_fetched {l : Loc} {page : Option Nat} (hl : l.here = true)
    (hr : s.resolve i.who.core .fetch false (s.thread i.who).pc (fetchSize long (s.thread i.who).pc) = .at_ l page)
    (ht : s.lineTag (s.thread i.who).pc ∉ (s.core i.who.core).icache) :
    s.fetchCheck i.who long .clean = if s.poisoned l (fetchSize long (s.thread i.who).pc) then
        .stop (.trap s { code := 0x0A, detail := 5, tval := (s.thread i.who).pc }) false
      else .ok (s.icacheInstall i.who.core (s.lineTag (s.thread i.who).pc)) := by
  have hno : ¬(s.core i.who.core).icache.contains (s.lineTag (s.thread i.who).pc) = true := fun hc => ht (List.contains_iff_mem.mp hc)
  simp only [State.fetchCheck_resolved hb hp hs, hr, if_neg hno, State.fetchLine_here hl]

include h

theorem issue_fetchHit {l : Loc} {page : Option Nat}
    (hr : s.resolve i.who.core .fetch false (s.thread i.who).pc (fetchSize long (s.thread i.who).pc) = .at_ l page)
    (ht : s.lineTag (s.thread i.who).pc ∈ (s.core i.who.core).icache) : issue i opc long c body s = .next (s.settle i.who long (body s)) := by
  refine issue_of_fetch h ?_ rfl
  simp only [State.fetchCheck_resolved hb hp hs, hr, List.contains_iff_mem.mpr ht, if_true]

theorem issue_fetchMiss {l : Loc} {page : Option Nat} (hl : l.here = true)
    (hr : s.resolve i.who.core .fetch false (s.thread i.who).pc (fetchSize long (s.thread i.who).pc) = .at_ l page)
    (ht : s.lineTag (s.thread i.who).pc ∉ (s.core i.who.core).icache) (hc : s.poisoned l (fetchSize long (s.thread i.who).pc) = false) :
    issue i opc long c body s = .next ((s.icacheInstall i.who.core (s.lineTag (s.thread i.who).pc)).settle i.who long
      (body (s.icacheInstall i.who.core (s.lineTag (s.thread i.who).pc)))) := by
  refine issue_of_fetch h ?_ (congrArg Thread.pc (State.thread_icacheInstall ..))
  rw [fetchCheck_fetched hb hp hs hl hr ht, hc]
  rfl

theorem issue_fetchPoisoned {l : Loc} {page : Option Nat} (hl : l.here = true)
    (hr : s.resolve i.who.core .fetch false (s.thread i.who).pc (fetchSize long (s.thread i.who).pc) = .at_ l page)
    (ht : s.lineTag (s.thread i.who).pc ∉ (s.core i.who.core).icache) (hc : s.poisoned l (fetchSize long (s.thread i.who).pc) = true) :
    issue i opc long c body s = .next (s.settle i.who false (.trap s { code := 0x0A, detail := 5, tval := (s.thread i.who).pc })) := by
  refine issue_of_stop h ?_
  rw [fetchCheck_fetched hb hp hs hl hr ht, hc]
  rfl

theorem issue_fetchBad {t : Trap}
    (hr : s.resolve i.who.core .fetch false (s.thread i.who).pc (fetchSize long (s.thread i.who).pc) = .bad t) :
    issue i opc long c body s = .next (s.settle i.who false (.trap s t)) :=
  issue_of_stop h (by simp only [State.fetchCheck_resolved hb hp hs, hr])

theorem issue_fetchWaits {page : Nat}
    (hr : s.resolve i.who.core .fetch false (s.thread i.who).pc (fetchSize long (s.thread i.who).pc) = .miss page) :
    issue i opc long c body s =
      .next (s.settle i.who false (.wait (s.missHold i.who { page, fetch := true, tval := (s.thread i.who).pc }))) :=
  issue_of_stop h (by simp only [State.fetchCheck_resolved hb hp hs, hr])

end Resolved

end Fetch

/-! ### Branches and jumps (R47, R49, R61) -/

theorem State.thread_cacheInstall (s : State) (c : CoreIx) (tag : Nat) (v : BitVec 512) (w : Who) :
    (s.cacheInstall c tag v).thread w = s.thread w := by
  unfold State.cacheInstall
  dsimp only
  split
  · exact State.thread_modCore rfl w
  · exact State.thread_modCore (s := { s with free := _ }) rfl w

theorem State.thread_satCores (s : State) (cs : List CoreIx) (w : Who) : (s.satCores cs).thread w = s.thread w :=
  foldl_invariant (fun t : State => t.thread w = s.thread w) rfl (fun t _ _ ht => (State.thread_modCore (s := t) rfl w).trans ht)

theorem State.thread_countDie (s : State) (d : DieIx) (e n : Nat) (w : Who) : (s.countDie d e n).thread w = s.thread w := by
  unfold State.countDie
  dsimp only
  split
  · exact State.thread_satCores _ _ w
  · rfl

theorem State.thread_mergeRead (s : State) (d : DieIx) (line : Nat) (w : Who) : (s.mergeRead d line).2.thread w = s.thread w := by
  unfold State.mergeRead
  split
  · exact State.thread_countDie _ _ _ _ w
  · rfl

theorem State.thread_engineBytes (s : State) (l : Loc) (n : Nat) (w : Who) : (s.engineBytes l n).2.2.thread w = s.thread w := by
  cases l with
  | loft d o => exact s.thread_mergeRead d _ w
  | ls c o => rfl
  | hbm d o => rfl
  | ddr d o => rfl
  | ctl c o => rfl
  | remote m a => rfl

/-- A load of a wrong path changes no thread (R49). -/
theorem State.thread_wrongLoad (s : State) (v : Who) (a : Word) (w : Who) : (s.wrongLoad v a).thread w = s.thread w := by
  unfold State.wrongLoad
  split
  · rfl
  · dsimp only
    split
    · rfl
    · split
      · exact State.thread_engineBytes ..
      · rw [State.thread_cacheInstall, State.thread_engineBytes]
  · rfl

theorem State.thread_countWasted (s : State) (c : CoreIx) (n : Nat) (w : Who) : (s.countWasted c n).thread w = s.thread w := by
  unfold State.countWasted
  split
  · rfl
  · exact State.thread_countCore ..

/-- A thread continues at an address of its own, on whatever state its instruction left. -/
theorem settle_jump_of_undisturbed {s t : State} {w : Who} (h : (t.thread w).undisturbed) (long : Bool) (pc : Word) :
    s.settle w long (.jump t pc) = t.went w pc id :=
  State.stepEnd_countRetired (by rw [State.thread_modThread]; exact h)

section Branches

variable {s : State} {i : Iss}

/-- The state after a branch has been resolved: a wrong prediction counts and its loads may have filled lines. -/
def State.resolved (s : State) (w : Who) (taken predicted : Bool) (wrong : List Word) : State :=
  if taken = predicted then s else wrong.foldl (fun u a => u.wrongLoad w a) ((s.countCore w.core 0x105 1).countWasted w.core wrong.length)

theorem State.thread_resolved (s : State) (w : Who) (taken predicted : Bool) (wrong : List Word) (v : Who) :
    (s.resolved w taken predicted wrong).thread v = s.thread v := by
  unfold State.resolved
  split
  · rfl
  · refine foldl_invariant (fun t : State => t.thread v = s.thread v) ?_ (fun t a _ ht => (State.thread_wrongLoad t w a v).trans ht)
    rw [State.thread_countWasted, State.thread_countCore]

theorem bp_done (h : s.ready i false = true) (p : BitVec 3) (sense predicted : Bool) (off : BitVec 22) (wrong : List Word) :
    exec (.bp i p sense off ⟨predicted, wrong⟩) s = .next
      (let taken := ((s.thread i.who).pred p).getLsbD 0 == sense
       let t := s.resolved i.who taken predicted wrong
       if taken then t.went i.who ((s.thread i.who).pc + off.signExtend 64 * 4) id else t.retired i.who 4 id) := by
  have hq (taken : Bool) : ((s.resolved i.who taken predicted wrong).thread i.who).undisturbed := by
    rw [State.thread_resolved]
    exact State.undisturbed_of_ready h
  rw [exec_bp, execBp, issue_of_ready h]
  dsimp only
  by_cases ht : ((s.thread i.who).pred p).getLsbD 0 = sense
  · rw [ht, decide_eq_true rfl, beq_self_eq_true, if_pos rfl, if_pos rfl]
    exact congrArg Host.Outcome.next (settle_jump_of_undisturbed (hq true) false _)
  · rw [decide_eq_false ht, beq_false_of_ne ht, if_neg Bool.false_ne_true, if_neg Bool.false_ne_true]
    exact congrArg Host.Outcome.next (settle_done_of_undisturbed (hq false) false)

theorem jal_done (h : s.ready i false = true) (rd : BitVec 5) (off : BitVec 21) :
    exec (.jal i rd off) s = .next (s.went i.who ((s.thread i.who).pc + off.signExtend 64 * 4) (fun h => h.setReg rd ((s.thread i.who).pc + 4))) := by
  obtain ⟨hr, hs⟩ := State.undisturbed_of_ready h
  rw [exec_jal, execJal, issue_of_ready h]
  exact congrArg Host.Outcome.next (settle_jump hr hs (Thread.setReg_haltReq ..) (Thread.setReg_stepping ..))

theorem jalr_done (h : s.ready i false = true) (rd rs1 : BitVec 5) :
    exec (.jalr i rd rs1) s = .next (s.went i.who ((s.thread i.who).reg rs1) (fun h => h.setReg rd ((s.thread i.who).pc + 4))) := by
  obtain ⟨hr, hs⟩ := State.undisturbed_of_ready h
  rw [exec_jalr, execJalr, issue_of_ready h]
  dsimp only
  rw [State.modThread_congr (g := fun h => h.setReg rd ((s.thread i.who).pc + 4)) rfl]
  exact congrArg Host.Outcome.next (settle_jump hr hs (Thread.setReg_haltReq ..) (Thread.setReg_stepping ..))

end Branches

/-! ### nop, cache operations, fences and sync.e (R74, R269, R276) -/

theorem State.thread_cacheInv (s : State) (c : CoreIx) (p : Nat → Bool) (w : Who) : (s.cacheInv c p).thread w = s.thread w :=
  State.thread_modCore (f := fun x => { x with dcache := x.dcache.filter (fun e => !(p e.1)) }) rfl w

section Completing

variable {s : State} {i : Iss}

theorem nop_done (h : s.ready i false = true) : exec (.nop i) s = .next (s.retired i.who 4 id) := by
  rw [exec_nop, execNop, issue_of_ready h]
  exact congrArg Host.Outcome.next (settle_done_of_undisturbed (State.undisturbed_of_ready h) false)

theorem cacheIinv_done (h : s.ready i false = true) :
    exec (.cacheIinv i) s = .next ((s.modCore i.who.core (fun x => { x with icache := [] })).retired i.who 4 id) := by
  have hq : ((s.modCore i.who.core (fun x => { x with icache := [] })).thread i.who).undisturbed := by
    rw [State.thread_modCore rfl]
    exact State.undisturbed_of_ready h
  rw [exec_cacheIinv, execCacheIinv, issue_of_ready h]
  exact congrArg Host.Outcome.next (settle_done_of_undisturbed hq false)

theorem settle_cacheInv (h : s.ready i false = true) (p : Nat → Bool) :
    s.settle i.who false (.done (s.cacheInv i.who.core p)) = (s.cacheInv i.who.core p).retired i.who 4 id :=
  settle_done_of_undisturbed (by rw [State.thread_cacheInv]; exact State.undisturbed_of_ready h) false

theorem cacheInvall_done (h : s.ready i false = true) :
    exec (.cacheInvall i) s = .next ((s.cacheInv i.who.core (fun _ => true)).retired i.who 4 id) := by
  rw [exec_cacheInvall, execCacheInvall, issue_of_ready h, settle_cacheInv h]

theorem cacheInv_none (h : s.ready i false = true) {rs1 rs2 : BitVec 5} (hl : ((s.thread i.who).reg rs2).toNat = 0) :
    exec (.cacheInv i rs1 rs2) s = .next (s.retired i.who 4 id) := by
  rw [exec_cacheInv, execCacheInv, issue_of_ready h, if_pos hl]
  exact congrArg Host.Outcome.next (settle_done_of_undisturbed (State.undisturbed_of_ready h) false)

section Range

variable {rs1 rs2 : BitVec 5} {base len : Nat} (h : s.ready i false = true)
  (hb : base = s.lineTag ((s.thread i.who).reg rs1) * 64 + ((s.thread i.who).reg rs1).toNat % 64)
  (hlen : len = ((s.thread i.who).reg rs2).toNat) (hl : len ≠ 0)

include h hb hlen hl

/-- A range of more than 1024 lines drops the whole cache (R74). -/
theorem cacheInv_wide (hn : 1024 < (base + len - 1) / 64 - base / 64 + 1) :
    exec (.cacheInv i rs1 rs2) s = .next ((s.cacheInv i.who.core (fun _ => true)).retired i.who 4 id) := by
  subst hb hlen
  rw [exec_cacheInv, execCacheInv, issue_of_ready h, if_neg hl, if_pos hn, settle_cacheInv h]

theorem cacheInv_lines (hn : (base + len - 1) / 64 - base / 64 + 1 ≤ 1024) :
    exec (.cacheInv i rs1 rs2) s =
      .next ((s.cacheInv i.who.core (fun t => decide (base / 64 ≤ t ∧ t ≤ (base + len - 1) / 64))).retired i.who 4 id) := by
  subst hb hlen
  rw [exec_cacheInv, execCacheInv, issue_of_ready h, if_neg hl, if_neg (Nat.not_lt.mpr hn), settle_cacheInv h]

end Range

end Completing

/-! ### Fences and sync.e (R269, R276) -/

theorem State.matrixBusy_modThread (s : State) (w : Who) (f : Thread → Thread) (n : Nat) : (s.modThread w f).matrixBusy w n = s.matrixBusy w n := by
  have hx : (s.modThread w f).core w.core = { s.core w.core with threads := ((s.modThread w f).core w.core).threads } := by
    rw [State.core_modThread]
    rfl
  rw [State.matrixBusy, hx]
  rfl

theorem State.fillsInFlight_modThread {s : State} {w : Who} {f : Thread → Thread} (hf : (f (s.thread w)).streams = (s.thread w).streams) :
    (s.modThread w f).fillsInFlight w = s.fillsInFlight w := by
  rw [State.fillsInFlight, State.thread_modThread, hf, State.fillsInFlight]

/-- A thread with a hold on its younger accesses. -/
def Thread.holding (h : Thread) (m : MemHold) : Thread := { h with memHold := m }

theorem Thread.holding_none {h : Thread} (hn : h.memHold = .none) : h.holding .none = h := by rw [Thread.holding, ← hn]

/-- A fence or sync.e that waits for something holds the thread's younger accesses. -/
theorem State.takeHold_waits {s : State} {w : Who} {m : MemHold} (ho : (s.modThread w (fun h => h.holding m)).memHoldOver w m = false) :
    s.takeHold w m = s.modThread w (fun h => h.holding m) := by
  have hm : ((s.modThread w (fun h => h.holding m)).thread w).memHold = m := by rw [State.thread_modThread]; rfl
  have hn : ¬(m ≠ .none ∧ (s.modThread w (fun h => h.holding m)).memHoldOver w m = true) := by rw [ho]; simp
  rw [State.takeHold, State.settleHold]
  dsimp only
  rw [show s.modThread w (fun h => { h with memHold := m }) = s.modThread w (fun h => h.holding m) from rfl, hm, if_neg hn]

/-- One that waits for nothing is over at once. -/
theorem State.takeHold_over {s : State} {w : Who} {m : MemHold} (hm0 : m ≠ .none) (hs : (s.thread w).memHold = .none)
    (ho : (s.modThread w (fun h => h.holding m)).memHoldOver w m = true) :
    s.takeHold w m = (match m with
      | .syncE mask _ => if mask.getLsbD 3 then (s.modThread w id).syncStreams w else s.modThread w id
      | _ => s.modThread w id) := by
  have hm : ((s.modThread w (fun h => h.holding m)).thread w).memHold = m := by rw [State.thread_modThread]; rfl
  have hid : (s.modThread w (fun h => h.holding m)).modThread w (fun h => { h with memHold := .none }) = s.modThread w id := by
    rw [State.modThread_modThread]
    exact State.modThread_congr (Thread.holding_none hs)
  rw [State.takeHold, State.settleHold]
  dsimp only
  rw [show s.modThread w (fun h => { h with memHold := m }) = s.modThread w (fun h => h.holding m) from rfl, hm, if_pos ⟨hm0, ho⟩, hid]
  cases m <;> rfl

section Holds

variable {s : State} {i : Iss}

theorem State.memHoldOver_fence (s : State) (w : Who) (level : BitVec 3) (n : Nat) (f : Thread → Thread) :
    (s.modThread w f).memHoldOver w (.fence level n) = s.memHoldOver w (.fence level n) := by
  simp only [State.memHoldOver, State.matrixBusy_modThread]
  rfl

/-- What a fence waits for is still out. -/
def State.fenceOut (s : State) (w : Who) (level : BitVec 3) : Prop :=
  s.matrixBusy w s.nextSeq = true ∨ (∃ x ∈ s.writes, x.src = some w ∧ x.seq < s.nextSeq ∧ inScope level w.core x.loc = true) ∨
    (∃ x ∈ s.acks, x.src = some w ∧ x.seq < s.nextSeq ∧ inScope level w.core x.loc = true) ∨
    (∃ m ∈ s.msgs, m.origin = .thread w ∧ m.seq < s.nextSeq ∧ inScope level w.core (s.msgLoc m) = true)

theorem State.memHoldOver_fence_iff (s : State) (w : Who) (level : BitVec 3) :
    s.memHoldOver w (.fence level s.nextSeq) = true ↔ ¬ s.fenceOut w level := by
  rw [← Bool.not_eq_false, not_iff_not]
  simp only [State.memHoldOver, State.fenceOut, Bool.and_eq_false_iff, Bool.not_eq_false', List.any_eq_true, Bool.and_eq_true,
    decide_eq_true_eq, and_assoc, or_assoc]

theorem fence_done (h : s.ready i false = true) (level : BitVec 3) :
    (¬ s.fenceOut i.who level → fence i level s = .next (s.retired i.who 4 id)) ∧
    (s.fenceOut i.who level → fence i level s = .next (s.retired i.who 4 (fun h => { h with memHold := .fence level s.nextSeq }))) := by
  obtain ⟨_, _, hmem, _⟩ := State.ready_cases h
  have hover := (s.memHoldOver_fence i.who level s.nextSeq (fun h => h.holding (.fence level s.nextSeq)))
  refine ⟨fun hout => ?_, fun hout => ?_⟩
  · rw [fence, issue_of_ready h, State.takeHold_over (by simp) hmem (hover.trans ((s.memHoldOver_fence_iff _ _).mpr hout))]
    exact congrArg Host.Outcome.next (settle_done_modThread (State.undisturbed_of_ready h) false)
  · have hno : s.memHoldOver i.who (.fence level s.nextSeq) = false := by
      rw [← Bool.not_eq_true, State.memHoldOver_fence_iff]
      exact not_not_intro hout
    rw [fence, issue_of_ready h, State.takeHold_waits (hover.trans hno)]
    exact congrArg Host.Outcome.next (settle_done_modThread (f := fun h => h.holding (.fence level s.nextSeq)) (State.undisturbed_of_ready h) false)

/-- What a sync.e waits for besides team DMA is still at work. -/
def State.syncBusy (s : State) (w : Who) (mask : BitVec 5) : Prop :=
  (mask.getLsbD 2 = true ∧ s.matrixBusy w s.nextSeq = true) ∨ (mask.getLsbD 3 = true ∧ s.fillsInFlight w = true)

theorem State.memHoldOver_syncE {s : State} {w : Who} (hl : (s.thread w).loads = []) (mask : BitVec 5) (n : Nat) (m : MemHold) :
    (s.modThread w (fun h => h.holding m)).memHoldOver w (.syncE mask n) =
      (!(mask.getLsbD 2 && s.matrixBusy w n) && !(mask.getLsbD 3 && s.fillsInFlight w)) := by
  have hloads : (s.modThread w (fun h => h.holding m)).loadsBusy w mask n = false := by
    rw [State.loadsBusy, State.thread_modThread]
    simp [Thread.holding, hl]
  rw [State.memHoldOver, hloads, State.matrixBusy_modThread, State.fillsInFlight_modThread rfl]
  rfl

theorem State.memHoldOver_syncE_iff {s : State} {w : Who} (hl : (s.thread w).loads = []) (mask : BitVec 5) (m : MemHold) :
    (s.modThread w (fun h => h.holding m)).memHoldOver w (.syncE mask s.nextSeq) = true ↔ ¬ s.syncBusy w mask := by
  rw [State.memHoldOver_syncE hl, ← Bool.not_eq_false, not_iff_not]
  simp only [State.syncBusy, Bool.and_eq_false_iff, Bool.not_eq_false', Bool.and_eq_true]

/-- A number of its own for a hold. -/
def State.numbered (s : State) : State := { s with nextSeq := s.nextSeq + 1 }

/-- A sync.e with no load outstanding takes its hold at once. -/
theorem State.takeSync_of_no_loads {s : State} {w : Who} (hl : (s.thread w).loads = []) (mask : BitVec 5) :
    s.takeSync w mask = (s.numbered.modThread w id).takeHold w (.syncE mask s.nextSeq) := by
  simp only [State.takeSync, hl, List.isEmpty_nil, if_true]
  rfl

theorem State.undisturbed_syncStreams {s : State} {w : Who} (h : (s.thread w).undisturbed) : ((s.syncStreams w).thread w).undisturbed := by
  refine foldl_invariant (fun t : State => (t.thread w).undisturbed) h (fun t k _ ht => ?_)
  dsimp only
  split
  · rw [State.thread_countThread]
    rw [State.modStream, State.thread_modThread]
    exact ht
  · exact ht

theorem syncE_dma (h : s.ready i false = true) {mask : BitVec 5} (h4 : mask.getLsbD 4 = true) (hd : s.dmaQuiet i.who = false) :
    exec (.syncE i mask) s = .next (s.modThread i.who (fun h => { h with state := .wait, hold := .syncDma mask })) := by
  rw [exec_syncE, execSyncE, issue_of_ready h, if_pos ⟨h4, by simp [hd]⟩]
  rfl

/-- A sync.e that waits for no team DMA takes its hold and completes. -/
theorem syncE_taken (h : s.ready i false = true) {mask : BitVec 5} (hd : ¬(mask.getLsbD 4 = true ∧ s.dmaQuiet i.who = false)) :
    exec (.syncE i mask) s =
      .next (s.settle i.who false (.done ((s.numbered.modThread i.who id).takeHold i.who (.syncE mask s.nextSeq)))) := by
  obtain ⟨_, _, _, hloads, _⟩ := State.ready_cases h
  rw [exec_syncE, execSyncE, issue_of_ready h, if_neg (by simpa using hd)]
  simp only [hloads, List.isEmpty_nil, if_true, State.takeSync_of_no_loads hloads]

theorem syncE_waits (h : s.ready i false = true) {mask : BitVec 5} (hd : ¬(mask.getLsbD 4 = true ∧ s.dmaQuiet i.who = false))
    (hb : s.syncBusy i.who mask) :
    exec (.syncE i mask) s = .next (s.numbered.retired i.who 4 (fun h => { h with memHold := .syncE mask s.nextSeq })) := by
  obtain ⟨_, _, _, hloads, _⟩ := State.ready_cases h
  have hno : (s.modThread i.who (fun h => h.holding (.syncE mask s.nextSeq))).memHoldOver i.who (.syncE mask s.nextSeq) = false := by
    rw [← Bool.not_eq_true, State.memHoldOver_syncE_iff hloads]
    exact not_not_intro hb
  have htaken : (s.numbered.modThread i.who id).takeHold i.who (.syncE mask s.nextSeq) =
      s.numbered.modThread i.who (fun h => h.holding (.syncE mask s.nextSeq)) := by
    rw [State.takeHold_waits, State.modThread_modThread]
    · rfl
    · rw [State.modThread_modThread]
      exact hno
  rw [syncE_taken h hd, htaken]
  exact congrArg Host.Outcome.next (settle_done_modThread (s := s) (t := s.numbered)
    (f := fun h => h.holding (.syncE mask s.nextSeq)) (State.undisturbed_of_ready h) false)

theorem syncE_over (h : s.ready i false = true) {mask : BitVec 5} (hd : ¬(mask.getLsbD 4 = true ∧ s.dmaQuiet i.who = false))
    (hb : ¬ s.syncBusy i.who mask) :
    exec (.syncE i mask) s = .next
      ((if mask.getLsbD 3 then (s.numbered.modThread i.who id).syncStreams i.who else s.numbered).retired i.who 4 id) := by
  obtain ⟨_, _, hmem, hloads, _⟩ := State.ready_cases h
  have hmm : ((s.numbered.modThread i.who id).thread i.who) = s.thread i.who := State.thread_modThread ..
  have hover : ((s.numbered.modThread i.who id).modThread i.who (fun h => h.holding (.syncE mask s.nextSeq))).memHoldOver i.who
      (.syncE mask s.nextSeq) = true := by
    rw [State.modThread_modThread]
    exact (State.memHoldOver_syncE_iff hloads mask _).mpr hb
  have hq : ((s.numbered.modThread i.who id).thread i.who).undisturbed := hmm ▸ State.undisturbed_of_ready h
  have htwice : (s.numbered.modThread i.who id).modThread i.who id = s.numbered.modThread i.who id := State.modThread_modThread ..
  rw [syncE_taken h hd, State.takeHold_over (by simp) (hmm ▸ hmem) hover, htwice]
  dsimp only
  split
  · exact congrArg Host.Outcome.next (settle_done_of_undisturbed (State.undisturbed_syncStreams hq) false)
  · exact congrArg Host.Outcome.next (settle_done_modThread (s := s) (t := s.numbered) (f := id) (State.undisturbed_of_ready h) false)

end Holds

/-- Settles O4: the fetch by what it meets, each transfer of control by its body, a fence and a sync.e by what their hold finds. -/
theorem controlFlow : Obligations.ControlFlow := by
  refine ⟨fun s i long opc c body l page x n h hb => ⟨?_, ?_, ?_, ?_, ?_, ?_, ?_⟩,
    fun s i rd rs1 off h => ⟨fun p sense predicted boff wrong => ?_, jal_done h rd off, jalr_done h rd rs1⟩,
    fun s i rs1 rs2 mask h => ⟨nop_done h, cacheIinv_done h, cacheInvall_done h, cacheInv_none h, fun hl hn => ?_, fun hl hn => ?_,
      fence_done h 0, fence_done h 1, fence_done h 2, fence_done h 3, fence_done h 4,
      fun hd => syncE_dma h hd.1 hd.2, fun hd => syncE_waits h hd, fun hd => syncE_over h hd⟩⟩
  · exact fun hright hreads ht => issue_fetchHit h hb hright.1 hright.2 hreads.1 ht
  · exact fun hright hreads ht => ⟨State.steady_icacheInstall h _, State.mem_icacheInstall ..,
      issue_fetchMiss h hb hright.1 hright.2 hreads.2.1 hreads.1 ht hreads.2.2⟩
  · exact fun hp => issue_of_stop h (State.fetchCheck_misaligned hb hp)
  · exact fun hp hs => issue_of_stop h (State.fetchCheck_space hb hp hs)
  · exact fun hright hr => issue_fetchBad h hb hright.1 hright.2 hr
  · exact fun hright hr => issue_fetchWaits h hb hright.1 hright.2 hr
  · exact fun hright hr hl hpois ht => issue_fetchPoisoned h hb hright.1 hright.2 hl hr ht hpois
  · exact bp_done h p sense predicted boff wrong
  · exact cacheInv_wide h rfl rfl hl hn
  · exact cacheInv_lines h rfl rfl hl hn

/-! ### Cancelled fills (R75) -/

/-- A read whose fill a cache operation of a core has met. -/
def RFlight.cancelled (c : CoreIx) (p : Nat → Bool) (f : RFlight) : RFlight :=
  match f.fill with
  | some (t, true) => if f.who.core = c ∧ p t then { f with fill := some (t, false) } else f
  | _ => f

theorem State.reads_retired (s : State) (w : Who) (n : Nat) (f : Thread → Thread) : (s.retired w n f).reads = s.reads := by
  simp [State.retired, State.countRetired]

theorem State.reads_cacheInv (s : State) (c : CoreIx) (p : Nat → Bool) : (s.cacheInv c p).reads = s.reads.map (RFlight.cancelled c p) := rfl

theorem RFlight.cancelled_of_fill {c : CoreIx} {p : Nat → Bool} {f : RFlight} {tag : Nat} {b : Bool} (hf : f.fill = some (tag, b))
    (hc : f.who.core = c) (hp : p tag = true) : f.cancelled c p = { f with fill := some (tag, false) } := by
  cases b with
  | true => simp only [RFlight.cancelled, hf, if_pos (And.intro hc hp)]
  | false =>
    have hsame : { f with fill := some (tag, false) } = f := by rw [← hf]
    simp only [RFlight.cancelled, hf, hsame]

/-- A cancelled fill is no longer one that installs its line. -/
theorem RFlight.fill_cancelled {c : CoreIx} {p : Nat → Bool} {tag : Nat} (hp : p tag = true) (f : RFlight)
    (hf : (f.cancelled c p).fill = some (tag, true)) : (f.cancelled c p).who.core ≠ c := by
  unfold RFlight.cancelled at hf ⊢
  split at hf
  next t ht =>
    split at hf
    · simp at hf
    next hno =>
      rw [if_neg hno]
      have : t = tag := by simpa [ht] using hf
      exact fun hc => hno ⟨hc, this ▸ hp⟩
  next hno => exact absurd hf (hno tag)

/-- After a cache operation that covers a line, no fill of that line in flight for the core installs it. -/
theorem cacheInv_cancels {s : State} {c : CoreIx} {p : Nat → Bool} {f : RFlight} {tag : Nat} {b : Bool} {w : Who} (hf : f ∈ s.reads)
    (hfill : f.fill = some (tag, b)) (hc : f.who.core = c) (hp : p tag = true) :
    { f with fill := some (tag, false) } ∈ ((s.cacheInv c p).retired w 4 id).reads ∧
      ∀ e ∈ ((s.cacheInv c p).retired w 4 id).reads, e.fill ≠ some (tag, true) ∨ e.who.core ≠ c := by
  rw [State.reads_retired, State.reads_cacheInv]
  refine ⟨List.mem_map.mpr ⟨f, hf, RFlight.cancelled_of_fill hfill hc hp⟩, fun e he => ?_⟩
  obtain ⟨f', _, rfl⟩ := List.mem_map.mp he
  by_cases h : (f'.cancelled c p).fill = some (tag, true)
  · exact .inr (RFlight.fill_cancelled hp f' h)
  · exact .inl h

/-- The state after a load has retired: its thread has the value, and the data cache is as it was. -/
theorem State.loadRetired_effect (s : State) (f : RFlight) (rd : BitVec 5) (v : Word) :
    ((s.loadRetired f rd v Option.none).core f.who.core).dcache = (s.core f.who.core).dcache ∧
    ((s.loadRetired f rd v Option.none).thread f.who).reg rd = (if rd = 0 then 0 else v) ∧
    ((s.loadRetired f rd v Option.none).thread f.who).loads = [] ∧ f ∉ (s.loadRetired f rd v Option.none).reads := by
  refine ⟨?_, ?_, ?_, ?_⟩
  · rw [State.loadRetired, State.core_countRetired, State.core_modThread]
    rfl
  · have hg : ((s.loadRetired f rd v Option.none).thread f.who).g = ((s.thread f.who).setReg rd v).g := by
      rw [State.loadRetired, State.thread_countRetired, State.thread_modThread]
      rfl
    rw [Thread.reg_congr hg, Thread.reg_setReg]
    by_cases h0 : rd = 0
    · simp [h0, Thread.reg]
    · rw [if_pos ⟨rfl, h0⟩, if_neg h0]
  · rw [State.loadRetired, State.thread_countRetired, State.thread_modThread]
    rfl
  · simp [State.loadRetired, State.countRetired]

theorem covered_line {base len k tag : Nat} (hk : k < len) (h : (base + k) / 64 = tag) : base / 64 ≤ tag ∧ tag ≤ (base + len - 1) / 64 := by
  omega

/-- Settles O27: the operation marks the fills it covers, and a marked fill returns like any load. -/
theorem fillsCancelled : Obligations.FillsCancelled := by
  intro s v i rs1 rs2 rd f tag size b signed op c h hf hfill hcore a len line g hc
  refine ⟨?_, fun hg hu hd ha he hr hp hl hk hparts hupd hw ht hfit hq => ?_⟩
  · rcases hc with rfl | ⟨rfl, k, hk, hline⟩
    · exact ⟨_, cacheInvall_done h, cacheInv_cancels hf hfill hcore rfl⟩
    · have hlen : len ≠ 0 := by omega
      by_cases hn : 1024 < (s.lineTag a * 64 + a.toNat % 64 + len - 1) / 64 - (s.lineTag a * 64 + a.toNat % 64) / 64 + 1
      · exact ⟨_, cacheInv_wide h rfl rfl hlen hn, cacheInv_cancels hf hfill hcore rfl⟩
      · exact ⟨_, cacheInv_lines h rfl rfl hlen (Nat.not_lt.mp hn), cacheInv_cancels hf hfill hcore (decide_eq_true (covered_line hk hline))⟩
  · have hwait : v.ScalarWaits g op rd size signed := ⟨hg, hu, hd, ha, he, hr, hp, hl, hk, hparts, hw, ht, hfit, hq⟩
    refine ⟨_, (hwait.cacheFillReturn rfl).trans (congrArg Host.Outcome.next (hwait.readBack ?_)), ?_⟩
    · intro t ht
      cases ht
    · rw [hupd]
      exact State.loadRetired_effect v g rd _

end Sys2Proof.Machine
end

section
/-! What a performed write changes, and when a write in flight and its acknowledgement land (R65, R196, R199, R248, R266, R276, R278). -/

namespace Sys2Proof.Machine

/-! ### What a change of a die or a core leaves -/

/-- A change of a die leaves what it leaves of that die in every die. -/
theorem State.die_modDie_keeps {α : Type} {s : State} {d : DieIx} {f : Die → Die} (p : Die → α) (hp : p (f (s.die d)) = p (s.die d)) (e : DieIx) :
    p ((s.modDie d f).die e) = p (s.die e) := by
  by_cases he : e = d
  · rw [he, State.die_modDie, hp]
  · rw [State.die_modDie_other _ _ he]

theorem State.core_modCore_keeps {α : Type} {s : State} {c : CoreIx} {f : Core → Core} (p : Core → α) (hp : p (f (s.core c)) = p (s.core c))
    (e : CoreIx) : p ((s.modCore c f).core e) = p (s.core e) := by
  by_cases he : e = c
  · rw [he, State.core_modCore, hp]
  · rw [State.core_modCore_other _ _ he]

/-! ### Bytes (R266) -/

/-- The byte memory of a unit. -/
def State.memOf (s : State) (l : Loc) : Sparse Byte :=
  match l with
  | .ls c _ => (s.core c).ls
  | .loft d _ => (s.die d).loft
  | .hbm d _ => (s.die d).hbm
  | .ddr d _ => (s.die d).ddr
  | .ctl _ _ => []
  | .remote _ _ => []

theorem State.byteAt_eq (s : State) (l : Loc) : s.byteAt l = Sparse.get 0 (s.memOf l) l.off := by cases l <;> rfl

section Bytes

variable {s : State} {l : Loc} {bs : List (Option Byte)}

theorem State.memOf_putLoc (s : State) {l : Loc} (hl : l.here = true) (bs : List (Option Byte)) (m : Loc) :
    (s.putLoc l bs).memOf m = if m.sameUnit l then writeMem (s.memOf l) l.off bs else s.memOf m := by
  cases l with
  | ctl c o => cases hl
  | remote m a => cases hl
  | ls c o =>
    cases m with
    | ls c' o' =>
      by_cases hc : c' = c
      · simp [State.putLoc, State.memOf, Loc.sameUnit, Loc.off, hc]
      · simp [State.putLoc, State.memOf, Loc.sameUnit, hc, State.core_modCore_other _ _ hc]
    | _ => rfl
  | loft d o =>
    cases m with
    | loft d' o' =>
      by_cases hd : d' = d
      · simp [State.putLoc, State.memOf, Loc.sameUnit, Loc.off, hd]
      · simp [State.putLoc, State.memOf, Loc.sameUnit, hd, State.die_modDie_other _ _ hd]
    | hbm d' o' => exact State.die_modDie_keeps Die.hbm rfl d'
    | ddr d' o' => exact State.die_modDie_keeps Die.ddr rfl d'
    | _ => rfl
  | hbm d o =>
    cases m with
    | hbm d' o' =>
      by_cases hd : d' = d
      · simp [State.putLoc, State.memOf, Loc.sameUnit, Loc.off, hd]
      · simp [State.putLoc, State.memOf, Loc.sameUnit, hd, State.die_modDie_other _ _ hd]
    | loft d' o' => exact State.die_modDie_keeps Die.loft rfl d'
    | ddr d' o' => exact State.die_modDie_keeps Die.ddr rfl d'
    | _ => rfl
  | ddr d o =>
    cases m with
    | ddr d' o' =>
      by_cases hd : d' = d
      · simp [State.putLoc, State.memOf, Loc.sameUnit, Loc.off, hd]
      · simp [State.putLoc, State.memOf, Loc.sameUnit, hd, State.die_modDie_other _ _ hd]
    | loft d' o' => exact State.die_modDie_keeps Die.loft rfl d'
    | hbm d' o' => exact State.die_modDie_keeps Die.hbm rfl d'
    | _ => rfl

theorem State.memOf_sameUnit (s : State) {l m : Loc} (h : m.sameUnit l = true) : s.memOf m = s.memOf l := by
  cases l with
  | ls c o => cases m with | ls c' o' => rw [of_decide_eq_true h]; rfl | _ => cases h
  | loft c o => cases m with | loft c' o' => rw [of_decide_eq_true h]; rfl | _ => cases h
  | hbm c o => cases m with | hbm c' o' => rw [of_decide_eq_true h]; rfl | _ => cases h
  | ddr c o => cases m with | ddr c' o' => rw [of_decide_eq_true h]; rfl | _ => cases h
  | ctl c o => cases m with | ctl c' o' => rfl | _ => cases h
  | remote c o => cases m with | remote c' o' => rfl | _ => cases h

/-- A state whose memories are those after the bytes have been put has had them written. -/
theorem State.wrote_of_memOf {t : State} (h : ∀ m, t.memOf m = if m.sameUnit l then writeMem (s.memOf l) l.off bs else s.memOf m) :
    s.wrote t l bs := by
  intro m
  rw [State.byteAt_eq, State.byteAt_eq, h]
  by_cases hm : m.sameUnit l = true
  · rw [if_pos hm, if_pos hm, get_writeMem, State.memOf_sameUnit s hm]
  · rw [if_neg hm, if_neg hm]
    rfl

end Bytes

/-! ### The steps of a performed write -/

section Steps

variable {s : State}

theorem State.memOf_setPoisonOf (s : State) (l : Loc) (p : Sparse Bool) (m : Loc) : (s.setPoisonOf l p).memOf m = s.memOf m := by
  have hcore (c : CoreIx) (c' : CoreIx) : ((s.modCore c (fun x => { x with lsPoison := p })).core c').ls = (s.core c').ls :=
    State.core_modCore_keeps Core.ls rfl c'
  have hdie (d : DieIx) (f : Die → Die) (hf : ∀ x, (f x).loft = x.loft ∧ (f x).hbm = x.hbm ∧ (f x).ddr = x.ddr) (m : Loc) :
      (s.modDie d f).memOf m = s.memOf m := by
    obtain ⟨h1, h2, h3⟩ := hf (s.die d)
    cases m with
    | loft d' o => exact State.die_modDie_keeps Die.loft h1 d'
    | hbm d' o => exact State.die_modDie_keeps Die.hbm h2 d'
    | ddr d' o => exact State.die_modDie_keeps Die.ddr h3 d'
    | _ => rfl
  cases l with
  | ls c o => cases m with | ls c' o' => exact hcore c c' | _ => rfl
  | loft d o => exact hdie d (fun x => { x with loftPoison := p }) (fun _ => ⟨rfl, rfl, rfl⟩) m
  | hbm d o => exact hdie d (fun x => { x with hbmPoison := p }) (fun _ => ⟨rfl, rfl, rfl⟩) m
  | ddr d o => exact hdie d (fun x => { x with ddrPoison := p }) (fun _ => ⟨rfl, rfl, rfl⟩) m
  | _ => rfl

theorem State.memOf_closeMerges (s : State) (l : Loc) (bs : List (Option Byte)) (m : Loc) : (s.closeMerges l bs).memOf m = s.memOf m := by
  cases l with
  | loft d o =>
    cases m with
    | loft d' o' => exact State.die_modDie_keeps Die.loft rfl d'
    | hbm d' o' => exact State.die_modDie_keeps Die.hbm rfl d'
    | ddr d' o' => exact State.die_modDie_keeps Die.ddr rfl d'
    | _ => rfl
  | _ => rfl

/-- Every core loses the reservations a test names, and nothing else. -/
theorem State.core_clearResv (h : Sparse.wf {} s.cores = true) (p : Loc → Bool) (c : CoreIx) :
    (s.clearResv p).core c = (s.core c).unreserve p := Sparse.get_mapVals h (fun _ => rfl) c.toNat

theorem Core.thread_unreserve_of_wf {x : Core} (h : Sparse.wf {} x.threads = true) (p : Loc → Bool) (k : BitVec 2) :
    (x.unreserve p).thread k = (x.thread k).unreserve p := Sparse.get_mapVals h (fun _ => rfl) k.toNat

theorem State.memOf_clearResv (h : Sparse.wf {} s.cores = true) (p : Loc → Bool) (m : Loc) : (s.clearResv p).memOf m = s.memOf m := by
  cases m with
  | ls c o =>
    rw [State.memOf, State.core_clearResv h]
    rfl
  | _ => rfl

/-- A state after the bytes are put and the poison they end is gone. -/
def State.written (s : State) (l : Loc) (bs : List (Option Byte)) : State :=
  (s.putLoc l bs).setPoisonOf l (clearPoison ((s.putLoc l bs).poisonOf l) l.off bs)

theorem State.perform_eq (s : State) (l : Loc) (bs : List (Option Byte)) :
    s.perform l bs = ((s.written l bs).clearResv (breaks l bs)).closeMerges l bs := rfl

theorem State.wf_modCore (c : CoreIx) (f : Core → Core) (h : Sparse.wf {} s.cores = true) : Sparse.wf {} (s.modCore c f).cores = true :=
  Sparse.wf_put _ _ h

theorem State.coresWf_written (h : Sparse.wf {} s.cores = true) (l : Loc) (bs : List (Option Byte)) :
    Sparse.wf {} (s.written l bs).cores = true := by
  cases l with
  | ls c o => exact State.wf_modCore c _ (State.wf_modCore c _ h)
  | _ => exact h

theorem State.threads_written (s : State) (l : Loc) (bs : List (Option Byte)) (c : CoreIx) :
    ((s.written l bs).core c).threads = (s.core c).threads := by
  cases l with
  | ls c' o => exact (State.core_modCore_keeps Core.threads rfl c).trans (State.core_modCore_keeps Core.threads rfl c)
  | _ => rfl

theorem State.core_closeMerges (s : State) (l : Loc) (bs : List (Option Byte)) (c : CoreIx) : (s.closeMerges l bs).core c = s.core c := by
  cases l <;> rfl

theorem State.memOf_perform (h : Sparse.wf {} s.cores = true) {l : Loc} (hl : l.here = true) (bs : List (Option Byte)) (m : Loc) :
    (s.perform l bs).memOf m = if m.sameUnit l then writeMem (s.memOf l) l.off bs else s.memOf m := by
  rw [State.perform_eq, State.memOf_closeMerges, State.memOf_clearResv (State.coresWf_written h l bs), State.written, State.memOf_setPoisonOf,
    State.memOf_putLoc s hl]

/-- A performed write changes of a thread only the reservation it ends. -/
theorem State.thread_perform (h : Sparse.wf {} s.cores = true) (ht : ∀ c, Sparse.wf {} (s.core c).threads = true) (l : Loc)
    (bs : List (Option Byte)) (w : Who) : (s.perform l bs).thread w = (s.thread w).unreserve (breaks l bs) := by
  have hw : Sparse.wf {} ((s.written l bs).core w.core).threads = true := by rw [State.threads_written]; exact ht _
  rw [State.perform_eq, State.thread, State.core_closeMerges, State.core_clearResv (State.coresWf_written h l bs),
    Core.thread_unreserve_of_wf hw, Core.thread, State.threads_written]
  rfl

end Steps

/-! ### Reservations (R65) -/

/-- A write puts a byte at an offset. -/
def Puts (l : Loc) (bs : List (Option Byte)) (p : Nat) : Prop := ∃ b, byteFor l.off bs p = some b

/-- A write puts a byte in a 64-byte line. -/
def Hits (l : Loc) (bs : List (Option Byte)) (line : Nat) : Prop := ∃ j, j < 64 ∧ Puts l bs (64 * line + j)

theorem touches_iff (l : Loc) (bs : List (Option Byte)) (line : Nat) : touches l.off bs line = true ↔ Hits l bs line := by
  simp only [touches, Hits, Puts, List.any_eq_true, List.mem_range, Option.isSome_iff_exists]

theorem breaks_iff (l : Loc) (bs : List (Option Byte)) (r : Loc) :
    breaks l bs r = true ↔ r.sameUnit l = true ∧ Hits l bs (r.off / 64) := by
  rw [breaks, Bool.and_eq_true, touches_iff]

theorem Thread.resv_unreserve_of_some {h : Thread} {r : Loc} (hr : h.resv = some r) (p : Loc → Bool) :
    (h.unreserve p).resv = if p r then Option.none else some r := by
  simp only [Thread.unreserve, hr]
  split
  · rfl
  · exact hr

/-! ### Poison (R196, R248) -/

theorem get_foldl_clear (f : Nat → Bool) (ks : List Nat) (m : Sparse Bool) (k : Nat) :
    Sparse.get false (ks.foldl (fun m k => if f k then Sparse.put false m k false else m) m) k =
      if k ∈ ks ∧ f k = true then false else Sparse.get false m k := by
  induction ks generalizing m with
  | nil => simp
  | cons j ks ih =>
    rw [List.foldl_cons, ih]
    by_cases hj : k = j
    · subst hj
      by_cases hf : f k = true
      · simp [hf]
      · simp [hf]
    · by_cases hf : f j = true
      · simp [hf, hj, Sparse.get_put_other _ _ _ hj]
      · simp [hf, hj]

theorem wholeWord_iff (l : Loc) (bs : List (Option Byte)) (k : Nat) :
    (List.range 8).all (fun j => (byteFor l.off bs (8 * k + j)).isSome) = true ↔ ∀ j, j < 8 → Puts l bs (8 * k + j) := by
  simp only [List.all_eq_true, List.mem_range, Option.isSome_iff_exists, Puts]

theorem Puts.range {l : Loc} {bs : List (Option Byte)} {p : Nat} (h : Puts l bs p) : l.off ≤ p ∧ p < l.off + bs.length := by
  obtain ⟨b, hb⟩ := h
  unfold byteFor at hb
  split at hb
  next hle =>
    refine ⟨hle, ?_⟩
    by_contra hlt
    rw [List.getElem?_eq_none (by omega)] at hb
    cases hb
  · cases hb

theorem get_clearPoison (l : Loc) (bs : List (Option Byte)) (m : Sparse Bool) (k : Nat) :
    ((∀ j, j < 8 → Puts l bs (8 * k + j)) → Sparse.get false (clearPoison m l.off bs) k = false) ∧
    (¬(∀ j, j < 8 → Puts l bs (8 * k + j)) → Sparse.get false (clearPoison m l.off bs) k = Sparse.get false m k) := by
  rw [clearPoison, get_foldl_clear (fun k => (List.range 8).all (fun j => (byteFor l.off bs (8 * k + j)).isSome))]
  refine ⟨fun h => ?_, fun h => if_neg (fun hc => h ((wholeWord_iff l bs k).mp hc.2))⟩
  obtain ⟨hlo, hhi⟩ := (h 0 (by decide)).range
  refine if_pos ⟨?_, (wholeWord_iff l bs k).mpr h⟩
  rw [wordsOf, List.mem_map]
  exact ⟨k - l.off / 8, by rw [List.mem_range]; omega, by omega⟩

theorem State.poisonOf_closeMerges (s : State) (l : Loc) (bs : List (Option Byte)) : (s.closeMerges l bs).poisonOf l = s.poisonOf l := by
  cases l with
  | loft d o => exact State.die_modDie_keeps Die.loftPoison rfl d
  | _ => rfl

theorem State.poisonOf_clearResv {s : State} (h : Sparse.wf {} s.cores = true) (p : Loc → Bool) (l : Loc) :
    (s.clearResv p).poisonOf l = s.poisonOf l := by
  cases l with
  | ls c o =>
    rw [State.poisonOf, State.core_clearResv h]
    rfl
  | _ => rfl

theorem State.poisonOf_setPoisonOf (s : State) {l : Loc} (hl : l.here = true) (m : Sparse Bool) : (s.setPoisonOf l m).poisonOf l = m := by
  cases l with
  | ctl c o => cases hl
  | remote m a => cases hl
  | ls c o => rw [State.poisonOf, State.setPoisonOf, State.core_modCore]
  | loft d o => rw [State.poisonOf, State.setPoisonOf, State.die_modDie]
  | hbm d o => rw [State.poisonOf, State.setPoisonOf, State.die_modDie]
  | ddr d o => rw [State.poisonOf, State.setPoisonOf, State.die_modDie]

theorem State.poisonOf_putLoc (s : State) (l : Loc) (bs : List (Option Byte)) : (s.putLoc l bs).poisonOf l = s.poisonOf l := by
  cases l with
  | ls c o => exact State.core_modCore_keeps Core.lsPoison rfl c
  | loft d o => exact State.die_modDie_keeps Die.loftPoison rfl d
  | hbm d o => exact State.die_modDie_keeps Die.hbmPoison rfl d
  | ddr d o => exact State.die_modDie_keeps Die.ddrPoison rfl d
  | _ => rfl

theorem State.poisonOf_perform {s : State} (h : Sparse.wf {} s.cores = true) {l : Loc} (hl : l.here = true) (bs : List (Option Byte)) :
    (s.perform l bs).poisonOf l = clearPoison (s.poisonOf l) l.off bs := by
  rw [State.perform_eq, State.poisonOf_closeMerges, State.poisonOf_clearResv (State.coresWf_written h l bs), State.written,
    State.poisonOf_setPoisonOf _ hl, State.poisonOf_putLoc]

/-! ### Merge entries (R199) -/

theorem State.merges_written (s : State) (l : Loc) (bs : List (Option Byte)) (d : DieIx) : ((s.written l bs).die d).merges = (s.die d).merges := by
  cases l with
  | loft d' o => exact (State.die_modDie_keeps Die.merges rfl d).trans (State.die_modDie_keeps Die.merges rfl d)
  | hbm d' o => exact (State.die_modDie_keeps Die.merges rfl d).trans (State.die_modDie_keeps Die.merges rfl d)
  | ddr d' o => exact (State.die_modDie_keeps Die.merges rfl d).trans (State.die_modDie_keeps Die.merges rfl d)
  | _ => rfl

theorem State.mem_closeMerges (s : State) (l : Loc) (bs : List (Option Byte)) (d : DieIx) (m : Merge) :
    m ∈ ((s.closeMerges l bs).die d).merges ↔ m ∈ (s.die d).merges ∧ ¬(∃ o, l = .loft d o ∧ Hits l bs m.line) := by
  cases l with
  | loft d' o =>
    have hiff := touches_iff (.loft d' o) bs m.line
    by_cases hd : d = d'
    · subst hd
      rw [State.closeMerges, State.die_modDie, List.mem_filter, ← hiff]
      simp [Loc.off]
    · have hno : ¬(∃ o', Loc.loft d' o = .loft d o' ∧ Hits (.loft d' o) bs m.line) := by
        rintro ⟨o', h, _⟩
        exact hd (by injection h with h; exact h.symm)
      rw [State.closeMerges, State.die_modDie_other _ _ hd]
      exact (and_iff_left hno).symm
  | _ => simp [State.closeMerges]

theorem State.mem_merges_perform (s : State) (l : Loc) (bs : List (Option Byte)) (d : DieIx) (m : Merge) :
    m ∈ ((s.perform l bs).die d).merges ↔ m ∈ (s.die d).merges ∧ ¬(∃ o, l = .loft d o ∧ Hits l bs m.line) := by
  rw [State.perform_eq, State.mem_closeMerges, ← State.merges_written s l bs d]
  rfl

/-! ### Writes in flight and their acknowledgements (R266, R276, R278) -/

section Arrivals

variable {s : State}

/-- Whether the place of a write cannot take it now: it lies in another module, or its control word makes it wait. -/
def State.writeWaits (s : State) (x : WFlight) : Bool :=
  match x.loc with
  | .remote _ _ => true
  | .ctl c o => s.ctlWaits x.via c o (wordOfWrite x.bytes)
  | _ => false

theorem writeArrival_of_mem {x : WFlight} (hx : x ∈ s.writes) (hu : ∀ y ∈ s.writes, y.seq = x.seq → y = x) :
    exec (.writeArrival x.seq) s = .next (if s.writeWaits x || s.writeBlocked x then s else s.landWrite x) := by
  have hfind : s.writes.find? (fun y => decide (y.seq = x.seq)) = some x :=
    find?_unique hx (decide_eq_true rfl) (fun y hy hs => hu y hy (of_decide_eq_true hs))
  rw [exec_writeArrival, execWriteArrival, hfind]
  rfl

theorem writeAckArrival_of_mem {a : AckFlight} (ha : a ∈ s.acks) (hu : ∀ b ∈ s.acks, b.seq = a.seq → b = a) :
    exec (.writeAckArrival a.seq) s = .next (({ s with acks := s.acks.filter (fun b => b.seq ≠ a.seq) } : State).acked a.src a.red) := by
  have hfind : s.acks.find? (fun b => decide (b.seq = a.seq)) = some a :=
    find?_unique ha (decide_eq_true rfl) (fun b hb hs => hu b hb (of_decide_eq_true hs))
  rw [exec_writeAckArrival, execWriteAckArrival, hfind]

end Arrivals

section Arrivals

variable {s : State}

/-- A state in which a write has left the port's list and its acknowledgement is on its way. -/
def State.landing (s : State) (x : WFlight) : State :=
  { s with writes := s.writes.filter (fun y => y.seq ≠ x.seq), acks := s.acks ++ [AckFlight.mk x.seq x.src x.loc x.red] }

theorem State.landWrite_here {x : WFlight} (hl : x.loc.here = true) : s.landWrite x = (s.landing x).perform x.loc x.bytes := by
  unfold State.landWrite
  split
  next hc => rw [hc] at hl; cases hl
  · rfl

theorem writeArrival_here {x : WFlight} (hx : x ∈ s.writes) (hu : ∀ y ∈ s.writes, y.seq = x.seq → y = x) (hl : x.loc.here = true) :
    exec (.writeArrival x.seq) s = .next (if s.writeBlocked x then s else (s.landing x).perform x.loc x.bytes) := by
  have hw : s.writeWaits x = false := by
    unfold State.writeWaits
    split
    next hr => rw [hr] at hl; cases hl
    next hr => rw [hr] at hl; cases hl
    · rfl
  rw [writeArrival_of_mem hx hu, State.landWrite_here hl, hw, Bool.false_or]

theorem writeArrival_remote {x : WFlight} (hx : x ∈ s.writes) (hu : ∀ y ∈ s.writes, y.seq = x.seq → y = x) {m : BitVec 12} {a : Word}
    (hl : x.loc = .remote m a) : exec (.writeArrival x.seq) s = .next s := by
  have hw : s.writeWaits x = true := by rw [State.writeWaits, hl]
  rw [writeArrival_of_mem hx hu, hw]
  rfl

theorem writeArrival_ctl {x : WFlight} (hx : x ∈ s.writes) (hu : ∀ y ∈ s.writes, y.seq = x.seq → y = x) {c : CoreIx} {o : Nat}
    (hl : x.loc = .ctl c o) :
    exec (.writeArrival x.seq) s = .next (if s.ctlWaits x.via c o (wordOfWrite x.bytes) || s.writeBlocked x then s
      else (s.landing x).ctlWrite x.via c o (wordOfWrite x.bytes)) := by
  have hland : s.landWrite x = (s.landing x).ctlWrite x.via c o (wordOfWrite x.bytes) := by
    rw [State.landWrite, hl, State.landing, hl]
  have hw : s.writeWaits x = s.ctlWaits x.via c o (wordOfWrite x.bytes) := by rw [State.writeWaits, hl]
  rw [writeArrival_of_mem hx hu, hland, hw]

/-- A thread that waits for one acknowledgement less. -/
def Thread.pendDown (h : Thread) : Thread := { h with pend := h.pend - 1 }

/-- A fence whose wait is over ends. -/
theorem State.settleHold_fence {w : Who} {level : BitVec 3} {n : Nat} (hm : (s.thread w).memHold = .fence level n)
    (ho : s.memHoldOver w (.fence level n) = true) : s.settleHold w = s.modThread w (fun h => h.holding .none) := by
  rw [State.settleHold]
  simp only [hm, ho, ne_eq, reduceCtorEq, not_false_eq_true, and_self, if_true]
  rfl

/-- A fence of a thread with nothing of its own out before it waits for nothing. -/
theorem State.memHoldOver_of_none_out {w : Who} {level : BitVec 3} {n : Nat} (hb : s.matrixBusy w n = false)
    (hw : ∀ x ∈ s.writes, x.src = some w → n ≤ x.seq) (ha : ∀ b ∈ s.acks, b.src = some w → n ≤ b.seq)
    (hm : ∀ m ∈ s.msgs, m.origin = .thread w → n ≤ m.seq) : s.memHoldOver w (.fence level n) = true := by
  have no {α : Type} {l : List α} {own : α → Prop} {seq : α → Nat} {scope : α → Bool} [DecidablePred own] (h : ∀ x ∈ l, own x → n ≤ seq x) :
      l.any (fun x => decide (own x ∧ seq x < n) && scope x) = false := by
    rw [List.any_eq_false]
    intro x hx hx'
    simp only [Bool.and_eq_true, decide_eq_true_eq] at hx'
    exact absurd hx'.1.2 (Nat.not_lt.mpr (h x hx hx'.1.1))
  have h1 := no (scope := fun x : WFlight => inScope level w.core x.loc) hw
  have h2 := no (scope := fun x : AckFlight => inScope level w.core x.loc) ha
  have h3 := no (scope := fun m : Msg => inScope level w.core (s.msgLoc m)) hm
  simp only [State.memHoldOver, hb, h1, h2, h3]
  rfl

variable {a : AckFlight} (ha : a ∈ s.acks) (hu : ∀ b ∈ s.acks, b.seq = a.seq → b = a)

include ha hu

theorem writeAck_thread {w : Who} (hs : a.src = some w) :
    exec (.writeAckArrival a.seq) s = .next (((({ s with acks := s.acks.filter (fun b => b.seq ≠ a.seq) } : State).modThread w Thread.pendDown).settleHold
      w).haltIfAsked w) := by
  rw [writeAckArrival_of_mem ha hu, hs]
  rfl

theorem writeAck_plain {w : Who} (hs : a.src = some w) (hm : (s.thread w).memHold = .none) (hh : (s.thread w).haltReq = Option.none) :
    exec (.writeAckArrival a.seq) s = .next (({ s with acks := s.acks.filter (fun b => b.seq ≠ a.seq) } : State).modThread w Thread.pendDown) := by
  rw [writeAck_thread ha hu hs, State.settleHold_of_none, State.haltIfAsked_of_none]
  · rw [State.thread_modThread]; exact hh
  · rw [State.thread_modThread]; exact hm

theorem writeAck_fence {w : Who} {level : BitVec 3} {n : Nat} (hs : a.src = some w) (hm : (s.thread w).memHold = .fence level n)
    (hh : (s.thread w).haltReq = Option.none) (hb : s.matrixBusy w n = false) (hw : ∀ x ∈ s.writes, x.src = some w → n ≤ x.seq)
    (hacks : ∀ b ∈ s.acks.filter (fun b => b.seq ≠ a.seq), b.src = some w → n ≤ b.seq)
    (hmsgs : ∀ m ∈ s.msgs, m.origin = .thread w → n ≤ m.seq) :
    exec (.writeAckArrival a.seq) s = .next (({ s with acks := s.acks.filter (fun b => b.seq ≠ a.seq) } : State).modThread w
      (fun h => h.pendDown.holding .none)) := by
  have hover : (({ s with acks := s.acks.filter (fun b => b.seq ≠ a.seq) } : State).modThread w Thread.pendDown).memHoldOver w
      (.fence level n) = true := by
    rw [State.memHoldOver_fence]
    exact State.memHoldOver_of_none_out hb hw hacks hmsgs
  rw [writeAck_thread ha hu hs, State.settleHold_fence (by rw [State.thread_modThread]; exact hm) hover, State.modThread_modThread,
    State.haltIfAsked_of_none]
  rw [State.thread_modThread]
  exact hh

end Arrivals

/-- Settles O26: each part of a performed write, then the arrival and the acknowledgement by the one entry that bears the number. -/
theorem writes : Obligations.Writes := by
  refine ⟨fun s l bs hl hwf hthr => ⟨State.wrote_of_memOf (State.memOf_perform hwf hl bs), fun w => ?_, fun w r hr => ⟨fun hb => ?_, fun hb => ?_⟩,
      fun w hr => ?_, fun k => ?_, fun d m => State.mem_merges_perform s l bs d m⟩,
    fun s => ⟨fun x hx hu hl => ⟨fun hb => ?_, fun hb => ?_⟩, fun x hx hu => ⟨fun m a hl => writeArrival_remote hx hu hl,
        fun c o hl => ⟨fun hb => ?_, fun hb hw => ?_⟩⟩,
      fun a ha hu => ⟨fun w hs => writeAck_thread ha hu hs, fun hs hr => ?_, fun c x n hs hr => ?_, fun w hs hm hh => writeAck_plain ha hu hs hm hh,
        fun w lvl n hs hm hh hb hw hacks hmsgs => writeAck_fence ha hu hs hm hh hb hw hacks hmsgs⟩⟩⟩
  · rw [State.thread_perform hwf hthr]
    exact Thread.unreserve_eq _ _
  · rw [State.thread_perform hwf hthr, Thread.resv_unreserve_of_some hr, if_pos ((breaks_iff l bs r).mpr hb)]
  · rw [State.thread_perform hwf hthr, Thread.resv_unreserve_of_some hr, if_neg (fun h => hb ((breaks_iff l bs r).mp h))]
  · rw [State.thread_perform hwf hthr, Thread.unreserve_of_none hr, hr]
  · rw [State.poisonOf_perform hwf hl]
    exact get_clearPoison l bs _ k
  · rw [writeArrival_here hx hu hl, if_pos hb]
  · rw [writeArrival_here hx hu hl, hb]
    rfl
  · rw [writeArrival_ctl hx hu hl, if_pos (by rw [Bool.or_eq_true]; exact hb.symm)]
  · rw [writeArrival_ctl hx hu hl, if_neg (by rw [hb, hw]; simp)]
    rfl
  · rw [writeAckArrival_of_mem ha hu, hs, hr]
    rfl
  · rw [writeAckArrival_of_mem ha hu, hs, hr]
    rfl

end Sys2Proof.Machine
end

section
/-! Atomics: at the own local store, sent to a Loft, performed at its slice, and the end of a reservation (R64, R65, R68). -/

namespace Sys2Proof.Machine

/-! ### What a cache operation leaves (R74) -/

theorem State.readLoc_cacheInv (s : State) (c : CoreIx) (p : Nat → Bool) (l : Loc) (n : Nat) : (s.cacheInv c p).readLoc l n = s.readLoc l n := by
  cases l with
  | ls c' o =>
    have hls : ((s.cacheInv c p).core c').ls = (s.core c').ls :=
      State.core_modCore_keeps (s := s) (f := fun x => { x with dcache := x.dcache.filter (fun e => !(p e.1)) }) Core.ls rfl c'
    rw [State.readLoc, State.readLoc, hls]
  | _ => rfl

theorem State.poisonOf_cacheInv (s : State) (c : CoreIx) (p : Nat → Bool) (l : Loc) : (s.cacheInv c p).poisonOf l = s.poisonOf l := by
  cases l with
  | ls c' o =>
    exact State.core_modCore_keeps (s := s) (f := fun x => { x with dcache := x.dcache.filter (fun e => !(p e.1)) }) Core.lsPoison rfl c'
  | _ => rfl

theorem State.poisoned_cacheInv (s : State) (c : CoreIx) (p : Nat → Bool) (l : Loc) (n : Nat) : (s.cacheInv c p).poisoned l n = s.poisoned l n := by
  rw [State.poisoned, State.poisonOf_cacheInv, State.poisoned]

/-! ### Atomics at the own local store (R64, R65) -/

/-- The state in which an atomic of a thread is performed: the data cache has dropped the line of its address (R74). -/
def State.uncached (s : State) (w : Who) (a : Word) : State := s.cacheInv w.core (fun t => decide (t = s.lineTag a))

/-- An atomic of a thread computes an aligned address, meets no watchpoint and resolves to a place that it may target. -/
structure State.AtomReaches (s : State) (w : Who) (k : AtomKind) (a : Word) (l : Loc) (page : Option Nat) : Prop where
  watch : s.watchpoint w true a k.size true (decide (k ≠ .lrw ∧ k ≠ .lrd)) = Option.none
  align : a.toNat % k.size = 0
  place : s.resolve w.core .atomic true a k.size = .at_ l page
  target : atomTarget w.core k a l = true

/-- The outstanding atomic of a thread. -/
def atomOp (pc : Word) (rd : BitVec 5) (p : LoadPart) : LoadOp := { pc, long := false, kind := .atomic rd, parts := [p] }

theorem atomOp_plain (pc : Word) (rd : BitVec 5) (p : LoadPart) : (atomOp pc rd p).plain := fun _ _ _ _ _ h => by cases h

section Local

variable {s : State} {i : Iss} {rd ra rs : BitVec 5} {k : AtomKind} {o : Nat} {page : Option Nat}

/-- A thread is read from the cores alone. -/
theorem State.thread_of_cores {t u : State} (h : u.cores = t.cores) (w : Who) : u.thread w = t.thread w := by
  rw [State.thread, State.core, h, State.thread, State.core]

/-- What an atomic at the own local store does is what its kind does there, with its answer in rd. -/
theorem atomic_local (h : s.ready i false = true) (hr : s.AtomReaches i.who k ((s.thread i.who).reg ra) (.ls i.who.core o) page)
    (hp : s.poisoned (.ls i.who.core o) k.size = false) {bs : List Byte} {t : State}
    (hdo : (s.uncached i.who ((s.thread i.who).reg ra)).atomDo i.who (.ls i.who.core o) k ((s.thread i.who).reg rd) ((s.thread i.who).reg rs) = (bs, t))
    (hl : (t.thread i.who).loads = []) (hq : (t.thread i.who).undisturbed) :
    atomic i rd ra rs k s = .next (t.retired i.who 4 (fun h => h.setReg rd (BitVec.ofNat 64 (leNat bs)))) := by
  obtain ⟨_, _, _, _, _, _, _, _, hfound, _⟩ := State.ready_cases h
  have hsense : (s.uncached i.who ((s.thread i.who).reg ra)).sense i.who.core (.ls i.who.core o) k.size .none ((s.thread i.who).reg ra) =
      (Option.none, s.uncached i.who ((s.thread i.who).reg ra)) := by
    rw [State.sense, State.uncached, State.poisoned_cacheInv, hp]
    rfl
  rw [State.uncached] at hdo hsense
  rw [atomic, issue_of_ready h]
  simp only [hr.watch, hr.align, ne_eq, not_true, if_false, hr.place, hr.target, Bool.not_true, Bool.false_eq_true, hfound]
  rw [show Found.upset .clean = Upset.none from rfl, hsense]
  simp only [hdo]
  exact congrArg Host.Outcome.next (settle_sent_data hl hq false (atomOp_plain (s.thread i.who).pc rd (.data bs)) rfl)

/-- Whether a thread's reservation stands on the line of an offset of its own local store (R65). -/
def Thread.heldAt (h : Thread) (l : Loc) : Bool := h.resv.any (fun r => r.sameUnit l && decide (r.off / 64 = l.off / 64))

theorem Thread.holds_eq (h : Thread) (l : Loc) : h.holds l = h.heldAt l := by
  unfold Thread.holds Thread.heldAt
  cases h.resv <;> rfl

/-- A thread without a reservation. -/
def Thread.unreserved (h : Thread) : Thread := { h with resv := Option.none }

theorem ofNat_leNat_answer (b : Bool) : BitVec.ofNat 64 (leNat (toBytes (b2n !b) 8)) = if b then 0 else 1 := by cases b <;> decide

theorem State.atomDo_sc {s : State} {w : Who} {c : CoreIx} {o : Nat} {k : AtomKind} (hk : k = .scw ∨ k = .scd) (x v : Word) :
    s.atomDo w (.ls c o) k x v = (toBytes (b2n !(s.thread w).holds (.ls c o)) 8,
      if (s.thread w).holds (.ls c o) then (s.modThread w Thread.unreserved).perform (.ls c o) ((toBytes v.toNat k.size).map some)
      else s.modThread w Thread.unreserved) := by
  rcases hk with rfl | rfl
  · rfl
  · rfl

section Own

variable (h : s.ready i false = true) (hr : s.AtomReaches i.who k ((s.thread i.who).reg ra) (.ls i.who.core o) page)
  (hp : s.poisoned (.ls i.who.core o) k.size = false)

/-- A thread that runs, with no load outstanding and no halt asked of it. -/
def Thread.clear (h : Thread) : Prop := h.state = .run ∧ h.loads = [] ∧ h.undisturbed

theorem State.clear_of_ready (h : s.ready i false = true) : (s.thread i.who).clear := by
  obtain ⟨hrun, _, _, hloads, _⟩ := State.ready_cases h
  exact ⟨hrun, hloads, State.undisturbed_of_ready h⟩

theorem State.clear_perform {w : Who} (hc : (s.thread w).clear) (l : Loc) (bs : List (Option Byte)) : ((s.perform l bs).thread w).clear := by
  obtain ⟨hrun, hloads, hq⟩ := hc
  rw [State.thread_perform_of_run hrun]
  exact ⟨(Thread.unreserve_state ..).trans hrun, (Thread.unreserve_loads ..).trans hloads, Thread.undisturbed_unreserve hq _⟩

theorem State.clear_uncached (h : s.ready i false = true) (a : Word) : ((s.uncached i.who a).thread i.who).clear := by
  rw [State.uncached, State.thread_cacheInv]
  exact State.clear_of_ready h

include h hr hp

theorem tas_local (hk : k = .tas) :
    atomic i rd ra rs k s = .next (((s.uncached i.who ((s.thread i.who).reg ra)).perform (.ls i.who.core o) [some 1]).retired i.who 4
      (fun h => h.setReg rd (BitVec.ofNat 64 (leNat (s.readLoc (.ls i.who.core o) k.size))))) := by
  subst hk
  obtain ⟨_, hloads, hq⟩ := State.clear_perform (State.clear_uncached h ((s.thread i.who).reg ra)) (.ls i.who.core o) [some 1]
  rw [atomic_local h hr hp rfl hloads hq, State.uncached, State.readLoc_cacheInv]
  rfl

theorem lr_local (hk : k = .lrw ∨ k = .lrd) :
    atomic i rd ra rs k s = .next ((s.uncached i.who ((s.thread i.who).reg ra)).retired i.who 4 (fun h =>
      ({ h with resv := some (.ls i.who.core o) } : Thread).setReg rd (BitVec.ofNat 64 (leNat (s.readLoc (.ls i.who.core o) k.size))))) := by
  obtain ⟨_, hloads, hq⟩ := State.clear_uncached h ((s.thread i.who).reg ra)
  have hdo : (s.uncached i.who ((s.thread i.who).reg ra)).atomDo i.who (.ls i.who.core o) k ((s.thread i.who).reg rd) ((s.thread i.who).reg rs) =
      (s.readLoc (.ls i.who.core o) k.size,
        (s.uncached i.who ((s.thread i.who).reg ra)).modThread i.who (fun h => { h with resv := some (.ls i.who.core o) })) := by
    rw [← State.readLoc_cacheInv s i.who.core (fun t => decide (t = s.lineTag ((s.thread i.who).reg ra)))]
    rcases hk with rfl | rfl <;> rfl
  rw [atomic_local h hr hp hdo (by rw [State.thread_modThread]; exact hloads) (by rw [State.thread_modThread]; exact hq), State.retired_modThread]

theorem sc_local (hk : k = .scw ∨ k = .scd) :
    atomic i rd ra rs k s = .next ((if (s.thread i.who).heldAt (.ls i.who.core o) then
        ((s.uncached i.who ((s.thread i.who).reg ra)).modThread i.who Thread.unreserved).perform (.ls i.who.core o)
          (lowBytes ((s.thread i.who).reg rs) k.size)
      else (s.uncached i.who ((s.thread i.who).reg ra)).modThread i.who Thread.unreserved).retired i.who 4
        (fun h => h.setReg rd (if (s.thread i.who).heldAt (.ls i.who.core o) then 0 else 1))) := by
  have hclear : (((s.uncached i.who ((s.thread i.who).reg ra)).modThread i.who Thread.unreserved).thread i.who).clear := by
    rw [State.thread_modThread]
    obtain ⟨hrun, hloads, hq⟩ := State.clear_uncached h ((s.thread i.who).reg ra)
    exact ⟨hrun, hloads, hq⟩
  have hdo : (s.uncached i.who ((s.thread i.who).reg ra)).atomDo i.who (.ls i.who.core o) k ((s.thread i.who).reg rd) ((s.thread i.who).reg rs) =
      (toBytes (b2n !(s.thread i.who).heldAt (.ls i.who.core o)) 8, if (s.thread i.who).heldAt (.ls i.who.core o) then
        ((s.uncached i.who ((s.thread i.who).reg ra)).modThread i.who Thread.unreserved).perform (.ls i.who.core o)
          (lowBytes ((s.thread i.who).reg rs) k.size)
      else (s.uncached i.who ((s.thread i.who).reg ra)).modThread i.who Thread.unreserved) := by
    have hheld : ((s.uncached i.who ((s.thread i.who).reg ra)).thread i.who).holds (.ls i.who.core o) =
        (s.thread i.who).heldAt (.ls i.who.core o) := by rw [State.uncached, State.thread_cacheInv, Thread.holds_eq]
    rw [State.atomDo_sc hk, hheld, map_some_toBytes]
  have hdone := atomic_local h hr hp hdo (by
    split
    · exact (State.clear_perform hclear _ _).2.1
    · exact hclear.2.1) (by
    split
    · exact (State.clear_perform hclear _ _).2.2
    · exact hclear.2.2)
  rw [ofNat_leNat_answer] at hdone
  exact hdone

end Own

end Local

/-! ### Atomics that a Loft performs (R64, R68) -/

/-- An atomic as it leaves for a Loft of this module. -/
def atomRead (s : State) (w : Who) (l : Loc) (k : AtomKind) (a : Word) (page : Option Nat) (exp val : Word) : RFlight :=
  { seq := s.nextSeq, who := w, loc := l, len := k.size, addr := a, page, fill := Option.none, skip := 0, take := k.size,
    atom := some (k, exp, val), got := .no }

theorem atomic_loft {s : State} {i : Iss} {rd ra rs : BitVec 5} {k : AtomKind} {d : DieIx} {o : Nat} {page : Option Nat}
    (h : s.ready i false = true) (hr : s.AtomReaches i.who k ((s.thread i.who).reg ra) (.loft d o) page) :
    let t := s.cacheInv i.who.core (fun e => decide (e = s.lineTag ((s.thread i.who).reg ra)))
    let f := atomRead s i.who (.loft d o) k ((s.thread i.who).reg ra) page ((s.thread i.who).reg rd) ((s.thread i.who).reg rs)
    atomic i rd ra rs k s = .next (({ t with reads := t.reads ++ [f], nextSeq := s.nextSeq + 1 } : State).modThread i.who
      (fun h => h.pendUp.behindLoad 4 (atomOp h.pc rd (.wait s.nextSeq)))) := by
  intro t f
  obtain ⟨_, hloads, _⟩ := State.clear_of_ready h
  have hstart : t.startRead i.who (.loft d o) k.size ((s.thread i.who).reg ra) page Option.none 0 k.size
      (some (k, (s.thread i.who).reg rd, (s.thread i.who).reg rs)) =
      (.wait s.nextSeq, ({ t with reads := t.reads ++ [f], nextSeq := s.nextSeq + 1 } : State).modThread i.who Thread.pendUp) := rfl
  dsimp only [t] at hstart ⊢
  rw [atomic, issue_of_ready h]
  simp only [hr.watch, hr.align, ne_eq, not_true, if_false, hr.place, hr.target, Bool.not_true, Bool.false_eq_true, hstart]
  have hth : (({ t with reads := t.reads ++ [f], nextSeq := s.nextSeq + 1 } : State)).thread i.who = s.thread i.who :=
    (State.thread_of_cores (t := t) rfl i.who).trans (State.thread_cacheInv ..)
  have hl : ((({ t with reads := t.reads ++ [f], nextSeq := s.nextSeq + 1 } : State).modThread i.who Thread.pendUp).thread i.who).loads = [] := by
    rw [State.thread_modThread, hth]
    exact hloads
  have hsettle := settle_sent_waiting (s0 := s) (bs := []) hl false (atomOp_plain (s.thread i.who).pc rd (.wait s.nextSeq)) rfl
  refine congrArg Host.Outcome.next (hsettle.trans ?_)
  rw [State.modThread_modThread]
  refine State.modThread_congr ?_
  rw [hth]
  rfl

/-! ### At the slice (R52, R68, R196) -/

theorem State.atomDo_cas (s : State) (w : Who) (l : Loc) (x v : Word) :
    s.atomDo w l .cas x v = (s.readLoc l 8, if BitVec.ofNat 64 (leNat (s.readLoc l 8)) = x then
      (s.closeMerges l ((s.readLoc l 8).map some)).perform l ((toBytes v.toNat 8).map some)
      else s.closeMerges l ((s.readLoc l 8).map some)) := by
  by_cases h : BitVec.ofNat 64 (leNat (s.readLoc l 8)) = x
  · simp only [State.atomDo, AtomKind.size, atomNew, if_true, h]
  · simp only [State.atomDo, AtomKind.size, atomNew, if_true, h, if_false]

section Arrival

variable {s : State} {f : RFlight} {k : AtomKind} {x y : Word} {d : DieIx} {o : Nat}
  (hf : s.reads.find? (fun g => g.seq = f.seq) = some f) (hl : f.loc = .loft d o) (ha : f.atom = some (k, x, y)) (hg : f.got = .no)
  (hb : s.atomBlocked f = false)

include hf hl ha hg hb

/-- An atomic that meets no poison is performed, and its answer recorded. -/
theorem atomicArrival_sound (hp : s.poisoned (.loft d o) f.len = false) :
    exec (.atomicArrival ⟨f.seq, .none⟩) s =
      .next ((s.atomDo f.who (.loft d o) k x y).2.gotRead f.seq (.bytes (s.atomDo f.who (.loft d o) k x y).1)) := by
  rw [exec_atomicArrival, execAtomicArrival, hf]
  simp only [hl, ha, hg, hb, ne_eq, not_true, false_or, Bool.false_eq_true, if_false, State.sense, hp]

/-- One that meets a poisoned word performs nothing and answers the trap. -/
theorem atomicArrival_poisoned (hp : s.poisoned (.loft d o) f.len = true) :
    exec (.atomicArrival ⟨f.seq, .none⟩) s =
      .next (s.gotRead f.seq (.trap { code := 0x0A, detail := 5, tval := f.addr })) := by
  rw [exec_atomicArrival, execAtomicArrival, hf]
  simp only [hl, ha, hg, hb, ne_eq, not_true, false_or, Bool.false_eq_true, if_false, State.sense, hp, if_true]

end Arrival

theorem reservationTimeout_waits {s : State} {w : Who}
    (h : ∃ f ∈ s.reads, f.who = w ∧ ∃ k x y, f.atom = some (k, x, y) ∧ (k = .scw ∨ k = .scd)) : exec (.reservationTimeout w) s = .next s := by
  obtain ⟨f, hf, hw, k, x, y, ha, hk⟩ := h
  rw [exec_reservationTimeout, execReservationTimeout]
  refine congrArg Host.Outcome.next (if_pos (List.any_eq_true.mpr ⟨f, hf, ?_⟩))
  simp [hw, ha, hk]

theorem reservationTimeout_clears {s : State} {w : Who}
    (h : ¬∃ f ∈ s.reads, f.who = w ∧ ∃ k x y, f.atom = some (k, x, y) ∧ (k = .scw ∨ k = .scd)) :
    exec (.reservationTimeout w) s = .next (s.modThread w Thread.unreserved) := by
  rw [exec_reservationTimeout, execReservationTimeout]
  refine congrArg Host.Outcome.next (if_neg (fun hany => h ?_))
  obtain ⟨f, hf, hsc⟩ := List.any_eq_true.mp hany
  simp only [Bool.and_eq_true, decide_eq_true_eq] at hsc
  obtain ⟨hw, hsc⟩ := hsc
  split at hsc
  next k x y ha => exact ⟨f, hf, hw, k, x, y, ha, of_decide_eq_true hsc⟩
  · cases hsc

/-- Settles O7: each atomic by what its kind does at its place. -/
theorem atomics : Obligations.Atomics := by
  have hsend {s : State} {i : Iss} {rd ra rs : BitVec 5} {d : DieIx} {o : Nat} {page : Option Nat} (k : AtomKind) (h : s.ready i false = true)
      (hw : s.watchpoint i.who true ((s.thread i.who).reg ra) k.size true (decide (k ≠ .lrw ∧ k ≠ .lrd)) = Option.none)
      (ha : ((s.thread i.who).reg ra).toNat % k.size = 0)
      (hr : s.resolve i.who.core .atomic true ((s.thread i.who).reg ra) k.size = .at_ (.loft d o) page)
      (ht : atomTarget i.who.core k ((s.thread i.who).reg ra) (.loft d o) = true) :=
    atomic_loft (rd := rd) (rs := rs) h ⟨hw, ha, hr, ht⟩
  refine ⟨fun s i rd ra rs o page h => ⟨?_, ?_, ?_, ?_, ?_⟩, fun s i rd ra rs d o page => ⟨?_, ?_, ?_, ?_, ?_, ?_, ?_, ?_, ?_⟩,
    fun s w => ⟨reservationTimeout_clears, reservationTimeout_waits⟩⟩
  · rintro ⟨hs, ha, hw, hr, hp⟩
    have key := tas_local (rd := rd) (rs := rs) (k := .tas) h ⟨hw, ha, hr, by simp [atomTarget, hs]⟩ hp rfl
    exact key
  · rintro ⟨hs, ha, hw, hr, hp⟩
    have key := lr_local (rd := rd) (rs := rs) (k := .lrw) h ⟨hw, ha, hr, by simp [atomTarget, hs, AtomKind.pair]⟩ hp (.inl rfl)
    exact key
  · rintro ⟨hs, ha, hw, hr, hp⟩
    have key := lr_local (rd := rd) (rs := rs) (k := .lrd) h ⟨hw, ha, hr, by simp [atomTarget, hs, AtomKind.pair]⟩ hp (.inr rfl)
    exact key
  · rintro ⟨hs, ha, hw, hr, hp⟩
    have key := sc_local (rd := rd) (rs := rs) (k := .scw) h ⟨hw, ha, hr, by simp [atomTarget, hs, AtomKind.pair]⟩ hp (.inl rfl)
    exact key
  · rintro ⟨hs, ha, hw, hr, hp⟩
    have key := sc_local (rd := rd) (rs := rs) (k := .scd) h ⟨hw, ha, hr, by simp [atomTarget, hs, AtomKind.pair]⟩ hp (.inr rfl)
    exact key
  · intro h ha hw hr _
    have key := hsend (rd := rd) (rs := rs) .tas h hw ha hr rfl
    exact key
  · intro h ha hw hr hd
    have key := hsend (rd := rd) (rs := rs) .lrw h hw ha hr (decide_eq_true (hd (by simp)))
    exact key
  · intro h ha hw hr hd
    have key := hsend (rd := rd) (rs := rs) .lrd h hw ha hr (decide_eq_true (hd (by simp)))
    exact key
  · intro h ha hw hr hd
    have key := hsend (rd := rd) (rs := rs) .scw h hw ha hr (decide_eq_true (hd (by simp)))
    exact key
  · intro h ha hw hr hd
    have key := hsend (rd := rd) (rs := rs) .scd h hw ha hr (decide_eq_true (hd (by simp)))
    exact key
  · intro h ha hw hr _
    have key := hsend (rd := rd) (rs := rs) .cas h hw ha hr rfl
    exact key
  · intro h ha hw hr _
    have key := hsend (rd := rd) (rs := rs) .fadd h hw ha hr rfl
    exact key
  · intro f k x y hf hl ha hg hb hp _
    have hdone := atomicArrival_sound hf hl ha hg hb hp
    refine ⟨?_, ?_, ?_, ?_⟩
    · rintro rfl
      exact hdone
    · rintro rfl
      rw [hdone, ← map_some_toBytes]
      rfl
    · rintro rfl (hw : BitVec.ofNat 64 (leNat (s.readLoc (.loft d o) 8)) = x)
      rw [hdone, ← map_some_toBytes, State.atomDo_cas, if_pos hw]
      rfl
    · rintro rfl (hw : BitVec.ofNat 64 (leNat (s.readLoc (.loft d o) 8)) ≠ x)
      rw [hdone, State.atomDo_cas, if_neg hw]
      rfl
  · exact fun f k x y hf hl ha hg hb hp => atomicArrival_poisoned hf hl ha hg hb hp

end Sys2Proof.Machine
end

section
/-! Lanes of a vector register, and the vector loads and stores (R62, R165, R166, R173). -/

namespace Sys2Proof.Machine

/-! ### Packed lanes -/

/-- A bit of packed lanes is a bit of the lane it falls into. -/
theorem testBit_packElems {w : Nat} (hw : 0 < w) (xs : List Nat) (n : Nat) :
    (packElems w xs).testBit n = (xs.getD (n / w) 0).testBit (n % w) := by
  induction xs generalizing n with
  | nil => simp [packElems]
  | cons x xs ih =>
    rw [packElems, Nat.add_comm, Nat.testBit_two_pow_mul_add _ (Nat.mod_lt _ (Nat.two_pow_pos w))]
    split
    next h => rw [Nat.testBit_mod_two_pow, Nat.div_eq_of_lt h, Nat.mod_eq_of_lt h]; simp [h]
    next h =>
      have hn : w ≤ n := Nat.le_of_not_lt h
      rw [ih, Nat.div_eq_sub_div hw hn, List.getD_cons_succ, Nat.mod_eq_sub_mod hn]

theorem getLsbD_vecOf {w : Nat} (hw : 0 < w) (xs : List Nat) {n : Nat} (hn : n < 1024) :
    (vecOf w xs).getLsbD n = (xs.getD (n / w) 0).testBit (n % w) := by
  rw [vecOf, BitVec.getLsbD_ofNat, testBit_packElems hw]
  simp [hn]

theorem ofNat_div_pow_eq_lane (v : Vec) (k : Nat) : BitVec.ofNat 8 (v.toNat / 256 ^ k) = lane v 8 k := by
  apply BitVec.eq_of_toNat_eq
  rw [lane, BitVec.extractLsb'_toNat, BitVec.toNat_ofNat, Nat.shiftRight_eq_div_pow, pow_mul]
  rfl

/-- The bytes of a register are its 8-bit lanes. -/
theorem toBytes_eq_lanes (v : Vec) (n : Nat) : toBytes v.toNat n = (List.range n).map (fun b => lane v 8 b) := by
  apply List.ext_getElem?
  intro k
  rw [getElem?_toBytes, ofNat_div_pow_eq_lane, List.getElem?_map]
  by_cases hk : k < n
  · rw [if_pos hk, List.getElem?_range hk, Option.map_some]
  · rw [if_neg hk, List.getElem?_eq_none (by rw [List.length_range]; omega), Option.map_none]

/-- The bytes of a lane. -/
def laneBytes (fmt : BitVec 4) : Nat := if fmt = 1 ∨ fmt = 2 then 2 else if fmt = 5 then 8 else 4

theorem laneBits_eq (fmt : BitVec 4) : laneBits fmt = 8 * laneBytes fmt := by
  unfold laneBits laneBytes
  split
  · rfl
  · split <;> rfl

theorem laneBytes_cases (fmt : BitVec 4) : laneBytes fmt = 2 ∨ laneBytes fmt = 8 ∨ laneBytes fmt = 4 := by
  unfold laneBytes
  split
  · exact .inl rfl
  · split
    · exact .inr (.inl rfl)
    · exact .inr (.inr rfl)

/-- Whether a byte of a register lies in an active lane (R166). -/
def Thread.byteActive (h : Thread) (f : VecF) (b : Nat) : Bool := (h.pred f.pred).getLsbD (b / laneBytes f.fmt)

theorem lane_laneMask (h : Thread) (f : VecF) {b : Nat} (hb : b < 128) :
    lane (h.laneMask f) 8 b = if h.byteActive f b then 0xFF else 0 := by
  have hw : 0 < laneBytes f.fmt := by rcases laneBytes_cases f.fmt with h | h | h <;> omega
  have hin : b / laneBytes f.fmt < laneCount f.fmt := by
    rw [laneCount, laneBits_eq]
    rcases laneBytes_cases f.fmt with h | h | h <;> rw [h] <;> omega
  apply BitVec.eq_of_getLsbD_eq
  intro j hj
  have hdiv : (8 * b + j) / laneBits f.fmt = b / laneBytes f.fmt := by
    rw [laneBits_eq, ← Nat.div_div_eq_div_mul]
    congr 1
    omega
  have hlt : (8 * b + j) % laneBits f.fmt < laneBits f.fmt := Nat.mod_lt _ (by rw [laneBits_eq]; omega)
  rw [lane, BitVec.getLsbD_extractLsb', Thread.laneMask, getLsbD_vecOf (by rw [laneBits_eq]; omega) _ (by omega), hdiv,
    List.getD_eq_getElem?_getD, List.getElem?_map, List.getElem?_range hin]
  rw [Option.map_some, Option.getD_some, decide_eq_true hj, Bool.true_and]
  change (if h.byteActive f b = true then 2 ^ laneBits f.fmt - 1 else 0).testBit _ = _
  split
  · rw [Nat.testBit_two_pow_sub_one, decide_eq_true hlt, show (0xFF : BitVec 8) = BitVec.allOnes 8 from rfl,
      BitVec.getLsbD_allOnes, decide_eq_true hj]
  · rw [Nat.zero_testBit]
    exact BitVec.getLsbD_zero.symm

/-! ### Vector loads (R62, R173) -/

/-- A vector access of a thread is legal, aligned to its 128 bytes, meets no watchpoint and resolves to a place of this module. -/
structure State.VecReaches (s : State) (w : Who) (f : VecF) (k : Access) (a : Word) (upd : Option Word) (l : Loc) (page : Option Nat) : Prop where
  legal : vmemOk f = true
  addr : vmemAddr (s.thread w) f = (a, upd)
  align : a.toNat % 128 = 0
  place : s.place w (vmemG f) k false a 128 = .at_ l page
  here : l.here = true
  watch : s.watchpoint w (vmemG f) a 128 (decide (k = .read)) (decide (k = .write)) = Option.none

/-- The outstanding vector load of a thread. -/
def vectorOp (h : Thread) (f : VecF) (ps : List LoadPart) (upd : Option Word) : LoadOp :=
  { pc := h.pc, long := true, kind := .vector f.vd (h.laneMask f) f.zm, parts := ps, upd := upd.map (fun v => (f.gs, v)) }

theorem vectorOp_plain (h : Thread) (f : VecF) (ps : List LoadPart) (upd : Option Word) : (vectorOp h f ps upd).plain :=
  fun _ _ _ _ _ hk => by cases hk

theorem State.modThread_sameMemory (s : State) (w : Who) (f : Thread → Thread) : s.sameMemory (s.modThread w f) :=
  (s.onlyThread_modThread w f).sameMemory

theorem State.sentRead_sameMemory (s : State) (f : RFlight) : s.sameMemory (s.sentRead f) := fun l => State.byteAt_congr rfl rfl l

section Vector

variable {s : State} {i : Iss} {f : VecF} {a : Word} {upd : Option Word} {l : Loc} {page : Option Nat}

/-- The pieces that a vector access asks for: two lines of a Loft, all 128 bytes elsewhere. -/
theorem linePieces_aligned (ha : a.toNat % 128 = 0) : linePieces 3 a 128 = [(a, 64), (a + 64, 64)] := by
  have h0 : a.toNat % 64 = 0 := by omega
  simp [linePieces, h0]

/-- The pieces of a vector access at a place (R173). -/
def vecPieces (l : Loc) (a : Word) : List (Word × Nat) :=
  match l with
  | .loft _ _ => linePieces 3 a 128
  | _ => [(a, 128)]

/-- What a vector load that reaches memory of this module asks for. -/
theorem vld_reached (h : s.ready i true = true) (hr : s.VecReaches i.who f .read a upd l page) {ps : List LoadPart} {t : State}
    (hask : s.askVec i.who l page (vecPieces l a) 0 [] = (ps, t)) :
    exec (.vld i f) s = .next (s.settle i.who true (.sent (t.pushLoad i.who (vectorOp (s.thread i.who) f ps upd)))) := by
  obtain ⟨hlegal, haddr, halign, hplace, _, hwatch⟩ := hr
  rw [exec_vld, execVld, issue_of_ready h]
  simp only [haddr, hlegal, Bool.not_true, Bool.false_eq_true, if_false]
  rw [show s.watchpoint i.who (vmemG f) a 128 true false = Option.none from hwatch]
  simp only [halign, ne_eq, not_true, if_false, hplace]
  change Host.Outcome.next (s.settle i.who true (.sent ((s.askVec i.who l page (vecPieces l a) 0 []).2.pushLoad i.who
    (vectorOp (s.thread i.who) f (s.askVec i.who l page (vecPieces l a) 0 []).1 upd)))) = _
  rw [hask]

/-- A vector load elsewhere than in a Loft leaves as one read. -/
theorem vld_one (h : s.ready i true = true) (hr : s.VecReaches i.who f .read a upd l page) (hl : ∀ d o, l ≠ .loft d o) :
    exec (.vld i f) s = .next ((s.sentRead (threadRead s i.who l 128 a page Option.none 0 128)).modThread i.who
      (fun h => h.behindLoad 8 (vectorOp h f [.wait s.nextSeq] upd))) := by
  obtain ⟨_, _, _, hloads, _⟩ := State.ready_cases h
  have hask : s.askVec i.who l page (vecPieces l a) 0 [] =
      ([.wait s.nextSeq], s.sentRead (threadRead s i.who l 128 a page Option.none 0 128)) := by
    have hhere := hr.here
    cases l with
    | loft d o => exact absurd rfl (hl d o)
    | remote m b => cases hhere
    | ctl c o => cases hhere
    | ls c o => rfl
    | hbm d o => rfl
    | ddr d o => rfl
  rw [vld_reached h hr hask]
  refine congrArg Host.Outcome.next ((settle_sent_waiting (s := s.sentRead _) hloads true (vectorOp_plain _ _ _ _) rfl).trans ?_)
  exact State.modThread_congr rfl

/-- A vector load from a Loft leaves as one read per line. -/
theorem vld_loft {d : DieIx} {o : Nat} (h : s.ready i true = true) (hr : s.VecReaches i.who f .read a upd (.loft d o) page) :
    exec (.vld i f) s = .next ((((s.sentRead (threadRead s i.who (.loft d o) 64 a page Option.none 0 64)).sentRead
        { threadRead s i.who (.loft d (o + 64)) 64 (a + 64) page Option.none 0 64 with seq := s.nextSeq + 1 })).modThread i.who
      (fun h => h.behindLoad 8 (vectorOp h f [.wait s.nextSeq, .wait (s.nextSeq + 1)] upd))) := by
  obtain ⟨_, _, _, hloads, _⟩ := State.ready_cases h
  have hask : s.askVec i.who (.loft d o) page (vecPieces (.loft d o) a) 0 [] =
      ([.wait s.nextSeq, .wait (s.nextSeq + 1)], (s.sentRead (threadRead s i.who (.loft d o) 64 a page Option.none 0 64)).sentRead
        { threadRead s i.who (.loft d (o + 64)) 64 (a + 64) page Option.none 0 64 with seq := s.nextSeq + 1 }) := by
    rw [vecPieces, linePieces_aligned hr.align]
    rfl
  rw [vld_reached h hr hask]
  refine congrArg Host.Outcome.next ((settle_sent_waiting (s := (s.sentRead _).sentRead _) hloads true (vectorOp_plain _ _ _ _) rfl).trans ?_)
  exact State.modThread_congr rfl

/-! ### Vector stores (R166, R173) -/

/-- The bytes that a vector store writes: those of the active lanes. -/
def Thread.activeBytes (h : Thread) (f : VecF) : List (Option Byte) :=
  (List.range 128).map (fun b => if h.byteActive f b then some (lane (h.vec f.vd) 8 b) else Option.none)

theorem Thread.activeBytes_eq (h : Thread) (f : VecF) :
    ((toBytes (h.vec f.vd).toNat 128).zip (toBytes (h.laneMask f).toNat 128)).map (fun p => if p.2 = 0 then Option.none else some p.1) =
      h.activeBytes f := by
  rw [toBytes_eq_lanes, toBytes_eq_lanes, List.zip_map', List.map_map]
  refine List.map_congr_left (fun b hb => ?_)
  rw [Function.comp, lane_laneMask h f (List.mem_range.mp hb)]
  cases h.byteActive f b <;> rfl

/-- No byte is written exactly when no lane is active. -/
theorem Thread.activeBytes_none (h : Thread) (f : VecF) : (h.activeBytes f).all Option.isNone = true ↔ ∀ b < 128, h.byteActive f b = false := by
  rw [Thread.activeBytes, List.all_map, List.all_eq_true]
  refine forall_congr' (fun b => imp_congr List.mem_range ?_)
  rw [Function.comp]
  cases h.byteActive f b <;> simp

theorem vst_reached (h : s.ready i true = true) (hr : s.VecReaches i.who f .write a upd l page) :
    exec (.vst i f) s = .next (s.settle i.who true (.done
      ((if ((s.thread i.who).activeBytes f).all Option.isNone then s else s.store i.who l page ((s.thread i.who).activeBytes f)).modThread i.who
        (fun h => h.rebase f.gs upd)))) := by
  obtain ⟨hlegal, haddr, halign, hplace, _, hwatch⟩ := hr
  rw [exec_vst, execVst, issue_of_ready h]
  simp only [haddr, hlegal, Bool.not_true, Bool.false_eq_true, if_false]
  rw [show s.watchpoint i.who (vmemG f) a 128 false true = Option.none from hwatch]
  simp only [halign, ne_eq, not_true, if_false, hplace, Thread.activeBytes_eq]
  cases upd <;> rfl

/-- A vector store without an active lane writes nothing. -/
theorem vst_idle (h : s.ready i true = true) (hr : s.VecReaches i.who f .write a upd l page)
    (hb : ∀ b < 128, (s.thread i.who).byteActive f b = false) :
    exec (.vst i f) s = .next (s.retired i.who 8 (fun h => h.rebase f.gs upd)) := by
  rw [vst_reached h hr, if_pos ((Thread.activeBytes_none _ _).mpr hb)]
  exact congrArg Host.Outcome.next (settle_done_modThread (Thread.undisturbed_rebase (State.undisturbed_of_ready h) _ _) true)

theorem Thread.activeBytes_some {h : Thread} (hb : ∃ b < 128, h.byteActive f b = true) : ¬(h.activeBytes f).all Option.isNone = true := by
  rw [Thread.activeBytes_none]
  obtain ⟨b, hlt, hon⟩ := hb
  exact fun hall => Bool.false_ne_true ((hall b hlt).symm.trans hon)

/-- A vector store in the own local store is performed at once. -/
theorem vst_own {o : Nat} (h : s.ready i true = true) (hr : s.VecReaches i.who f .write a upd (.ls i.who.core o) page)
    (hb : ∃ b < 128, (s.thread i.who).byteActive f b = true) :
    exec (.vst i f) s = .next ((s.perform (.ls i.who.core o) ((s.thread i.who).activeBytes f)).retired i.who 8 (fun h => h.rebase f.gs upd)) := by
  rw [vst_reached h hr, if_neg (Thread.activeBytes_some hb), State.store_own]
  exact congrArg Host.Outcome.next (settle_done_modThread
    (Thread.undisturbed_rebase (State.undisturbed_perform (State.ready_cases h).1 (State.undisturbed_of_ready h) _ _) _ _) true)

/-- One that leaves the core is one write in flight. -/
theorem vst_sent (h : s.ready i true = true) (hr : s.VecReaches i.who f .write a upd l page) (hown : ∀ o, l ≠ .ls i.who.core o)
    (hb : ∃ b < 128, (s.thread i.who).byteActive f b = true) :
    exec (.vst i f) s = .next (((s.cacheNote i.who.core l page ((s.thread i.who).activeBytes f)).sentWrite i.who l page
      ((s.thread i.who).activeBytes f)).retired i.who 8 (fun h => h.pendUp.rebase f.gs upd)) := by
  have hq : ((s.thread i.who).pendUp.rebase f.gs upd).undisturbed :=
    Thread.undisturbed_rebase (Thread.undisturbed_pendUp (State.undisturbed_of_ready h)) _ _
  rw [← State.thread_cacheNote s i.who.core l page ((s.thread i.who).activeBytes f)] at hq
  rw [vst_reached h hr, if_neg (Thread.activeBytes_some hb), State.store_sent hr.here hown, State.modThread_modThread]
  exact congrArg Host.Outcome.next (settle_done_modThread hq true)

/-- A vector access at an address that is not a multiple of 128 traps. -/
theorem vmem_misaligned (h : s.ready i true = true) (hlegal : vmemOk f = true) (haddr : vmemAddr (s.thread i.who) f = (a, upd))
    (ha : a.toNat % 128 ≠ 0) (hread : s.watchpoint i.who (vmemG f) a 128 true false = Option.none)
    (hwrite : s.watchpoint i.who (vmemG f) a 128 false true = Option.none) :
    exec (.vld i f) s = .next (s.settle i.who true (.trap s (misaligned 128 a))) ∧
      exec (.vst i f) s = .next (s.settle i.who true (.trap s (misaligned 128 a))) := by
  rw [exec_vld, execVld, exec_vst, execVst, issue_of_ready h, issue_of_ready h]
  simp only [haddr, hlegal, Bool.not_true, Bool.false_eq_true, if_false, hread, hwrite, ha, ne_eq, not_false_eq_true, if_true, and_self]

end Vector

theorem Core.cacheStore_ls (x : Core) (base : Nat) (bs : List (Option Byte)) : (x.cacheStore base bs).ls = x.ls := by
  refine foldl_invariant (fun y : Core => y.ls = x.ls) rfl (fun y t _ hy => ?_)
  split
  · exact hy
  · exact hy

theorem State.cacheNote_sameMemory (s : State) (c : CoreIx) (l : Loc) (page : Option Nat) (bs : List (Option Byte)) :
    s.sameMemory (s.cacheNote c l page bs) := by
  unfold State.cacheNote
  split
  · exact fun _ => rfl
  next base _ =>
    have hls := State.core_modCore_keeps (s := s) (c := c) (f := fun x => x.cacheStore base bs) Core.ls (Core.cacheStore_ls ..)
    exact State.sameMemory_of hls (fun _ => ⟨rfl, rfl, rfl⟩)

theorem State.sentWrite_sameMemory (s : State) (w : Who) (l : Loc) (page : Option Nat) (bs : List (Option Byte)) :
    s.sameMemory (s.sentWrite w l page bs) := fun k => State.byteAt_congr rfl rfl k

theorem Thread.rebase_pend (h : Thread) (r : BitVec 5) (upd : Option Word) : (h.rebase r upd).pend = h.pend := by
  cases upd with
  | none => rfl
  | some v => rw [Thread.rebase, Thread.setReg_eq]

/-- A completed instruction leaves the writes in flight to themselves. -/
theorem State.writes_retired (s : State) (w : Who) (n : Nat) (f : Thread → Thread) : (s.retired w n f).writes = s.writes := by
  rw [(s.onlyThread_retired w n f).1.1]

/-- Settles O19: the reads that a vector load sends, and the bytes that a vector store writes. -/
theorem vectorMemory : Obligations.VectorMemory := by
  intro s i f l page h hfmt hvs1 hvs2 w h' g post next a upd width on bytes at_
  have hlegal : vmemOk f = true := decide_eq_true ⟨hfmt, hvs1, hvs2⟩
  have haddr : vmemAddr (s.thread i.who) f = (a, upd) := by
    rw [vmemAddr, vmemPost]
    simp only [a, upd, post, next, h', w]
    split <;> rfl
  have hreach {k : Access} (ha : a.toNat % 128 = 0) (hat : at_ k) : s.VecReaches i.who f k a upd l page := by
    obtain ⟨hplace, hhere, hwatch⟩ := hat
    exact ⟨hlegal, haddr, ha, hplace, hhere, hwatch⟩
  refine ⟨?_, ?_, ?_, ?_, ?_, ?_⟩
  · intro ha hat hl rd
    refine ⟨_, (s.thread i.who).laneMask f, vld_one h (hreach ha hat) hl, rfl, ?_, ?_, fun b hb => lane_laneMask _ f hb, fun r => ?_, ?_⟩
    · rw [State.thread_modThread]
      rfl
    · rw [State.thread_modThread]
      rfl
    · rw [State.thread_modThread]
      rfl
    · exact State.sameMemory_trans (s.sentRead_sameMemory _) (State.modThread_sameMemory _ _ _)
  · rintro ha hat d o rfl rd
    refine ⟨_, vld_loft h (hreach ha hat), ?_, ?_, ?_, ?_⟩
    · simp only [rd, Nat.mul_zero, Nat.add_zero, BitVec.add_zero, Nat.mul_one]
      exact List.append_assoc ..
    · rw [State.thread_modThread]
      rfl
    · rw [State.thread_modThread]
      rfl
    · exact State.sameMemory_trans (s.sentRead_sameMemory _)
        (State.sameMemory_trans (State.sentRead_sameMemory _ _) (State.modThread_sameMemory _ _ _))
  · intro ha hat hb
    have key := vst_idle h (hreach ha hat) hb
    exact key
  · rintro ha hat hb ⟨o, rfl⟩
    have key := vst_own h (hreach ha hat) hb
    exact key
  · intro ha hat hb hown
    have hcore : ((s.cacheNote i.who.core l page bytes).sentWrite i.who l page bytes).thread i.who = s.thread i.who :=
      (State.thread_of_cores rfl i.who).trans (State.thread_cacheNote ..)
    refine ⟨_, vst_sent h (hreach ha hat) hown hb, ?_, ?_, ?_, ?_⟩
    · rw [State.thread_retired]
      exact congrArg (· + 8) ((Thread.rebase_pc ..).trans (congrArg (fun h => h.pendUp.pc) hcore))
    · rw [State.thread_retired]
      exact (Thread.rebase_pend ..).trans (congrArg (fun h => h.pend + 1) hcore)
    · rw [State.writes_retired, State.sentWrite_cacheNote]
      rfl
    · exact State.sameMemory_trans (s.cacheNote_sameMemory _ _ _ _)
        (State.sameMemory_trans (State.sentWrite_sameMemory _ _ _ _ _) (State.onlyThread_retired ..).sameMemory)
  · intro ha hread hwrite
    exact vmem_misaligned h hlegal haddr ha hread hwrite

end Sys2Proof.Machine
end

section
/-! Halts (R550 to R553): what halting some threads leaves of the others, and of threads that have ended. -/

namespace Sys2Proof.Machine

/-- A thread that has ended (R41). -/
def Thread.ended (h : Thread) : Bool := decide (h.state = .done ∨ h.state = .free)

/-- What a halt may change of a thread: one that has ended it leaves in its state. -/
structure Thread.HaltFrame (h g : Thread) : Prop where
  frame : g = { h with state := g.state, reason := g.reason, stepping := g.stepping, haltReq := g.haltReq, hold := g.hold, streams := g.streams,
                       pend := g.pend }
  ended : g.ended = h.ended
  state : h.ended = true → g.state = h.state

namespace Thread.HaltFrame

variable {h g k : Thread}

theorem refl (h : Thread) : h.HaltFrame h := ⟨rfl, rfl, fun _ => rfl⟩

theorem trans (hg : h.HaltFrame g) (gk : g.HaltFrame k) : h.HaltFrame k where
  frame := by
    have hk := gk.frame
    rw [hg.frame] at hk
    exact hk
  ended := gk.ended.trans hg.ended
  state he := (gk.state (hg.ended.trans he)).trans (hg.state he)

end Thread.HaltFrame

/-- From `s` to `t`, threads have halted, or been asked to, and messages have left: memory, slots, matrix queues and ended threads stay. -/
structure State.Halts (s t : State) : Prop where
  mem : s.sameMemory t
  core : ∀ c, t.core c = { s.core c with threads := (t.core c).threads, red := (t.core c).red, pmcSat := (t.core c).pmcSat }
  thread : ∀ v, (s.thread v).HaltFrame (t.thread v)

theorem State.Aside.thread {s t : State} (h : s.Aside t) (v : Who) : t.thread v = s.thread v := by
  rw [State.thread, h.core v.core, State.thread]
  rfl

namespace State.Halts

variable {s t u : State}

theorem of_aside (h : s.Aside t) : s.Halts t where
  mem := h.sameMemory
  core c := by rw [h.core c]
  thread v := by rw [h.thread v]; exact .refl _

theorem refl (s : State) : s.Halts s := of_aside (.refl s)

theorem trans (h : s.Halts t) (h' : t.Halts u) : s.Halts u where
  mem := State.sameMemory_trans h.mem h'.mem
  core c := (h'.core c).trans (by rw [h.core c])
  thread v := (h.thread v).trans (h'.thread v)

theorem ite {p : Prop} [Decidable p] (ht : s.Halts t) (hu : s.Halts u) : s.Halts (if p then t else u) := by
  split
  · exact ht
  · exact hu

theorem foldl {γ : Type} {f : State → γ → State} {l : List γ} (h : ∀ s a, State.Halts s (f s a)) : s.Halts (l.foldl f s) :=
  foldl_invariant (s.Halts ·) (refl s) (fun t a _ ht => ht.trans (h t a))

theorem of_thread {w : Who} {f : Thread → Thread} (hf : (s.thread w).HaltFrame (f (s.thread w))) : s.Halts (s.modThread w f) where
  mem := s.modThread_sameMemory w f
  core c := by
    by_cases hc : c = w.core
    · rw [hc, State.core_modThread]; rfl
    · rw [State.core_modThread_other _ _ _ hc]
  thread v := by
    by_cases hv : v = w
    · rw [hv, State.thread_modThread]; exact hf
    · rw [State.thread_modThread_other _ _ hv]; exact .refl _

/-- No thread has ended, or come back from its end. -/
theorem ended (h : s.Halts t) (v : Who) : (t.thread v).ended = (s.thread v).ended := (h.thread v).ended

end State.Halts

open State.Halts

section
variable (s : State)

/-! ### Messages -/

theorem State.halts_tables {t : State} (hc : t.cores = s.cores) (hd : t.dies = s.dies) : s.Halts t where
  mem := fun l => State.byteAt_congr hc hd l
  core c := by rw [State.core, hc]; rfl
  thread v := by rw [State.thread_of_cores hc]; exact .refl _

theorem State.halts_notified (o : MsgFrom) (code : BitVec 3) : s.Halts (s.notified o code) := by
  unfold State.notified
  split
  · exact of_aside (State.Aside.ite (s.aside_modTeam _ _) ((s.aside_modTeam _ _).trans (State.aside_countTeam _ _ _ _)))
  next c x =>
    exact {
      mem := State.sameMemory_of (State.core_modCore_keeps Core.ls rfl) (fun _ => ⟨rfl, rfl, rfl⟩)
      core := fun e => by
        by_cases he : e = c
        · rw [he, State.core_modCore]
        · rw [State.core_modCore_other _ _ he]
      thread := fun v => by rw [State.thread_modCore rfl]; exact .refl _ }
  · exact refl s

theorem State.halts_pendMsg (m : Msg) (leaves : Bool) : s.Halts (s.pendMsg m leaves) := by
  unfold State.pendMsg
  split
  · exact ite (refl s) (of_thread ⟨rfl, rfl, fun _ => rfl⟩)
  · exact refl s

theorem State.halts_leaveMsg (m : Msg) : s.Halts (s.leaveMsg m) := by
  unfold State.leaveMsg
  dsimp only
  split
  · exact (State.halts_tables s rfl rfl : s.Halts (s.dropMsg m.seq)).trans (State.halts_notified _ _ _)
  · refine ite (.trans ?_ (State.halts_pendMsg _ _ _)) (.trans (.trans ?_ (State.halts_pendMsg _ _ _)) (of_aside (State.aside_sendReq _ _ _ _ _))) <;>
      exact s.halts_tables rfl rfl

theorem State.halts_endMsg (m : Msg) : s.Halts (s.endMsg m) :=
  (s.halts_tables rfl rfl : s.Halts (s.dropMsg m.seq)).trans (foldl fun s m => ite (refl s) (s.halts_leaveMsg m))

/-! ### Halting a thread -/

theorem State.movement_sameMemory (c : CoreIx) : s.sameMemory (s.movement c) := s.modDie_sameMemory _ ⟨rfl, rfl, rfl⟩

theorem State.halts_movement (c : CoreIx) : s.Halts (s.movement c) where
  mem := s.movement_sameMemory c
  core _ := rfl
  thread v := by rw [State.thread_of_cores rfl]; exact .refl _

theorem State.halts_leftWait (w : Who) : s.Halts (s.leftWait w) := ite (s.halts_movement _) (refl s)

variable {s}

/-- A thread that runs, waits or halts may go on to run or to halt. -/
theorem Thread.haltFrame_of_live {h g : Thread} (hl : h.ended = false) (hg : g.ended = false)
    (hf : g = { h with state := g.state, reason := g.reason, stepping := g.stepping, haltReq := g.haltReq, hold := g.hold, streams := g.streams,
                       pend := g.pend }) :
    h.HaltFrame g := ⟨hf, hg.trans hl.symm, fun he => by rw [hl] at he; cases he⟩

theorem State.halts_unwait {w : Who} (hl : (s.thread w).ended = false) : s.Halts (s.unwait w) :=
  (s.halts_leftWait w).trans (of_thread (Thread.haltFrame_of_live (((s.halts_leftWait w).ended w).trans hl) rfl rfl))

theorem State.halts_haltOne {w : Who} (hl : (s.thread w).ended = false) (reason : BitVec 4) : s.Halts (s.haltOne w reason) :=
  (s.halts_leftWait w).trans (of_thread (Thread.haltFrame_of_live (((s.halts_leftWait w).ended w).trans hl) rfl rfl))

theorem Thread.live_of_run {h : Thread} (hr : h.state = .run) : h.ended = false := by rw [Thread.ended, hr]; rfl

theorem State.halts_askHalt (w : Who) (reason : BitVec 4) : s.Halts (s.askHalt w reason) := by
  unfold State.askHalt
  dsimp only
  split
  next hl =>
    have hlive : (s.thread w).ended = false := by
      rw [Thread.ended]
      rcases hl with hl | hl <;> rw [hl] <;> rfl
    have hask : s.Halts (s.modThread w (fun h => { h with haltReq := some (h.haltReq.getD reason) })) := of_thread ⟨rfl, rfl, fun _ => rfl⟩
    have hasked := (hask.ended w).trans hlive
    split
    · exact hask
    · exact hask
    · exact hask
    · exact hask.trans (ite (.refl _) (State.halts_unwait hasked))
    · split
      next m _ =>
        have hend := State.halts_endMsg (s.modThread w (fun h => { h with haltReq := some (h.haltReq.getD reason) })) m
        exact hask.trans (ite (hend.trans (State.halts_unwait ((hend.ended w).trans hasked))) (.refl _))
      · exact hask.trans (State.halts_unwait hasked)
    · exact hask.trans (State.halts_unwait hasked)
  · exact refl s

theorem State.halts_crossHalt (w : Who) : s.Halts (s.crossHalt w) := by
  unfold State.crossHalt
  dsimp only
  split
  · split
    next hr => exact (State.halts_askHalt w 5).trans (State.halts_haltOne (Thread.live_of_run hr.1) _)
    · exact State.halts_askHalt w 5
  · exact State.halts_askHalt w 5

theorem State.halts_haltThread {w : Who} (hl : (s.thread w).ended = false) (reason : BitVec 4) : s.Halts (s.haltThread w reason) := by
  have hall (l : List Who) (u : State) : u.Halts (l.foldl State.crossHalt u) := foldl fun _ v => State.halts_crossHalt v
  unfold State.haltThread
  refine ite (State.halts_haltOne hl reason) ?_
  refine ite (.trans ?_ (hall _ _)) ?_ <;> exact ite ((State.halts_haltOne hl reason).trans (hall _ _)) (State.halts_haltOne hl reason)

theorem State.halts_haltIfAsked (w : Who) : s.Halts (s.haltIfAsked w) := by
  unfold State.haltIfAsked
  dsimp only
  split
  next hr =>
    split
    · exact State.halts_haltThread (Thread.live_of_run hr.1) _
    · exact refl s
  · exact refl s

theorem State.halts_stepEnd (w : Who) : s.Halts (s.stepEnd w) := by
  unfold State.stepEnd
  dsimp only
  split
  next hr => exact State.halts_haltThread (Thread.live_of_run hr.2.1) _
  · exact State.halts_haltIfAsked w

end

/-! ### What goes on before the thread itself ends -/

/-- From `s` to `t`, the streams of a thread have stopped and its children are orphans: nothing else but the items of threads has changed. -/
structure State.Unwinds (s t : State) (w : Who) : Prop where
  mem : s.sameMemory t
  core : ∀ c, t.core c = { s.core c with threads := (t.core c).threads }
  thread : ∀ v, t.thread v = { s.thread v with state := (t.thread v).state, orphan := (t.thread v).orphan, streams := (t.thread v).streams,
                                               bound := (t.thread v).bound, taken := (t.thread v).taken }
  own : (t.thread w).state = (s.thread w).state ∧ (t.thread w).orphan = (s.thread w).orphan

namespace State.Unwinds

variable {s t u : State} {w : Who}

theorem of_tables (hc : t.cores = s.cores) (hm : s.sameMemory t) : s.Unwinds t w where
  mem := hm
  core c := by rw [State.core, hc]; rfl
  thread v := by rw [State.thread_of_cores hc]
  own := by rw [State.thread_of_cores hc]; exact ⟨rfl, rfl⟩

theorem refl (s : State) (w : Who) : s.Unwinds s w := of_tables rfl (fun _ => rfl)

theorem trans (h : s.Unwinds t w) (h' : t.Unwinds u w) : s.Unwinds u w where
  mem := State.sameMemory_trans h.mem h'.mem
  core c := (h'.core c).trans (by rw [h.core c])
  thread v := (h'.thread v).trans (by rw [h.thread v])
  own := ⟨h'.own.1.trans h.own.1, h'.own.2.trans h.own.2⟩

theorem ite {p : Prop} [Decidable p] (ht : s.Unwinds t w) (hu : s.Unwinds u w) : s.Unwinds (if p then t else u) w := by
  split
  · exact ht
  · exact hu

theorem foldl {γ : Type} {f : State → γ → State} {l : List γ} (h : ∀ s a, State.Unwinds s (f s a) w) : s.Unwinds (l.foldl f s) w :=
  foldl_invariant (s.Unwinds · w) (refl s w) (fun t a _ ht => ht.trans (h t a))

theorem of_thread {v : Who} {f : Thread → Thread}
    (hf : f (s.thread v) = { s.thread v with state := (f (s.thread v)).state, orphan := (f (s.thread v)).orphan, streams := (f (s.thread v)).streams,
                                             bound := (f (s.thread v)).bound, taken := (f (s.thread v)).taken })
    (hw : v = w → (f (s.thread v)).state = (s.thread v).state ∧ (f (s.thread v)).orphan = (s.thread v).orphan) : s.Unwinds (s.modThread v f) w where
  mem := s.modThread_sameMemory v f
  core c := by
    by_cases hc : c = v.core
    · rw [hc, State.core_modThread]; rfl
    · rw [State.core_modThread_other _ _ _ hc]
  thread x := by
    by_cases hx : x = v
    · rw [hx, State.thread_modThread]; exact hf
    · rw [State.thread_modThread_other _ _ hx]
  own := by
    by_cases hx : w = v
    · rw [hx, State.thread_modThread]; exact hw hx.symm
    · rw [State.thread_modThread_other _ _ hx]; exact ⟨rfl, rfl⟩

end State.Unwinds

open State.Unwinds

section
variable (s : State) (w : Who)

theorem State.unwinds_leftWait : s.Unwinds (s.leftWait w) w :=
  ite (of_tables (t := s.movement w.core) rfl (s.movement_sameMemory _)) (refl s w)

/-- A thread without items loses none. -/
theorem State.unwinds_failItems (hb : (s.thread w).bound = []) (ht : (s.thread w).taken = []) (status cause : Nat) (loc : BitVec 32) :
    s.Unwinds (s.failItems w status cause loc) w := by
  rw [State.failItems]
  rw [hb, ht]
  exact of_thread rfl (fun _ => ⟨rfl, rfl⟩)

theorem State.unwinds_modStream (v : Who) (k : BitVec 3) (f : Stream → Stream) : s.Unwinds (s.modStream v k f) w :=
  of_thread rfl (fun _ => ⟨rfl, rfl⟩)

theorem State.unwinds_relayLost (n : Nat) (c : CoreIx) (x : Stream) (b : Bool) : s.Unwinds (State.relayLost n s c x b) w := by
  induction n generalizing s c x b with
  | zero => exact refl s w
  | succ n ih =>
    unfold State.relayLost
    split
    · exact refl s w
    next v k _ =>
      refine ite (refl s w) (ite (of_tables rfl (fun l => State.byteAt_congr rfl rfl l)) ?_)
      exact ite ((s.unwinds_modStream w v k _).trans (ih _ _ _ _)) (s.unwinds_modStream w v k _)

theorem State.unwinds_stopStreams (b : Bool) : s.Unwinds (s.stopStreams w b) w := by
  refine foldl (fun s k => ?_)
  unfold State.stopStream
  have hstop (u : State) (hu : s.Unwinds u w) (p : RFlight → Bool) : s.Unwinds { u with reads := u.reads.filter p } w :=
    hu.trans (of_tables rfl (fun l => State.byteAt_congr rfl rfl l))
  exact ite ((hstop _ (s.unwinds_modStream w w k _) _).trans (State.unwinds_relayLost _ _ _ _ _ _)) (hstop _ (s.unwinds_modStream w w k _) _)

theorem State.unwinds_orphanChildren : s.Unwinds (s.orphanChildren w) w := by
  refine foldl (fun s k => ?_)
  dsimp only
  split
  next hk =>
    have hne (e : (⟨w.core, k⟩ : Who) = w) : k = w.thr := congrArg Who.thr e
    exact ite (of_thread rfl (fun e => absurd (hne e) hk.1)) (ite (refl s w) (of_thread rfl (fun e => absurd (hne e) hk.1)))
  · exact refl s w

end

/-! ### The thread that ends, and its core (R41, R109) -/

/-- A thread that has ended with an exit value. -/
def Thread.endedWith (h : Thread) (exit : BitVec 32) : Thread :=
  { h with exit := exit, state := if h.orphan then .free else .done, tiles := [], resv := Option.none, tldPend := false, cursor := {},
           hold := .none, memHold := .none, loads := [], stepping := false }

/-- The core of a thread that has ended: its share of the slots is EMPTY, and nothing of it is in the matrix queue. -/
def Core.endThread (x : Core) (t : ThrIx) : Core := { x.emptyShare t with mq := x.mq.filter (fun m => m.thr ≠ t) }

theorem Thread.ended_endedWith (h : Thread) (exit : BitVec 32) : (h.endedWith exit).ended = true := by
  cases ho : h.orphan <;> simp [Thread.endedWith, Thread.ended, ho]

theorem Thread.endedWith_congr {h g : Thread} (hg : g = { h with state := g.state, orphan := g.orphan, streams := g.streams, bound := g.bound,
                                                                 taken := g.taken })
    (ho : g.orphan = h.orphan) (exit : BitVec 32) :
    g.endedWith exit = { h.endedWith exit with streams := g.streams, bound := g.bound, taken := g.taken } := by
  have hsame : g.endedWith exit = Thread.endedWith { h with state := g.state, orphan := g.orphan, streams := g.streams, bound := g.bound,
                                                            taken := g.taken } exit :=
    congrArg (fun x => x.endedWith exit) hg
  rw [hsame, ho]
  rfl

/-- From `s` to `t`, a thread has ended with an exit value; a parent that waits for it has not yet been woken. -/
structure State.Ends (s t : State) (w : Who) (exit : BitVec 32) : Prop where
  mem : s.sameMemory t
  core : t.core w.core = { (s.core w.core).endThread w.thr with threads := (t.core w.core).threads }
  self : t.thread w = { (s.thread w).endedWith exit with streams := (t.thread w).streams, bound := (t.thread w).bound, taken := (t.thread w).taken }
  other : ∀ p, p ≠ w → t.thread p = { s.thread p with state := (t.thread p).state, orphan := (t.thread p).orphan, streams := (t.thread p).streams,
                                                      bound := (t.thread p).bound, taken := (t.thread p).taken }

/-- The share of a core and the thread are ended in a state. -/
def State.endHere (s : State) (w : Who) (exit : BitVec 32) : State := (s.modCore w.core (fun x => x.endThread w.thr)).modThread w (fun h => h.endedWith exit)

theorem State.Unwinds.ends {s t : State} {w : Who} (h : s.Unwinds t w) (exit : BitVec 32) : s.Ends (t.endHere w exit) w exit where
  mem := by
    refine State.sameMemory_trans h.mem (State.sameMemory_trans ?_ (State.modThread_sameMemory _ w _))
    exact State.sameMemory_of (State.core_modCore_keeps Core.ls rfl) (fun _ => ⟨rfl, rfl, rfl⟩)
  core := by
    rw [State.endHere, State.core_modThread, State.core_modCore, h.core w.core]
    rfl
  self := by
    rw [State.endHere, State.thread_modThread, State.thread_modCore rfl]
    exact Thread.endedWith_congr (h.thread w) h.own.2 exit
  other p hp := by
    rw [State.endHere, State.thread_modThread_other _ _ hp, State.thread_modCore rfl]
    exact h.thread p

/-- What ends a thread without items, before its parent is woken. -/
theorem State.endThreadOp_ends {s : State} {w : Who} (hb : (s.thread w).bound = []) (ht : (s.thread w).taken = []) (exit : BitVec 32) (cause : Nat) :
    ∃ t, s.Ends t w exit ∧ s.endThreadOp w exit cause = t.wakeJoin w.core w.thr := by
  have hleft := s.unwinds_leftWait w
  have hsame : (s.leftWait w).thread w = s.thread w := by
    unfold State.leftWait
    split
    · exact State.thread_of_cores rfl w
    · rfl
  have hfail := (s.leftWait w).unwinds_failItems w (by rw [hsame, hb]) (by rw [hsame, ht]) stFault cause (locThread s w)
  exact ⟨_, (((hleft.trans hfail).trans (State.unwinds_stopStreams _ w false)).trans (State.unwinds_orphanChildren _ w)).ends exit, rfl⟩

/-! ### The parent that waits (R43) -/

section Join

variable {s : State} {w : Who}

theorem State.wakeJoin_stays (h : (s.thread w).state ≠ .done ∨ ∀ rd, (s.thread ⟨w.core, (s.thread w).parent⟩).hold ≠ .join w.thr rd) :
    s.wakeJoin w.core w.thr = s := by
  unfold State.wakeJoin
  dsimp only
  split
  next k rd hk =>
    refine if_neg (fun hwake => ?_)
    obtain ⟨rfl, hdone⟩ := hwake
    exact h.elim (fun hn => hn hdone) (fun hn => hn rd hk)
  · rfl

/-- A parent that receives the exit value of a child goes on behind its join. -/
def Thread.joins (h : Thread) (rd : BitVec 5) (v : Word) : Thread := { (h.setReg rd v).advance 4 with hold := .none, state := .run }

/-- A child whose parent has received its exit value. -/
def Thread.freed (h : Thread) : Thread := { h with state := .free, joined := true }

/-- A waiting parent has received the exit value of a child. -/
def State.joined (s : State) (w p : Who) (rd : BitVec 5) : State :=
  ((((s.modThread p (fun h => h.joins rd (s.thread w).exitWord)).modThread w Thread.freed).movement w.core).countRetired p)

theorem State.wakeJoin_wakes {rd : BitVec 5} (hd : (s.thread w).state = .done)
    (hp : (s.thread ⟨w.core, (s.thread w).parent⟩).hold = .join w.thr rd) :
    s.wakeJoin w.core w.thr = (s.joined w ⟨w.core, (s.thread w).parent⟩ rd).stepEnd ⟨w.core, (s.thread w).parent⟩ := by
  unfold State.wakeJoin
  dsimp only
  rw [hp]
  exact if_pos ⟨rfl, hd⟩

theorem State.thread_movement (s : State) (c : CoreIx) (v : Who) : (s.movement c).thread v = s.thread v := State.thread_of_cores rfl v

theorem State.slots_modThread (s : State) (v : Who) (f : Thread → Thread) (c : CoreIx) : ((s.modThread v f).core c).slots = (s.core c).slots :=
  State.core_modCore_keeps (s := s) (c := v.core) (f := fun x => x.setThread v.thr (f (s.thread v))) Core.slots rfl c

theorem State.mq_modThread (s : State) (v : Who) (f : Thread → Thread) (c : CoreIx) : ((s.modThread v f).core c).mq = (s.core c).mq :=
  State.core_modCore_keeps (s := s) (c := v.core) (f := fun x => x.setThread v.thr (f (s.thread v))) Core.mq rfl c

theorem State.core_movement (s : State) (c e : CoreIx) : (s.movement c).core e = s.core e := rfl

theorem State.thread_joined_self {p : Who} (hp : p ≠ w) (rd : BitVec 5) : (s.joined w p rd).thread w = (s.thread w).freed := by
  rw [State.joined, State.thread_countRetired_other _ hp.symm, State.thread_movement, State.thread_modThread, State.thread_modThread_other _ _ hp.symm]

theorem State.thread_joined_parent {p : Who} (hp : p ≠ w) (rd : BitVec 5) :
    (s.joined w p rd).thread p = { (s.thread p).joins rd (s.thread w).exitWord with pmc := ((s.joined w p rd).thread p).pmc } := by
  have hcount := State.thread_countRetired (((s.modThread p (fun h => h.joins rd (s.thread w).exitWord)).modThread w Thread.freed).movement w.core) p
  rw [State.thread_movement, State.thread_modThread_other _ _ hp, State.thread_modThread] at hcount
  exact hcount

theorem State.joined_sameMemory (p : Who) (rd : BitVec 5) : s.sameMemory (s.joined w p rd) :=
  State.sameMemory_trans (s.modThread_sameMemory p _) (State.sameMemory_trans (State.modThread_sameMemory _ w _)
    (State.sameMemory_trans (State.movement_sameMemory _ _) (State.onlyThread_countRetired _ p).sameMemory))

theorem State.core_joined {p : Who} (hp : p.core = w.core) (rd : BitVec 5) :
    ((s.joined w p rd).core w.core).slots = (s.core w.core).slots ∧ ((s.joined w p rd).core w.core).mq = (s.core w.core).mq := by
  have hcount := State.core_countRetired (((s.modThread p (fun h => h.joins rd (s.thread w).exitWord)).modThread w Thread.freed).movement w.core) p
  rw [hp, State.core_movement] at hcount
  rw [State.joined, hcount]
  dsimp only
  rw [State.slots_modThread, State.slots_modThread, State.mq_modThread, State.mq_modThread]
  exact ⟨rfl, rfl⟩

/-- What the end of a thread leaves of it and its core, whatever its parent does then. -/
structure State.EndLeft (s t : State) (w : Who) (exit : BitVec 32) : Prop where
  mem : s.sameMemory t
  slots : (t.core w.core).slots = ((s.core w.core).emptyShare w.thr).slots
  mq : (t.core w.core).mq = (s.core w.core).mq.filter (fun m => m.thr ≠ w.thr)
  cause : (t.thread w).cause = (s.thread w).cause
  exit : (t.thread w).exit = exit
  tiles : (t.thread w).tiles = []
  resv : (t.thread w).resv = Option.none
  loads : (t.thread w).loads = []
  tldPend : (t.thread w).tldPend = false
  ended : (t.thread w).ended = true

variable {t u : State} {exit : BitVec 32}

/-- A halt of other threads leaves it. -/
theorem State.EndLeft.halts (h : s.EndLeft t w exit) (hu : t.Halts u) : s.EndLeft u w exit := by
  have hcore := hu.core w.core
  have hframe := (hu.thread w).frame
  exact {
    mem := State.sameMemory_trans h.mem hu.mem
    slots := by rw [hcore]; exact h.slots
    mq := by rw [hcore]; exact h.mq
    cause := by rw [hframe]; exact h.cause
    exit := by rw [hframe]; exact h.exit
    tiles := by rw [hframe]; exact h.tiles
    resv := by rw [hframe]; exact h.resv
    loads := by rw [hframe]; exact h.loads
    tldPend := by rw [hframe]; exact h.tldPend
    ended := (hu.ended w).trans h.ended }

theorem State.Ends.left (h : s.Ends t w exit) : s.EndLeft t w exit := by
  have hself := h.self
  exact {
    mem := h.mem
    slots := by rw [h.core]; rfl
    mq := by rw [h.core]; rfl
    cause := by rw [hself]; rfl
    exit := by rw [hself]; rfl
    tiles := by rw [hself]; rfl
    resv := by rw [hself]; rfl
    loads := by rw [hself]; rfl
    tldPend := by rw [hself]; rfl
    ended := by rw [hself]; exact Thread.ended_endedWith (s.thread w) exit }

theorem State.EndLeft.joined (h : s.EndLeft t w exit) {p : Who} (hp : p ≠ w) (hc : p.core = w.core) (rd : BitVec 5) :
    s.EndLeft (t.joined w p rd) w exit := by
  obtain ⟨hslots, hmq⟩ := State.core_joined (s := t) hc rd
  have hself := State.thread_joined_self (s := t) hp rd
  exact {
    mem := State.sameMemory_trans h.mem (State.joined_sameMemory p rd)
    slots := hslots.trans h.slots
    mq := hmq.trans h.mq
    cause := by rw [hself]; exact h.cause
    exit := by rw [hself]; exact h.exit
    tiles := by rw [hself]; exact h.tiles
    resv := by rw [hself]; exact h.resv
    loads := by rw [hself]; exact h.loads
    tldPend := by rw [hself]; exact h.tldPend
    ended := by rw [hself]; rfl }

theorem State.Ends.hold (h : s.Ends t w exit) : (t.thread w).hold = .none := by rw [h.self]; rfl

theorem State.Ends.wakeJoin_left (h : s.Ends t w exit) : s.EndLeft (t.wakeJoin w.core w.thr) w exit := by
  by_cases hwake : (t.thread w).state = .done ∧ ∃ rd, (t.thread ⟨w.core, (t.thread w).parent⟩).hold = .join w.thr rd
  · obtain ⟨hdone, rd, hjoin⟩ := hwake
    have hp : (⟨w.core, (t.thread w).parent⟩ : Who) ≠ w := by
      intro e
      rw [e, h.hold] at hjoin
      cases hjoin
    rw [State.wakeJoin_wakes hdone hjoin]
    exact (h.left.joined hp rfl rd).halts (State.halts_stepEnd _)
  · rw [State.wakeJoin_stays]
    · exact h.left
    · by_cases hdone : (t.thread w).state = .done
      · exact .inr (fun rd hjoin => hwake ⟨hdone, rd, hjoin⟩)
      · exact .inl hdone

/-- What the end of a thread without items leaves. -/
theorem State.endThreadOp_left (hb : (s.thread w).bound = []) (ht : (s.thread w).taken = []) (exit : BitVec 32) (cause : Nat) :
    s.EndLeft (s.endThreadOp w exit cause) w exit := by
  obtain ⟨t, hends, heq⟩ := State.endThreadOp_ends hb ht exit cause
  rw [heq]
  exact hends.wakeJoin_left

end Join

end Sys2Proof.Machine
end

section
/-! Traps (R53 to R58, R93): taking a trap, brk, and the return from a trap. -/

namespace Sys2Proof.Machine

/-- THR_CAUSE has DETAIL, LONG and the code side by side (R37). -/
theorem causeWord_eq (t : Trap) (long : Bool) : causeWord t long = t.detail ++ (if long then 1 else 0 : BitVec 8) ++ t.code := by
  have hb : (if long then 1 else 0 : BitVec 8).toNat = b2n long := by cases long <;> rfl
  have hlong : b2n long < 2 ^ 8 := by cases long <;> decide
  have hmid : b2n long * 2 ^ 8 + t.code.toNat < 2 ^ 16 := by
    have := t.code.isLt
    omega
  apply BitVec.eq_of_toNat_eq
  rw [causeWord, BitVec.toNat_ofNat, BitVec.toNat_append, BitVec.toNat_append, hb, ← Nat.shiftLeft_add_eq_or_of_lt hlong,
    ← Nat.shiftLeft_add_eq_or_of_lt t.code.isLt, Nat.shiftLeft_eq, Nat.shiftLeft_eq]
  have := t.detail.isLt
  omega

/-- A thread that has entered its handler. -/
def Thread.trapped (h : Thread) (pc : Word) (long : Bool) (t : Trap) : Thread :=
  { h.unclaim with epc := pc, cause := causeWord t long, tval := t.tval, inTrap := true, resv := Option.none, hold := .none, memHold := .none,
                   loads := [], pc := h.tvec, state := .run, given := Option.none }

section

variable {s : State} {w : Who} {t : Trap}

theorem State.countWasted_sameMemory (s : State) (c : CoreIx) (n : Nat) : s.sameMemory (s.countWasted c n) := by
  unfold State.countWasted
  split
  · exact fun _ => rfl
  · refine State.sameMemory_of (fun e => ?_) (fun d => ?_)
    · by_cases he : e = c
      · rw [he, State.core_countCore]
      · rw [State.core_countCore_other _ _ _ _ he]
    · rw [State.countCore_eq]
      exact ⟨rfl, rfl, rfl⟩

theorem State.leftWait_of_run (hr : (s.thread w).state = .run) : s.leftWait w = s := if_neg (by rw [hr]; decide)

/-- A trap that reaches a handler. -/
theorem State.takeTrap_enters (hr : (s.thread w).state = .run) (hf : t.fences = false) (hi : (s.thread w).inTrap = false) (hv : (s.thread w).tvec ≠ 0)
    (pc : Word) (long : Bool) : s.takeTrap w pc long t = (s.countWasted w.core 1).modThread w (fun h => h.trapped pc long t) := by
  have hthread := s.thread_countWasted w.core 1 w
  unfold State.takeTrap
  dsimp only
  rw [hthread, hf, hi, if_neg Bool.false_ne_true, if_neg Bool.false_ne_true, if_neg hv, State.leftWait_of_run (by rw [hthread, hr])]
  rfl

/-- A trap that reaches none ends the thread with exit value -1. -/
theorem State.takeTrap_ends (hr : (s.thread w).state = .run) (hf : t.fences = false) (hn : (s.thread w).inTrap = true ∨ (s.thread w).tvec = 0)
    (hb : (s.thread w).bound = []) (ht : (s.thread w).taken = []) (pc : Word) (long : Bool) :
    ∃ u, s.sameMemory u ∧ (u.thread w).cause = causeWord t long ∧ u.EndLeft (s.takeTrap w pc long t) w 0xFFFFFFFF := by
  have hthread := s.thread_countWasted w.core 1 w
  have hends (f : Thread → Thread) (hfb : (f (s.thread w)).bound = []) (hft : (f (s.thread w)).taken = [])
      (hfc : (f (s.thread w)).cause = causeWord t long)
      (heq : s.takeTrap w pc long t = ((s.countWasted w.core 1).modThread w f).endThreadOp w 0xFFFFFFFF (faultCause 0 t.code.toNat)) :
      ∃ u, s.sameMemory u ∧ (u.thread w).cause = causeWord t long ∧ u.EndLeft (s.takeTrap w pc long t) w 0xFFFFFFFF := by
    refine ⟨_, State.sameMemory_trans (s.countWasted_sameMemory w.core 1) (State.modThread_sameMemory _ w f), ?_, ?_⟩
    · rw [State.thread_modThread, hthread, hfc]
    · rw [heq]
      exact State.endThreadOp_left (by rw [State.thread_modThread, hthread, hfb]) (by rw [State.thread_modThread, hthread, hft]) _ _
  by_cases hi : (s.thread w).inTrap = true
  · refine hends (fun h => { h with cause := causeWord t long }) hb ht rfl ?_
    unfold State.takeTrap
    dsimp only
    rw [hthread, hf, hi, if_neg Bool.false_ne_true, if_pos rfl]
  · refine hends (fun h => h.trapped pc long t) hb ht rfl ?_
    unfold State.takeTrap
    dsimp only
    rw [hthread, hf, if_neg Bool.false_ne_true, if_neg hi, if_pos (hn.resolve_left hi), State.leftWait_of_run (by rw [hthread, hr])]
    rfl

/-- A trap of an instruction with nothing older under way. -/
theorem settle_trap (hw : s.olderWork w = false) (long : Bool) :
    s.settle w long (.trap s t) = (s.takeTrap w (s.thread w).pc long t).stepEnd w := by
  simp only [State.settle, hw, Bool.false_eq_true, if_false]

/-- A thread with nothing under way that enters its handler. -/
theorem Thread.trapped_of_idle {h : Thread} (hr : h.state = .run) (hh : h.hold = .none) (hm : h.memHold = .none) (hl : h.loads = []) (pc : Word)
    (long : Bool) (t : Trap) :
    h.trapped pc long t = { h.unclaim with epc := pc, cause := t.detail ++ (if long then 1 else 0 : BitVec 8) ++ t.code, tval := t.tval, inTrap := true,
                                           resv := Option.none, pc := h.tvec, given := Option.none } := by
  rw [Thread.trapped, causeWord_eq]
  simp only [Thread.unclaim, hr, hh, hm, hl]

/-- A thread that no halt interrupts enters its handler. -/
theorem State.takeTrap_stepEnd (hr : (s.thread w).state = .run) (hq : (s.thread w).undisturbed) (hf : t.fences = false)
    (hi : (s.thread w).inTrap = false) (hv : (s.thread w).tvec ≠ 0) (pc : Word) (long : Bool) :
    (s.takeTrap w pc long t).stepEnd w = (s.countWasted w.core 1).modThread w (fun h => h.trapped pc long t) := by
  rw [State.takeTrap_enters hr hf hi hv]
  have hthread : ((s.countWasted w.core 1).modThread w (fun h => h.trapped pc long t)).thread w = (s.thread w).trapped pc long t := by
    rw [State.thread_modThread, State.thread_countWasted]
  exact State.stepEnd_of_none (by rw [hthread]; exact hq.1) (by rw [hthread]; exact hq.2)

/-! ### The fetch of a tile load that tret resumes (R93) -/

theorem State.thread_countCorrected (s : State) (l : Loc) (v : Who) : (s.countCorrected l).thread v = s.thread v := by
  have hframe (d : DieIx) (key addr event unit : Nat) : (State.countCorrected.frame s d key addr event unit).thread v = s.thread v := by
    unfold State.countCorrected.frame
    dsimp only
    split
    · rw [(State.aside_event _ _ _ _ _).thread, State.logError, State.thread_modDie, State.thread_modDie, State.thread_countDie]
    · rw [State.thread_modDie, State.thread_countDie]
  cases l with
  | hbm d o => exact hframe ..
  | ddr d o => exact hframe ..
  | _ => rfl

/-- Reading for a thread without a trap changes no thread. -/
theorem State.thread_sense {c : CoreIx} {l : Loc} {n : Nat} {u : Upset} {a : Word} {x : State} (h : s.sense c l n u a = (Option.none, x)) (v : Who) :
    x.thread v = s.thread v := by
  cases u with
  | none => rw [← (Prod.mk.inj h).2]
  | corrected =>
    rw [← (Prod.mk.inj h).2]
    exact State.thread_countCorrected s l v
  | uncorrectable => cases (Prod.mk.inj h).1

theorem State.thread_fetchLine {pc : Word} {l : Loc} {n : Nat} {u : Upset} {x : State} (h : s.fetchLine w pc l n u = .ok x) (v : Who) :
    x.thread v = s.thread v := by
  have hsensed (hs : (match s.sense w.core l n u pc with
      | (some t, s) => Fetch.stop (.trap s t) false
      | (Option.none, s) => .ok (s.icacheInstall w.core (s.lineTag pc))) = .ok x) : x.thread v = s.thread v := by
    split at hs
    · cases hs
    next y hy =>
      obtain rfl := Fetch.ok.inj hs
      rw [State.thread_icacheInstall, State.thread_sense hy]
  cases l with
  | remote m b =>
    rw [State.fetchLine] at h
    split at h
    · cases h
    · obtain rfl := Fetch.ok.inj h
      exact State.thread_icacheInstall ..
  | ls c o => exact hsensed h
  | ctl c o => exact hsensed h
  | loft d o => exact hsensed h
  | hbm d o => exact hsensed h
  | ddr d o => exact hsensed h

theorem State.thread_fetchCheck {long : Bool} {u : Upset} {x : State} (h : s.fetchCheck w long (Upset.found u) = .ok x) (v : Who) :
    x.thread v = s.thread v := by
  have hu : Upset.found u ≠ .fetchParity := by cases u <;> decide
  unfold State.fetchCheck at h
  dsimp only at h
  rw [if_neg hu] at h
  split at h
  · cases h
  · split at h
    · cases h
    · split at h
      · cases h
      · split at h
        · cases h
        · cases h
        · split at h
          · obtain rfl := Fetch.ok.inj h
            rfl
          · exact State.thread_fetchLine h v

end

section

variable {s : State} {i : Iss} {found : BitVec 64} {u : Upset}

/-- A trap of a resumed tile load, as its thread enters the handler anew (R93). -/
theorem trapAtEpc_enters {long : Bool} {t : Trap} (h : s.ready i false = true) {x : State}
    (hx : x.thread i.who = { s.thread i.who with inTrap := false, pc := (s.thread i.who).epc, pmc := (x.thread i.who).pmc })
    (hf : t.fences = false) (hv : (s.thread i.who).tvec ≠ 0) (pc : Word) :
    (x.takeTrap i.who pc long t).stepEnd i.who = (x.countWasted i.who.core 1).modThread i.who (fun h =>
      { h.unclaim with epc := pc, cause := t.detail ++ (if long then 1 else 0 : BitVec 8) ++ t.code, tval := t.tval, inTrap := true,
                       resv := Option.none, pc := h.tvec, given := Option.none }) := by
  obtain ⟨hrun, hhold, hmem, hloads, hhalt, hstep, _⟩ := State.ready_cases h
  rw [State.takeTrap_stepEnd (by rw [hx]; exact hrun) (by rw [hx]; exact ⟨hhalt, hstep⟩) hf (by rw [hx]) (by rw [hx]; exact hv)]
  refine State.modThread_congr ?_
  rw [State.thread_countWasted]
  exact Thread.trapped_of_idle (by rw [hx]; exact hrun) (by rw [hx]; exact hhold) (by rw [hx]; exact hmem) (by rw [hx]; exact hloads) _ _ _

/-- tret of a thread without a pending tile load continues at THR_EPC. -/
theorem tret_done (h : s.ready i false = true) (hp : (s.thread i.who).tldPend = false) :
    exec (.tret i ⟨found, u⟩) s = .next (s.went i.who (s.thread i.who).epc (fun h => { h with inTrap := false })) := by
  have hbody : execTret i ⟨found, u⟩ s = issue i 0x26 false { reads := false }
      (fun s => .jump (s.modThread i.who Thread.trapReturn) (s.thread i.who).epc) s := by
    rw [execTret, issue_of_ready h, issue_of_ready h]
    simp only [hp, Bool.false_eq_true, not_false_eq_true, if_true]
  rw [exec_tret, hbody, issue_jump h rfl rfl rfl]
  rfl

/-- The state in which tret looks at the pending tile load. -/
def State.tretState (s : State) (w : Who) : State := (s.countRetired w).modThread w Thread.trapReturn

theorem State.thread_tretState (s : State) (w : Who) :
    (s.tretState w).thread w = { s.thread w with inTrap := false, pc := (s.thread w).epc, pmc := ((s.tretState w).thread w).pmc } := by
  rw [State.tretState, State.thread_modThread, State.thread_countRetired]
  rfl

/-- The tile load that the cursor names. -/
def Cursor.names (c : Cursor) (f : TileF) (sc : Bool) : Prop := sc = c.sc ∧ f.td = c.tile ∧ f.src = c.src ∧ f.strm = c.strm

theorem Cursor.not_names {c : Cursor} {f : TileF} {sc : Bool} : (sc ≠ c.sc ∨ f.td ≠ c.tile ∨ f.src ≠ c.src ∨ f.strm ≠ c.strm) ↔ ¬c.names f sc := by
  rw [Cursor.names, Classical.not_and_iff_not_or_not, Classical.not_and_iff_not_or_not, Classical.not_and_iff_not_or_not]

/-- What tret does with what it finds at THR_EPC. -/
def State.tretFound (s x : State) (w : Who) (found : BitVec 64) (long : Bool) : Res :=
  let h := s.thread w
  match tileLoadOf w found with
  | Option.none => trapAtEpc x w long (shapeFault 6)
  | some (f, sc) =>
    if sc ≠ h.cursor.sc ∨ f.td ≠ h.cursor.tile ∨ f.src ≠ h.cursor.src ∨ f.strm ≠ h.cursor.strm then trapAtEpc x w long (shapeFault 6)
    else
      match tileShape f sc false with
      | some d => trapAtEpc x w true (shapeFault d)
      | Option.none =>
        if tileSkew h f sc then trapAtEpc x w true (misaligned 8 (h.reg f.rb))
        else
          let t := x.tileStart w h.epc f sc h.cursor.row.toNat h.cursor.prior [] (if f.src then some false else Option.none)
          .gone (t.retire (t.thread w).loads.length w)

theorem tret_found (h : s.ready i false = true) (hp : (s.thread i.who).tldPend = true) (hq : s.mmQueued i.who = false) {x : State}
    (hx : (s.tretState i.who).fetchCheck i.who (decide (found.extractLsb' 29 3 = 7)) (Upset.found u) = .ok x) :
    exec (.tret i ⟨found, u⟩) s = .next (s.settle i.who false (s.tretFound x i.who found (decide (found.extractLsb' 29 3 = 7)))) := by
  obtain ⟨_, _, hmem, _⟩ := State.ready_cases h
  rw [State.tretState] at hx
  rw [exec_tret, execTret, issue_of_ready h]
  simp only [hp, not_true, if_false, hq, Bool.false_eq_true, hmem, ne_eq, or_self, hx]
  rfl

end

/-- Settles O9: trap entry, the end of a thread without a handler, and the return from a trap. -/
theorem traps : Obligations.Traps := by
  refine ⟨fun s i h hq => ?_, fun s i found u h => ?_⟩
  · obtain ⟨hrun, hhold, hmem, hloads, hhalt, hstep, _⟩ := State.ready_cases h
    have holder : s.olderWork i.who = false := by simp [State.olderWork, hq, hmem, hloads]
    have hbrk : exec (.brk i) s = .next (s.settle i.who false (.trap s { code := 0x0B, detail := 0xFFFF })) := by
      rw [exec_brk, execBrk, issue_of_ready h]
    have hwasted := s.thread_countWasted i.who.core 1 i.who
    intro h' enters
    refine ⟨fun hi hv => ?_, fun hn hb ht => ?_⟩
    · have henters (long : Bool) (t : Trap) (hf : t.fences = false) : s.settle i.who long (.trap s t) = enters long t := by
        rw [settle_trap holder, State.takeTrap_stepEnd hrun ⟨hhalt, hstep⟩ hf hi hv]
        refine State.modThread_congr ?_
        rw [hwasted]
        exact Thread.trapped_of_idle hrun hhold hmem hloads _ long t
      refine ⟨hbrk.trans (congrArg _ (henters false _ rfl)), fun long t h8 hA => henters long t ?_⟩
      exact decide_eq_false (fun hf => hf.elim h8 hA)
    · obtain ⟨x, hx, hcause, hleft⟩ := State.takeTrap_ends (t := { code := 0x0B, detail := 0xFFFF }) hrun rfl hn hb ht (s.thread i.who).pc false
      have hend := hleft.halts (State.halts_stepEnd i.who)
      refine ⟨_, hbrk.trans (congrArg _ (settle_trap holder false)), hend.exit, hend.cause.trans (hcause.trans (by decide)), ?_,
        State.sameMemory_trans hx hend.mem⟩
      exact of_decide_eq_true hend.ended
  · refine ⟨tret_done h, ?_⟩
    intro hp hq s1 long same s2 hs2
    have hx : s2.thread i.who = { s.thread i.who with inTrap := false, pc := (s.thread i.who).epc, pmc := (s2.thread i.who).pmc } := by
      rw [State.thread_fetchCheck hs2 i.who]
      exact s.thread_tretState i.who
    have hfound := tret_found h hp hq hs2
    refine ⟨fun hbad hv => ?_, fun f sc hload hsame hshape hskew => ?_⟩
    · have htrap : s.tretFound s2 i.who found long = trapAtEpc s2 i.who long (shapeFault 6) := by
        rw [State.tretFound]
        rcases hbad with hno | ⟨f, sc, hload, hne⟩
        · rw [hno]
        · rw [hload]
          exact if_pos (Cursor.not_names.mpr hne)
      have hepc : (s2.thread i.who).epc = (s.thread i.who).epc := by rw [hx]
      have henters := trapAtEpc_enters (long := long) (t := shapeFault 6) h hx rfl hv (s.thread i.who).epc
      rw [hfound, htrap, trapAtEpc, hepc]
      refine (congrArg Host.Outcome.next henters).trans (congrArg Host.Outcome.next (State.modThread_congr ?_))
      rw [State.thread_countWasted, hx]
      rfl
    · have hstart : s.tretFound s2 i.who found long =
          .gone ((s2.tileStart i.who (s.thread i.who).epc f sc (s.thread i.who).cursor.row.toNat (s.thread i.who).cursor.prior []
            (if f.src then some false else Option.none)).retire
          ((s2.tileStart i.who (s.thread i.who).epc f sc (s.thread i.who).cursor.row.toNat (s.thread i.who).cursor.prior []
            (if f.src then some false else Option.none)).thread i.who).loads.length i.who) := by
        rw [State.tretFound, hload]
        dsimp only
        rw [if_neg (fun hne => Cursor.not_names.mp hne hsame), hshape]
        dsimp only
        rw [hskew, if_neg Bool.false_ne_true]
      rw [hfound, hstart]
      rfl

end Sys2Proof.Machine
end

section
/-! The life of a thread (R38 to R43, R109): CORE_START, fork, join and end. -/

namespace Sys2Proof.Machine

/-! ### A thread that starts (R38, R39) -/

theorem State.thread_disown (s : State) (w v : Who) : (s.disown w).thread v = s.thread v := State.thread_of_cores rfl v

theorem State.disown_sameMemory (s : State) (w : Who) : s.sameMemory (s.disown w) := fun l => State.byteAt_congr rfl rfl l

/-- Every register of a thread that starts is zero, and every tile empty. -/
structure Thread.Fresh (h : Thread) : Prop where
  state : h.state = .run
  reg : ∀ r, h.reg r = 0
  pred : ∀ p, p ≠ 0 → h.pred p = 0
  vec : ∀ r, h.vec r = 0
  tile : ∀ k, (h.tile k).state = .empty

theorem Thread.fresh_started (h : Thread) (pc : Word) : (h.started pc).Fresh where
  state := rfl
  reg _ := ite_self _
  pred _ hp := if_neg hp
  vec _ := rfl
  tile _ := rfl

theorem ownThread_isNone (v : Via) (c : CoreIx) : (ownThread v c).isNone = true ↔ ∀ t, v ≠ .thread ⟨c, t⟩ := by
  unfold ownThread
  split
  next w =>
    constructor
    · rintro h t ⟨⟩
      simp at h
    · intro h
      rw [if_neg (fun hc => h w.thr (by rw [← hc]))]
      rfl
  next hv => exact ⟨fun _ t e => hv _ e, fun _ => rfl⟩

section Start

variable {s : State} {v : Via} {c : CoreIx} {addr : Word}

theorem coreStart_starts (hm : s.boot.mainOn = true) (hp : s.present c = true) (ho : ∀ t, v ≠ .thread ⟨c, t⟩) (hf : (s.thread ⟨c, 0⟩).state = .free) :
    exec (.coreStart v c addr) s = .next ((s.disown ⟨c, 0⟩).modThread ⟨c, 0⟩ (fun h => { h.started addr with orphan := true })) := by
  rw [exec_coreStart, execCoreStart, State.coreStart, if_neg (by simp [hm, hp]), if_pos ⟨(ownThread_isNone v c).mpr ho, hf⟩]

theorem coreStart_dropped (hm : s.boot.mainOn = true) (hp : s.present c = true)
    (hn : ¬((∀ t, v ≠ .thread ⟨c, t⟩) ∧ (s.thread ⟨c, 0⟩).state = .free)) : exec (.coreStart v c addr) s = .next (s.countCore c 0x110 1) := by
  rw [← ownThread_isNone] at hn
  rw [exec_coreStart, execCoreStart, State.coreStart, if_neg (by simp [hm, hp]), if_neg hn]

end Start

/-! ### Fork (R39) -/

section Fork

variable {s : State} {i : Iss} {rd rs1 rs2 : BitVec 5} {k : ThrIx}

theorem allThreads_split : ∀ k : ThrIx, allThreads = allThreads.take k.toNat ++ k :: allThreads.drop (k.toNat + 1) := by decide

theorem lt_of_mem_take : ∀ k j : ThrIx, j ∈ allThreads.take k.toNat → j.toNat < k.toNat := by decide

theorem allThreads_find (p : ThrIx → Bool) (hk : p k = true) (hlow : ∀ j : ThrIx, j.toNat < k.toNat → p j = false) : allThreads.find? p = some k := by
  rw [List.find?_eq_some_iff_append]
  refine ⟨hk, _, _, allThreads_split k, fun j hj => ?_⟩
  rw [hlow j (lt_of_mem_take k j hj)]
  rfl

theorem freeThread_lowest {c : CoreIx} (hk : (s.thread ⟨c, k⟩).state = .free) (hlow : ∀ j : ThrIx, j.toNat < k.toNat → (s.thread ⟨c, j⟩).state ≠ .free) :
    (s.core c).freeThread = some k :=
  allThreads_find _ (decide_eq_true hk) (fun j hj => decide_eq_false (hlow j hj))

theorem freeThread_none {c : CoreIx} (h : ∀ j, (s.thread ⟨c, j⟩).state ≠ .free) : (s.core c).freeThread = Option.none :=
  List.find?_eq_none.mpr (fun j _ hj => h j (of_decide_eq_true hj))

/-- The state in which a thread has been forked. -/
def State.forkedAt (s : State) (i : Iss) (k : ThrIx) (rs1 rs2 : BitVec 5) : State :=
  (({ s with free := s.free + 4 } : State).disown ⟨i.who.core, k⟩).modThread ⟨i.who.core, k⟩ (fun x =>
    x.forked (s.thread i.who) i.who.thr k ((s.thread i.who).reg rs1) ((s.thread i.who).reg rs2) s.free)

theorem sibling_ne {w : Who} (hk : k ≠ w.thr) : w ≠ ⟨w.core, k⟩ := fun e => hk (congrArg Who.thr e).symm

theorem State.thread_forkedAt_other {v : Who} (hv : v ≠ ⟨i.who.core, k⟩) : (s.forkedAt i k rs1 rs2).thread v = s.thread v := by
  rw [State.forkedAt, State.thread_modThread_other _ _ hv, State.thread_disown]
  exact State.thread_of_cores rfl v

theorem State.thread_forkedAt : (s.forkedAt i k rs1 rs2).thread ⟨i.who.core, k⟩ = (s.thread ⟨i.who.core, k⟩).forked (s.thread i.who) i.who.thr k
    ((s.thread i.who).reg rs1) ((s.thread i.who).reg rs2) s.free := by
  have hsame : (({ s with free := s.free + 4 } : State).disown ⟨i.who.core, k⟩).thread ⟨i.who.core, k⟩ = s.thread ⟨i.who.core, k⟩ :=
    (State.thread_disown ..).trans (State.thread_of_cores rfl _)
  rw [State.forkedAt, State.thread_modThread, hsame]

theorem State.forkedAt_sameMemory : s.sameMemory (s.forkedAt i k rs1 rs2) := by
  have htables : s.sameMemory (({ s with free := s.free + 4 } : State).disown ⟨i.who.core, k⟩) := fun l => State.byteAt_congr rfl rfl l
  exact State.sameMemory_trans htables (State.modThread_sameMemory _ _ _)

theorem fork_done (h : s.ready i false = true) (hk : (s.thread ⟨i.who.core, k⟩).state = .free)
    (hlow : ∀ j : ThrIx, j.toNat < k.toNat → (s.thread ⟨i.who.core, j⟩).state ≠ .free) (hne : k ≠ i.who.thr) :
    exec (.fork i rd rs1 rs2) s = .next ((s.forkedAt i k rs1 rs2).retired i.who 4 (fun h => h.setReg rd (k.zeroExtend 64))) := by
  have hq : ((s.forkedAt i k rs1 rs2).thread i.who).undisturbed := by
    rw [State.thread_forkedAt_other (sibling_ne hne)]
    exact State.undisturbed_of_ready h
  have hword : k.zeroExtend 64 = BitVec.ofNat 64 k.toNat := by
    apply BitVec.eq_of_toNat_eq
    simp
  rw [exec_fork, execFork, issue_of_ready h, hword]
  simp only [freeThread_lowest hk hlow]
  exact congrArg Host.Outcome.next (settle_done_modThread (t := s.forkedAt i k rs1 rs2) (f := fun h => h.setReg rd _) (Thread.undisturbed_setReg hq _ _) false)

theorem fork_full (h : s.ready i false = true) (hn : ∀ j, (s.thread ⟨i.who.core, j⟩).state ≠ .free) :
    exec (.fork i rd rs1 rs2) s = .next (s.retired i.who 4 (fun h => h.setReg rd (BitVec.allOnes 64))) := by
  rw [exec_fork, execFork, issue_of_ready h]
  simp only [freeThread_none hn]
  exact congrArg Host.Outcome.next (settle_done_modThread (Thread.undisturbed_setReg (State.undisturbed_of_ready h) _ _) false)

/-- A forked thread is a started one with its parent, its handler, its pitch and registers of its own. -/
theorem Thread.forked_eq (h p : Thread) (parent t : ThrIx) (pc arg : Word) (n : Nat) :
    h.forked p parent t pc arg n = { h.started pc with parent := parent, tvec := p.tvec, pitch := p.pitch, ga0 := freeGa n, ga1 := freeGa (n + 2),
                                                       g := (h.forked p parent t pc arg n).g } := by
  rw [Thread.forked, Thread.setReg_eq _ 2, Thread.setReg_eq _ 1]

/-- Every register of a forked thread but g1 and g2 is zero. -/
theorem Thread.reg_forked (h p : Thread) (parent t : ThrIx) (pc arg : Word) (n : Nat) :
    (h.forked p parent t pc arg n).reg 1 = arg ∧ (h.forked p parent t pc arg n).reg 2 = t.zeroExtend 64 ∧
      ∀ r, r ≠ 1 → r ≠ 2 → (h.forked p parent t pc arg n).reg r = 0 := by
  have hword : t.zeroExtend 64 = BitVec.ofNat 64 t.toNat := by
    apply BitVec.eq_of_toNat_eq
    simp
  rw [Thread.forked, hword]
  refine ⟨?_, ?_, fun r h1 h2 => ?_⟩
  · rw [Thread.reg_setReg, Thread.reg_setReg]; rfl
  · rw [Thread.reg_setReg]; rfl
  · rw [Thread.reg_setReg, Thread.reg_setReg, if_neg (fun e => h2 e.1), if_neg (fun e => h1 e.1)]
    exact ite_self _

/-- What a forked thread starts with (R39). -/
theorem Thread.forked_words (h p : Thread) (parent t : ThrIx) (pc arg : Word) (n : Nat) :
    let x := h.forked p parent t pc arg n
    x.state = .run ∧ x.pc = pc ∧ x.reg 1 = arg ∧ x.reg 2 = t.zeroExtend 64 ∧ (∀ r, r ≠ 1 → r ≠ 2 → x.reg r = 0) ∧
      (∀ q, q ≠ 0 → x.pred q = 0) ∧ (∀ r, x.vec r = 0) ∧ (∀ j, (x.tile j).state = .empty) ∧ x.parent = parent ∧ x.orphan = false ∧
      x.tvec = p.tvec ∧ x.pitch = p.pitch ∧ x.inTrap = false := by
  intro x
  obtain ⟨hg1, hg2, hzero⟩ := Thread.reg_forked h p parent t pc arg n
  have hfresh := h.fresh_started pc
  have hx : x = _ := Thread.forked_eq h p parent t pc arg n
  refine ⟨?_, ?_, hg1, hg2, hzero, ?_⟩ <;> rw [hx]
  · rfl
  · rfl
  · exact ⟨hfresh.pred, hfresh.vec, hfresh.tile, rfl, rfl, rfl, rfl, rfl⟩

/-- What the parent has after its fork: the number of its child, 4 bytes on. -/
theorem State.thread_fork_parent (hne : k ≠ i.who.thr) (v : Word) :
    let t := (s.forkedAt i k rs1 rs2).retired i.who 4 (fun h => h.setReg rd v)
    (t.thread i.who).pc = (s.thread i.who).pc + 4 ∧ ∀ r, (t.thread i.who).reg r = if r = rd ∧ r ≠ 0 then v else (s.thread i.who).reg r := by
  intro t
  have hthread : t.thread i.who = { ((s.thread i.who).setReg rd v).advance 4 with pmc := (t.thread i.who).pmc } := by
    have hretired := State.thread_retired (s.forkedAt i k rs1 rs2) (w := i.who) 4 (fun h => h.setReg rd v)
    rw [State.thread_forkedAt_other (sibling_ne hne)] at hretired
    exact hretired
  refine ⟨?_, fun r => ?_⟩
  · rw [hthread]
    exact congrArg (· + 4) (Thread.setReg_pc ..)
  · have hg : (t.thread i.who).g = ((s.thread i.who).setReg rd v).g := by
      rw [hthread]
      rfl
    rw [Thread.reg_congr hg, Thread.reg_setReg]
    exact if_congr (and_congr_right (fun e => by rw [e])) rfl rfl

end Fork

/-! ### Join (R43) -/

section Join

variable {s : State} {i : Iss} {rd rs1 : BitVec 5}

/-- A thread number names a child of a thread that join may wait for. -/
def State.childOf (s : State) (w : Who) (v : Word) : Prop :=
  v.toNat < 4 ∧ (v.truncate 2 : ThrIx) ≠ w.thr ∧ (s.thread ⟨w.core, v.truncate 2⟩).parent = w.thr ∧ (s.thread ⟨w.core, v.truncate 2⟩).orphan = false ∧
    (s.thread ⟨w.core, v.truncate 2⟩).state ≠ .free ∧ (s.thread ⟨w.core, v.truncate 2⟩).joined = false

theorem truncate_eq_extract {m : Nat} (v : BitVec m) (n : Nat) : v.truncate n = v.extractLsb' 0 n := by
  apply BitVec.eq_of_toNat_eq
  simp

theorem joinFault_iff (s : State) (w : Who) (v : Word) : joinFault s w v = false ↔ s.childOf w v := by
  have hsame (hv : v.toNat < 4) : v.toNat = w.thr.toNat ↔ (v.truncate 2 : ThrIx) = w.thr := by
    rw [← BitVec.toNat_inj, BitVec.truncate_eq_setWidth, BitVec.toNat_setWidth, Nat.mod_eq_of_lt hv]
  unfold joinFault State.childOf
  rw [← truncate_eq_extract]
  by_cases hv : v.toNat < 4
  · simp [hv, hsame hv, Nat.not_le.mpr hv, and_assoc]
  · simp [hv, Nat.not_lt.mp hv]

theorem join_done (h : s.ready i false = true) (hc : s.childOf i.who ((s.thread i.who).reg rs1))
    (hd : (s.thread ⟨i.who.core, ((s.thread i.who).reg rs1).truncate 2⟩).state = .done) :
    exec (.join i rd rs1) s = .next ((s.modThread ⟨i.who.core, ((s.thread i.who).reg rs1).truncate 2⟩ Thread.freed).retired i.who 4 (fun h =>
      h.setReg rd ((s.thread ⟨i.who.core, ((s.thread i.who).reg rs1).truncate 2⟩).exit.signExtend 64))) := by
  have hne := sibling_ne hc.2.1
  have hq : ((s.modThread ⟨i.who.core, ((s.thread i.who).reg rs1).truncate 2⟩ Thread.freed).thread i.who).undisturbed := by
    rw [State.thread_modThread_other _ _ hne]
    exact State.undisturbed_of_ready h
  rw [exec_join, execJoin, issue_of_ready h]
  simp only [(joinFault_iff s i.who _).mpr hc, ← truncate_eq_extract, hd, Bool.false_eq_true, if_false, if_true]
  exact congrArg Host.Outcome.next (settle_done_modThread (t := s.modThread _ Thread.freed) (f := fun h => h.setReg rd _) (Thread.undisturbed_setReg hq _ _) false)

theorem join_waits (h : s.ready i false = true) (hc : s.childOf i.who ((s.thread i.who).reg rs1))
    (hd : (s.thread ⟨i.who.core, ((s.thread i.who).reg rs1).truncate 2⟩).state ≠ .done) :
    exec (.join i rd rs1) s = .next (s.modThread i.who (fun h => { h with state := .wait, hold := .join (((s.thread i.who).reg rs1).truncate 2) rd })) := by
  rw [exec_join, execJoin, issue_of_ready h]
  simp only [(joinFault_iff s i.who _).mpr hc, ← truncate_eq_extract, hd, Bool.false_eq_true, if_false]
  rfl

theorem join_traps (h : s.ready i false = true) (hc : ¬s.childOf i.who ((s.thread i.who).reg rs1)) :
    exec (.join i rd rs1) s = .next (s.settle i.who false (.trap s { code := 0x0D, detail := ((s.thread i.who).reg rs1).truncate 16 })) := by
  have hfault : joinFault s i.who ((s.thread i.who).reg rs1) = true := by
    rw [← Bool.not_eq_false, joinFault_iff]
    exact hc
  rw [exec_join, execJoin, issue_of_ready h]
  simp only [hfault, ← truncate_eq_extract, if_true]

end Join

/-! ### End (R41, R43, R109) -/

section End

variable {s : State} {w : Who} {exit : BitVec 32} {cause : Nat}

/-- An entry that a filter drops reads as the default in a table in canonical form. -/
theorem Sparse.get_filter_dropped {α : Type} [DecidableEq α] {d : α} {m : Sparse α} {p : Nat × α → Bool} {b k : Nat} (h : Sparse.wfFrom d b m = true)
    (hp : p (k, Sparse.get d m k) = false) : Sparse.get d (m.filter p) k = d := by
  induction m generalizing b with
  | nil => rfl
  | cons e m ih =>
    obtain ⟨j, v⟩ := e
    have htail : Sparse.wfFrom d (j + 1) m = true := by
      simp only [Sparse.wfFrom, Bool.and_eq_true] at h
      exact h.2
    by_cases hj : j = k
    · subst hj
      rw [Sparse.get, if_pos rfl] at hp
      rw [List.filter_cons_of_neg (by simp [hp])]
      exact Sparse.get_below (Sparse.wfFrom_filter p htail) (Nat.lt_succ_self j)
    · rw [Sparse.get, if_neg hj] at hp
      rw [List.filter_cons]
      split
      · rw [Sparse.get, if_neg hj]
        exact ih htail hp
      · exact ih htail hp

theorem Core.slot_emptyShare {x : Core} (h : Sparse.wf {} x.slots = true) {t : ThrIx} {k : Nat} (hl : (slotShare x.mode t).1 ≤ k)
    (hr : k < (slotShare x.mode t).1 + (slotShare x.mode t).2) (hs : (x.slot k).sending = 0) : (x.emptyShare t).slot k = {} := by
  rw [Core.slot] at hs
  refine Sparse.get_filter_dropped h ?_
  simp [hl, hr, hs]

/-- What a parent that receives the exit value of a child has in its registers, and where it goes on. -/
theorem Thread.joins_fields (h : Thread) (rd : BitVec 5) (v : Word) :
    (h.joins rd v).pc = h.pc + 4 ∧ (h.joins rd v).haltReq = h.haltReq ∧ (h.joins rd v).stepping = h.stepping ∧
      ∀ r, (h.joins rd v).reg r = if r = rd ∧ r ≠ 0 then v else h.reg r := by
  refine ⟨?_, ?_, ?_, fun r => ?_⟩
  · exact congrArg (· + 4) (Thread.setReg_pc ..)
  · exact Thread.setReg_haltReq ..
  · exact Thread.setReg_stepping ..
  · refine (Thread.reg_congr (h := h.setReg rd v) rfl r).trans ((Thread.reg_setReg ..).trans ?_)
    exact if_congr (and_congr_right (fun e => by rw [e])) rfl rfl

/-- A thread that is an orphan is FREE when it has ended. -/
theorem State.endThreadOp_orphan (hb : (s.thread w).bound = []) (ht : (s.thread w).taken = []) (ho : (s.thread w).orphan = true) :
    ((s.endThreadOp w exit cause).thread w).state = .free := by
  obtain ⟨t, hends, heq⟩ := State.endThreadOp_ends hb ht exit cause
  have hstate : (t.thread w).state = .free := by rw [hends.self]; exact if_pos ho
  rw [heq, State.wakeJoin_stays (.inl (by rw [hstate]; decide)), hstate]

/-- One whose parent does not wait for it is DONE. -/
theorem State.endThreadOp_done (hb : (s.thread w).bound = []) (ht : (s.thread w).taken = []) (ho : (s.thread w).orphan = false)
    (hp : (s.thread w).parent ≠ w.thr) (hn : ∀ rd, (s.thread ⟨w.core, (s.thread w).parent⟩).hold ≠ .join w.thr rd) :
    ((s.endThreadOp w exit cause).thread w).state = .done := by
  obtain ⟨t, hends, heq⟩ := State.endThreadOp_ends hb ht exit cause
  have hself := hends.self
  have hstate : (t.thread w).state = .done := by rw [hself]; exact if_neg (by rw [ho]; exact Bool.false_ne_true)
  have hparent : (t.thread w).parent = (s.thread w).parent := by rw [hself]; rfl
  have hother := hends.other ⟨w.core, (s.thread w).parent⟩ (sibling_ne hp).symm
  rw [heq, State.wakeJoin_stays (.inr (fun rd => by rw [hparent, hother]; exact hn rd)), hstate]

/-- A parent that waits for it receives its exit value and frees it. -/
theorem State.endThreadOp_joined (hb : (s.thread w).bound = []) (ht : (s.thread w).taken = []) (ho : (s.thread w).orphan = false)
    (hp : (s.thread w).parent ≠ w.thr) {rd : BitVec 5} (hj : (s.thread ⟨w.core, (s.thread w).parent⟩).hold = .join w.thr rd)
    (hq : (s.thread ⟨w.core, (s.thread w).parent⟩).undisturbed) :
    let t := s.endThreadOp w exit cause
    let p : Who := ⟨w.core, (s.thread w).parent⟩
    (t.thread w).state = .free ∧ (t.thread p).state = .run ∧ (t.thread p).hold = .none ∧ (t.thread p).pc = (s.thread p).pc + 4 ∧
      ∀ r, (t.thread p).reg r = if r = rd ∧ r ≠ 0 then exit.signExtend 64 else (s.thread p).reg r := by
  obtain ⟨t, hends, heq⟩ := State.endThreadOp_ends hb ht exit cause
  intro t' p
  have hself := hends.self
  have hpw : p ≠ w := (sibling_ne hp).symm
  have hother := hends.other p hpw
  have hstate : (t.thread w).state = .done := by rw [hself]; exact if_neg (by rw [ho]; exact Bool.false_ne_true)
  have hparent : (t.thread w).parent = (s.thread w).parent := by rw [hself]; rfl
  have hexit : (t.thread w).exitWord = exit.signExtend 64 := by rw [hself]; rfl
  have hhold : (t.thread ⟨w.core, (t.thread w).parent⟩).hold = .join w.thr rd := by rw [hparent, hother]; exact hj
  have hwakes := State.wakeJoin_wakes hstate hhold
  rw [hparent] at hwakes
  have hparentThread := State.thread_joined_parent (s := t) hpw rd
  obtain ⟨hpc, hhalt, hstep, hreg⟩ := (t.thread p).joins_fields rd (t.thread w).exitWord
  have hundisturbed : ((t.joined w p rd).thread p).haltReq = Option.none ∧ ((t.joined w p rd).thread p).stepping = false := by
    rw [hparentThread]
    refine ⟨hhalt.trans ?_, hstep.trans ?_⟩
    · rw [hother]; exact hq.1
    · rw [hother]; exact hq.2
  have hend : t' = t.joined w p rd := heq.trans (hwakes.trans (State.stepEnd_of_none hundisturbed.1 hundisturbed.2))
  have hkept : (t.thread p).pc = (s.thread p).pc := by rw [hother]
  have hregs : (t.thread p).g = (s.thread p).g := by rw [hother]
  rw [hend, State.thread_joined_self hpw]
  refine ⟨rfl, ?_, ?_, ?_, fun r => ?_⟩
  · rw [hparentThread]; rfl
  · rw [hparentThread]; rfl
  · rw [hparentThread]; exact hpc.trans (congrArg (· + 4) hkept)
  · have hg : ((t.joined w p rd).thread p).g = ((t.thread p).joins rd (t.thread w).exitWord).g := by rw [hparentThread]
    rw [Thread.reg_congr hg, hreg, hexit, Thread.reg_congr hregs]

end End

section EndThread

variable {s : State} {i : Iss} {rs1 : BitVec 5}

theorem endThread_waits (h : s.ready i false = true) (hq : s.mmQueued i.who = true) : exec (.endThread i rs1) s = .next s := by
  rw [exec_endThread, execEndThread, issue_of_ready h, hq, if_pos rfl]
  rfl

theorem endThread_ends (h : s.ready i false = true) (hq : s.mmQueued i.who = false) :
    exec (.endThread i rs1) s = .next ((s.countRetired i.who).endThreadOp i.who (((s.thread i.who).reg rs1).truncate 32) (faultCause 6 0)) := by
  rw [exec_endThread, execEndThread, issue_of_ready h, hq, if_neg Bool.false_ne_true, truncate_eq_extract]
  rfl

/-- A counted instruction leaves what its thread's end looks at. -/
theorem State.endWords_countRetired (s : State) (w : Who) :
    ((s.countRetired w).thread w).bound = (s.thread w).bound ∧ ((s.countRetired w).thread w).taken = (s.thread w).taken ∧
      ((s.countRetired w).thread w).orphan = (s.thread w).orphan ∧ ((s.countRetired w).thread w).parent = (s.thread w).parent := by
  rw [State.thread_countRetired]
  exact ⟨rfl, rfl, rfl, rfl⟩

/-- The slots of a share that nothing streams are EMPTY when its thread has ended. -/
theorem State.EndLeft.slot {w : Who} {exit : BitVec 32} {t : State} (h : (s.countRetired w).EndLeft t w exit)
    (hwf : Sparse.wf {} (s.core w.core).slots = true) {k : Nat} (hl : (slotShare (s.core w.core).mode w.thr).1 ≤ k)
    (hr : k < (slotShare (s.core w.core).mode w.thr).1 + (slotShare (s.core w.core).mode w.thr).2) (hk : ((s.core w.core).slot k).sending = 0) :
    (t.core w.core).slot k = {} := by
  have hcore := s.core_countRetired w
  rw [Core.slot, h.slots]
  refine Core.slot_emptyShare (x := (s.countRetired w).core w.core) ?_ ?_ ?_ ?_ <;> rw [hcore]
  · exact hwf
  · exact hl
  · exact hr
  · exact hk

end EndThread

/-- Settles O8: CORE_START, fork, join and end, each by its own lemmas. -/
theorem threadLife : Obligations.ThreadLife := by
  refine ⟨fun s v c addr hm hp => ?_, fun s i rd rs1 rs2 h => ?_, fun s i rs1 h hwf => ?_⟩
  · intro outside
    refine ⟨fun ho hf => ?_, fun hn => coreStart_dropped hm hp hn⟩
    intro t
    have hthread : t.thread ⟨c, 0⟩ = { (s.thread ⟨c, 0⟩).started addr with orphan := true } := by
      simp only [t]
      rw [State.thread_modThread, State.thread_disown]
    have hfresh := (s.thread ⟨c, 0⟩).fresh_started addr
    refine ⟨coreStart_starts hm hp ho hf, ?_, fun w hw => ?_, ?_⟩
    · rw [hthread]
      exact ⟨rfl, rfl, rfl, rfl, hfresh.reg, hfresh.pred, hfresh.vec, rfl, rfl, hfresh.tile, rfl, rfl, rfl, rfl, rfl, rfl, rfl⟩
    · exact (State.thread_modThread_other _ _ hw).trans (s.thread_disown _ w)
    · exact State.sameMemory_trans (s.disown_sameMemory _) (State.modThread_sameMemory _ _ _)
  · obtain ⟨hrun, _⟩ := State.ready_cases h
    intro w h' sib
    refine ⟨fun k hk hlow => ?_, fun hn => fork_full h hn, ?_⟩
    · have hne : k ≠ i.who.thr := by
        rintro rfl
        exact absurd (hrun.symm.trans hk) (by decide)
      intro t
      have hsib := (sibling_ne hne).symm
      have hchild := (State.thread_retired_other (s.forkedAt i k rs1 rs2) 4 (fun h => h.setReg rd (k.zeroExtend 64)) hsib).trans State.thread_forkedAt
      obtain ⟨hpc, hreg⟩ := State.thread_fork_parent (s := s) (rs1 := rs1) (rs2 := rs2) (rd := rd) hne (k.zeroExtend 64)
      refine ⟨fork_done h hk hlow hne, ?_, hpc, hreg, fun v hv hvk => ?_, ?_⟩
      · intro y
        have hy : y = _ := hchild
        rw [hy]
        exact Thread.forked_words ..
      · exact (State.thread_retired_other _ 4 _ hv).trans (State.thread_forkedAt_other hvk)
      · exact State.sameMemory_trans State.forkedAt_sameMemory (State.onlyThread_retired _ _ _ _).sameMemory
    · intro v k c child
      exact ⟨fun hc hd => join_done h hc hd, fun hc hd => join_waits h hc hd, fun hc => join_traps h hc⟩
  · intro w h' x p
    have hother {q : Who} (hq : q ≠ i.who) : (s.countRetired i.who).thread q = s.thread q := s.thread_countRetired_other hq
    obtain ⟨hbound, htaken, horphan, hparent⟩ := s.endWords_countRetired i.who
    refine ⟨endThread_waits h, endThread_ends h, fun hq hb ht => ?_⟩
    have hb' := hbound.trans hb
    have ht' := htaken.trans ht
    have hleft := State.endThreadOp_left (w := i.who) hb' ht' x (faultCause 6 0)
    refine ⟨hleft.exit, hleft.tiles, hleft.resv, hleft.loads, hleft.tldPend, fun k hl hr hk => hleft.slot hwf hl hr hk, fun m hm => ?_,
      State.sameMemory_trans (s.onlyThread_countRetired i.who).sameMemory hleft.mem, fun ho => ?_, fun ho hp hn => ?_, fun rd ho hp hj hhalt hstep => ?_⟩
    · rw [hleft.mq] at hm
      exact of_decide_eq_true (List.mem_filter.mp hm).2
    · exact State.endThreadOp_orphan hb' ht' (horphan.trans ho)
    · refine State.endThreadOp_done hb' ht' (horphan.trans ho) (by rw [hparent]; exact hp) (fun rd => ?_)
      rw [hparent, hother (sibling_ne hp).symm]
      exact hn rd
    · have hp' : (s.countRetired i.who).thread ⟨i.who.core, h'.parent⟩ = s.thread ⟨i.who.core, h'.parent⟩ := hother (sibling_ne hp).symm
      have hjoined := State.endThreadOp_joined (s := s.countRetired i.who) (w := i.who) (exit := x) (cause := faultCause 6 0) (rd := rd) hb' ht'
        (horphan.trans ho) (by rw [hparent]; exact hp) (by rw [hparent, hp']; exact hj) (by rw [hparent, hp']; exact ⟨hhalt, hstep⟩)
      dsimp only at hjoined
      rw [hparent, hp'] at hjoined
      exact hjoined

end Sys2Proof.Machine
end

section
/-! Lanes of the vector unit: reading and writing them, the merge of active lanes, and their flags (R165, R166, R175, R176). -/

namespace Sys2Proof.Machine

/-! ### Lanes -/

theorem lane_toNat (v : Vec) (w l : Nat) : (lane v w l).toNat = laneOf v w l := by
  rw [lane, BitVec.extractLsb'_toNat, Nat.shiftRight_eq_div_pow, laneOf]

theorem lane_toInt (v : Vec) {w : Nat} (hw : 0 < w) (l : Nat) : (lane v w l).toInt = signedOf w (laneOf v w l) := by
  rw [← lane_toNat, signedOf_toNat _ hw, BitVec.extractLsb'_eq_self]

theorem lane_vecOf {w : Nat} (hw : 0 < w) (xs : List Nat) {l : Nat} (hl : w * l + w ≤ 1024) :
    lane (vecOf w xs) w l = BitVec.ofNat w (xs.getD l 0) := by
  apply BitVec.eq_of_getLsbD_eq
  intro j hj
  have hdiv : (w * l + j) / w = l := by
    rw [Nat.mul_add_div hw, Nat.div_eq_of_lt hj, Nat.add_zero]
  have hmod : (w * l + j) % w = j := by
    rw [Nat.mul_add_mod, Nat.mod_eq_of_lt hj]
  rw [lane, BitVec.getLsbD_extractLsb', getLsbD_vecOf hw _ (by omega), hdiv, hmod, BitVec.getLsbD_ofNat, decide_eq_true hj]

/-- The lanes of a register built from a function of the lane. -/
theorem lane_vecOf_range {w n : Nat} (hw : 0 < w) (hn : w * n ≤ 1024) (xs : Nat → Nat) {l : Nat} (hl : l < n) :
    lane (vecOf w ((List.range n).map xs)) w l = BitVec.ofNat w (xs l) := by
  have hbound : w * l + w ≤ 1024 := by
    calc w * l + w = w * (l + 1) := by rw [Nat.mul_succ]
      _ ≤ w * n := Nat.mul_le_mul_left w hl
      _ ≤ 1024 := hn
  rw [lane_vecOf hw _ hbound, List.getD_eq_getElem?_getD, List.getElem?_map, List.getElem?_range hl]
  rfl

theorem zipIdx_map_range {α : Type} (g : Nat → α) (n : Nat) : ((List.range n).map g).zipIdx = (List.range n).map (fun l => (g l, l)) := by
  apply List.ext_getElem?
  intro k
  rw [List.getElem?_zipIdx, List.getElem?_map, List.getElem?_map]
  by_cases hk : k < n
  · simp [List.getElem?_range hk]
  · simp [List.getElem?_eq_none (show (List.range n).length ≤ k by rw [List.length_range]; omega)]

/-! ### The merge under predication (R166) -/

/-- A lane of a destination: the new value where the lane is active, else zero or what stood there. -/
def Thread.merged (h : Thread) (f : VecF) {w : Nat} (l : Nat) (new old : BitVec w) : BitVec w :=
  if (h.pred f.pred).getLsbD l then new else if f.zm then 0 else old

theorem lane_putLanes {w n : Nat} (hw : 0 < w) (hn : w * n ≤ 1024) (h : Thread) (f : VecF) (xs : Nat → Nat) {l : Nat} (hl : l < n) :
    lane ((h.putLanes f w ((List.range n).map xs)).vec f.vd) w l = h.merged f l (BitVec.ofNat w (xs l)) (lane (h.vec f.vd) w l) := by
  rw [Thread.putLanes, zipIdx_map_range, List.map_map, Thread.vec_setVec, if_pos rfl, lane_vecOf_range hw hn _ hl, Function.comp, Thread.merged, Thread.active]
  split
  · rfl
  · split
    · rfl
    · rw [← lane_toNat, BitVec.ofNat_toNat, BitVec.setWidth_eq]

/-! ### Flags -/

/-- The lanes below a count that are active. -/
def Thread.lanesOn (h : Thread) (f : VecF) (n : Nat) : List Nat := (List.range n).filter (fun l => (h.pred f.pred).getLsbD l)

theorem foldl_or (l : List Nat) (flags : Nat → BitVec 9) (a b : BitVec 9) :
    l.foldl (fun x l => x ||| flags l) (a ||| b) = a ||| l.foldl (fun x l => x ||| flags l) b := by
  induction l generalizing b with
  | nil => rfl
  | cons k l ih => rw [List.foldl_cons, List.foldl_cons, BitVec.or_assoc, ih]

/-- The flags of the active lanes, added to what stood in THR_FPSTAT. -/
theorem or_laneFlags (h : Thread) (f : VecF) (flags : Nat → BitVec 9) (n : Nat) (a : BitVec 9) :
    a ||| h.laneFlags f ((List.range n).map flags) = (h.lanesOn f n).foldl (fun x l => x ||| flags l) a := by
  have hfold : h.laneFlags f ((List.range n).map flags) = (h.lanesOn f n).foldl (fun x l => x ||| flags l) 0 := by
    rw [Thread.laneFlags, zipIdx_map_range, List.foldl_map, Thread.lanesOn, List.foldl_filter]
    rfl
  rw [hfold, ← foldl_or]
  exact congrArg (fun x => (h.lanesOn f n).foldl (fun x l => x ||| flags l) x) (BitVec.or_zero)

/-- THR_FXSTAT after one more fixed-point result. -/
def Fit.mark (a : BitVec 2) (x : Fit) : BitVec 2 :=
  match x with
  | .fits => a
  | .clamped => a ||| 2
  | .wrapped => a ||| 1

theorem Thread.fxFlags_eq (h : Thread) (fs : List Fit) : h.fxFlags fs = { h with fxstat := fs.foldl Fit.mark h.fxstat } := by
  induction fs generalizing h with
  | nil => rfl
  | cons x fs ih =>
    have hstep : h.fxFlags (x :: fs) = (h.fxFlag x).fxFlags fs := rfl
    rw [hstep, ih]
    cases x <;> rfl

/-- The marks of the active lanes. -/
theorem activeFits_eq (h : Thread) (f : VecF) (r : Nat → Int × Fit) (n : Nat) :
    ((((List.range n).map r).zipIdx.filter (fun p => h.active f p.2)).map (fun p => p.1.2)) = (h.lanesOn f n).map (fun l => (r l).2) := by
  rw [zipIdx_map_range, List.filter_map, List.map_map]
  rfl

end Sys2Proof.Machine
end

section
/-! Vector arithmetic (R134 to R136, R165 to R168, R172, R175, R176): each operation by its lanes and flags. -/

namespace Sys2Proof.Machine

/-! ### Completion -/

/-- What a vector operation may change of its thread but the program counter and the counters. -/
def Thread.vectorsOnly (h g : Thread) : Prop := g = { h with v := g.v, fpstat := g.fpstat, fxstat := g.fxstat }

theorem Thread.vectorsOnly_putLanes (h : Thread) (f : VecF) (w : Nat) (xs : List Nat) : h.vectorsOnly (h.putLanes f w xs) := rfl

theorem Thread.vectorsOnly_fpFlag {h g : Thread} (hg : h.vectorsOnly g) (fl : BitVec 9) : h.vectorsOnly (g.fpFlag fl) := by
  rw [Thread.vectorsOnly] at hg
  rw [hg]
  rfl

theorem Thread.vectorsOnly_fxFlags {h g : Thread} (hg : h.vectorsOnly g) (fs : List Fit) : h.vectorsOnly (g.fxFlags fs) := by
  rw [Thread.vectorsOnly] at hg
  rw [Thread.fxFlags_eq, hg]
  rfl

section

variable {s : State} {i : Iss} {f : VecF}

theorem vecOp_refused (h : s.ready i true = true) (opc : Nat) (fp : Bool) (body : Thread → Thread) :
    vecOp i opc fp false body s = .next (s.settle i.who true (.trap s (illegal opc))) := by
  rw [vecOp, issue_of_ready h, if_neg Bool.false_ne_true]

theorem vecOp_done (h : s.ready i true = true) (opc : Nat) (fp : Bool) {body : Thread → Thread} (hb : (s.thread i.who).vectorsOnly (body (s.thread i.who))) :
    vecOp i opc fp true body s = .next (s.retired i.who 8 body) := by
  have hq : (body (s.thread i.who)).undisturbed := by
    rw [hb]
    exact State.undisturbed_of_ready h
  rw [vecOp, issue_of_ready h, if_pos rfl]
  exact congrArg Host.Outcome.next (settle_done_modThread hq true)

/-- What a completed vector operation leaves. -/
theorem State.vectorDone_retired {w : Who} {body : Thread → Thread} (hb : (s.thread w).vectorsOnly (body (s.thread w))) {vs : List (BitVec 5)}
    (hv : ∀ r, r ∉ vs → (body (s.thread w)).vec r = (s.thread w).vec r) :
    s.vectorDone (s.retired w 8 body) w vs [] ∧ ((s.retired w 8 body).thread w).v = (body (s.thread w)).v ∧
      ((s.retired w 8 body).thread w).fpstat = (body (s.thread w)).fpstat ∧ ((s.retired w 8 body).thread w).fxstat = (body (s.thread w)).fxstat := by
  have hthread := s.thread_retired (w := w) 8 body
  have hvec : ((s.retired w 8 body).thread w).v = (body (s.thread w)).v := by rw [hthread]; rfl
  refine ⟨⟨s.onlyThread_retired w 8 body, ?_, fun r hr => ?_, fun r _ => ?_⟩, hvec, ?_, ?_⟩
  · rw [hthread]
    exact congrArg (· + 8) (by rw [hb])
  · rw [← hv r hr, Thread.vec, hvec, Thread.vec]
  · have hg : ((s.retired w 8 body).thread w).g = (s.thread w).g := by
      rw [hthread]
      exact (congrArg Thread.g hb).trans rfl
    exact Thread.reg_congr hg r
  · rw [hthread]; rfl
  · rw [hthread]; rfl

/-! ### Operations on lanes -/

theorem ofNat_emod_toNat (w : Nat) (x : Int) : BitVec.ofNat w (x % 2 ^ w).toNat = BitVec.ofInt w x := by
  apply BitVec.eq_of_toNat_eq
  have hcast : ((2 ^ w : Nat) : Int) = 2 ^ w := by push_cast; rfl
  have hlt : (x % 2 ^ w).toNat < 2 ^ w := by
    have hpos : (0 : Int) < 2 ^ w := by positivity
    have := Int.emod_lt_of_pos x hpos
    omega
  rw [BitVec.toNat_ofNat, BitVec.toNat_ofInt, hcast, Nat.mod_eq_of_lt hlt]

/-- Clearing the top bit of a lane. -/
theorem ofNat_mod_half {w : Nat} (x : BitVec w) : BitVec.ofNat w (x.toNat % 2 ^ (w - 1)) = x &&& ~~~(BitVec.ofNat w (2 ^ (w - 1))) := by
  apply BitVec.eq_of_getLsbD_eq
  intro j hj
  rw [BitVec.getLsbD_ofNat, Nat.testBit_mod_two_pow, BitVec.getLsbD_and, BitVec.getLsbD_not, BitVec.getLsbD_ofNat, Nat.testBit_two_pow,
    ← BitVec.testBit_toNat]
  by_cases he : w - 1 = j
  · simp [he]
  · have hlt : j < w - 1 := by omega
    simp [hj, hlt, he]

/-- Inverting the top bit of a lane. -/
theorem ofNat_add_half {w : Nat} (x : BitVec w) :
    BitVec.ofNat w ((x.toNat + 2 ^ (w - 1)) % 2 ^ w) = x ^^^ BitVec.ofNat w (2 ^ (w - 1)) := by
  apply BitVec.eq_of_getLsbD_eq
  intro j hj
  rw [BitVec.getLsbD_ofNat, Nat.testBit_mod_two_pow, BitVec.getLsbD_xor, BitVec.getLsbD_ofNat, Nat.testBit_two_pow, ← BitVec.testBit_toNat, Nat.add_comm]
  by_cases he : w - 1 = j
  · subst he
    simp [hj, Nat.testBit_two_pow_add_eq]
  · have hlt : j < w - 1 := by omega
    simp [hj, he, Nat.testBit_two_pow_add_gt hlt]

/-- An instruction completes with given lanes of its destination and given flags. -/
def State.givesLanes (s : State) (i : Iss) (f : VecF) (w n : Nat) (o : Host.Outcome State Fault Refusal) (val : Nat → BitVec w) (flags : Nat →
  BitVec 9) : Prop :=
  ∃ t, o = .next t ∧ s.vectorDone t i.who [f.vd] [] ∧
    (∀ l, l < n → lane ((t.thread i.who).vec f.vd) w l = (s.thread i.who).merged f l (val l) (lane ((s.thread i.who).vec f.vd) w l)) ∧
    (t.thread i.who).fpstat = ((s.thread i.who).lanesOn f n).foldl (fun a l => a ||| flags l) (s.thread i.who).fpstat

theorem vec_putLanes_other (h : Thread) (f : VecF) (w : Nat) (xs : List Nat) (r : BitVec 5) (hr : r ∉ [f.vd]) : (h.putLanes f w xs).vec r = h.vec r := by
  rw [Thread.putLanes, Thread.vec_setVec, if_neg (fun e => hr (List.mem_singleton.mpr e))]

theorem foldl_none (l : List Nat) (a : BitVec 9) : l.foldl (fun x _ => x ||| 0) a = a := by
  induction l with
  | nil => rfl
  | cons k l ih =>
    have hzero : a ||| (0 : BitVec 9) = a := BitVec.or_zero
    rw [List.foldl_cons, hzero, ih]

/-- An operation that puts lanes and flags. -/
theorem givesLanes_flags {w n : Nat} (h : s.ready i true = true) (hw : 0 < w) (hn : w * n ≤ 1024) (fp : Bool) (xs : Thread → Nat → Nat)
    (flags : Thread → Nat → BitVec 9) :
    s.givesLanes i f w n (vecOp i 0x38 fp true (fun h => (h.putLanes f w ((List.range n).map (xs h))).fpFlag (h.laneFlags f ((List.range n).map (flags h)))) s)
      (fun l => BitVec.ofNat w (xs (s.thread i.who) l)) (flags (s.thread i.who)) := by
  have hb := Thread.vectorsOnly_fpFlag (Thread.vectorsOnly_putLanes (s.thread i.who) f w ((List.range n).map (xs (s.thread i.who))))
    ((s.thread i.who).laneFlags f ((List.range n).map (flags (s.thread i.who))))
  obtain ⟨hdone, hvec, hfp, _⟩ := State.vectorDone_retired (s := s) (w := i.who) (vs := [f.vd])
    (body := fun h => (h.putLanes f w ((List.range n).map (xs h))).fpFlag (h.laneFlags f ((List.range n).map (flags h)))) hb
    (fun r hr => vec_putLanes_other _ f w _ r hr)
  refine ⟨_, vecOp_done h 0x38 fp hb, hdone, fun l hl => ?_, hfp.trans (or_laneFlags ..)⟩
  rw [Thread.vec, hvec]
  exact lane_putLanes hw hn _ f _ hl

/-- An operation that puts lanes and raises no flag. -/
theorem givesLanes_plain {w n : Nat} (h : s.ready i true = true) (hw : 0 < w) (hn : w * n ≤ 1024) (fp : Bool) (xs : Thread → Nat → Nat) :
    s.givesLanes i f w n (vecOp i 0x38 fp true (fun h => h.putLanes f w ((List.range n).map (xs h))) s)
      (fun l => BitVec.ofNat w (xs (s.thread i.who) l)) (fun _ => 0) := by
  have hb := Thread.vectorsOnly_putLanes (s.thread i.who) f w ((List.range n).map (xs (s.thread i.who)))
  obtain ⟨hdone, hvec, hfp, _⟩ := State.vectorDone_retired (s := s) (w := i.who) (vs := [f.vd]) (body := fun h => h.putLanes f w ((List.range n).map (xs h))) hb
    (fun r hr => vec_putLanes_other _ f w _ r hr)
  refine ⟨_, vecOp_done h 0x38 fp hb, hdone, fun l hl => ?_, hfp.trans (foldl_none _ _).symm⟩
  rw [Thread.vec, hvec]
  exact lane_putLanes hw hn _ f _ hl

/-- The number and the flags that a lane of a source stands for. -/
def Thread.laneSource (h : Thread) (f : VecF) (w : Nat) (r : BitVec 5) (l : Nat) : Num × BitVec 9 := laneNum f.fmt (lane (h.vec r) w l).toNat

/-- The rounded result of a lane operation. -/
def Thread.laneResult (h : Thread) (f : VecF) (w : Nat) (op : Num → Num → Num → Num) (l : Nat) : Nat × BitVec 9 :=
  laneRound f.fmt (op (h.laneSource f w f.vs1 l).1 (h.laneSource f w f.vs2 l).1 (h.laneSource f w f.vs3 l).1)

variable {w n : Nat}

theorem vecFloat_gives (h : s.ready i true = true) (himm : f.imm = 0) (hf : f.fmt = 0 ∨ f.fmt = 1) (hbits : laneBits f.fmt = w)
    (hcount : laneCount f.fmt = n) (op : Num → Num → Num → Num) (two three : Bool) :
    s.givesLanes i f w n (vecFloat i f op two three s) (fun l => BitVec.ofNat w ((s.thread i.who).laneResult f w op l).1)
      (fun l => ((s.thread i.who).laneResult f w op l).2 ||| ((s.thread i.who).laneSource f w f.vs1 l).2 |||
        (if two then ((s.thread i.who).laneSource f w f.vs2 l).2 else 0) ||| (if three then ((s.thread i.who).laneSource f w f.vs3 l).2 else 0)) := by
  have hlegal : (fmtFloat f && decide (f.imm = 0)) = true := by rw [fmtFloat, decide_eq_true hf, decide_eq_true himm]; rfl
  subst hbits hcount
  have hw : 0 < laneBits f.fmt := by rcases hf with e | e <;> rw [e] <;> decide
  have hn : laneBits f.fmt * laneCount f.fmt ≤ 1024 := Nat.mul_div_le ..
  have hgives := givesLanes_flags (f := f) h hw hn true (fun h l => (h.laneResult f (laneBits f.fmt) op l).1)
    (fun h l => (h.laneResult f (laneBits f.fmt) op l).2 ||| (h.laneSource f (laneBits f.fmt) f.vs1 l).2 |||
        (if two then (h.laneSource f (laneBits f.fmt) f.vs2 l).2 else 0) ||| (if three then (h.laneSource f (laneBits f.fmt) f.vs3 l).2 else 0))
  rw [vecFloat, hlegal]
  simp only [List.map_map, Function.comp_def, ← lane_toNat]
  exact hgives

/-- An integer operation on lanes. -/
theorem vecOrder_narrow (h : s.ready i true = true) (himm : f.imm = 0) (hf : f.fmt = 2 ∨ f.fmt = 3) (hbits : laneBits f.fmt = w)
    (hcount : laneCount f.fmt = n) (op : Num → Num → Num) (q : Int → Int → Int) :
    s.givesLanes i f w n (vecOrder i f op q s)
      (fun l => BitVec.ofInt w (q (lane ((s.thread i.who).vec f.vs1) w l).toInt (lane ((s.thread i.who).vec f.vs2) w l).toInt)) (fun _ => 0) := by
  have hnarrow : fmtNarrow f = true := decide_eq_true hf
  subst hbits hcount
  have hw : 0 < laneBits f.fmt := by rcases hf with e | e <;> rw [e] <;> decide
  have hn : laneBits f.fmt * laneCount f.fmt ≤ 1024 := Nat.mul_div_le ..
  have hgives := givesLanes_plain (f := f) h hw hn false (fun h l =>
    (q (lane (h.vec f.vs1) (laneBits f.fmt) l).toInt (lane (h.vec f.vs2) (laneBits f.fmt) l).toInt % 2 ^ laneBits f.fmt).toNat)
  rw [vecOrder, if_pos hnarrow, decide_eq_true himm]
  simp only [← lane_toInt _ hw]
  simp only [ofNat_emod_toNat] at hgives
  exact hgives

/-- An operation on the bits of lanes. -/
theorem vecBits_gives (h : s.ready i true = true) (himm : f.imm = 0) (hf : f.fmt = 0 ∨ f.fmt = 1) (hbits : laneBits f.fmt = w)
    (hcount : laneCount f.fmt = n) (op : Nat → Nat → Nat) :
    s.givesLanes i f w n (vecBits i f op s) (fun l => BitVec.ofNat w (op w (lane ((s.thread i.who).vec f.vs1) w l).toNat)) (fun _ => 0) := by
  have hlegal : (fmtFloat f && decide (f.imm = 0)) = true := by rw [fmtFloat, decide_eq_true hf, decide_eq_true himm]; rfl
  subst hbits hcount
  have hw : 0 < laneBits f.fmt := by rcases hf with e | e <;> rw [e] <;> decide
  have hn : laneBits f.fmt * laneCount f.fmt ≤ 1024 := Nat.mul_div_le ..
  have hgives := givesLanes_plain (f := f) h hw hn true (fun h l => op (laneBits f.fmt) (lane (h.vec f.vs1) (laneBits f.fmt) l).toNat)
  rw [vecBits, hlegal]
  simp only [← lane_toNat]
  exact hgives

/-! ### Fixed point (R175, R176) -/

/-- A fixed-point instruction completes with given lanes of its destination and given clamps and wraps. -/
def State.givesFits (s : State) (i : Iss) (f : VecF) (w n : Nat) (o : Host.Outcome State Fault Refusal) (r : Nat → Int × Fit) : Prop :=
  ∃ t, o = .next t ∧ s.vectorDone t i.who [f.vd] [] ∧
    (t.thread i.who).fxstat = ((s.thread i.who).lanesOn f n).foldl (fun a l => Fit.mark a (r l).2) (s.thread i.who).fxstat ∧
    ∀ l, l < n → lane ((t.thread i.who).vec f.vd) w l =
      (s.thread i.who).merged f l (BitVec.ofInt w (r l).1) (lane ((s.thread i.who).vec f.vd) w l)

/-- The clamps and wraps of a list of results whose lanes are active. -/
def Thread.activeFits (h : Thread) (f : VecF) (rs : List (Int × Fit)) : List Fit := (rs.zipIdx.filter (fun p => h.active f p.2)).map (fun p => p.1.2)

theorem fxFlags_activeFits (h g : Thread) (f : VecF) (r : Nat → Int × Fit) (n : Nat) :
    g.fxFlags (h.activeFits f ((List.range n).map r)) = { g with fxstat := (h.lanesOn f n).foldl (fun a l => Fit.mark a (r l).2) g.fxstat } := by
  rw [Thread.activeFits, activeFits_eq, Thread.fxFlags_eq, List.foldl_map]

/-- An operation that puts the low bits of fixed-point results. -/
theorem givesFits_of (h : s.ready i true = true) (hw : 0 < w) (hn : w * n ≤ 1024) (r : Thread → Nat → Int × Fit) :
    s.givesFits i f w n (vecOp i 0x38 false true (fun h =>
      (h.putLanes f w ((List.range n).map (fun l => ((r h l).1 % 2 ^ w).toNat))).fxFlags (h.activeFits f ((List.range n).map (r h)))) s) (r (s.thread i.who)) := by
  have hb := Thread.vectorsOnly_fxFlags (Thread.vectorsOnly_putLanes (s.thread i.who) f w
    ((List.range n).map (fun l => ((r (s.thread i.who) l).1 % 2 ^ w).toNat))) ((s.thread i.who).activeFits f ((List.range n).map (r (s.thread i.who))))
  obtain ⟨hdone, hvec, _, hfx⟩ := State.vectorDone_retired (s := s) (w := i.who) (vs := [f.vd]) (body := fun h =>
      (h.putLanes f w ((List.range n).map (fun l => ((r h l).1 % 2 ^ w).toNat))).fxFlags (h.activeFits f ((List.range n).map (r h)))) hb
    (fun q hq => by
      rw [fxFlags_activeFits]
      exact vec_putLanes_other _ f w _ q hq)
  refine ⟨_, vecOp_done h 0x38 false hb, hdone, ?_, fun l hl => ?_⟩
  · rw [hfx, fxFlags_activeFits]
    rfl
  · rw [Thread.vec, hvec, fxFlags_activeFits, ← ofNat_emod_toNat]
    exact lane_putLanes hw hn _ f _ hl

theorem vecQ_gives (h : s.ready i true = true) (himm : f.imm = 0) (hf : f.fmt = 2 ∨ f.fmt = 3) (hbits : laneBits f.fmt = w) (hcount : laneCount f.fmt = n)
    (op : Nat → Int → Int → Int) :
    s.givesFits i f w n (vecQ i f op s) (fun l =>
      fitSigned f.sat w (op w (lane ((s.thread i.who).vec f.vs1) w l).toInt (lane ((s.thread i.who).vec f.vs2) w l).toInt)) := by
  have hlegal : (fmtNarrow f && decide (f.imm = 0)) = true := by rw [fmtNarrow, decide_eq_true hf, decide_eq_true himm]; rfl
  subst hbits hcount
  have hw : 0 < laneBits f.fmt := by rcases hf with e | e <;> rw [e] <;> decide
  have hgives := givesFits_of (f := f) (n := laneCount f.fmt) h hw (Nat.mul_div_le ..) (fun h l => fitSigned f.sat (laneBits f.fmt)
    (op (laneBits f.fmt) (lane (h.vec f.vs1) (laneBits f.fmt) l).toInt (lane (h.vec f.vs2) (laneBits f.fmt) l).toInt))
  rw [vecQ, hlegal]
  simp only [← lane_toInt _ hw, List.map_map, Function.comp_def]
  exact hgives

/-! ### Wide lanes (R175) -/

/-- The lane and container widths of a wide format. -/
structure WideFmt (fmt : BitVec 4) (b k : Nat) : Prop where
  widths : wideOf fmt = (b, k, 2 * b)
  pos : 0 < b
  wide : 0 < k
  le : k ≤ 2 * b
  half : 1024 / (2 * b) = 512 / b
  lanes : 1024 / b = 512 / b + 512 / b
  fits : 2 * b * (512 / b) ≤ 1024

theorem wideFmt_of {fmt : BitVec 4} (hf : fmt = 4 ∨ fmt = 5) : WideFmt fmt (if fmt = 4 then 16 else 32) (if fmt = 4 then 24 else 40) := by
  rcases hf with rfl | rfl <;> constructor <;> decide

/-- Lane `l` of the pair of registers that starts at `r`. -/
def Thread.wideBits (h : Thread) (b k : Nat) (r : BitVec 5) (l : Nat) : BitVec k :=
  (if l < 512 / b then lane (h.vec r) (2 * b) l else lane (h.vec (r + 1)) (2 * b) (l - 512 / b)).truncate k

variable {b k : Nat}

theorem wideLane_eq (hf : WideFmt f.fmt b k) (h : Thread) (r : BitVec 5) (l : Nat) : h.wideLane f.fmt r l = (h.wideBits b k r l).toInt := by
  have hlane (v : Vec) (l : Nat) : signedOf k (laneOf v (2 * b) l) = ((lane v (2 * b) l).truncate k).toInt := by
    rw [← lane_toNat, signedOf_toNat _ hf.wide, truncate_eq_extract]
  rw [Thread.wideLane, hf.widths, Thread.wideBits]
  dsimp only
  rw [hf.half]
  split
  · exact hlane _ _
  · exact hlane _ _

/-- What stands in a container of the pair after a write under predication. -/
def Thread.wideWord (h : Thread) (f : VecF) (b k : Nat) (new : Nat → Int) (l : Nat) : Nat :=
  ((if (h.pred f.pred).getLsbD l then new l else if f.zm then 0 else (h.wideBits b k f.vd l).toInt) % 2 ^ (2 * b)).toNat

theorem putWide_eq (hf : WideFmt f.fmt b k) (h : Thread) (new : Nat → Int) :
    h.putWide f ((List.range (1024 / b)).map new) =
      (h.setVec f.vd (vecOf (2 * b) ((List.range (512 / b)).map (h.wideWord f b k new)))).setVec (f.vd + 1)
        (vecOf (2 * b) ((List.range (512 / b)).map (fun l => h.wideWord f b k new (512 / b + l)))) := by
  have hwords : (((List.range (1024 / b)).map new).zipIdx.map (fun p =>
      ((if h.active f p.2 then p.1 else if f.zm then 0 else h.wideLane f.fmt f.vd p.2) % 2 ^ (2 * b)).toNat)) =
      (List.range (512 / b)).map (h.wideWord f b k new) ++ (List.range (512 / b)).map (fun l => h.wideWord f b k new (512 / b + l)) := by
    rw [zipIdx_map_range, List.map_map, hf.lanes, List.range_add, List.map_append, List.map_map]
    simp only [Function.comp_def, wideLane_eq hf]
    rfl
  have hlen : ((List.range (512 / b)).map (h.wideWord f b k new)).length = 512 / b := by rw [List.length_map, List.length_range]
  rw [Thread.putWide, hf.widths]
  dsimp only
  rw [hf.half, hwords, List.take_left' hlen, List.drop_left' hlen]

theorem truncate_ofInt {c : Nat} (hk : k ≤ c) (x : Int) : (BitVec.ofInt c x).truncate k = BitVec.ofInt k x := by
  apply BitVec.eq_of_toNat_eq
  have hpos (m : Nat) : (0 : Int) < ((2 ^ m : Nat) : Int) := Int.natCast_pos.mpr (Nat.two_pow_pos m)
  have hdvd : ((2 ^ k : Nat) : Int) ∣ ((2 ^ c : Nat) : Int) := Int.natCast_dvd_natCast.mpr (Nat.pow_dvd_pow 2 hk)
  rw [BitVec.truncate_eq_setWidth, BitVec.toNat_setWidth, BitVec.toNat_ofInt, BitVec.toNat_ofInt, ← Int.natCast_inj, Int.natCast_emod,
    Int.toNat_of_nonneg (Int.emod_nonneg _ (hpos c).ne'), Int.toNat_of_nonneg (Int.emod_nonneg _ (hpos k).ne'), Int.emod_emod_of_dvd _ hdvd]

theorem wideBits_putWide (hf : WideFmt f.fmt b k) (h : Thread) (new : Nat → Int) {l : Nat} (hl : l < 1024 / b) :
    (h.putWide f ((List.range (1024 / b)).map new)).wideBits b k f.vd l = h.merged f l (BitVec.ofInt k (new l)) (h.wideBits b k f.vd l) := by
  have hpos : 0 < 2 * b := Nat.mul_pos Nat.two_pos hf.pos
  have hne : f.vd ≠ f.vd + 1 := by bv_omega
  have hword : (BitVec.ofNat (2 * b) (h.wideWord f b k new l)).truncate k = h.merged f l (BitVec.ofInt k (new l)) (h.wideBits b k f.vd l) := by
    rw [Thread.wideWord, ofNat_emod_toNat, truncate_ofInt hf.le, Thread.merged]
    split
    · rfl
    · split
      · simp
      · exact BitVec.ofInt_toInt
  rw [← hword, putWide_eq hf, Thread.wideBits]
  split
  next hlow =>
    rw [Thread.vec_setVec, if_neg hne, Thread.vec_setVec, if_pos rfl, lane_vecOf_range hpos hf.fits _ hlow]
  next hhigh =>
    have hlt : l - 512 / b < 512 / b := by have := hf.lanes; omega
    have hsum : 512 / b + (l - 512 / b) = l := by omega
    rw [Thread.vec_setVec, if_pos rfl, lane_vecOf_range hpos hf.fits _ hlt, hsum]

/-! ### Operations on wide lanes (R175) -/

/-- A fixed-point instruction completes with given lanes of the pair of its destination. -/
def State.givesWide (s : State) (i : Iss) (f : VecF) (b k : Nat) (t : State) (new : Nat → Int) : Prop :=
  s.vectorDone t i.who [f.vd, f.vd + 1] [] ∧ ∀ l, l < 1024 / b →
    (t.thread i.who).wideBits b k f.vd l = (s.thread i.who).merged f l (BitVec.ofInt k (new l)) ((s.thread i.who).wideBits b k f.vd l)

theorem wideBits_congr {g h : Thread} (hv : g.v = h.v) (b k : Nat) (r : BitVec 5) (l : Nat) : g.wideBits b k r l = h.wideBits b k r l := by
  rw [Thread.wideBits, Thread.vec, Thread.vec, hv]
  rfl

theorem vectorsOnly_putWide (hf : WideFmt f.fmt b k) (h : Thread) (new : Nat → Int) : h.vectorsOnly (h.putWide f ((List.range (1024 / b)).map new)) := by
  rw [putWide_eq hf]
  rfl

theorem vec_putWide_other (hf : WideFmt f.fmt b k) (h : Thread) (new : Nat → Int) (r : BitVec 5) (hr : r ∉ [f.vd, f.vd + 1]) :
    (h.putWide f ((List.range (1024 / b)).map new)).vec r = h.vec r := by
  rw [List.mem_cons, List.mem_singleton, not_or] at hr
  obtain ⟨hlow, hhigh⟩ := hr
  rw [putWide_eq hf, Thread.vec_setVec, if_neg hhigh, Thread.vec_setVec, if_neg hlow]

theorem vqClr_gives (h : s.ready i true = true) (himm : f.imm = 0) (hf : WideFmt f.fmt b k) (hw : f.fmt = 4 ∨ f.fmt = 5) (he : f.vd.getLsbD 0 = false) :
    ∃ t, execVqClr i f s = .next t ∧ s.givesWide i f b k t (fun _ => 0) := by
  have hlegal : (fmtWide f && evenReg f.vd && decide (f.imm = 0)) = true := by
    rw [fmtWide, evenReg, decide_eq_true hw, he, decide_eq_true himm]; rfl
  have hzeros : List.replicate (1024 / b) (0 : Int) = (List.range (1024 / b)).map (fun _ => 0) := by simp
  obtain ⟨hdone, hvec, _⟩ := State.vectorDone_retired (s := s) (w := i.who) (body := fun h => h.putWide f ((List.range (1024 / b)).map (fun _ => 0)))
    (vectorsOnly_putWide hf _ _) (vec_putWide_other hf _ _)
  rw [execVqClr, hlegal, hf.widths]
  dsimp only
  rw [hzeros]
  refine ⟨_, vecOp_done h 0x38 false (vectorsOnly_putWide hf _ _), hdone, fun l hl => ?_⟩
  rw [wideBits_congr hvec]
  exact wideBits_putWide hf _ _ hl

/-- The result of a lane of vq.mac. -/
def Thread.macResult (h : Thread) (f : VecF) (b k l : Nat) : Int × Fit :=
  fitSigned f.sat k ((h.wideBits b k f.vd l).toInt +
    roundShift f.rnd ((lane (h.vec f.vs1) b l).toInt * (lane (h.vec f.vs2) b l).toInt) (b - 1))

theorem vqMac_gives (h : s.ready i true = true) (himm : f.imm = 0) (hf : WideFmt f.fmt b k) (hw : f.fmt = 4 ∨ f.fmt = 5) (he : f.vd.getLsbD 0 = false) :
    ∃ t, execVqMac i f s = .next t ∧ s.givesWide i f b k t (fun l => ((s.thread i.who).macResult f b k l).1) ∧
      (t.thread i.who).fxstat = ((s.thread i.who).lanesOn f (1024 / b)).foldl (fun a l => Fit.mark a ((s.thread i.who).macResult f b k l).2)
        (s.thread i.who).fxstat := by
  have hlegal : (fmtWide f && evenReg f.vd && decide (f.imm = 0)) = true := by
    rw [fmtWide, evenReg, decide_eq_true hw, he, decide_eq_true himm]; rfl
  have hb := Thread.vectorsOnly_fxFlags (vectorsOnly_putWide hf (s.thread i.who) (fun l => ((s.thread i.who).macResult f b k l).1))
    ((s.thread i.who).activeFits f ((List.range (1024 / b)).map ((s.thread i.who).macResult f b k)))
  obtain ⟨hdone, hvec, _, hfx⟩ := State.vectorDone_retired (s := s) (w := i.who) (vs := [f.vd, f.vd + 1])
    (body := fun h => (h.putWide f ((List.range (1024 / b)).map (fun l => (h.macResult f b k l).1))).fxFlags
      (h.activeFits f ((List.range (1024 / b)).map (h.macResult f b k)))) hb
    (fun q hq => by
      rw [fxFlags_activeFits]
      exact vec_putWide_other hf _ _ q hq)
  have hexec : execVqMac i f s = vecOp i 0x38 false true (fun h => (h.putWide f ((List.range (1024 / b)).map (fun l => (h.macResult f b k l).1))).fxFlags
      (h.activeFits f ((List.range (1024 / b)).map (h.macResult f b k)))) s := by
    rw [execVqMac, hlegal, hf.widths]
    simp only [← lane_toInt _ hf.pos, wideLane_eq hf, List.map_map, Function.comp_def]
    rfl
  refine ⟨_, hexec.trans (vecOp_done h 0x38 false hb), ⟨hdone, fun l hl => ?_⟩, ?_⟩
  · rw [wideBits_congr hvec, fxFlags_activeFits]
    exact wideBits_putWide hf _ _ hl
  · rw [hfx, fxFlags_activeFits, putWide_eq hf]
    rfl

theorem vqExt_gives (h : s.ready i true = true) (himm : f.imm = 0) (hf : WideFmt f.fmt b k) (hw : f.fmt = 4 ∨ f.fmt = 5) (he : f.vs1.getLsbD 0 = false) :
    s.givesFits i f b (1024 / b) (execVqExt i f s) (fun l => fitSigned f.sat b ((s.thread i.who).wideBits b k f.vs1 l).toInt) := by
  have hlegal : (fmtWide f && evenReg f.vs1 && decide (f.imm = 0)) = true := by
    rw [fmtWide, evenReg, decide_eq_true hw, he, decide_eq_true himm]; rfl
  have hgives := givesFits_of (f := f) (w := b) (n := 1024 / b) h hf.pos (Nat.mul_div_le ..) (fun h l => fitSigned f.sat b (h.wideBits b k f.vs1 l).toInt)
  rw [execVqExt, hlegal, hf.widths]
  simp only [wideLane_eq hf, List.map_map, Function.comp_def]
  exact hgives

/-! ### Formats that an operation does not list (R168) -/

theorem vecFloat_refused (h : s.ready i true = true) (hf : ¬(f.fmt = 0 ∨ f.fmt = 1)) (op : Num → Num → Num → Num) (two three : Bool) :
    vecFloat i f op two three s = .next (s.settle i.who true (.trap s (illegal 0x38))) := by
  have hlegal : (fmtFloat f && decide (f.imm = 0)) = false := by rw [fmtFloat, decide_eq_false hf]; rfl
  rw [vecFloat, hlegal, vecOp_refused h]

theorem vecBits_refused (h : s.ready i true = true) (hf : ¬(f.fmt = 0 ∨ f.fmt = 1)) (op : Nat → Nat → Nat) :
    vecBits i f op s = .next (s.settle i.who true (.trap s (illegal 0x38))) := by
  have hlegal : (fmtFloat f && decide (f.imm = 0)) = false := by rw [fmtFloat, decide_eq_false hf]; rfl
  rw [vecBits, hlegal, vecOp_refused h]

theorem vecOrder_float (hf : ¬(f.fmt = 2 ∨ f.fmt = 3)) (op : Num → Num → Num) (q : Int → Int → Int) :
    vecOrder i f op q s = vecFloat i f (fun a b _ => op a b) true false s := by
  have hnarrow : fmtNarrow f = false := decide_eq_false hf
  rw [vecOrder, hnarrow, if_neg Bool.false_ne_true]

theorem vecQ_refused (h : s.ready i true = true) (hf : ¬(f.fmt = 2 ∨ f.fmt = 3)) (op : Nat → Int → Int → Int) :
    vecQ i f op s = .next (s.settle i.who true (.trap s (illegal 0x38))) := by
  have hlegal : (fmtNarrow f && decide (f.imm = 0)) = false := by rw [fmtNarrow, decide_eq_false hf]; rfl
  rw [vecQ, hlegal, vecOp_refused h]

theorem wide_illegal {r : BitVec 5} (hf : ¬(f.fmt = 4 ∨ f.fmt = 5) ∨ ¬r.getLsbD 0 = false) : (fmtWide f && evenReg r && decide (f.imm = 0)) = false := by
  rcases hf with hf | hr
  · rw [fmtWide, decide_eq_false hf]; rfl
  · rw [evenReg, eq_true_of_ne_false hr, Bool.not_true, Bool.and_false, Bool.false_and]

theorem vqMac_refused (h : s.ready i true = true) (hf : ¬(f.fmt = 4 ∨ f.fmt = 5) ∨ ¬f.vd.getLsbD 0 = false) :
    exec (.vqMac i f) s = .next (s.settle i.who true (.trap s (illegal 0x38))) := by
  rw [exec_vqMac, execVqMac, wide_illegal hf, vecOp_refused h]

theorem vqClr_refused (h : s.ready i true = true) (hf : ¬(f.fmt = 4 ∨ f.fmt = 5) ∨ ¬f.vd.getLsbD 0 = false) :
    exec (.vqClr i f) s = .next (s.settle i.who true (.trap s (illegal 0x38))) := by
  rw [exec_vqClr, execVqClr, wide_illegal hf, vecOp_refused h]

theorem vqExt_refused (h : s.ready i true = true) (hf : ¬(f.fmt = 4 ∨ f.fmt = 5) ∨ ¬f.vs1.getLsbD 0 = false) :
    exec (.vqExt i f) s = .next (s.settle i.who true (.trap s (illegal 0x38))) := by
  rw [exec_vqExt, execVqExt, wide_illegal hf, vecOp_refused h]

end

theorem exec_vabs_bits (i : Iss) (f : VecF) (s : State) : exec (.vabs i f) s = vecBits i f (fun w x => x % 2 ^ (w - 1)) s := by
  rw [exec_vabs, execVabs]

theorem exec_vneg_bits (i : Iss) (f : VecF) (s : State) : exec (.vneg i f) s = vecBits i f (fun w x => (x + 2 ^ (w - 1)) % 2 ^ w) s := by
  rw [exec_vneg, execVneg]

theorem exec_vqMul_lanes (i : Iss) (f : VecF) (s : State) :
    exec (.vqMul i f) s = vecQ i f (fun w x y => roundShift f.rnd (x * y) (w - 1)) s := by
  rw [exec_vqMul, execVqMul]

theorem State.givesLanes.congr {s : State} {i : Iss} {f : VecF} {w n : Nat} {o : Host.Outcome State Fault Refusal} {v v' : Nat → BitVec w}
    {fl fl' : Nat → BitVec 9} (h : s.givesLanes i f w n o v fl) (hv : ∀ l, v l = v' l) (hf : ∀ l, fl l = fl' l) : s.givesLanes i f w n o v' fl' := by
  rw [← funext hv, ← funext hf]
  exact h

/-- Settles O15: the lane operations, the fixed-point operations, and the formats they refuse. -/
theorem vectorArithmetic : Obligations.VectorArithmetic := by
  refine ⟨fun s i f h himm => ?_, fun s i f h himm => ?_⟩
  · intro h' fl fx w n on src int gives num two bad
    have hbits : fl ∨ fx → laneBits f.fmt = w ∧ laneCount f.fmt = n := by
      rintro ((e | e) | (e | e)) <;> simp only [w, n] <;> rw [e] <;> decide
    have hfloat (hfl : fl) (op : Sys2Proof.Machine.Num → Sys2Proof.Machine.Num → Sys2Proof.Machine.Num → Sys2Proof.Machine.Num) (two three : Bool) :=
      vecFloat_gives h himm hfl (hbits (.inl hfl)).1 (hbits (.inl hfl)).2 op two three
    have htwo (hfl : fl) (op : Sys2Proof.Machine.Num → Sys2Proof.Machine.Num → Sys2Proof.Machine.Num) :
        s.givesLanes i f w n (vecFloat i f (fun a b _ => op a b) true false s)
          (fun l => BitVec.ofNat w (laneRound f.fmt (op (src f.vs1 l).1 (src f.vs2 l).1)).1)
          (fun l => (laneRound f.fmt (op (src f.vs1 l).1 (src f.vs2 l).1)).2 ||| two l) :=
      (hfloat hfl (fun a b _ => op a b) true false).congr (fun _ => rfl) (fun l => by
        have hzero (a : BitVec 9) : a ||| (0 : BitVec 9) = a := BitVec.or_zero
        simp only [if_true, Bool.false_eq_true, if_false, hzero, two]
        exact BitVec.or_assoc ..)
    have hexclusive (hfl : fl) : ¬fx := by
      rcases hfl with e | e <;> simp only [fx, e] <;> decide
    refine ⟨fun hfl => ⟨?_, ?_, ?_, ?_, ?_, ?_, ?_, ?_⟩, fun hfx => ⟨?_, ?_⟩, fun hn => ⟨?_, ?_, ?_, ?_, ?_, ?_⟩, fun hn hx => ⟨?_, ?_⟩⟩
    · exact htwo hfl (fun a b => a.add b)
    · exact htwo hfl (fun a b => a.add b.neg)
    · exact htwo hfl (fun a b => a.mul b)
    · refine (hfloat hfl (fun a b c => (a.mul b).add c) true true).congr (fun _ => rfl) (fun l => ?_)
      simp only [if_true, two]
      exact (BitVec.or_assoc ..).trans ((BitVec.or_assoc ..).trans (congrArg _ (BitVec.or_assoc ..).symm))
    · have key := htwo hfl Num.max
      rw [← vecOrder_float (hexclusive hfl) Num.max (fun a b => max a b)] at key
      exact key
    · have key := htwo hfl Num.min
      rw [← vecOrder_float (hexclusive hfl) Num.min (fun a b => min a b)] at key
      exact key
    · obtain ⟨hw, hc⟩ := hbits (.inl hfl)
      have key := (vecBits_gives h himm hfl hw hc (fun w x => x % 2 ^ (w - 1))).congr (fun l => ofNat_mod_half _) (fun _ => rfl)
      rw [← exec_vabs_bits] at key
      exact key
    · obtain ⟨hw, hc⟩ := hbits (.inl hfl)
      have key := (vecBits_gives h himm hfl hw hc (fun w x => (x + 2 ^ (w - 1)) % 2 ^ w)).congr (fun l => ofNat_add_half _) (fun _ => rfl)
      rw [← exec_vneg_bits] at key
      exact key
    · obtain ⟨hw, hc⟩ := hbits (.inr hfx)
      have key := vecOrder_narrow h himm hfx hw hc Num.max (fun a b => max a b)
      exact key
    · obtain ⟨hw, hc⟩ := hbits (.inr hfx)
      have key := vecOrder_narrow h himm hfx hw hc Num.min (fun a b => min a b)
      exact key
    · exact vecFloat_refused h hn (fun a b _ => a.add b) true false
    · exact vecFloat_refused h hn (fun a b _ => a.add b.neg) true false
    · exact vecFloat_refused h hn (fun a b _ => a.mul b) true false
    · exact vecFloat_refused h hn (fun a b c => (a.mul b).add c) true true
    · exact (exec_vabs_bits i f s).trans (vecBits_refused h hn _)
    · exact (exec_vneg_bits i f s).trans (vecBits_refused h hn _)
    · exact (vecOrder_float hx Num.max (fun a b => max a b)).trans (vecFloat_refused h hn (fun a b _ => a.max b) true false)
    · exact (vecOrder_float hx Num.min (fun a b => min a b)).trans (vecFloat_refused h hn (fun a b _ => a.min b) true false)
  · intro h' on bad flags narrow b k c n wide pair even wf
    have hnarrow (op : Nat → Int → Int → Int) (hfx : f.fmt = 2 ∨ f.fmt = 3) : s.givesFits i f (if f.fmt = 3 then 32 else 16) (if f.fmt = 3 then 32 else 64)
        (vecQ i f op s) (fun l => fitSigned f.sat (if f.fmt = 3 then 32 else 16) (op (if f.fmt = 3 then 32 else 16)
          (lane (h'.vec f.vs1) (if f.fmt = 3 then 32 else 16) l).toInt (lane (h'.vec f.vs2) (if f.fmt = 3 then 32 else 16) l).toInt)) := by
      refine vecQ_gives h himm hfx ?_ ?_ op <;> rcases hfx with e | e <;> rw [e] <;> decide
    have hrefused (op : Nat → Int → Int → Int) (h2 : f.fmt ≠ 2) (h3 : f.fmt ≠ 3) :
        vecQ i f op s = .next (s.settle i.who true (.trap s (illegal 0x38))) := vecQ_refused h (fun hf => hf.elim h2 h3) op
    have hmul := hnarrow (fun w x y => roundShift f.rnd (x * y) (w - 1))
    rw [← exec_vqMul_lanes] at hmul
    refine ⟨⟨hnarrow (fun _ x y => x + y), hrefused (fun _ x y => x + y)⟩, ⟨hnarrow (fun _ x y => x - y), hrefused (fun _ x y => x - y)⟩,
      ⟨hmul, fun h2 h3 => (exec_vqMul_lanes i f s).trans (hrefused _ h2 h3)⟩, fun hw he => ?_, fun hw he => ?_, fun hw he => ?_,
      fun hbad => ⟨?_, ?_⟩, fun hbad => ?_⟩
    · obtain ⟨t, hexec, ⟨hdone, hlanes⟩, hfx⟩ := vqMac_gives h himm (wideFmt_of hw) hw he
      exact ⟨t, ⟨hexec, hdone, hlanes⟩, hfx⟩
    · exact vqExt_gives h himm (wideFmt_of hw) hw he
    · obtain ⟨t, hexec, hdone, hlanes⟩ := vqClr_gives h himm (wideFmt_of hw) hw he
      exact ⟨t, hexec, hdone, hlanes⟩
    · exact vqMac_refused h hbad
    · exact vqClr_refused h hbad
    · exact vqExt_refused h hbad

end Sys2Proof.Machine
end

section
/-! Tiles: what a tile holds after another is written, trel, and tile stores (R79, R80, R86, R87, R89, R90, R99). -/

namespace Sys2Proof.Machine

variable {s : State} {i : Iss}

/-! ### The tiles of a thread -/

@[simp] theorem Thread.tile_setTile (h : Thread) (k : BitVec 3) (x : Tile) : (h.setTile k x).tile k = x := by
  simp [Thread.tile, Thread.setTile]

theorem Thread.tile_setTile_other (h : Thread) {k j : BitVec 3} (x : Tile) (hj : j ≠ k) : (h.setTile k x).tile j = h.tile j := by
  simp [Thread.tile, Thread.setTile, Sparse.get_put_other _ _ _ (toNat_ne hj)]

/-- A change of a core that leaves its local store alone leaves all memory alone. -/
theorem State.modCore_sameMemory (s : State) (c : CoreIx) {f : Core → Core} (hf : (f (s.core c)).ls = (s.core c).ls) :
    s.sameMemory (s.modCore c f) :=
  State.sameMemory_of (State.core_modCore_keeps Core.ls hf) (fun _ => ⟨rfl, rfl, rfl⟩)

theorem State.thread_opcDrop (s : State) (w : Who) (td : BitVec 3) (v : Who) : (s.opcDrop w td).thread v = s.thread v :=
  State.thread_modCore rfl v

theorem State.opcDrop_sameMemory (s : State) (w : Who) (td : BitVec 3) : s.sameMemory (s.opcDrop w td) := s.modCore_sameMemory _ rfl

/-! ### trel (R90) -/

/-- A thread whose tile is released: the tile is EMPTY under a new version, and a pending load of it is forgotten. -/
def Thread.released (h : Thread) (td : BitVec 3) (v : Nat) : Thread :=
  let g := h.setTile td { version := v }
  if h.tldPend ∧ h.cursor.tile = td then { g with tldPend := false, cursor := {} } else g

/-- A release changes nothing but the tiles and the pending load. -/
theorem Thread.released_eq (h : Thread) (td : BitVec 3) (v : Nat) : h.released td v =
    { h with tiles := (h.setTile td { version := v }).tiles, tldPend := h.tldPend && decide (h.cursor.tile ≠ td), cursor := (h.released td v).cursor } := by
  unfold Thread.released
  by_cases hp : h.tldPend = true <;> by_cases hc : h.cursor.tile = td <;> simp [hp, hc, Thread.setTile]

/-- Behind no queued mm that reads its tile, a trel is done at once. -/
theorem trel_done (h : s.ready i true = true) {td : BitVec 3} (hr : s.tileRead i.who td = false) :
    exec (.trel i td) s = .next ((s.bumpSeq.opcDrop i.who td).retired i.who 8 (fun h => h.released td s.nextSeq)) := by
  have hq := State.undisturbed_of_ready h
  rw [exec_trel, execTrel, issue_of_ready h]
  simp only [hr, Bool.false_eq_true, if_false]
  refine congrArg Host.Outcome.next (settle_done_modThread (f := fun h => h.released td s.nextSeq) ?_ true)
  rw [State.thread_opcDrop, Thread.released_eq]
  exact hq

/-- Settles O10: a released tile is EMPTY and zero, and nothing else of the thread but its pending load has changed. -/
theorem tileRelease : Obligations.TileRelease := by
  intro s i td h hr
  let u := s.bumpSeq.opcDrop i.who td
  have hu (v : Who) : u.thread v = s.thread v := State.thread_opcDrop _ _ _ _
  have hthread := u.thread_retired i.who 8 (fun h => h.released td s.nextSeq)
  rw [hu, Thread.released_eq] at hthread
  refine ⟨_, trel_done h hr, ?_, fun v hv => (State.thread_retired_other u 8 _ hv).trans (hu v), ?_⟩
  · have htile (k : BitVec 3) : ((u.retired i.who 8 (fun h => h.released td s.nextSeq)).thread i.who).tile k =
        ((s.thread i.who).setTile td { version := s.nextSeq }).tile k := by
      rw [hthread]; rfl
    have hself := (htile td).trans (Thread.tile_setTile _ _ _)
    refine ⟨congrArg Tile.state hself, congrArg Tile.rows hself, congrArg Tile.side hself, fun k hk => (htile k).trans (Thread.tile_setTile_other _ _ hk), ?_⟩
    rw [hthread]
    exact ⟨rfl, rfl, fun _ => rfl, fun _ => rfl⟩
  · have hbump : s.sameMemory s.bumpSeq := fun l => State.byteAt_congr rfl rfl l
    exact State.sameMemory_trans hbump (State.sameMemory_trans (State.opcDrop_sameMemory _ _ _) (State.onlyThread_retired ..).sameMemory)

/-! ### What a tile store writes (R87, R89) -/

theorem exec_tileStore (i : Iss) (f : TileF) (sc : Bool) (s : State) : exec (if sc then .tstSc i f else .tst i f) s = tileStore i f sc s := by
  cases sc <;> rfl

/-- A tile store that its encoding, its shape or its tile refuses. -/
theorem tileStore_trap (h : s.ready i true = true) {f : TileF} {sc : Bool} :
    (f.src = true ∨ tileIllegal f = true → tileStore i f sc s = .next (s.settle i.who true (.trap s (illegal 0x3B)))) ∧
    (f.src = false → tileIllegal f = false → s.watchRows i.who f sc false true = Option.none →
      (∀ d, tileShape f sc false = some d → tileStore i f sc s = .next (s.settle i.who true (.trap s (shapeFault d)))) ∧
      (tileShape f sc false = Option.none →
        (((s.thread i.who).tile f.td).unreadable = true →
          tileStore i f sc s = .next (s.settle i.who true (.trap s { code := 0x09, detail := BitVec.ofNat 16 f.td.toNat }))) ∧
        (((s.thread i.who).tile f.td).unreadable = false → tileSkew (s.thread i.who) f sc = true →
          tileStore i f sc s = .next (s.settle i.who true (.trap s (misaligned 8 ((s.thread i.who).reg f.rb))))))) := by
  rw [tileStore, issue_of_ready h]
  refine ⟨fun hbad => by simp only [if_pos hbad], fun hsrc hlegal hwatch => ?_⟩
  have hgood : ¬(f.src = true ∨ tileIllegal f = true) := by simp [hsrc, hlegal]
  simp only [if_neg hgood, hwatch, Tile.unreadable, decide_eq_true_eq, decide_eq_false_iff_not]
  refine ⟨fun d hd => by simp only [hd], fun hshape => ?_⟩
  simp only [hshape]
  exact ⟨fun hx => by simp only [if_pos hx], fun hx hskew => by simp only [if_neg hx, if_pos hskew]⟩

/-- The checks of a row find its pieces where `at_` says they lie. -/
theorem State.askStore_at {w : Who} {g : Bool} {at_ : Word × List (Option Byte) → Loc × Option Nat} {ps : List (Word × List (Option Byte))}
    (hps : ∀ p ∈ ps, s.place w g .write false p.1 p.2.length = .at_ (at_ p).1 (at_ p).2) (row : Word) (acc : List (Loc × Option Nat × List (Option Byte))) :
    s.askStore w g row ps acc = .go (acc ++ ps.map (fun p => ((at_ p).1, (at_ p).2, p.2))) := by
  induction ps generalizing acc with
  | nil => simp [State.askStore]
  | cons p ps ih =>
    rw [State.askStore, hps p List.mem_cons_self]
    simp only [ih (fun q hq => hps q (List.mem_cons_of_mem p hq)), List.append_assoc, List.map_cons, List.singleton_append]

theorem State.askStores_at {w : Who} {g : Bool} {at_ : Word × List (Option Byte) → Loc × Option Nat} {rows : List (Word × List (Option Byte))}
    (hps : ∀ r ∈ rows, ∀ p ∈ storePieces g r.1 r.2, s.place w g .write false p.1 p.2.length = .at_ (at_ p).1 (at_ p).2)
    (acc : List (Loc × Option Nat × List (Option Byte))) : s.askStores w g rows acc =
      .go (acc ++ (rows.flatMap (fun r => storePieces g r.1 r.2)).map (fun p => ((at_ p).1, (at_ p).2, p.2))) := by
  induction rows generalizing acc with
  | nil => simp [State.askStores]
  | cons r rows ih =>
    rw [State.askStores, State.askStore_at (hps r List.mem_cons_self)]
    simp only [ih (fun q hq => hps q (List.mem_cons_of_mem r hq)), List.append_assoc, List.flatMap_cons, List.map_append]

/-- A store past the data cache asks nothing of its thread, which goes on running. -/
theorem State.storePast_keeps {w : Who} (hr : (s.thread w).state = .run ∧ (s.thread w).undisturbed) {l : Loc} (hl : l.here = true) (page : Option Nat)
    (bs : List (Option Byte)) : ((s.storePast w l page bs).thread w).state = .run ∧ ((s.storePast w l page bs).thread w).undisturbed := by
  have hperform : ((s.perform l bs).thread w).state = .run ∧ ((s.perform l bs).thread w).undisturbed := by
    refine ⟨?_, State.undisturbed_perform hr.1 hr.2 l bs⟩
    rw [State.thread_perform_of_run hr.1, Thread.unreserve_state, hr.1]
  have hsent : (((s.sentWrite w l page bs).modThread w Thread.pendUp).thread w).state = .run ∧
      (((s.sentWrite w l page bs).modThread w Thread.pendUp).thread w).undisturbed := by
    rw [State.thread_modThread]
    exact hr
  cases l with
  | ls c o =>
    by_cases hc : c = w.core
    · rw [State.storePast, if_pos hc]; exact hperform
    · rw [State.storePast, if_neg hc]; exact hsent
  | loft d o => exact hsent
  | hbm d o => exact hsent
  | ddr d o => exact hsent
  | ctl c o => cases hl
  | remote m a => cases hl

/-- The bytes that row `r` of a tile store writes. -/
def Tile.storeBytes (x : Tile) (sc : Bool) (n r : Nat) : List (Option Byte) :=
  ((if sc then toBytes (Sparse.get (0 : BitVec 32) x.side r).toNat 4 else toBytes (Sparse.get (0 : BitVec 512) x.rows r).toNat 64).take n).map some

/-- The pieces of a tile store of `n` bytes for each row, in ascending order (R87). -/
def tileStorePieces (h : Thread) (f : TileF) (sc : Bool) (n : Nat) : List (Word × List (Option Byte)) :=
  (List.range (f.rows.toNat + 1)).flatMap (fun r =>
    splitBytes (if f.g then pagePieces (tileRowAddr h f r) n else [(tileRowAddr h f r, n)]) ((h.tile f.td).storeBytes sc n r))

theorem Tile.length_storeBytes (x : Tile) {sc : Bool} {n : Nat} (hn : n ≤ (if sc then 4 else 64)) (r : Nat) : (x.storeBytes sc n r).length = n := by
  cases sc <;> simp [Tile.storeBytes, length_toBytes] at hn ⊢ <;> exact hn

/-- The rows that a tile store checks are those of its pieces. -/
theorem tileStore_rows (h : Thread) (f : TileF) {sc : Bool} {n : Nat} (hn : n ≤ (if sc then 4 else 64)) :
    (((h.tile f.td).rowBytes sc n (f.rows.toNat + 1)).zipIdx.map (fun p => (tileRowAddr h f p.2, p.1.map some))).flatMap
      (fun r => storePieces f.g r.1 r.2) = tileStorePieces h f sc n := by
  have hbytes (r : Nat) : (if sc then (toBytes (Sparse.get (0 : BitVec 32) (h.tile f.td).side r).toNat 4).take n
      else (toBytes (Sparse.get (0 : BitVec 512) (h.tile f.td).rows r).toNat 64).take n).map some = (h.tile f.td).storeBytes sc n r := by
    cases sc <;> rfl
  rw [Tile.rowBytes, zipIdx_map_range, List.map_map, List.flatMap_map]
  simp only [Function.comp_def, hbytes, storePieces, Tile.length_storeBytes _ hn]
  rfl

/-- A tile store whose rows all pass their checks writes them in order. -/
theorem tileStore_done (h : s.ready i true = true) {f : TileF} {sc : Bool} (hsrc : f.src = false) (hlegal : tileIllegal f = false)
    (hwatch : s.watchRows i.who f sc false true = Option.none) (hshape : tileShape f sc false = Option.none)
    (hx : ((s.thread i.who).tile f.td).unreadable = false) (hskew : tileSkew (s.thread i.who) f sc = false)
    (hn : tileRowBytes f sc ≤ (if sc then 4 else 64)) {at_ : Word × List (Option Byte) → Loc × Option Nat}
    (hps : ∀ p ∈ tileStorePieces (s.thread i.who) f sc (tileRowBytes f sc), (at_ p).1.here = true ∧
      s.place i.who f.g .write false p.1 p.2.length = .at_ (at_ p).1 (at_ p).2) :
    tileStore i f sc s = .next (((tileStorePieces (s.thread i.who) f sc (tileRowBytes f sc)).foldl
      (fun u p => u.storePast i.who (at_ p).1 (at_ p).2 p.2) s).retired i.who 8 id) := by
  have hgood : ¬(f.src = true ∨ tileIllegal f = true) := by simp [hsrc, hlegal]
  have hread : ¬(((s.thread i.who).tile f.td).state = .empty ∨ ((s.thread i.who).tile f.td).state = .partial_) := of_decide_eq_false hx
  rw [tileStore, issue_of_ready h]
  simp only [if_neg hgood, hwatch, hshape, if_neg hread, hskew, Bool.false_eq_true, if_false]
  rw [State.askStores_at (at_ := at_), tileStore_rows _ _ hn]
  · simp only [List.nil_append, State.storeAll, List.foldl_map]
    have hkept := foldl_invariant (fun u : State => (u.thread i.who).state = .run ∧ (u.thread i.who).undisturbed)
      ⟨(State.ready_cases h).1, State.undisturbed_of_ready h⟩ fun u p hp hu => State.storePast_keeps hu (hps p hp).1 (at_ p).2 p.2
    exact congrArg Host.Outcome.next (settle_done_of_undisturbed hkept.2 true)
  · intro r hr p hp
    refine (hps p ?_).2
    rw [← tileStore_rows _ _ hn]
    exact List.mem_flatMap.mpr ⟨r, hr, hp⟩

theorem tileSkew_iff {h : Thread} {f : TileF} {sc : Bool} (hsrc : f.src = false) :
    tileSkew h f sc = true ↔ sc = false ∧ ((h.reg f.rb).toNat % 8 ≠ 0 ∨ (h.reg f.rs).toNat % 8 ≠ 0) := by
  simp [tileSkew, hsrc]

theorem tileSkew_false_iff {h : Thread} {f : TileF} {sc : Bool} (hsrc : f.src = false) :
    tileSkew h f sc = false ↔ (sc = false → (h.reg f.rb).toNat % 8 = 0 ∧ (h.reg f.rs).toNat % 8 = 0) := by
  cases sc <;> simp [tileSkew, hsrc]

/-- Settles O12: what refuses a tile store, and the pieces of one that nothing refuses. -/
theorem tileStores : Obligations.TileStores := by
  intro s i f sc h w g x store n row bytes pieces at_ traps
  have hexec : exec store s = tileStore i f sc s := exec_tileStore i f sc s
  obtain ⟨hbad, hgood⟩ := tileStore_trap (f := f) (sc := sc) h
  rw [← hexec] at hbad hgood
  refine ⟨hbad, fun hsrc hlegal hwatch => (hgood hsrc hlegal hwatch).1, fun hsrc hlegal hwatch hshape => ?_⟩
  obtain ⟨hempty, hskewed⟩ := (hgood hsrc hlegal hwatch).2 hshape
  have hread (h1 : x.state ≠ .empty) (h2 : x.state ≠ .partial_) : x.unreadable = false := decide_eq_false (fun hx => hx.elim h1 h2)
  refine ⟨fun hx => hempty (decide_eq_true hx), fun h1 h2 hsc hskew => hskewed (hread h1 h2) ((tileSkew_iff hsrc).mpr ⟨hsc, hskew⟩),
    fun h1 h2 hskew hn hps => ?_⟩
  rw [hexec]
  exact tileStore_done h hsrc hlegal hwatch hshape (hread h1 h2) ((tileSkew_false_iff hsrc).mpr hskew) hn (at_ := at_) hps

end Sys2Proof.Machine
end

section
/-! The matrix queue: what an mm is refused for, its steps on the elements of its slot, the head of the queue and the checkpoint before it
(R98 to R103, R117 to R122, R131, R148, R150, R153). -/

namespace Sys2Proof.Machine

variable {s t u : State} {i : Iss} {w : Who}

/-! ### Issue (R99, R100, R103, R108) -/

theorem State.physSlot_eq {acc : BitVec 4} (h : acc.toNat < (slotShare (s.core w.core).mode w.thr).2) :
    s.physSlot w acc = some ((slotShare (s.core w.core).mode w.thr).1 + acc.toNat) := if_pos h

theorem State.physSlot_none {acc : BitVec 4} (h : (slotShare (s.core w.core).mode w.thr).2 ≤ acc.toNat) : s.physSlot w acc = Option.none :=
  if_neg (Nat.not_lt.mpr h)

/-- What an mm is refused for, the lowest cause first. -/
theorem mmIssue_trap (h : s.ready i true = true) (func : BitVec 2) (f : MatF) :
    (∀ d, matShape func f = some d → mmIssue i func f s = .next (s.settle i.who true (.trap s (shapeFault d)))) ∧
    (matShape func f = Option.none →
      ((slotShare (s.core i.who.core).mode i.who.thr).2 ≤ f.acc.toNat →
        mmIssue i func f s = .next (s.settle i.who true (.trap s (slotFault f.acc)))) ∧
      (f.acc.toNat < (slotShare (s.core i.who.core).mode i.who.thr).2 →
        (((s.thread i.who).tile f.ta).unreadable = true →
          mmIssue i func f s = .next (s.settle i.who true (.trap s { code := 0x09, detail := f.ta.zeroExtend 16 }))) ∧
        (((s.thread i.who).tile f.ta).unreadable = false → ((s.thread i.who).tile f.tb).unreadable = true →
          mmIssue i func f s = .next (s.settle i.who true (.trap s { code := 0x09, detail := f.tb.zeroExtend 16 }))))) := by
  rw [mmIssue, issue_of_ready h]
  refine ⟨fun d hd => by simp only [hd], fun hshape => ⟨fun hshare => ?_, fun hshare => ?_⟩⟩
  · simp only [hshape, State.physSlot_none hshare, Option.isNone_none, if_true]
  · simp only [hshape, State.physSlot_eq hshare, Option.isNone_some, Bool.false_eq_true, if_false]
    exact ⟨fun ha => by simp only [ha, if_true], fun ha hb => by simp only [ha, hb, Bool.false_eq_true, if_false, if_true]⟩

/-- An mm that nothing refuses waits while eight are queued, and is queued behind the others otherwise. -/
theorem mmIssue_queued (h : s.ready i true = true) {func : BitVec 2} {f : MatF} (hshape : matShape func f = Option.none)
    (hshare : f.acc.toNat < (slotShare (s.core i.who.core).mode i.who.thr).2) (ha : ((s.thread i.who).tile f.ta).unreadable = false)
    (hb : ((s.thread i.who).tile f.tb).unreadable = false) :
    (8 ≤ (s.core i.who.core).mq.length → mmIssue i func f s = .next s) ∧
    ((s.core i.who.core).mq.length < 8 → mmIssue i func f s = .next ((s.bumpSeq.modCore i.who.core (fun x =>
      { x with mq := x.mq ++ [{ seq := s.nextSeq, thr := i.who.thr, func := func, f := f }] })).retired i.who 8 id)) := by
  obtain ⟨_, _, _, hloads, _⟩ := State.ready_cases h
  rw [mmIssue, issue_of_ready h]
  simp only [hshape, State.physSlot_eq hshare, ha, hb, hloads, Option.isNone_some, Bool.false_eq_true, if_false, List.isEmpty_nil, if_true]
  refine ⟨fun h8 => by simp only [if_pos h8, State.settle], fun h8 => ?_⟩
  simp only [if_neg (Nat.not_le.mpr h8), State.queueMm, hloads, List.isEmpty_nil, if_true]
  refine congrArg Host.Outcome.next ((settle_done_modThread (f := fun g => g) ?_ true))
  rw [State.thread_modCore rfl]
  exact State.undisturbed_of_ready h

/-! ### Steps of an element (R117 to R122, R131, R148) -/

theorem Slot.baseline_fold (l : List (Nat × F32)) (z : Slot) : ∀ x : Slot, x = l.foldl (fun z e =>
      if isFinite e.2 then
        { z with cr := addCk z.cr (e.1 % 32) (ofF32 e.2).1, cc := addCk z.cc (e.1 / 32) (ofF32 e.2).1,
                 qr := addCk z.qr (e.1 / 32) (ofF32 e.2).1.abs, qc := addCk z.qc (e.1 % 32) (ofF32 e.2).1.abs }
      else { z with sp := markEl z.sp e.1 }) z →
    x.el = z.el ∧ x.live = z.live ∧ x.unchk = z.unchk ∧ x.log = z.log ∧ x.sending = z.sending := by
  rintro x rfl
  refine foldl_invariant (fun x : Slot => x.el = z.el ∧ x.live = z.live ∧ x.unchk = z.unchk ∧ x.log = z.log ∧ x.sending = z.sending)
    ⟨rfl, rfl, rfl, rfl, rfl⟩ fun x e _ hx => ?_
  split
  · exact hx
  · exact hx

/-- A baseline keeps the elements of its slot and forgets the log (R146). -/
theorem Slot.baseline_words (x : Slot) : x.baseline.el = x.el ∧ x.baseline.live = x.live ∧ x.baseline.unchk = false ∧ x.baseline.log = [] ∧
    x.baseline.sending = x.sending := Slot.baseline_fold x.el _ _ rfl

theorem Slot.overwrite_words (x : Slot) (i j : Nat) : (x.overwrite i j).el = x.el ∧ (x.overwrite i j).log = x.log := by
  unfold Slot.overwrite
  dsimp only
  split
  · exact ⟨rfl, rfl⟩
  · exact ⟨rfl, rfl⟩

theorem Slot.predicted_words (x : Slot) (k : Nat) (p : Predict) : (x.predicted k p).el = x.el ∧ (x.predicted k p).log = x.log := by
  cases p <;> exact ⟨rfl, rfl⟩

/-- What the check unit records of a step leaves the elements and the log alone. -/
theorem Slot.recorded_words (x : Slot) (k i j : Nat) (c : StepOut) (ps : List Num) (y : F32) :
    (if c.special then x.predicted k .special else (x.checkStep i j ps c.n c.w y).predicted k (predict c.exact)).el = x.el ∧
      (if c.special then x.predicted k .special else (x.checkStep i j ps c.n c.w y).predicted k (predict c.exact)).log = x.log := by
  split
  · exact x.predicted_words _ _
  · exact Slot.predicted_words _ _ _

/-- What one step makes of an element: the first one with OVW leaves the accumulator out. -/
def stepValue (ovw : Bool) (y : F32) (t : Terms × Nat) : F32 :=
  (evalStep t.1 (if t.2 = 0 ∧ ovw = true then Option.none else some (ofF32 y).1)).y

theorem Slot.step_words (x : Slot) (i j n : Nat) (ovw : Bool) (t : Terms) :
    (x.step i j (decide (n = 0)) ovw t Option.none).1.el = Sparse.put 0 x.el (32 * i + j) (stepValue ovw (Sparse.get 0 x.el (32 * i + j)) (t, n)) ∧
      (x.step i j (decide (n = 0)) ovw t Option.none).1.log = x.log := by
  have hfresh : (decide (n = 0) && ovw) = decide (n = 0 ∧ ovw = true) := by cases ovw <;> simp
  have hover : (if (decide (n = 0) && ovw) = true then x.overwrite i j else x).el = x.el ∧
      (if (decide (n = 0) && ovw) = true then x.overwrite i j else x).log = x.log := by
    split
    · exact x.overwrite_words i j
    · exact ⟨rfl, rfl⟩
  obtain ⟨hel, hlog⟩ := hover
  have hvalue : (evalStep t (if (decide (n = 0) && ovw) = true then Option.none else some (ofF32 (Sparse.get 0 x.el (32 * i + j))).1)).y =
      stepValue ovw (Sparse.get 0 x.el (32 * i + j)) (t, n) := by
    rw [stepValue, hfresh]
    simp only [decide_eq_true_eq]
  refine ⟨(Slot.recorded_words _ _ _ _ _ _ _).1.trans ?_, (Slot.recorded_words _ _ _ _ _ _ _).2.trans hlog⟩
  rw [← hvalue, ← hel]

/-- All steps of an element: it becomes what its steps make of it, and no other element changes. -/
theorem Slot.element_words (i j : Nat) (ovw : Bool) (ts : List Terms) (n : Nat) (x : Slot) :
    (∀ k, Sparse.get 0 (x.element i j ovw Option.none ts (decide (n = 0))).1.el k =
      if k = 32 * i + j then (ts.zipIdx n).foldl (stepValue ovw) (Sparse.get 0 x.el k) else Sparse.get 0 x.el k) ∧
      (x.element i j ovw Option.none ts (decide (n = 0))).1.log = x.log := by
  induction ts generalizing x n with
  | nil => exact ⟨fun k => by simp [Slot.element], rfl⟩
  | cons t ts ih =>
    obtain ⟨hel, hlog⟩ := x.step_words i j n ovw t
    have hflip : (if ts.isEmpty = true then (Option.none : Option (BitVec 5)) else Option.none) = Option.none := ite_self _
    have hlater : false = decide (n + 1 = 0) := by simp
    obtain ⟨hget, hkept⟩ := ih (n + 1) (x.step i j (decide (n = 0)) ovw t Option.none).1
    simp only [Slot.element, hflip]
    rw [hlater, hkept, hlog]
    refine ⟨fun k => ?_, rfl⟩
    rw [hget, hel, List.zipIdx_cons, List.foldl_cons]
    by_cases hk : k = 32 * i + j
    · rw [if_pos hk, if_pos hk, hk, Sparse.get_put_same]
    · rw [if_neg hk, if_neg hk, Sparse.get_put_other _ _ _ hk]

/-- One row of an mm, as far as it has come. -/
theorem Slot.mmRow_words (func : BitVec 2) (f : MatF) (a b : TileImage) (i n : Nat) (hn : n ≤ 32) (z : Slot × BitVec 9) :
    let r := (List.range n).foldl (fun z j =>
      let r := z.1.element i j f.ovw (flipAt Option.none i j) (elementSteps func f a b i j) true
      (r.1, z.2 ||| r.2)) z
    (∀ i' j', j' < 32 → Sparse.get 0 r.1.el (32 * i' + j') = if i' = i ∧ j' < n then
        (elementSteps func f a b i' j').zipIdx.foldl (stepValue f.ovw) (Sparse.get 0 z.1.el (32 * i' + j')) else Sparse.get 0 z.1.el (32 * i' + j')) ∧
      r.1.log = z.1.log := by
  induction n with
  | zero => exact ⟨fun i' j' _ => by simp, rfl⟩
  | succ n ih =>
    obtain ⟨hel, hlog⟩ := ih (by omega)
    dsimp only at hel hlog ⊢
    rw [List.range_succ, List.foldl_append, List.foldl_cons, List.foldl_nil]
    obtain ⟨hget, hkept⟩ := Slot.element_words i n f.ovw (elementSteps func f a b i n) 0 ((List.range n).foldl (fun z j =>
      ((z.1.element i j f.ovw (flipAt Option.none i j) (elementSteps func f a b i j) true).1,
        z.2 ||| (z.1.element i j f.ovw (flipAt Option.none i j) (elementSteps func f a b i j) true).2)) z).1
    refine ⟨fun i' j' hj => ?_, hkept.trans hlog⟩
    refine (hget (32 * i' + j')).trans ?_
    rw [hel i' j' hj]
    by_cases hk : i' = i ∧ j' = n
    · obtain ⟨rfl, rfl⟩ := hk
      simp
    · have hne : ¬32 * i' + j' = 32 * i + n := by omega
      have hiff : (i' = i ∧ j' < n + 1) ↔ (i' = i ∧ j' < n) := by omega
      simp only [if_neg hne, hiff]

/-- An mm on a slot, without a fault: each element of the product takes its steps, every other one stays (R117). -/
theorem Slot.mm_words (x : Slot) (func : BitVec 2) (f : MatF) (a b : TileImage) :
    (∀ i j, j < 32 → Sparse.get 0 (x.mm func f a b Option.none).1.el (32 * i + j) = if i ≤ f.mf.toNat ∧ j ≤ f.nf.toNat then
        (elementSteps func f a b i j).zipIdx.foldl (stepValue f.ovw) (Sparse.get 0 x.el (32 * i + j)) else Sparse.get 0 x.el (32 * i + j)) ∧
      (x.mm func f a b Option.none).1.log = x.log := by
  have hn : f.nf.toNat + 1 ≤ 32 := f.nf.isLt
  have key (m : Nat) :
      let r := (List.range m).foldl (fun z i => (List.range (f.nf.toNat + 1)).foldl (fun z j =>
        let r := z.1.element i j f.ovw (flipAt Option.none i j) (elementSteps func f a b i j) true
        (r.1, z.2 ||| r.2)) z) (x, (0 : BitVec 9))
      (∀ i j, j < 32 → Sparse.get 0 r.1.el (32 * i + j) = if i < m ∧ j < f.nf.toNat + 1 then
        (elementSteps func f a b i j).zipIdx.foldl (stepValue f.ovw) (Sparse.get 0 x.el (32 * i + j)) else Sparse.get 0 x.el (32 * i + j)) ∧
      r.1.log = x.log := by
    induction m with
    | zero => exact ⟨fun i j _ => by simp, rfl⟩
    | succ m ih =>
      obtain ⟨hel, hlog⟩ := ih
      dsimp only at hel hlog ⊢
      rw [List.range_succ (n := m), List.foldl_append, List.foldl_cons, List.foldl_nil]
      obtain ⟨hrow, hkept⟩ := Slot.mmRow_words func f a b m _ hn _
      refine ⟨fun i j hj => (hrow i j hj).trans ?_, hkept.trans hlog⟩
      rw [hel i j hj]
      by_cases hi : i = m
      · subst hi
        simp
      · have hiff : (i < m + 1 ∧ j < f.nf.toNat + 1) ↔ (i < m ∧ j < f.nf.toNat + 1) := by omega
        simp only [hi, false_and, if_false, hiff]
  obtain ⟨hel, hlog⟩ := key (f.mf.toNat + 1)
  refine ⟨fun i j hj => (hel i j hj).trans ?_, hlog⟩
  simp only [Nat.lt_succ_iff]

/-! ### What waits for the queue goes on (R104, R271) -/

theorem State.onlyThread_countThread (s : State) (w : Who) (e n : Nat) : s.onlyThread (s.countThread w e n) w :=
  ⟨⟨s.countThread_eq w e n, fun _ he => s.core_countThread_other w e n he⟩, fun _ hv => s.thread_countThread_other e n hv,
    by rw [State.core_countThread]⟩

/-- A change of one thread leaves the matrix unit of its core alone. -/
theorem State.onlyThread.matrix (h : s.onlyThread t w) : (t.core w.core).mq = (s.core w.core).mq ∧
    ∀ k, (t.core w.core).slot k = (s.core w.core).slot k := by
  obtain ⟨_, _, hcore⟩ := h
  exact ⟨by rw [hcore], fun k => by rw [Core.slot, Core.slot, hcore]⟩

/-- Nothing but event counters and what a sync.e or a fence of one thread holds differs. -/
def State.holdOnly (s t : State) (w : Who) : Prop :=
  s.onlyThread t w ∧ t.thread w = { s.thread w with memHold := (t.thread w).memHold, streams := (t.thread w).streams, pmc := (t.thread w).pmc }

theorem State.holdOnly_refl (s : State) (w : Who) : s.holdOnly s w := ⟨⟨⟨rfl, fun _ _ => rfl⟩, fun _ _ => rfl, rfl⟩, rfl⟩

theorem State.holdOnly.trans (h : s.holdOnly t w) (h' : t.holdOnly u w) : s.holdOnly u w :=
  ⟨h.1.trans h'.1, by rw [h'.2, h.2]⟩

theorem State.holdOnly_modStream (s : State) (w : Who) (k : BitVec 3) (f : Stream → Stream) : s.holdOnly (s.modStream w k f) w :=
  ⟨s.onlyThread_modThread w _, by rw [State.modStream, State.thread_modThread]⟩

theorem State.holdOnly_countThread (s : State) (w : Who) (e n : Nat) : s.holdOnly (s.countThread w e n) w :=
  ⟨s.onlyThread_countThread w e n, by rw [State.thread_countThread]⟩

theorem State.holdOnly_syncStreams (s : State) (w : Who) : s.holdOnly (s.syncStreams w) w := by
  refine foldl_invariant (s.holdOnly · w) (s.holdOnly_refl w) fun u k _ hu => ?_
  dsimp only
  split
  · exact hu.trans ((u.holdOnly_modStream w k _).trans (State.holdOnly_countThread _ w _ _))
  · exact hu

theorem State.holdOnly_settleHold (s : State) (w : Who) : s.holdOnly (s.settleHold w) w := by
  unfold State.settleHold
  have hfree : s.holdOnly (s.modThread w (fun h => { h with memHold := .none })) w :=
    ⟨s.onlyThread_modThread w _, by rw [State.thread_modThread]⟩
  dsimp only
  split
  · split
    · split
      · exact hfree.trans (State.holdOnly_syncStreams _ w)
      · exact hfree
    · exact hfree
  · exact s.holdOnly_refl w

/-- A thread with no load outstanding, no trap due and no halt asked of it only sees the end of its hold. -/
theorem State.afterMatrix_holdOnly (hl : (s.thread w).loads = []) (hd : ∀ t, (s.thread w).hold ≠ .due t) (hh : (s.thread w).haltReq = Option.none) :
    s.holdOnly (s.afterMatrix w) w := by
  obtain ⟨_, hthread⟩ := s.holdOnly_settleHold w
  have hdue : (s.settleHold w).takeDue w = s.settleHold w := by
    have hnot (t : Trap) : ((s.settleHold w).thread w).hold ≠ .due t := by rw [hthread]; exact hd t
    unfold State.takeDue
    split
    · next t ht => exact absurd ht (hnot t)
    · rfl
  rw [State.afterMatrix, hl]
  simp only [List.length_nil, State.retire, hdue]
  rw [State.haltIfAsked_of_none (by rw [hthread]; exact hh)]
  exact s.holdOnly_settleHold w

/-! ### The head of the queue (R81, R101, R153) -/

theorem State.countCore_sameMemory (s : State) (c : CoreIx) (e n : Nat) : s.sameMemory (s.countCore c e n) := by
  refine State.sameMemory_of (fun k => ?_) (fun d => ?_)
  · by_cases hk : k = c
    · rw [hk, State.core_countCore]
    · rw [State.core_countCore_other _ _ _ _ hk]
  · rw [State.countCore_eq]
    exact ⟨rfl, rfl, rfl⟩

/-- A tile that enters the operand cache. -/
theorem State.opcTouch_words (s : State) (c : CoreIx) (n : ThrIx) (k : BitVec 3) :
    (∀ v, (s.opcTouch c n k).thread v = s.thread v) ∧ ((s.opcTouch c n k).core c).slots = (s.core c).slots ∧ s.sameMemory (s.opcTouch c n k) := by
  have key (l : List (ThrIx × BitVec 3)) (e : Nat) :
      (∀ v, ((s.modCore c (fun x => { x with opc := l })).countCore c e 1).thread v = s.thread v) ∧
      (((s.modCore c (fun x => { x with opc := l })).countCore c e 1).core c).slots = (s.core c).slots ∧
      s.sameMemory ((s.modCore c (fun x => { x with opc := l })).countCore c e 1) := by
    have hmem : s.sameMemory (s.modCore c (fun x => { x with opc := l })) := s.modCore_sameMemory c rfl
    refine ⟨fun v => ?_, ?_, State.sameMemory_trans hmem (State.countCore_sameMemory _ c e 1)⟩
    · rw [State.thread_countCore, State.thread_modCore rfl]
    · rw [State.core_countCore, State.core_modCore]
  unfold State.opcTouch
  dsimp only
  split
  · exact key _ _
  · exact key _ _

@[simp] theorem State.slot_modSlot (s : State) (c : CoreIx) (k : Nat) (f : Slot → Slot) : ((s.modSlot c k f).core c).slot k = f ((s.core c).slot k) := by
  simp [State.modSlot, Core.slot]

theorem State.slot_modSlot_other (s : State) (c : CoreIx) {k j : Nat} (f : Slot → Slot) (h : j ≠ k) :
    ((s.modSlot c k f).core c).slot j = (s.core c).slot j := by
  simp [State.modSlot, Core.slot, Sparse.get_upd_other _ _ _ h]

theorem State.thread_modSlot (s : State) (c : CoreIx) (k : Nat) (f : Slot → Slot) (v : Who) : (s.modSlot c k f).thread v = s.thread v :=
  State.thread_modCore rfl v

theorem State.modSlot_sameMemory (s : State) (c : CoreIx) (k : Nat) (f : Slot → Slot) : s.sameMemory (s.modSlot c k f) := s.modCore_sameMemory c rfl

/-- The head of the queue once it has run, before anything that waited for it goes on. -/
def State.headRun (s : State) (c : CoreIx) (rest : List MatOp) (k : Nat) (y : Slot) (ta tb : BitVec 3) (n : ThrIx) (fl : BitVec 9) : State :=
  ((((s.opcTouch c n ta).opcTouch c n tb).modSlot c k (fun _ => y)).modCore c (fun x => { x with mq := rest })).modThread ⟨c, n⟩ (fun h => h.fpFlag fl)

theorem State.headRun_words (s : State) (c : CoreIx) (rest : List MatOp) (k : Nat) (y : Slot) (ta tb : BitVec 3) (n : ThrIx) (fl : BitVec 9) :
    ((s.headRun c rest k y ta tb n fl).core c).mq = rest ∧ ((s.headRun c rest k y ta tb n fl).core c).slot k = y ∧
      (∀ j, j ≠ k → ((s.headRun c rest k y ta tb n fl).core c).slot j = (s.core c).slot j) ∧
      (s.headRun c rest k y ta tb n fl).thread ⟨c, n⟩ = (s.thread ⟨c, n⟩).fpFlag fl ∧ s.sameMemory (s.headRun c rest k y ta tb n fl) := by
  obtain ⟨hthread, hslots, hmem⟩ := s.opcTouch_words c n ta
  obtain ⟨hthread', hslots', hmem'⟩ := (s.opcTouch c n ta).opcTouch_words c n tb
  rw [State.headRun]
  generalize (s.opcTouch c n ta).opcTouch c n tb = u at hthread' hslots' hmem' ⊢
  have hcore : (((u.modSlot c k (fun _ => y)).modCore c (fun x => { x with mq := rest })).modThread ⟨c, n⟩ (fun h => h.fpFlag fl)).core c =
      ({ (u.modSlot c k (fun _ => y)).core c with mq := rest } : Core).setThread n
        ((((u.modSlot c k (fun _ => y)).modCore c (fun x => { x with mq := rest })).thread ⟨c, n⟩).fpFlag fl) := by
    rw [State.core_modThread _ ⟨c, n⟩, State.core_modCore]
  have hslot (j : Nat) : ((((u.modSlot c k (fun _ => y)).modCore c (fun x => { x with mq := rest })).modThread ⟨c, n⟩ (fun h => h.fpFlag fl)).core c).slot j =
      ((u.modSlot c k (fun _ => y)).core c).slot j := by
    rw [hcore]
    rfl
  refine ⟨by rw [hcore]; rfl, (hslot k).trans (State.slot_modSlot _ _ _ _), fun j hj => ?_, ?_, ?_⟩
  · rw [hslot, State.slot_modSlot_other _ _ _ hj, Core.slot, Core.slot, hslots', hslots]
  · rw [State.thread_modThread, State.thread_modCore rfl, State.thread_modSlot, hthread', hthread]
  · exact State.sameMemory_trans (State.sameMemory_trans hmem hmem') (State.sameMemory_trans (State.modSlot_sameMemory _ c k _)
      (State.sameMemory_trans (State.modCore_sameMemory _ c rfl) (State.modThread_sameMemory _ _ _)))

/-- The slot of the queue's head after it has run, with its new log entry, and the flags its steps set (R153). -/
def State.headSlot (s : State) (c : CoreIx) (op : MatOp) (k : Nat) : Slot × BitVec 9 :=
  let a := (s.thread ⟨c, op.thr⟩).tile op.f.ta
  let b := (s.thread ⟨c, op.thr⟩).tile op.f.tb
  let r := ((s.core c).slot k).mm op.func op.f a.contents b.contents Option.none
  let e : LogEntry := { f := op.f, func := op.func, thr := op.thr, verA := a.version, verB := b.version, imgA := a.image, imgB := b.image,
                        srcA := a.source, srcB := b.source, sideA := a.sideSource, sideB := b.sideSource }
  ({ r.1 with live := true, unchk := true, log := r.1.log ++ [e] }, r.2)

theorem State.headSlot_words (s : State) (c : CoreIx) (op : MatOp) (k : Nat) :
    (s.headSlot c op k).1.live = true ∧ (s.headSlot c op k).1.unchk = true ∧
      (s.headSlot c op k).1.log.length = ((s.core c).slot k).log.length + 1 ∧
      ∀ i j, j < 32 → Sparse.get 0 (s.headSlot c op k).1.el (32 * i + j) = if i ≤ op.f.mf.toNat ∧ j ≤ op.f.nf.toNat then
        (elementSteps op.func op.f ((s.thread ⟨c, op.thr⟩).tile op.f.ta).contents ((s.thread ⟨c, op.thr⟩).tile op.f.tb).contents i j).zipIdx.foldl
          (stepValue op.f.ovw) (Sparse.get 0 ((s.core c).slot k).el (32 * i + j)) else Sparse.get 0 ((s.core c).slot k).el (32 * i + j) := by
  obtain ⟨hel, hlog⟩ := ((s.core c).slot k).mm_words op.func op.f ((s.thread ⟨c, op.thr⟩).tile op.f.ta).contents
    ((s.thread ⟨c, op.thr⟩).tile op.f.tb).contents
  refine ⟨rfl, rfl, ?_, hel⟩
  simp only [State.headSlot, hlog, List.length_append, List.length_singleton]

/-- The head of the matrix queue runs, behind no retry, acc.send, full log or older load (R100). -/
theorem matrixQueueIssue_runs {c : CoreIx} {op : MatOp} {rest : List MatOp} (hq : (s.core c).mq = op :: rest)
    (hshare : op.f.acc.toNat < (slotShare (s.core c).mode op.thr).2) {k : Nat} (hk : k = (slotShare (s.core c).mode op.thr).1 + op.f.acc.toNat)
    (hretry : (s.core c).retry = Option.none) (hsend : ((s.core c).slot k).sending = 0)
    (hlog : ((s.core c).slot k).log.length < 64) (hl : (s.thread ⟨c, op.thr⟩).loads = []) :
    exec (.matrixQueueIssue c Option.none) s = .next ((s.headRun c rest k (s.headSlot c op k).1 op.f.ta op.f.tb op.thr (s.headSlot c op k).2).afterMatrix
        ⟨c, op.thr⟩) := by
  have hphys : s.physSlot ⟨c, op.thr⟩ op.f.acc = some k := by rw [hk]; exact State.physSlot_eq hshare
  have hpassed : ((s.core c).thread op.thr).passed = [] := by
    rw [Thread.passed, show ((s.core c).thread op.thr).loads = [] from hl]
    rfl
  have hgo : ¬((s.core c).retry.isSome = true ∨ ((s.core c).slot k).sending ≠ 0 ∨ 64 ≤ ((s.core c).slot k).log.length ∨
      op.seq ∈ ((s.core c).thread op.thr).passed) := by
    simp [hretry, hsend, hpassed, hlog]
  rw [exec_matrixQueueIssue, execMatrixQueueIssue]
  simp only [hq, hphys, if_neg hgo, State.runHead, State.headRun, State.headSlot]

theorem matrixQueueIssue_waits {c : CoreIx} {op : MatOp} {rest : List MatOp} (hq : (s.core c).mq = op :: rest)
    (hshare : op.f.acc.toNat < (slotShare (s.core c).mode op.thr).2) {k : Nat} (hk : k = (slotShare (s.core c).mode op.thr).1 + op.f.acc.toNat)
    (hblock : (s.core c).retry.isSome = true ∨ ((s.core c).slot k).sending ≠ 0 ∨ 64 ≤ ((s.core c).slot k).log.length) :
    exec (.matrixQueueIssue c Option.none) s = .next s := by
  have hphys : s.physSlot ⟨c, op.thr⟩ op.f.acc = some k := by rw [hk]; exact State.physSlot_eq hshare
  rw [exec_matrixQueueIssue, execMatrixQueueIssue]
  simp only [hq, hphys]
  rw [if_pos]
  rcases hblock with hr | hsend | hlog
  · exact .inl hr
  · exact .inr (.inl hsend)
  · exact .inr (.inr (.inl hlog))

/-! ### Comparisons that pass (R146, R150, R152) -/

/-- Nothing but event counters differs, and of the cores only those of one core. -/
def State.countsOnly (s t : State) (c : CoreIx) : Prop :=
  s.onlyCore t c ∧ t.core c = { s.core c with pmc := (t.core c).pmc, pmcSat := (t.core c).pmcSat }

theorem State.countsOnly_refl (s : State) (c : CoreIx) : s.countsOnly s c := ⟨⟨rfl, fun _ _ => rfl⟩, rfl⟩

theorem State.countsOnly_countCore (s : State) (c : CoreIx) (e n : Nat) : s.countsOnly (s.countCore c e n) c :=
  ⟨⟨s.countCore_eq c e n, fun _ hk => s.core_countCore_other _ _ _ hk⟩, s.core_countCore c e n⟩

theorem State.countsOnly_countExempt (s : State) (c : CoreIx) (x : Slot) : s.countsOnly (s.countExempt c x) c := by
  unfold State.countExempt
  split
  · exact s.countsOnly_refl c
  · exact s.countsOnly_countCore c _ _

theorem State.countsOnly.trans {c : CoreIx} (h : s.countsOnly t c) (h' : t.countsOnly u c) : s.countsOnly u c := by
  obtain ⟨⟨hst, hcores⟩, hcore⟩ := h
  obtain ⟨⟨htu, hcores'⟩, hcore'⟩ := h'
  refine ⟨⟨by rw [htu, hst], fun e he => (hcores' e he).trans (hcores e he)⟩, by rw [hcore', hcore]⟩

theorem State.countsOnly.slots {c : CoreIx} (h : s.countsOnly t c) : (t.core c).slots = (s.core c).slots := by rw [h.2]

theorem State.countsOnly.thread {c : CoreIx} (h : s.countsOnly t c) (v : Who) : t.thread v = s.thread v := by
  by_cases hv : v.core = c
  · subst hv
    rw [State.thread, State.thread, h.2]
    rfl
  · rw [State.thread, State.thread, h.1.2 _ hv]

theorem State.countsOnly.sameMemory {c : CoreIx} (h : s.countsOnly t c) : s.sameMemory t := by
  obtain ⟨⟨hst, hcores⟩, hcore⟩ := h
  refine State.sameMemory_of (fun e => ?_) (fun d => ?_)
  · by_cases he : e = c
    · rw [he, hcore]
    · rw [hcores e he]
  · rw [hst]
    exact ⟨rfl, rfl, rfl⟩

/-- What a slot becomes at a comparison that passes: a new baseline, with UNCHK clear. -/
def Slot.passed (x : Slot) : Slot := { x.baseline with unchk := false }

theorem Slot.passed_words (x : Slot) : x.passed.el = x.el ∧ x.passed.live = x.live ∧ x.passed.unchk = false ∧ x.passed.log = [] ∧
    x.passed.sending = x.sending := by
  obtain ⟨hel, hlive, _, hlog, hsend⟩ := x.baseline_words
  exact ⟨hel, hlive, rfl, hlog, hsend⟩

/-- A comparison that passes counts, as its exempt lines do. -/
def State.compared (s : State) (c : CoreIx) (k : Nat) : State := (s.countExempt c ((s.core c).slot k)).countCore c 0x120 1

theorem State.countsOnly_compared (s : State) (c : CoreIx) (k : Nat) : s.countsOnly (s.compared c k) c :=
  (s.countsOnly_countExempt c _).trans (State.countsOnly_countCore _ c 0x120 1)

theorem State.compareSlot_passes {c : CoreIx} {k : Nat} (hx : ((s.core c).slot k).compare = Option.none) (n : ThrIx) (fl : Flush) :
    s.compareSlot n c k fl = (true, (s.compared c k).modSlot c k (fun _ => ((s.core c).slot k).passed)) := by
  simp only [State.compareSlot, hx]
  rfl

theorem checkpoint_early {c : CoreIx} {op : MatOp} {rest : List MatOp} (hq : (s.core c).mq = op :: rest)
    (hshare : op.f.acc.toNat < (slotShare (s.core c).mode op.thr).2) {k : Nat} (hk : k = (slotShare (s.core c).mode op.thr).1 + op.f.acc.toNat)
    (hlog : ((s.core c).slot k).log.length < 64) : exec (.checkpoint c) s = .next s := by
  have hphys : s.physSlot ⟨c, op.thr⟩ op.f.acc = some k := by rw [hk]; exact State.physSlot_eq hshare
  rw [exec_checkpoint, execCheckpoint]
  simp only [hq, hphys]
  rw [if_pos (.inr hlog)]

/-- A full log is compared before the head of the queue runs, and passes into an empty one (R150). -/
theorem checkpoint_passes {c : CoreIx} {op : MatOp} {rest : List MatOp} (hq : (s.core c).mq = op :: rest)
    (hshare : op.f.acc.toNat < (slotShare (s.core c).mode op.thr).2) {k : Nat} (hk : k = (slotShare (s.core c).mode op.thr).1 + op.f.acc.toNat)
    (hretry : (s.core c).retry = Option.none) (hlog : 64 ≤ ((s.core c).slot k).log.length) (hx : ((s.core c).slot k).compare = Option.none) :
    ∃ u, s.countsOnly u c ∧ exec (.checkpoint c) s = .next (u.modSlot c k (fun _ => ((s.core c).slot k).passed)) := by
  have hphys : s.physSlot ⟨c, op.thr⟩ op.f.acc = some k := by rw [hk]; exact State.physSlot_eq hshare
  have hcount := s.countsOnly_countCore c 0x121 1
  have hslot : ((s.countCore c 0x121 1).core c).slot k = (s.core c).slot k := by rw [Core.slot, hcount.slots]; rfl
  have hpass := State.compareSlot_passes (s := s.countCore c 0x121 1) (hslot ▸ hx) op.thr .checkpoint
  have hgo : ¬((s.core c).retry.isSome = true ∨ ((s.core c).slot k).log.length < 64) := by simp [hretry, hlog]
  refine ⟨_, hcount.trans (State.countsOnly_compared _ c k), ?_⟩
  rw [exec_checkpoint, execCheckpoint]
  simp only [hq, hphys, if_neg hgo]
  rw [hpass, hslot]

/-- What the head of the queue leaves once it has run, and what waited for it has gone on. -/
theorem State.headRun_afterMatrix {c : CoreIx} {n : ThrIx} (hl : (s.thread ⟨c, n⟩).loads = []) (hh : (s.thread ⟨c, n⟩).haltReq = Option.none)
    (hd : ∀ t, (s.thread ⟨c, n⟩).hold ≠ .due t) (rest : List MatOp) (k : Nat) (y : Slot) (ta tb : BitVec 3) (fl : BitVec 9) :
    let t := (s.headRun c rest k y ta tb n fl).afterMatrix ⟨c, n⟩
    (t.core c).mq = rest ∧ (t.core c).slot k = y ∧ (∀ j, j ≠ k → (t.core c).slot j = (s.core c).slot j) ∧
      (t.thread ⟨c, n⟩).pc = (s.thread ⟨c, n⟩).pc ∧ (∀ r, (t.thread ⟨c, n⟩).reg r = (s.thread ⟨c, n⟩).reg r) ∧ s.sameMemory t := by
  obtain ⟨hmq, hslot, hother, hthread, hmem⟩ := s.headRun_words c rest k y ta tb n fl
  generalize s.headRun c rest k y ta tb n fl = u at hmq hslot hother hthread hmem ⊢
  obtain ⟨honly, hkept⟩ := State.afterMatrix_holdOnly (s := u) (w := ⟨c, n⟩) (by rw [hthread]; exact hl) (by rw [hthread]; exact hd)
    (by rw [hthread]; exact hh)
  obtain ⟨hmq', hslots⟩ := honly.matrix
  refine ⟨hmq'.trans hmq, (hslots k).trans hslot, fun j hj => (hslots j).trans (hother j hj), ?_, fun r => ?_,
    State.sameMemory_trans hmem honly.sameMemory⟩
  · rw [hkept, hthread]; rfl
  · rw [hkept, hthread]; rfl

/-- Settles O13: an mm by what it is refused for, the head of the queue by the steps of its elements, the checkpoint by the comparison it makes. -/
theorem matrixProducts : Obligations.MatrixProducts := by
  refine ⟨fun s i f h => ?_, fun s c op rest hq hshare => ?_⟩
  · intro w g share bad form
    have hbad {k : BitVec 3} : bad k ↔ (g.tile k).unreadable = true := (decide_eq_true_iff (p := bad k)).symm
    have hgood {k : BitVec 3} (hk : ¬bad k) : (g.tile k).unreadable = false := decide_eq_false hk
    have hform (c : Instr) (func : BitVec 2) (hc : exec c s = mmIssue i func f s) : form c func := by
      obtain ⟨hshape, hrest⟩ := mmIssue_trap h func f
      rw [← hc] at hshape hrest
      refine ⟨hshape, fun hs => ?_⟩
      obtain ⟨hshare, htile⟩ := hrest hs
      refine ⟨hshare, fun hacc => ?_⟩
      obtain ⟨hta, htb⟩ := htile hacc
      refine ⟨fun ha => hta (hbad.mp ha), fun ha hb => htb (hgood ha) (hbad.mp hb), fun ha hb => ?_, fun ha hb => ?_⟩
      · rw [hc]; exact (mmIssue_queued h hs hacc (hgood ha) (hgood hb)).1
      · rw [hc]; exact (mmIssue_queued h hs hacc (hgood ha) (hgood hb)).2
    exact ⟨hform _ 0 rfl, hform _ 1 rfl, hform _ 2 rfl⟩
  · intro w k x a b steps value blocked
    have hopen (hb : ¬blocked) : (s.core c).retry = Option.none ∧ x.sending = 0 := by
      refine ⟨?_, not_not.mp fun hs => hb (.inr hs)⟩
      cases hr : (s.core c).retry with
      | none => rfl
      | some r => exact absurd (.inl (by rw [hr]; rfl)) hb
    refine ⟨fun hb => matrixQueueIssue_waits hq hshare rfl (or_assoc.mp hb), fun hb hlog hl hh hd => ?_,
      fun _ hlog => checkpoint_early hq hshare rfl hlog, fun hr hlog hx => ?_⟩
    · obtain ⟨hr, hsend⟩ := hopen hb
      obtain ⟨hlive, hunchk, hlen, hel⟩ := s.headSlot_words c op k
      obtain ⟨hmq, hslot, hother, hpc, hreg, hmem⟩ := State.headRun_afterMatrix hl hh hd rest k (s.headSlot c op k).1 op.f.ta op.f.tb (s.headSlot c op k).2
      refine ⟨_, matrixQueueIssue_runs hq hshare rfl hr hsend hlog hl, hmq, ?_, hother, hpc, hreg, hmem⟩
      rw [hslot]
      exact ⟨hlive, hunchk, hlen, fun i j _ hj => hel i j hj⟩
    · obtain ⟨u, hu, hexec⟩ := checkpoint_passes hq hshare rfl hr hlog hx
      obtain ⟨hel, _, hunchk, hlog', _⟩ := Slot.passed_words ((s.core c).slot k)
      refine ⟨_, hexec, ?_, ?_, ?_, ?_, State.sameMemory_trans hu.sameMemory (State.modSlot_sameMemory _ _ _ _)⟩
      · rw [State.modSlot, State.core_modCore, hu.2]; exact hq
      · rw [State.slot_modSlot]; exact hlog'
      · rw [State.slot_modSlot]; exact hel
      · rw [State.slot_modSlot]; exact hunchk

end Sys2Proof.Machine
end

section
/-! What ends with a core that a failed retry fences (R58, R157) keeps the record of the failure: the retry, the slots and ACC_CHKSTAT of the core, a cause that
is recorded in a thread, and a thread that is FENCED. No table has to be in canonical form for that, since none of these words is a default. -/

namespace Sys2Proof.Machine

/-- A recorded cause stays, and so does a thread that is FENCED. -/
structure Thread.Steady (g h : Thread) : Prop where
  cause : g.cause ≠ 0 → h.cause = g.cause
  fenced : g.state = .fenced → h.state = .fenced

theorem Thread.Steady.refl (g : Thread) : g.Steady g := ⟨fun _ => rfl, id⟩

theorem Thread.Steady.of_eq {g h : Thread} (e : g = h) : g.Steady h := e ▸ .refl g

theorem Thread.Steady.trans {g h k : Thread} (a : g.Steady h) (b : h.Steady k) : g.Steady k where
  cause hg := (b.cause (by rw [a.cause hg]; exact hg)).trans (a.cause hg)
  fenced hg := b.fenced (a.fenced hg)

/-- Where nothing is recorded that a default could not hold, nothing is lost. -/
theorem Thread.Steady.of_default {g : Thread} (h : g.Steady {}) (k : Thread) : g.Steady k where
  cause hg := absurd (h.cause hg).symm hg
  fenced hg := absurd (h.fenced hg) (by decide)

/-- While a retry stands, its core keeps it, its slots and ACC_CHKSTAT. -/
structure Core.Steady (x y : Core) : Prop where
  retry : x.retry ≠ Option.none → y.retry = x.retry ∧ y.slots = x.slots ∧ y.chkstat = x.chkstat
  thread : ∀ n, (x.thread n).Steady (y.thread n)

theorem Core.Steady.refl (x : Core) : x.Steady x := ⟨fun _ => ⟨rfl, rfl, rfl⟩, fun _ => .refl _⟩

theorem Core.Steady.of_eq {x y : Core} (h : x = y) : x.Steady y := h ▸ .refl x

theorem Core.Steady.trans {x y z : Core} (a : x.Steady y) (b : y.Steady z) : x.Steady z where
  retry hx := by
    obtain ⟨hretry, hslots, hstat⟩ := a.retry hx
    obtain ⟨hretry', hslots', hstat'⟩ := b.retry (by rw [hretry]; exact hx)
    exact ⟨hretry'.trans hretry, hslots'.trans hslots, hstat'.trans hstat⟩
  thread n := (a.thread n).trans (b.thread n)

theorem Core.Steady.of_default {x : Core} (h : x.Steady {}) (y : Core) : x.Steady y where
  retry hx := absurd (h.retry hx).1.symm hx
  thread n := (h.thread n).of_default _

/-- A change of a core that leaves its threads alone, and what its check unit recorded. -/
theorem Core.Steady.of_same {x y : Core} (hr : y.retry = x.retry) (hs : y.slots = x.slots) (hc : y.chkstat = x.chkstat) (ht : y.threads = x.threads) :
    x.Steady y := ⟨fun _ => ⟨hr, hs, hc⟩, fun n => by rw [Core.thread, Core.thread, ht]; exact .refl _⟩

theorem Core.Steady.setThread (x : Core) (n : ThrIx) {h : Thread} (hh : (x.thread n).Steady h) : x.Steady (x.setThread n h) where
  retry _ := ⟨rfl, rfl, rfl⟩
  thread m := by
    by_cases hm : m = n
    · rw [hm, Core.thread_setThread]; exact hh
    · rw [Core.thread_setThread_other _ _ hm]; exact .refl _

/-- A table whose listed entries change holds the changed entry, or one that the change makes the default. -/
theorem Sparse.get_mapVals_or {α : Type} [DecidableEq α] {d : α} (m : Sparse α) {f : Nat → α → α} (k : Nat) (hd : f k d = d) :
    Sparse.get d (Sparse.mapVals d f m) k = f k (Sparse.get d m k) ∨ f k (Sparse.get d m k) = d :=
  or_iff_not_imp_right.mpr fun h => Sparse.get_mapVals_of_ne hd h

theorem Core.Steady.mapThreads (x : Core) {f : Thread → Thread} (hf : f {} = {}) (hs : ∀ h : Thread, h.Steady (f h)) :
    x.Steady { x with threads := Sparse.mapVals {} (fun _ h => f h) x.threads } where
  retry _ := ⟨rfl, rfl, rfl⟩
  thread n := by
    have hn := hs (x.thread n)
    rcases Sparse.get_mapVals_or (d := {}) x.threads (f := fun _ h => f h) n.toNat hf with h | h
    · exact hn.trans (.of_eq h.symm)
    · exact Thread.Steady.of_default (hn.trans (.of_eq h)) _

/-- What a failed retry records stays in every core. -/
def State.Steady (s t : State) : Prop := ∀ c, (s.core c).Steady (t.core c)

section
variable {s t u : State}

theorem State.Steady.refl (s : State) : s.Steady s := fun _ => .refl _

theorem State.Steady.trans (h : s.Steady t) (h' : t.Steady u) : s.Steady u := fun c => (h c).trans (h' c)

theorem State.Steady.of_cores (h : t.cores = s.cores) : s.Steady t := fun c => by rw [State.core, State.core, h]; exact .refl _

theorem State.Steady.foldl {γ : Type} {f : State → γ → State} {l : List γ} (h : ∀ s a, State.Steady s (f s a)) : s.Steady (l.foldl f s) :=
  foldl_invariant (s.Steady ·) (.refl s) (fun t a _ ht => ht.trans (h t a))

theorem State.Steady.ite {p : Prop} [Decidable p] (ht : s.Steady t) (hu : s.Steady u) : s.Steady (if p then t else u) := by
  split
  · exact ht
  · exact hu

theorem State.Aside.steady (h : s.Aside t) : s.Steady t := fun c => by rw [h.core c]; exact .of_same rfl rfl rfl rfl

theorem State.Steady.thread (h : s.Steady t) (w : Who) : (s.thread w).Steady (t.thread w) := (h w.core).thread w.thr

end

section
variable (s : State)

/-! ### Single updates -/

theorem State.steady_modCore (c : CoreIx) {f : Core → Core} (hf : (s.core c).Steady (f (s.core c))) : s.Steady (s.modCore c f) := by
  intro e
  by_cases he : e = c
  · rw [he, State.core_modCore]; exact hf
  · rw [State.core_modCore_other _ _ he]; exact .refl _

theorem State.steady_modThread (w : Who) {f : Thread → Thread} (hf : (s.thread w).Steady (f (s.thread w))) : s.Steady (s.modThread w f) := by
  intro e
  by_cases he : e = w.core
  · rw [he, State.core_modThread]; exact .setThread _ _ hf
  · rw [State.core_modThread_other _ _ _ he]; exact .refl _

theorem State.steady_modDie (d : DieIx) (f : Die → Die) : s.Steady (s.modDie d f) := .of_cores rfl

theorem State.steady_clearResv (p : Loc → Bool) : s.Steady (s.clearResv p) := by
  have hthread (h : Thread) : h.Steady (h.unreserve p) := by rw [Thread.unreserve_eq]; exact ⟨fun _ => rfl, id⟩
  have hcore (x : Core) := Core.Steady.mapThreads x (f := (Thread.unreserve · p)) rfl hthread
  intro c
  rcases Sparse.get_mapVals_or (d := {}) s.cores
    (f := fun _ (x : Core) => { x with threads := Sparse.mapVals {} (fun _ h => Thread.unreserve h p) x.threads }) c.toNat rfl with h | h
  · exact (hcore (s.core c)).trans (.of_eq h.symm)
  · exact Core.Steady.of_default ((hcore (s.core c)).trans (.of_eq h)) _

/-! ### Messages (R279, R297, R309) -/

theorem State.steady_notified (o : MsgFrom) (code : BitVec 3) : s.Steady (s.notified o code) := by
  unfold State.notified
  split
  · exact .ite (s.aside_modTeam _ _).steady (.trans (s.aside_modTeam _ _).steady (State.aside_countTeam _ _ _ _).steady)
  · exact s.steady_modCore _ (.of_same rfl rfl rfl rfl)
  · exact .refl s

theorem State.steady_pendMsg (m : Msg) (leaves : Bool) : s.Steady (s.pendMsg m leaves) := by
  unfold State.pendMsg
  split
  · exact .ite (.refl s) (s.steady_modThread _ ⟨fun _ => rfl, id⟩)
  · exact .refl s

theorem State.steady_dropMsg (n : Nat) : s.Steady (s.dropMsg n) := .of_cores rfl

theorem State.steady_leaveMsg (m : Msg) : s.Steady (s.leaveMsg m) := by
  unfold State.leaveMsg
  dsimp only
  split
  · exact (s.steady_dropMsg _).trans (State.steady_notified _ _ _)
  · refine .ite (.trans ?_ (State.steady_pendMsg _ _ _)) (.trans (.trans ?_ (State.steady_pendMsg _ _ _)) (State.aside_sendReq _ _ _ _ _).steady) <;>
      exact .of_cores rfl

theorem State.steady_sendMsg (o : MsgFrom) (kind : BitVec 2) (thr : ThrIx) (sender target : BitVec 22) (q : BitVec 4) (epoch : BitVec 16)
    (bs : List Byte) (one : Bool) (limit : Option Nat) : s.Steady (s.sendMsg o kind thr sender target q epoch bs one limit) := by
  unfold State.sendMsg
  refine .ite (.of_cores rfl) (.trans ?_ (State.steady_leaveMsg _ _))
  exact .of_cores rfl

theorem State.steady_releaseChannel (sender target : BitVec 22) (q : BitVec 4) : s.Steady (s.releaseChannel sender target q) :=
  .foldl fun s m => .ite (.refl s) (s.steady_leaveMsg m)

theorem State.steady_endMsg (m : Msg) : s.Steady (s.endMsg m) := (s.steady_dropMsg _).trans (State.steady_releaseChannel _ _ _ _)

/-! ### The endings of items (R456, R459, R461) -/

theorem State.steady_pokeLoft (a : Word) (bs : List Byte) : s.Steady (s.pokeLoft a bs) :=
  ((s.steady_modDie _ _).trans (State.steady_modDie _ _ _)).trans ((State.steady_clearResv _ _).trans (State.steady_modDie _ _ _))

theorem State.steady_putRecord (r : BitVec 6) (k : BitVec 10) (rc : Nat) : s.Steady (s.putRecord r k rc) := by
  have hring (f : Ring → Ring) : s.Steady (s.modRing r f) := (s.aside_modRing r f).steady
  unfold State.putRecord
  exact .ite ((hring _).trans (State.aside_sendReq _ _ _ _ _).steady) (.ite ((hring _).trans (State.steady_pokeLoft _ _ _))
    ((hring _).trans ((State.aside_emit _ _).trans (State.aside_emit _ _)).steady))

theorem State.steady_unbind (l : Ledger) (h : BitVec 16) : s.Steady (s.unbind l h) := .ite (s.steady_modThread _ ⟨fun _ => rfl, id⟩) (.refl s)

theorem State.steady_forgetDelivery (r : BitVec 6) (k : BitVec 10) : s.Steady (s.forgetDelivery r k) := by
  unfold State.forgetDelivery
  exact .trans (.foldl fun s m => s.steady_endMsg m) (.of_cores rfl)

theorem State.steady_closeItem (r : BitVec 6) (k : BitVec 10) (status cause : Nat) (loc : BitVec 32) :
    s.Steady (s.closeItem r k status cause loc) := by
  have hclosed (t : State) (f : Ring → Ring) (e n : Nat) : t.Steady ((t.modRing r f).countMod e n) :=
    ((t.aside_modRing r f).trans (State.aside_countMod _ e n)).steady
  unfold State.closeItem
  refine .ite (.refl s) (.ite (s.aside_countMod _ _).steady (.trans (.trans ?_ (hclosed _ _ _ _)) (State.steady_putRecord _ _ _ _)))
  exact (s.steady_unbind _ _).trans (State.steady_forgetDelivery _ _ _)

theorem State.steady_startHold (w : Who) (r : BitVec 6) (k : BitVec 10) : s.Steady (s.startHold w r k) :=
  (s.aside_modRing r _).steady.trans (State.steady_modThread _ w ⟨fun _ => rfl, id⟩)

theorem State.steady_endItem (r : BitVec 6) (k : BitVec 10) (status cause : Nat) (loc : BitVec 32) : s.Steady (s.endItem r k status cause loc) := by
  unfold State.endItem
  split
  · exact (s.steady_startHold _ r k).trans (State.aside_countMod _ _ _).steady
  · exact (s.steady_closeItem r k _ _ _).trans (State.aside_countMod _ _ _).steady
  · exact s.steady_closeItem r k status cause loc

theorem State.steady_failItems (w : Who) (status cause : Nat) (loc : BitVec 32) : s.Steady (s.failItems w status cause loc) := by
  unfold State.failItems
  exact .trans (.foldl fun s _ => s.steady_endItem _ _ status cause loc) (State.steady_modThread _ w ⟨fun _ => rfl, id⟩)

/-! ### DMA channels and streams (R214, R229 to R237, R381) -/

theorem State.steady_dmaNotify (t : BitVec 8) (c : BitVec 3) : s.Steady (s.dmaNotify t c) := by
  unfold State.dmaNotify
  dsimp only
  split
  · exact .refl s
  · split
    · exact .trans (s.aside_modTeam _ _).steady (State.aside_countTeam _ _ _ _).steady
    · exact s.steady_sendMsg _ _ _ _ _ _ _ _ _ _

theorem State.steady_dmaEnd (t : BitVec 8) (c : BitVec 3) (code : BitVec 4) : s.Steady (s.dmaEnd t c code) := by
  unfold State.dmaEnd
  refine .trans ?_ (State.steady_dmaNotify _ t c)
  exact .of_cores rfl

theorem State.steady_abortCoreDma (c : CoreIx) : s.Steady (s.abortCoreDma c) :=
  .foldl fun s _ => .ite (.ite (s.aside_modTeam _ _).steady (s.steady_dmaEnd _ _ _)) (.refl s)

theorem State.steady_modStream (w : Who) (k : BitVec 3) (f : Stream → Stream) : s.Steady (s.modStream w k f) :=
  s.steady_modThread w ⟨fun _ => rfl, id⟩

theorem State.steady_relayLost (n : Nat) (c : CoreIx) (x : Stream) (b : Bool) : s.Steady (State.relayLost n s c x b) := by
  induction n generalizing s c x b with
  | zero => exact .refl s
  | succ n ih =>
    unfold State.relayLost
    split
    · exact .refl s
    · next w k _ =>
      refine .ite (.refl s) (.ite (.of_cores rfl) ?_)
      exact .ite ((s.steady_modStream w k _).trans (ih _ _ _ _)) (s.steady_modStream w k _)

theorem State.steady_stopStream (w : Who) (k : BitVec 3) (b : Bool) : s.Steady (s.stopStream w k b) := by
  unfold State.stopStream
  refine .ite (.trans ?_ (State.steady_relayLost _ _ _ _ _)) ?_ <;>
    exact (s.steady_modStream w k _).trans (.of_cores rfl)

/-! ### The core stops (R58) -/

theorem State.steady_stopStreams (w : Who) (b : Bool) : s.Steady (s.stopStreams w b) := .foldl fun s k => s.steady_stopStream w k b

theorem State.steady_leftWait (w : Who) : s.Steady (s.leftWait w) := .ite (s.steady_modDie _ _) (.refl s)

theorem State.steady_fenceThread (w : Who) : s.Steady (s.fenceThread w) := by
  have hstop (h : Thread) : h.Steady { h with state := .fenced, hold := .none, memHold := .none, loads := [], stepping := false } :=
    ⟨fun _ => rfl, fun _ => rfl⟩
  rw [State.fenceThread]
  exact ((s.steady_leftWait w).trans (State.steady_stopStreams _ w true)).trans (State.steady_modThread _ w (hstop _))

theorem State.steady_fenceThreads (c : CoreIx) : s.Steady (s.fenceThreads c) := by
  rw [State.fenceThreads_eq]
  exact .foldl fun s w => s.steady_fenceThread w

theorem State.steady_fenceThreads_all (c : CoreIx) (n : ThrIx) : ((s.fenceThreads c).thread ⟨c, n⟩).state = .fenced := by
  rw [State.fenceThreads_eq]
  exact foldl_each (I := fun _ => True) (P := fun (w : Who) (s : State) => (s.thread w).state = .fenced) (fun _ _ _ => trivial)
    (fun s w _ => by rw [State.fenceThread, State.thread_modThread])
    (fun s w v _ hv => ((s.steady_fenceThread w).thread v).fenced hv) trivial _ (mem_whos ⟨c, n⟩)

theorem State.steady_closeQueues (c : CoreIx) (bump : Bool) : s.Steady (s.closeQueues c bump) :=
  .foldl fun s _ => s.steady_modCore c (.of_same rfl rfl rfl rfl)

end

/-- A core that nothing had fenced stops, once the items of its threads have ended (R157, R445). -/
theorem State.fenceCore_stops {s : State} {c : CoreIx} (hf : (s.core c).fenced = false) (code : Nat) (o : Option (ThrIx × Nat)) :
    ∃ u, s.Steady u ∧ s.fenceCore c code o = ((u.stopCore c).markBad c).countMod 0x805 1 := by
  unfold State.fenceCore
  rw [if_neg (by rw [hf]; decide)]
  refine ⟨_, .foldl fun s w => ?_, rfl⟩
  split
  · exact .ite (s.steady_failItems _ _ _ _) (s.steady_failItems _ _ _ _)
  · exact s.steady_failItems _ _ _ _

/-- What a failed retry leaves of its core. -/
structure State.RetryEnded (s t : State) (c : CoreIx) : Prop where
  fenced : (t.core c).fenced = true
  retry : (t.core c).retry = Option.none
  state : ∀ n, (t.thread ⟨c, n⟩).state = .fenced
  slots : (t.core c).slots = (s.core c).slots
  chkstat : (t.core c).chkstat = (s.core c).chkstat
  cause : ∀ n, (s.thread ⟨c, n⟩).cause ≠ 0 → (t.thread ⟨c, n⟩).cause = (s.thread ⟨c, n⟩).cause

theorem State.RetryEnded.of_cores {s t u : State} {c : CoreIx} (h : s.RetryEnded t c) (hu : u.cores = t.cores) : s.RetryEnded u c := by
  have hcore : u.core c = t.core c := by rw [State.core, hu, State.core]
  have hthread (n : ThrIx) : u.thread ⟨c, n⟩ = t.thread ⟨c, n⟩ := by rw [State.thread, hcore, State.thread]
  exact ⟨hcore ▸ h.fenced, hcore ▸ h.retry, fun n => hthread n ▸ h.state n, hcore ▸ h.slots, hcore ▸ h.chkstat, fun n => hthread n ▸ h.cause n⟩

theorem State.stopCore_retryEnded {s u : State} {c : CoreIx} (h : s.Steady u) (hr : (s.core c).retry ≠ Option.none) :
    s.RetryEnded (u.stopCore c) c := by
  have hfenced := u.steady_fenceThreads_all c
  have hthreads := u.steady_fenceThreads c
  have hrest := ((u.fenceThreads c).steady_closeQueues c true).trans (State.steady_abortCoreDma _ c)
  rw [State.stopCore]
  generalize ((u.fenceThreads c).closeQueues c true).abortCoreDma c = v at hrest ⊢
  have hall := h.trans (hthreads.trans hrest)
  obtain ⟨-, hslots, hstat⟩ := (hall c).retry hr
  have hthread (n : ThrIx) : (v.markFenced c).thread ⟨c, n⟩ = v.thread ⟨c, n⟩ := v.thread_markFenced ⟨c, n⟩
  refine ⟨by rw [State.core_markFenced], by rw [State.core_markFenced], fun n => ?_, by rw [State.core_markFenced]; exact hslots,
    by rw [State.core_markFenced]; exact hstat, fun n hn => ?_⟩
  · rw [hthread]; exact (hrest.thread ⟨c, n⟩).fenced (hfenced n)
  · rw [hthread]; exact (hall.thread ⟨c, n⟩).cause hn

theorem State.fenceCore_retryEnded {s : State} {c : CoreIx} (hf : (s.core c).fenced = false) (hr : (s.core c).retry ≠ Option.none) (code : Nat)
    (o : Option (ThrIx × Nat)) : s.RetryEnded (s.fenceCore c code o) c := by
  obtain ⟨u, hu, hfence⟩ := State.fenceCore_stops hf code o
  rw [hfence]
  refine (State.stopCore_retryEnded hu hr).of_cores ?_
  rw [State.countMod_cores, State.markBad_eq]

end Sys2Proof.Machine
end

section
/-! The check retry (R150, R154, R156, R157, R159): what a failed and what a passed one leave. -/

namespace Sys2Proof.Machine

variable {s t u : State}

/-! ### ACC_CHKSTAT (R159) -/

/-- ACC_CHKSTAT after a mismatch. -/
def Retry.record (r : Retry) (stat : BitVec 17) (outcome : Nat) (reread : Bool) : BitVec 17 :=
  if stat.extractLsb' 14 2 = 2 ∨ stat.extractLsb' 14 2 = 3 then stat
  else BitVec.ofNat 17 (2 ^ 16 + outcome * 2 ^ 14 + r.thr.toNat * 2 ^ 12 + r.slot * 2 ^ 8 + b2n reread * 2 ^ 6 + b2n r.col * 2 ^ 5 + r.line.toNat)

theorem Core.chkRecord_eq (x : Core) (outcome : Nat) (r : Retry) (reread : Bool) :
    x.chkRecord outcome r reread = { x with chkstat := r.record x.chkstat outcome reread } := by
  unfold Core.chkRecord Retry.record
  split
  · rfl
  · rfl

/-- The low byte of a cause is the trap's code (R37). -/
theorem causeWord_code (d : BitVec 16) (long : Bool) : (causeWord { code := 0x08, detail := d } long).extractLsb' 0 8 = 0x08 := by
  refine BitVec.eq_of_toNat_eq ?_
  rw [BitVec.extractLsb'_toNat, causeWord, BitVec.toNat_ofNat, Nat.shiftRight_zero]
  change (d.toNat * 65536 + b2n long * 256 + 8) % 4294967296 % 256 = 8
  omega

/-! ### A retry that fails (R157) -/

theorem State.core_modSlot (s : State) (c : CoreIx) (k : Nat) (f : Slot → Slot) :
    (s.modSlot c k f).core c = { s.core c with slots := ((s.modSlot c k f).core c).slots } := by
  rw [State.modSlot, State.core_modCore]

/-- The core of a failed retry before it is fenced. -/
def State.retryRecorded (s : State) (c : CoreIx) (r : Retry) (y : Slot) (outcome : Nat) (reread : Bool) : State :=
  ((s.modSlot c r.slot (fun x => { y with live := x.live, unchk := x.unchk, log := x.log, shadow := x.shadow, sending := x.sending })).modCore c
    (fun y => y.chkRecord outcome r reread)).countCore c 0x123 1

theorem State.retryRecorded_core (s : State) (c : CoreIx) (r : Retry) (y : Slot) (outcome : Nat) (reread : Bool) :
    let u := s.retryRecorded c r y outcome reread
    (u.core c).fenced = (s.core c).fenced ∧ (u.core c).retry = (s.core c).retry ∧ (u.core c).chkstat = r.record (s.core c).chkstat outcome reread ∧
      ((u.core c).slot r.slot).el = y.el := by
  have hslot := s.slot_modSlot c r.slot
    (fun x => { y with live := x.live, unchk := x.unchk, log := x.log, shadow := x.shadow, sending := x.sending })
  have hcore := s.core_modSlot c r.slot
    (fun x => { y with live := x.live, unchk := x.unchk, log := x.log, shadow := x.shadow, sending := x.sending })
  dsimp only
  rw [State.retryRecorded]
  generalize s.modSlot c r.slot _ = u at hslot hcore ⊢
  have hslots : (((u.modCore c (fun y => y.chkRecord outcome r reread)).countCore c 0x123 1).core c).slots = (u.core c).slots := by
    rw [State.core_countCore, State.core_modCore, Core.chkRecord_eq]
  refine ⟨?_, ?_, ?_, by rw [Core.slot, hslots, ← Core.slot, hslot]⟩
  · rw [State.core_countCore, State.core_modCore, Core.chkRecord_eq, hcore]
  · rw [State.core_countCore, State.core_modCore, Core.chkRecord_eq, hcore]
  · rw [State.core_countCore, State.core_modCore, Core.chkRecord_eq, hcore]

theorem State.retryFail_words {c : CoreIx} {r : Retry} (hf : (s.core c).fenced = false) (hr : (s.core c).retry = some r) (y : Slot) (outcome : Nat)
    (reread : Bool) :
    let t := s.retryFail c r y outcome reread
    (t.core c).fenced = true ∧ (t.core c).retry = Option.none ∧ (∀ n, (t.thread ⟨c, n⟩).state = .fenced) ∧
      (t.thread ⟨c, r.thr⟩).cause.extractLsb' 0 8 = 0x08 ∧ ((t.core c).slot r.slot).el = y.el ∧
      (t.core c).chkstat = r.record (s.core c).chkstat outcome reread := by
  obtain ⟨hfenced, hretry, hstat, hel⟩ := s.retryRecorded_core c r y outcome reread
  dsimp only
  unfold State.retryFail
  dsimp only
  rw [← State.retryRecorded]
  generalize s.retryRecorded c r y outcome reread = u at hfenced hretry hstat hel ⊢
  generalize hcause : causeWord _ _ = z
  have hcode : z.extractLsb' 0 8 = 0x08 := hcause ▸ causeWord_code _ _
  have hcore := u.core_modThread ⟨c, r.thr⟩ (fun h => { h with cause := z })
  have hz : ((u.modThread ⟨c, r.thr⟩ (fun h => { h with cause := z })).thread ⟨c, r.thr⟩).cause = z := by rw [State.thread_modThread]
  generalize u.modThread ⟨c, r.thr⟩ (fun h => { h with cause := z }) = v at hcore hz ⊢
  have hslots : (v.core c).slots = (u.core c).slots := by rw [hcore]; rfl
  obtain ⟨hfen, hret, hstate, hslots', hstat', hcause'⟩ := State.fenceCore_retryEnded (s := v) (c := c) (by rw [hcore]; exact hfenced.trans hf)
    (by rw [hcore]; exact fun h => nomatch (hretry.trans hr).symm.trans h) 0x08 (some (r.thr, (v.core c).chkstat.toNat % 65536))
  refine ⟨hfen, hret, hstate, ?_, ?_, ?_⟩
  · rw [hcause' r.thr (by rw [hz]; rintro rfl; exact absurd hcode (by decide)), hz]
    exact hcode
  · rw [Core.slot, hslots', hslots, ← Core.slot, hel]
  · rw [hstat', hcore]; exact hstat

/-! ### A retry that passes (R157) -/

/-- The core of a retry that passed, before what waited for it goes on. -/
def State.retryCleared (s : State) (c : CoreIx) (r : Retry) (x : Slot) (reread : Bool) : State :=
  ((s.modCore c (fun y => { y.chkRecord 1 r reread with retry := Option.none })).countCore c 0x122 1).passSlot c r.slot x

theorem State.retryCleared_words (s : State) (c : CoreIx) (r : Retry) (x : Slot) (reread : Bool) :
    let u := s.retryCleared c r x reread
    (u.core c).retry = Option.none ∧ (u.core c).slot r.slot = x.passed ∧ (u.core c).chkstat = r.record (s.core c).chkstat 1 reread ∧
      (∀ v, u.thread v = s.thread v) ∧ s.sameMemory u := by
  have hcore := s.core_modCore c (fun y => { y.chkRecord 1 r reread with retry := Option.none })
  have hkept : ({ (s.core c).chkRecord 1 r reread with retry := Option.none } : Core) =
      { s.core c with chkstat := r.record (s.core c).chkstat 1 reread, retry := Option.none } := by rw [Core.chkRecord_eq]
  have hmem : s.sameMemory (s.modCore c (fun y => { y.chkRecord 1 r reread with retry := Option.none })) :=
    s.modCore_sameMemory c (by rw [hkept])
  have hthread (v : Who) : (s.modCore c (fun y => { y.chkRecord 1 r reread with retry := Option.none })).thread v = s.thread v :=
    State.thread_modCore (by rw [hkept]) v
  rw [hkept] at hcore
  dsimp only
  rw [State.retryCleared, State.passSlot]
  generalize s.modCore c (fun y => { y.chkRecord 1 r reread with retry := Option.none }) = u at hcore hmem hthread ⊢
  refine ⟨?_, State.slot_modSlot _ _ _ _, ?_, fun v => ?_, ?_⟩
  · rw [State.core_modSlot, State.core_countCore, hcore]
  · rw [State.core_modSlot, State.core_countCore, hcore]
  · rw [State.thread_modSlot, State.thread_countCore, hthread]
  · exact State.sameMemory_trans hmem (State.sameMemory_trans (u.countCore_sameMemory c 0x122 1) (State.modSlot_sameMemory _ c _ _))

/-- The acc.chk that waited for a retry that passed completes. -/
theorem State.retryPass_chk {c : CoreIx} {r : Retry} (hchk : r.flush = .chk) (hq : (s.thread ⟨c, r.thr⟩).undisturbed) (x : Slot) (reread : Bool) :
    s.retryPass c r x reread = (s.retryCleared c r x reread).retired ⟨c, r.thr⟩ 8 id := by
  obtain ⟨_, _, _, hthread, _⟩ := s.retryCleared_words c r x reread
  have hdone := settle_done_of_undisturbed (s := s) (t := s.retryCleared c r x reread) (w := ⟨c, r.thr⟩) (by rw [hthread]; exact hq) true
  rw [State.retryPass, hchk]
  exact hdone

theorem State.retryPass_chk_words {c : CoreIx} {r : Retry} (hchk : r.flush = .chk) (hq : (s.thread ⟨c, r.thr⟩).undisturbed) (x : Slot)
    (reread : Bool) :
    let t := s.retryPass c r x reread
    (t.core c).retry = Option.none ∧ (t.core c).slot r.slot = x.passed ∧ (t.thread ⟨c, r.thr⟩).pc = (s.thread ⟨c, r.thr⟩).pc + 8 ∧
      (t.core c).chkstat = r.record (s.core c).chkstat 1 reread ∧ s.sameMemory t := by
  obtain ⟨hretry, hslot, hstat, hthread, hmem⟩ := s.retryCleared_words c r x reread
  dsimp only
  rw [State.retryPass_chk hchk hq]
  generalize s.retryCleared c r x reread = u at hretry hslot hstat hthread hmem ⊢
  have honly := u.onlyThread_retired ⟨c, r.thr⟩ 8 id
  have hpc := u.thread_retired ⟨c, r.thr⟩ 8 id
  generalize u.retired ⟨c, r.thr⟩ 8 id = t at honly hpc ⊢
  have hcore := honly.2.2
  refine ⟨by rw [hcore]; exact hretry, (honly.matrix.2 _).trans hslot, ?_, by rw [hcore]; exact hstat, State.sameMemory_trans hmem honly.sameMemory⟩
  rw [hpc, hthread]
  rfl

/-! ### The retry itself (R154, R156) -/

theorem checkRetry_shadow {c : CoreIx} {r : Retry} (hr : (s.core c).retry = some r) (flip : Option Flip) (u : Upset) :
    exec (.checkRetry c ⟨flip, true, u⟩) s = .next (s.retryFail c r ((s.core c).slot r.slot) 3 false) := by
  rw [exec_checkRetry, execCheckRetry]
  simp only [hr, if_true]

/-- A retry that has replayed its whole log without reading an operand again. -/
theorem checkRetry_replayed {c : CoreIx} {r : Retry} (hr : (s.core c).retry = some r) {flip : Option Flip} {y : Slot} {fl : BitVec 9}
    (hy : s.replay c r.slot flip 0 .none 0 ((s.core c).slot r.slot).log
      (.going (Slot.baseline { (s.core c).slot r.slot with el := ((s.core c).slot r.slot).shadow }) 0 0) = (.going y fl 0, s)) :
    exec (.checkRetry c ⟨flip, false, .none⟩) s = .next (if y.compare.isNone then ((s.retryNote c r fl 0).countExempt c y).retryPass c r y false
      else ((s.retryNote c r fl 0).countExempt c y).retryFail c r y 2 false) := by
  rw [exec_checkRetry, execCheckRetry]
  simp only [hr, Bool.false_eq_true, if_false, if_true, Nat.zero_mod, hy]
  rfl

/-- Counting what a replay did leaves the core's check unit and the thread's place as they were. -/
theorem State.retryNote_words (s : State) (c : CoreIx) (r : Retry) (fl : BitVec 9) (y : Slot) :
    let u := (s.retryNote c r fl 0).countExempt c y
    (u.core c).fenced = (s.core c).fenced ∧ (u.core c).retry = (s.core c).retry ∧ (u.core c).chkstat = (s.core c).chkstat ∧
      u.thread ⟨c, r.thr⟩ = (s.thread ⟨c, r.thr⟩).fpFlag fl ∧ s.sameMemory u := by
  have hcore : (s.retryNote c r fl 0).core c = (s.core c).setThread r.thr ((s.thread ⟨c, r.thr⟩).fpFlag fl) := State.core_modThread _ ⟨c, r.thr⟩ _
  have hthread : (s.retryNote c r fl 0).thread ⟨c, r.thr⟩ = (s.thread ⟨c, r.thr⟩).fpFlag fl := State.thread_modThread _ ⟨c, r.thr⟩ _
  have hmem : s.sameMemory (s.retryNote c r fl 0) :=
    State.sameMemory_trans (fun l => State.byteAt_congr rfl rfl l) (State.modThread_sameMemory _ ⟨c, r.thr⟩ _)
  have hcount := (s.retryNote c r fl 0).countsOnly_countExempt c y
  dsimp only
  generalize s.retryNote c r fl 0 = u at hcore hthread hmem hcount ⊢
  exact ⟨by rw [hcount.2, hcore]; rfl, by rw [hcount.2, hcore]; rfl, by rw [hcount.2, hcore]; rfl, (hcount.thread _).trans hthread,
    State.sameMemory_trans hmem hcount.sameMemory⟩

/-! ### ACC_SPLIT (R107) -/

/-- A table in canonical form that holds only defaults lists nothing. -/
theorem Sparse.eq_nil_of_get {α : Type} [DecidableEq α] {d : α} {m : Sparse α} (hw : Sparse.wf d m = true) (h : ∀ k, Sparse.get d m k = d) : m = [] := by
  cases m with
  | nil => rfl
  | cons e m =>
    obtain ⟨k, v⟩ := e
    simp only [Sparse.wf, Sparse.wfFrom, Bool.and_eq_true, decide_eq_true_eq] at hw
    obtain ⟨⟨_, hv⟩, _⟩ := hw
    refine absurd ?_ hv
    rw [← h k, Sparse.get, if_pos rfl]

theorem State.modCore_congr {c : CoreIx} {f g : Core → Core} (h : f (s.core c) = g (s.core c)) : s.modCore c f = s.modCore c g :=
  congrArg (s.setCore c) h

/-- ERR of ACC_SPLIT is cleared by writing 1. -/
theorem Core.splitErr_cleared (x : Core) (b : Bool) :
    (if b = true then { x with splitErr := false } else x) = { x with splitErr := x.splitErr && !b } := by
  cases b
  · simp
  · simp

/-- A write of ACC_SPLIT changes MODE, or does not and may set ERR. -/
theorem accSplitWrite_cases (s : State) (v : Via) (c : CoreIx) (val : Word) :
    let x := s.core c
    let mode : BitVec 2 := val.extractLsb' 0 2
    let err := x.splitErr && !(val.getLsbD 8)
    (mode = x.mode → exec (.accSplitWrite v c val) s = .next (s.modCore c (fun x => { x with splitErr := err }))) ∧
    (mode ≠ x.mode → mode ≠ 3 → x.slots = [] ∧ x.mq = [] →
      exec (.accSplitWrite v c val) s = .next (s.modCore c (fun x => { x with splitErr := err, mode := mode }))) ∧
    (mode ≠ x.mode → mode = 3 ∨ ¬(x.slots = [] ∧ x.mq = []) →
      exec (.accSplitWrite v c val) s = .next (s.modCore c (fun x => { x with splitErr := true }))) := by
  intro x mode err
  refine ⟨fun hm => congrArg Host.Outcome.next (State.modCore_congr ?_), fun hm h3 hidle => congrArg Host.Outcome.next (State.modCore_congr ?_),
    fun hm hbad => congrArg Host.Outcome.next (State.modCore_congr ?_)⟩
  · dsimp only
    rw [Core.splitErr_cleared, if_pos hm]
  · obtain ⟨hs, hq⟩ := hidle
    dsimp only
    rw [Core.splitErr_cleared, if_neg hm, if_neg]
    simpa [x, hs, hq] using show ¬mode = 3 ∧ (s.core c).slots = [] ∧ (s.core c).mq = [] from ⟨h3, hs, hq⟩
  · dsimp only
    rw [Core.splitErr_cleared, if_neg hm, if_pos]
    refine hbad.imp id fun hidle => ?_
    simp only [List.isEmpty_iff]
    exact not_and_or.mp hidle

end Sys2Proof.Machine
end

section
/-! The acc instructions on a slot that passes its comparison, or needs none (R108, R111, R112, R152). -/

namespace Sys2Proof.Machine

variable {s t u : State} {i : Iss}

/-! ### Issue (R108) -/

/-- An acc instruction does its work on the slot it names in the thread's share, and none on a slot beyond it. -/
theorem accIssue_refused (h : s.ready i true = true) {acc : BitVec 4} (hshare : (slotShare (s.core i.who.core).mode i.who.thr).2 ≤ acc.toNat)
    (c : Cls) (body : State → Nat → Res) : accIssue i c acc body s = .next (s.settle i.who true (.trap s { code := 0x03, detail := acc.zeroExtend 16 })) := by
  rw [accIssue, issue_of_ready h, State.physSlot_none hshare, slotFault]

theorem accIssue_done (h : s.ready i true = true) {acc : BitVec 4} (hshare : acc.toNat < (slotShare (s.core i.who.core).mode i.who.thr).2)
    (c : Cls) {body : State → Nat → Res}
    (hbody : body s ((slotShare (s.core i.who.core).mode i.who.thr).1 + acc.toNat) = .done t) (hq : (t.thread i.who).undisturbed) :
    accIssue i c acc body s = .next (t.retired i.who 8 id) := by
  rw [accIssue, issue_of_ready h, State.physSlot_eq hshare]
  simp only [hbody]
  exact congrArg Host.Outcome.next (settle_done_of_undisturbed hq true)

/-! ### What stands behind a comparison (R150 to R152) -/

/-- A slot stands compared: it is as it was, but that its carried values may be new, and it is not UNCHK. -/
structure State.Compared (s t : State) (c : CoreIx) (k : Nat) : Prop where
  frame : s.onlyCore t c
  core : t.core c = { s.core c with slots := (t.core c).slots, pmc := (t.core c).pmc, pmcSat := (t.core c).pmcSat }
  thread : ∀ v, t.thread v = s.thread v
  other : ∀ j, j ≠ k → (t.core c).slot j = (s.core c).slot j
  el : ((t.core c).slot k).el = ((s.core c).slot k).el
  live : ((t.core c).slot k).live = ((s.core c).slot k).live
  unchk : ((t.core c).slot k).unchk = false
  memory : s.sameMemory t
  wf : Sparse.wf {} s.cores = true → Sparse.wf {} t.cores = true

theorem State.wf_countCore (c : CoreIx) (e n : Nat) (h : Sparse.wf {} s.cores = true) : Sparse.wf {} (s.countCore c e n).cores = true := by
  unfold State.countCore
  dsimp only
  split
  · exact h
  · exact Sparse.wf_put _ _ h

theorem State.wf_compared (c : CoreIx) (k : Nat) (h : Sparse.wf {} s.cores = true) : Sparse.wf {} (s.compared c k).cores = true := by
  refine State.wf_countCore c _ _ ?_
  unfold State.countExempt
  split
  · exact h
  · exact State.wf_countCore c _ _ h

theorem State.onlyCore.modCore {c : CoreIx} (h : s.onlyCore t c) (f : Core → Core) : s.onlyCore (t.modCore c f) c := by
  obtain ⟨hst, hcores⟩ := h
  exact ⟨congrArg (fun u : State => { u with cores := (t.modCore c f).cores }) hst,
    fun e he => (State.core_modCore_other t f he).trans (hcores e he)⟩

/-- A slot that is not UNCHK needs no comparison. -/
theorem State.Compared.refl {c : CoreIx} {k : Nat} (h : ((s.core c).slot k).unchk = false) : s.Compared s c k :=
  ⟨⟨rfl, fun _ _ => rfl⟩, rfl, fun _ => rfl, fun _ _ => rfl, rfl, rfl, h, fun _ => rfl, id⟩

/-- The state in which a slot has passed its comparison. -/
def State.slotPassed (s : State) (c : CoreIx) (k : Nat) : State := (s.compared c k).modSlot c k (fun _ => ((s.core c).slot k).passed)

theorem State.slotPassed_slot (s : State) (c : CoreIx) (k : Nat) : ((s.slotPassed c k).core c).slot k = ((s.core c).slot k).passed :=
  State.slot_modSlot _ _ _ _

theorem State.slotPassed_compared (s : State) (c : CoreIx) (k : Nat) : s.Compared (s.slotPassed c k) c k := by
  have hcount := s.countsOnly_compared c k
  obtain ⟨hel, hlive, hunchk, _⟩ := ((s.core c).slot k).passed_words
  refine ⟨by rw [State.slotPassed, State.modSlot]; exact hcount.1.modCore _, ?_, fun v => ?_, fun j hj => ?_, ?_, ?_, ?_, ?_, fun hw => State.wf_modCore c _ (State.wf_compared c k hw)⟩
  · rw [State.slotPassed, State.core_modSlot, hcount.2]
  · rw [State.slotPassed, State.thread_modSlot, hcount.thread]
  · rw [State.slotPassed, State.slot_modSlot_other _ _ _ hj, Core.slot, hcount.slots]; rfl
  · rw [State.slotPassed_slot, hel]
  · rw [State.slotPassed_slot, hlive]
  · rw [State.slotPassed_slot, hunchk]
  · exact State.sameMemory_trans hcount.sameMemory (State.modSlot_sameMemory _ c k _)

/-- A flush of a slot that passes takes effect on the slot compared. -/
theorem flushSlot_passes {w : Who} {acc : BitVec 4} {k : Nat} (hbusy : s.slotBusy w acc k = false)
    (hx : ((s.core w.core).slot k).compare = Option.none) (fl : Flush) :
    flushSlot s w acc k fl true = .done ((s.slotPassed w.core k).flushEffect w k ((s.core w.core).slot k) fl) := by
  unfold flushSlot
  rw [if_neg (by rw [hbusy]; decide)]
  simp only [Bool.not_true, Bool.false_eq_true, if_false, State.compareSlot_passes hx, State.slotPassed]

/-- A row read of a slot that passes, or needs no comparison, takes effect on a slot that stands compared (R152). -/
theorem flushSlot_read {w : Who} {acc : BitVec 4} {k : Nat} (hbusy : s.slotBusy w acc k = false)
    (hx : ((s.core w.core).slot k).compare = Option.none ∨ ((s.core w.core).slot k).unchk = false) (fl : Flush) :
    ∃ p, s.Compared p w.core k ∧
      flushSlot s w acc k fl ((s.core w.core).slot k).unchk = .done (p.flushEffect w k ((s.core w.core).slot k) fl) := by
  cases hunchk : ((s.core w.core).slot k).unchk with
  | false =>
    refine ⟨s, .refl hunchk, ?_⟩
    unfold flushSlot
    rw [if_neg (by rw [hbusy]; decide)]
    rfl
  | true =>
    exact ⟨_, s.slotPassed_compared w.core k, flushSlot_passes hbusy (hx.resolve_right (by rw [hunchk]; decide)) fl⟩

/-! ### Completion -/

/-- An instruction completed: its thread stands behind it, its general registers are kept, and so is every slot but one. -/
def State.accDone (s t : State) (w : Who) (k : Nat) : Prop :=
  (t.thread w).pc = (s.thread w).pc + 8 ∧ (∀ r, (t.thread w).reg r = (s.thread w).reg r) ∧
    ∀ j, j ≠ k → (t.core w.core).slot j = (s.core w.core).slot j

/-- What the completion of an instruction adds to the state it left. -/
theorem State.accDone_retired {w : Who} {k : Nat} (hg : (t.thread w).g = (s.thread w).g) (hpc : (t.thread w).pc = (s.thread w).pc)
    (hother : ∀ j, j ≠ k → (t.core w.core).slot j = (s.core w.core).slot j) : s.accDone (t.retired w 8 id) w k := by
  have hthread := t.thread_retired w 8 id
  have honly := t.onlyThread_retired w 8 id
  generalize t.retired w 8 id = u at hthread honly ⊢
  refine ⟨by rw [hthread, ← hpc]; rfl, fun r => ?_, fun j hj => (honly.matrix.2 j).trans (hother j hj)⟩
  rw [hthread]
  exact congrArg (fun g => Thread.reg { (s.thread w) with g := g } r) hg

/-- A change of the thread's vector registers and flags behind a slot that stands compared. -/
theorem State.Compared.retired {p q : State} {w : Who} {k : Nat} (hp : s.Compared p w.core k) (honly : p.onlyThread q w) {f : Thread → Thread}
    (hmod : q.thread w = f (s.thread w)) (hg : ∀ h, (f h).g = h.g) (hpc : ∀ h, (f h).pc = h.pc) :
    let t := q.retired w 8 id
    s.accDone t w k ∧ (t.core w.core).slot k = (p.core w.core).slot k ∧ (∀ v, (t.thread w).vec v = (f (s.thread w)).vec v) ∧ s.sameMemory t := by
  have hthread := q.thread_retired w 8 id
  have honly' := q.onlyThread_retired w 8 id
  refine ⟨State.accDone_retired (by rw [hmod, hg]) (by rw [hmod, hpc]) fun j hj => (honly.matrix.2 j).trans (hp.other j hj),
    (honly'.matrix.2 k).trans (honly.matrix.2 k), fun v => ?_, State.sameMemory_trans hp.memory (State.sameMemory_trans honly.sameMemory honly'.sameMemory)⟩
  rw [hthread, hmod]
  rfl

/-! ### acc.row and acc.rmax (R111, R135) -/

/-- A row as a vector register has its elements in its lanes. -/
theorem Slot.lane_rowVec (x : Slot) (r : Nat) {j : Nat} (hj : j < 32) : (x.rowVec r).extractLsb' (32 * j) 32 = Sparse.get 0 x.el (32 * r + j) := by
  have hrow : x.rowVec r = vecOf 32 ((List.range 32).map fun j => (Sparse.get 0 x.el (32 * r + j)).toNat) := by
    rw [Slot.rowVec, Slot.rowEls, List.map_map]
    rfl
  have hlane := lane_vecOf_range (w := 32) (n := 32) (by decide) (by decide) (fun j => (Sparse.get 0 x.el (32 * r + j)).toNat) hj
  rw [← hrow, BitVec.ofNat_toNat, BitVec.setWidth_eq] at hlane
  exact hlane

/-- The maximum of each row stands in its lane. -/
theorem Slot.lane_rowMax (x : Slot) {r : Nat} (hr : r < 32) : x.rowMax.1.extractLsb' (32 * r) 32 =
    (toF32 (((List.range 32).map (fun j => (ofF32 (Sparse.get 0 x.el (32 * r + j))).1)).foldl Num.max .nan)).1 := by
  have hmax : x.rowMax.1 = vecOf 32 ((List.range 32).map fun r =>
      (toF32 (((List.range 32).map (fun j => (ofF32 (Sparse.get 0 x.el (32 * r + j))).1)).foldl Num.max .nan)).1.toNat) := by
    simp only [Slot.rowMax, Slot.rowEls, vecOf, List.map_map, List.foldl_map, Function.comp_def]
  have hlane := lane_vecOf_range (w := 32) (n := 32) (by decide) (by decide) (fun r =>
      (toF32 (((List.range 32).map (fun j => (ofF32 (Sparse.get 0 x.el (32 * r + j))).1)).foldl Num.max .nan)).1.toNat) hr
  rw [← hmax, BitVec.ofNat_toNat, BitVec.setWidth_eq] at hlane
  exact hlane

/-! ### acc.fill (R111) -/

/-- The entry at a key of a table made of one value for each key, zeros left out. -/
theorem get_filterMap_nonzero (f : Nat → F32) (l : List Nat) (k : Nat) :
    Sparse.get 0 (l.filterMap (fun k => if f k = 0 then Option.none else some (k, f k))) k = if k ∈ l then f k else 0 := by
  induction l with
  | nil => rfl
  | cons a l ih =>
    by_cases h0 : f a = 0
    · simp only [List.filterMap_cons, h0, if_true]
      rw [ih]
      by_cases hk : k = a
      · subst hk; simp [h0]
      · simp [hk]
    · simp only [List.filterMap_cons, h0, if_false]
      rw [Sparse.get]
      by_cases hk : a = k
      · subst hk; simp
      · rw [if_neg hk, ih]
        simp [Ne.symm hk]

theorem get_fillEls (bs : List Byte) {k : Nat} (hk : k < 1024) : Sparse.get 0 (fillEls bs) k = BitVec.ofNat 32 (leNat ((bs.drop (4 * k)).take 4)) := by
  have h := get_filterMap_nonzero (fun k => BitVec.ofNat 32 (leNat ((bs.drop (4 * k)).take 4))) (List.range 1024) k
  rw [if_pos (List.mem_range.mpr hk)] at h
  exact h

/-- Part of a read of memory is a read of its place. -/
theorem drop_take_readMem (m : Sparse Byte) (a n : Nat) {k j : Nat} (h : k + j ≤ n) : ((readMem m a n).drop k).take j = readMem m (a + k) j := by
  refine List.ext_getElem? fun b => ?_
  simp only [readMem_eq_map, List.getElem?_take, List.getElem?_drop, List.getElem?_map]
  by_cases hb : b < j
  · rw [if_pos hb, List.getElem?_range (by omega), List.getElem?_range hb]
    simp [Nat.add_assoc]
  · rw [if_neg hb, List.getElem?_eq_none (by simpa using hb)]
    rfl

/-- acc.spill and acc.fill reach 4 KiB of the core's window on its local store (R112). -/
theorem State.accRange_at {w : Who} {rx : BitVec 5} (h64 : ((s.thread w).reg rx).toNat % 64 = 0)
    (hlim : ((s.thread w).reg rx).toNat + 4096 ≤ (s.core w.core).lsLimit.toNat * 4096) :
    s.accRange w rx = .inr (.ls w.core ((s.core w.core).lsBase.toNat * 4096 + ((s.thread w).reg rx).toNat)) := by
  unfold State.accRange State.resolveLs
  simp only [h64, hlim, ne_eq, not_true_eq_false, if_false, if_true]

theorem accFill_done (h : s.ready i true = true) {acc : BitVec 4} (hshare : acc.toNat < (slotShare (s.core i.who.core).mode i.who.thr).2) {k : Nat}
    (hk : k = (slotShare (s.core i.who.core).mode i.who.thr).1 + acc.toNat) (hbusy : s.slotBusy i.who acc k = false) {rx : BitVec 5}
    (h64 : ((s.thread i.who).reg rx).toNat % 64 = 0)
    (hlim : ((s.thread i.who).reg rx).toNat + 4096 ≤ (s.core i.who.core).lsLimit.toNat * 4096)
    (hwp : s.watchpoint i.who false ((s.thread i.who).reg rx) 4096 true false = Option.none) {l : Loc}
    (hl : l = .ls i.who.core ((s.core i.who.core).lsBase.toNat * 4096 + ((s.thread i.who).reg rx).toNat)) (hpois : s.poisoned l 4096 = false) :
    exec (.accFill i acc rx) s = .next ((s.modSlot i.who.core k (fun _ => ({ live := true, el := fillEls (s.readLoc l 4096) } : Slot).baseline)).retired
      i.who 8 id) := by
  obtain ⟨_, _, _, _, _, _, _, _, hfound, _⟩ := State.ready_cases h
  rw [exec_accFill, execAccFill]
  refine accIssue_done h hshare _ ?_ (by rw [State.thread_modSlot]; exact State.undisturbed_of_ready h)
  have hsense : s.sense i.who.core l 4096 (Found.upset i.found) ((s.thread i.who).reg rx) = (Option.none, s) := by
    rw [hfound]
    simp only [Found.upset, State.sense, hpois, Bool.false_eq_true, if_false]
  rw [← hk]
  dsimp only
  rw [State.accRange_at h64 hlim, ← hl]
  simp only [hbusy, Bool.false_eq_true, if_false, hwp, hsense]

/-! ### acc.spill (R111) -/

/-- A performed write changes of a core only its local store, what is poisoned there, and reservations. -/
theorem State.core_perform_keeps {α : Type} (p : Core → α) (hp : ∀ (x : Core) ths ls po, p { x with threads := ths, ls := ls, lsPoison := po } = p x)
    (h : Sparse.wf {} s.cores = true) (l : Loc) (bs : List (Option Byte)) (c : CoreIx) : p ((s.perform l bs).core c) = p (s.core c) := by
  have hwritten : p ((s.written l bs).core c) = p (s.core c) := by
    cases l with
    | ls c' o =>
      exact (State.core_modCore_keeps p (hp _ _ _ _) c).trans (State.core_modCore_keeps p (hp _ _ _ _) c)
    | _ => rfl
  rw [State.perform_eq, State.core_closeMerges, State.core_clearResv (State.coresWf_written h l bs)]
  exact (hp _ _ _ _).trans hwritten

theorem State.slots_perform (h : Sparse.wf {} s.cores = true) (l : Loc) (bs : List (Option Byte)) (c : CoreIx) :
    ((s.perform l bs).core c).slots = (s.core c).slots := State.core_perform_keeps Core.slots (fun _ _ _ _ => rfl) h l bs c

/-- Whole bytes written to local store are read back. -/
theorem State.readLoc_perform_ls (h : Sparse.wf {} s.cores = true) (c : CoreIx) (o : Nat) (bs : List Byte) :
    (s.perform (.ls c o) (bs.map some)).readLoc (.ls c o) bs.length = bs := by
  have hmem : ((s.perform (.ls c o) (bs.map some)).core c).ls = writeMem (s.core c).ls o (bs.map some) :=
    (State.memOf_perform h rfl (bs.map some) (.ls c o)).trans (if_pos (decide_eq_true rfl))
  rw [State.readLoc, hmem, readMem_eq_map]
  refine List.ext_getElem (by simp) fun k hk hk' => ?_
  rw [List.getElem_map, List.getElem_range, get_writeMem_some, if_pos (Nat.le_add_right o k), Nat.add_sub_cancel_left, List.getElem?_eq_getElem hk']
  rfl

/-- Every other byte is what it was. -/
theorem State.byteAt_perform_ls (h : Sparse.wf {} s.cores = true) (c : CoreIx) (o : Nat) (bs : List Byte) {m : Loc}
    (hm : ¬(m.sameUnit (.ls c o) = true ∧ o ≤ m.off ∧ m.off < o + bs.length)) : (s.perform (.ls c o) (bs.map some)).byteAt m = s.byteAt m := by
  rw [State.byteAt_eq, State.byteAt_eq, State.memOf_perform h rfl]
  split
  · next hunit =>
    rw [get_writeMem_some, ← State.memOf_sameUnit s hunit]
    split
    · next ho =>
      have hout : bs.length ≤ m.off - (Loc.ls c o).off := by
        have hnot : ¬(o ≤ m.off ∧ m.off < o + bs.length) := fun hin => hm ⟨hunit, hin⟩
        change o ≤ m.off at ho
        change bs.length ≤ m.off - o
        omega
      rw [List.getElem?_eq_none hout]
      rfl
    · rfl
  · rfl

/-- What a read of local store finds depends on its bytes alone. -/
theorem State.readLoc_ls_congr (h : ∀ m, t.byteAt m = s.byteAt m) (c : CoreIx) (o n : Nat) : t.readLoc (.ls c o) n = s.readLoc (.ls c o) n := by
  rw [State.readLoc, State.readLoc, readMem_eq_map, readMem_eq_map]
  exact List.map_congr_left fun k _ => h (.ls c (o + k))

theorem Slot.length_bytes (x : Slot) : x.bytes.length = 4096 := by
  rw [Slot.bytes, List.length_flatMap]
  simp only [length_toBytes, List.map_const', List.length_range, List.sum_replicate]
  rfl

/-- The state that acc.spill leaves once its slot has passed. -/
def State.spilled (p : State) (w : Who) (k : Nat) (x : Slot) (l : Loc) (keep : Bool) : State :=
  if keep then p.perform l (x.bytes.map some) else (p.perform l (x.bytes.map some)).modSlot w.core k (fun _ => {})

/-- What acc.spill leaves: the bytes of the slot in local store, and of the slot its elements, or nothing. -/
theorem State.spilled_words {p : State} {w : Who} (hwf : Sparse.wf {} p.cores = true) (hr : (p.thread w).state = .run) (k : Nat) (x : Slot) (o : Nat)
    (keep : Bool) :
    let t := p.spilled w k x (.ls w.core o) keep
    t.thread w = (p.thread w).unreserve (breaks (.ls w.core o) (x.bytes.map some)) ∧ (∀ j, j ≠ k → (t.core w.core).slot j = (p.core w.core).slot j) ∧
      (t.core w.core).slot k = (if keep then (p.core w.core).slot k else {}) ∧
      ∀ m, t.byteAt m = (p.perform (.ls w.core o) (x.bytes.map some)).byteAt m := by
  have hthread := State.thread_perform_of_run hr (.ls w.core o) (x.bytes.map some)
  have hslots := State.slots_perform hwf (.ls w.core o) (x.bytes.map some) w.core
  dsimp only
  rw [State.spilled]
  generalize p.perform (.ls w.core o) (x.bytes.map some) = q at hthread hslots ⊢
  have hslot (j : Nat) : (q.core w.core).slot j = (p.core w.core).slot j := by rw [Core.slot, hslots]; rfl
  cases keep with
  | true => exact ⟨hthread, fun j _ => hslot j, hslot k, fun _ => rfl⟩
  | false =>
    exact ⟨(State.thread_modSlot _ _ _ _ _).trans hthread, fun j hj => (State.slot_modSlot_other _ _ _ hj).trans (hslot j),
      State.slot_modSlot _ _ _ _, State.modSlot_sameMemory _ _ _ _⟩

theorem accSpill_done (h : s.ready i true = true) {acc : BitVec 4} (hshare : acc.toNat < (slotShare (s.core i.who.core).mode i.who.thr).2) {k : Nat}
    (hk : k = (slotShare (s.core i.who.core).mode i.who.thr).1 + acc.toNat) (hbusy : s.slotBusy i.who acc k = false)
    (hx : ((s.core i.who.core).slot k).compare = Option.none) {rx : BitVec 5} (h64 : ((s.thread i.who).reg rx).toNat % 64 = 0)
    (hlim : ((s.thread i.who).reg rx).toNat + 4096 ≤ (s.core i.who.core).lsLimit.toNat * 4096)
    (hwp : s.watchpoint i.who false ((s.thread i.who).reg rx) 4096 false true = Option.none) {l : Loc}
    (hl : l = .ls i.who.core ((s.core i.who.core).lsBase.toNat * 4096 + ((s.thread i.who).reg rx).toNat)) (keep : Bool)
    (hq : (((s.slotPassed i.who.core k).spilled i.who k ((s.core i.who.core).slot k) l keep).thread i.who).undisturbed) :
    exec (.accSpill i acc rx keep) s =
      .next (((s.slotPassed i.who.core k).spilled i.who k ((s.core i.who.core).slot k) l keep).retired i.who 8 id) := by
  have hp := s.slotPassed_compared i.who.core k
  rw [exec_accSpill, execAccSpill]
  refine accIssue_done h hshare _ ?_ hq
  rw [← hk]
  dsimp only
  rw [State.accRange_at h64 hlim]
  simp only [hwp]
  rw [flushSlot_passes hbusy hx, State.flushEffect, hp.thread, hp.core]
  dsimp only
  rw [← hl, State.spilled]

/-! ### acc.send (R111, R349, R350) -/

/-- A tile of an acc.send to a core of this module, as it leaves its slot. -/
def Slot.sentTile (x : Slot) (w : Who) (k : Nat) (h : Word) (target : BitVec 22) (ctx : BitVec 4) (epoch : BitVec 16) (q seq : Nat) : Contrib :=
  { seq := seq, sender := w, target := idCore target, away := Option.none, from_ := Option.none, ctx := ctx, epoch := epoch,
    gen := h.extractLsb' 56 8, thinm1 := h.extractLsb' 48 6, block := h.extractLsb' 32 16, rank := h.extractLsb' 16 12, q := BitVec.ofNat 2 q,
    data := x.tileEls q, sum := x.tileSum q, count := 256 * ((h.extractLsb' 48 6).toNat + 1), credit := false, slot := BitVec.ofNat 4 k,
    req := Option.none }

/-- A fold may be taken by another step where the two agree. -/
theorem foldl_eq_of_step {β γ : Type} {f g : β → γ → β} {I : β → Prop} (hstep : ∀ b a, I b → f b a = g b a) (hinv : ∀ b a, I b → I (g b a)) {b : β}
    (hb : I b) (l : List γ) : l.foldl f b = l.foldl g b := by
  induction l generalizing b with
  | nil => rfl
  | cons a l ih => rw [List.foldl_cons, List.foldl_cons, hstep b a hb, ih (hinv b a hb)]

/-- A contribution takes its place behind the others. -/
def State.queueTile (s : State) (n : Nat → Contrib) : State := { s with contribs := s.contribs ++ [n s.nextSeq] }.bumpSeq

theorem State.sendTiles_here {w : Who} {k : Nat} {x : Slot} {h : Word} {target : BitVec 22} {ctx : BitVec 4} {epoch : BitVec 16}
    (hmine : s.mine target = true) (hpresent : s.present (idCore target) = true) :
    let t := s.sendTiles w k x h target ctx epoch
    let q (n : Nat) : Contrib := x.sentTile w k h target ctx epoch n (s.nextSeq + n)
    t.cores = (s.modSlot w.core k (fun y => { y with sending := 4 })).cores ∧ t.dies = s.dies ∧ t.contribs = s.contribs ++ [q 0, q 1, q 2, q 3] := by
  have hcore : s.noCore target = false := by simp [State.noCore, hmine, hpresent]
  have hfold : s.sendTiles w k x h target ctx epoch = [0, 1, 2, 3].foldl (fun (s : State) (q : Nat) =>
      s.queueTile (x.sentTile w k h target ctx epoch q)) (s.modSlot w.core k (fun y => { y with sending := 4 })) := by
    rw [State.sendTiles, if_neg (by rw [hcore]; decide)]
    dsimp only
    refine foldl_eq_of_step (g := fun (s : State) (q : Nat) => s.queueTile (x.sentTile w k h target ctx epoch q))
      (I := fun u : State => u.mine target = true) (fun u q hu => ?_) (fun _ _ hu => hu)
      (show (s.modSlot w.core k (fun y => { y with sending := 4 })).mine target = true from hmine) _
    have hid : decide (idModule target = u.mod.id) = true := hu
    simp only [State.mine, State.bumpSeq, hid, if_true]
    rfl
  dsimp only
  rw [hfold]
  refine ⟨rfl, rfl, ?_⟩
  simp only [List.foldl_cons, List.foldl_nil, State.queueTile, State.bumpSeq, List.append_assoc, List.singleton_append]
  rfl

/-! ### The instructions in one place -/

section
variable {acc : BitVec 4} {k : Nat} (h : s.ready i true = true) (hshare : acc.toNat < (slotShare (s.core i.who.core).mode i.who.thr).2)
  (hk : k = (slotShare (s.core i.who.core).mode i.who.thr).1 + acc.toNat) (hbusy : s.slotBusy i.who acc k = false)
include h hshare hk hbusy

theorem accChk_words (hx : ((s.core i.who.core).slot k).compare = Option.none) :
    ∃ t, exec (.accChk i acc) s = .next t ∧ s.accDone t i.who k ∧ (t.core i.who.core).slot k = ((s.core i.who.core).slot k).passed ∧ s.sameMemory t := by
  have hp := s.slotPassed_compared i.who.core k
  obtain ⟨hdone, hslot, _, hmem⟩ := hp.retired (State.holdOnly_refl _ _).1 (f := id) (hp.thread _) (fun _ => rfl) (fun _ => rfl)
  refine ⟨_, ?_, hdone, hslot.trans (s.slotPassed_slot i.who.core k), hmem⟩
  rw [exec_accChk, execAccChk]
  refine accIssue_done h hshare _ ?_ (by rw [hp.thread]; exact State.undisturbed_of_ready h)
  rw [← hk, flushSlot_passes hbusy hx .chk, State.flushEffect]

/-- A row read by its slot and what it makes of its thread. -/
theorem accRead_words (hx : ((s.core i.who.core).slot k).compare = Option.none ∨ ((s.core i.who.core).slot k).unchk = false) {cm : Instr} {fl : Flush}
    {f : Thread → Thread}
    (hcm : exec cm s = accIssue i { reads := false } acc (fun s k => flushSlot s i.who acc k fl ((s.core i.who.core).slot k).unchk) s)
    (hfl : ∀ p : State, p.flushEffect i.who k ((s.core i.who.core).slot k) fl = p.modThread i.who f) (hg : ∀ g, (f g).g = g.g) (hpc : ∀ g, (f g).pc = g.pc)
    (hq : ∀ g, g.undisturbed → (f g).undisturbed) :
    ∃ t, exec cm s = .next t ∧ s.accDone t i.who k ∧ ((t.core i.who.core).slot k).el = ((s.core i.who.core).slot k).el ∧
      ((t.core i.who.core).slot k).unchk = false ∧ (∀ v, (t.thread i.who).vec v = (f (s.thread i.who)).vec v) ∧ s.sameMemory t := by
  obtain ⟨p, hp, hflush⟩ := flushSlot_read hbusy hx fl
  have hthread : (p.modThread i.who f).thread i.who = f (s.thread i.who) := by rw [State.thread_modThread, hp.thread]
  obtain ⟨hdone, hslot, hvec, hmem⟩ := hp.retired (p.onlyThread_modThread i.who f) hthread hg hpc
  refine ⟨_, ?_, hdone, by rw [hslot, hp.el], by rw [hslot, hp.unchk], hvec, hmem⟩
  rw [hcm]
  refine accIssue_done h hshare _ ?_ (by rw [hthread]; exact hq _ (State.undisturbed_of_ready h))
  rw [← hk, hflush, hfl]

theorem accRow_words (hx : ((s.core i.who.core).slot k).compare = Option.none ∨ ((s.core i.who.core).slot k).unchk = false) (vd row : BitVec 5) :
    ∃ t, exec (.accRow i acc vd row) s = .next t ∧ s.accDone t i.who k ∧ ((t.core i.who.core).slot k).el = ((s.core i.who.core).slot k).el ∧
      ((t.core i.who.core).slot k).unchk = false ∧
      (∀ v, (t.thread i.who).vec v = if v = vd then ((s.core i.who.core).slot k).rowVec row.toNat else (s.thread i.who).vec v) ∧ s.sameMemory t := by
  generalize hv : ((s.core i.who.core).slot k).rowVec row.toNat = v
  obtain ⟨t, hexec, hdone, hel, hunchk, hvec, hmem⟩ := accRead_words h hshare hk hbusy hx (cm := .accRow i acc vd row) (fl := .row vd row)
    (f := fun t => t.setVec vd v) (by rw [exec_accRow, execAccRow]) (fun p => by rw [State.flushEffect, hv]) (fun _ => rfl) (fun _ => rfl) (fun _ hq => hq)
  exact ⟨t, hexec, hdone, hel, hunchk, fun r => by rw [hvec, Thread.vec_setVec], hmem⟩

theorem accRmax_words (hx : ((s.core i.who.core).slot k).compare = Option.none ∨ ((s.core i.who.core).slot k).unchk = false) (vd : BitVec 5) :
    ∃ t, exec (.accRmax i acc vd) s = .next t ∧ s.accDone t i.who k ∧ ((t.core i.who.core).slot k).el = ((s.core i.who.core).slot k).el ∧
      (t.thread i.who).vec vd = ((s.core i.who.core).slot k).rowMax.1 ∧ s.sameMemory t := by
  generalize hv : ((s.core i.who.core).slot k).rowMax = m
  obtain ⟨t, hexec, hdone, hel, _, hvec, hmem⟩ := accRead_words h hshare hk hbusy hx (cm := .accRmax i acc vd) (fl := .rmax vd)
    (f := fun t => (t.setVec vd m.1).fpFlag m.2) (by rw [exec_accRmax, execAccRmax]) (fun p => by rw [State.flushEffect, hv]) (fun _ => rfl) (fun _ => rfl)
    (fun _ hq => hq)
  exact ⟨t, hexec, hdone, hel, (hvec vd).trans ((Thread.vec_setVec _ _ _ _).trans (if_pos rfl)), hmem⟩

theorem accSpill_words (hx : ((s.core i.who.core).slot k).compare = Option.none) {rx : BitVec 5} (h64 : ((s.thread i.who).reg rx).toNat % 64 = 0)
    (hlim : ((s.thread i.who).reg rx).toNat + 4096 ≤ (s.core i.who.core).lsLimit.toNat * 4096)
    (hwp : s.watchpoint i.who false ((s.thread i.who).reg rx) 4096 false true = Option.none) (hwf : Sparse.wf {} s.cores = true) (keep : Bool) :
    let x := (s.core i.who.core).slot k
    let l : Loc := .ls i.who.core ((s.core i.who.core).lsBase.toNat * 4096 + ((s.thread i.who).reg rx).toNat)
    ∃ t, exec (.accSpill i acc rx keep) s = .next t ∧ s.accDone t i.who k ∧ t.readLoc l 4096 = x.bytes ∧
      (∀ l', ¬(l'.sameUnit l = true ∧ l.off ≤ l'.off ∧ l'.off < l.off + 4096) → t.byteAt l' = s.byteAt l') ∧
      (if keep then ((t.core i.who.core).slot k).el = x.el ∧ ((t.core i.who.core).slot k).live = x.live else (t.core i.who.core).slot k = {}) := by
  intro x l
  have hp := s.slotPassed_compared i.who.core k
  obtain ⟨hrun, _⟩ := State.ready_cases h
  have hwf' := hp.wf hwf
  obtain ⟨hthread, hother, hslot, hmem⟩ := State.spilled_words (w := i.who) hwf' (by rw [hp.thread]; exact hrun) k x
    ((s.core i.who.core).lsBase.toNat * 4096 + ((s.thread i.who).reg rx).toNat) keep
  rw [hp.thread] at hthread
  have hq : (((s.slotPassed i.who.core k).spilled i.who k x l keep).thread i.who).undisturbed := by
    rw [hthread]
    exact Thread.undisturbed_unreserve (State.undisturbed_of_ready h) _
  have hread := State.readLoc_perform_ls hwf' i.who.core ((s.core i.who.core).lsBase.toNat * 4096 + ((s.thread i.who).reg rx).toNat) x.bytes
  have hkept (m : Loc) := State.byteAt_perform_ls hwf' i.who.core ((s.core i.who.core).lsBase.toNat * 4096 + ((s.thread i.who).reg rx).toNat) x.bytes (m := m)
  rw [x.length_bytes] at hread hkept
  have hexec := accSpill_done h hshare hk hbusy hx h64 hlim hwp rfl keep hq
  generalize (s.slotPassed i.who.core k).spilled i.who k x l keep = q at hthread hother hslot hmem hexec
  have honly := q.onlyThread_retired i.who 8 id
  have hbytes (m : Loc) := (honly.sameMemory m).trans (hmem m)
  refine ⟨_, hexec, State.accDone_retired (by rw [hthread, Thread.unreserve_eq]) (by rw [hthread, Thread.unreserve_eq])
    fun j hj => (hother j hj).trans (hp.other j hj), (State.readLoc_ls_congr hbytes _ _ _).trans hread,
    fun m hm => ((hbytes m).trans (hkept m hm)).trans (hp.memory m), ?_⟩
  rw [honly.matrix.2, hslot]
  cases keep with
  | true => simp only [if_true, hp.el, hp.live, x, and_self]
  | false => rfl

theorem accFill_words {rx : BitVec 5} (h64 : ((s.thread i.who).reg rx).toNat % 64 = 0)
    (hlim : ((s.thread i.who).reg rx).toNat + 4096 ≤ (s.core i.who.core).lsLimit.toNat * 4096)
    (hwp : s.watchpoint i.who false ((s.thread i.who).reg rx) 4096 true false = Option.none)
    (hpois : s.poisoned (.ls i.who.core ((s.core i.who.core).lsBase.toNat * 4096 + ((s.thread i.who).reg rx).toNat)) 4096 = false) :
    let c := i.who.core
    ∃ t, exec (.accFill i acc rx) s = .next t ∧ s.accDone t i.who k ∧ ((t.core c).slot k).live = true ∧ ((t.core c).slot k).unchk = false ∧
      (∀ r j, r < 32 → j < 32 → Sparse.get 0 ((t.core c).slot k).el (32 * r + j) =
        BitVec.ofNat 32 (leNat (s.readLoc (.ls c ((s.core c).lsBase.toNat * 4096 + ((s.thread i.who).reg rx).toNat + 128 * r + 4 * j)) 4))) ∧
      s.sameMemory t := by
  intro c
  have hexec := accFill_done h hshare hk hbusy h64 hlim hwp rfl hpois
  obtain ⟨hel, hlive, hunchk, _⟩ := ({ live := true, el := fillEls (s.readLoc (.ls c ((s.core c).lsBase.toNat * 4096 + ((s.thread i.who).reg rx).toNat)) 4096) } :
    Slot).baseline_words
  generalize Slot.baseline _ = y at hexec hel hlive hunchk
  have hslot := s.slot_modSlot c k (fun _ => y)
  have hother (j : Nat) (hj : j ≠ k) := s.slot_modSlot_other c (fun _ => y) hj
  have hthread := s.thread_modSlot c k (fun _ => y) i.who
  have hmem := s.modSlot_sameMemory c k (fun _ => y)
  generalize s.modSlot c k (fun _ => y) = q at hexec hslot hother hthread hmem
  have honly := q.onlyThread_retired i.who 8 id
  have hslot' : ((q.retired i.who 8 id).core c).slot k = y := (honly.matrix.2 k).trans hslot
  refine ⟨_, hexec, State.accDone_retired (by rw [hthread]) (by rw [hthread]) hother, by rw [hslot', hlive], by rw [hslot', hunchk],
    fun r j hr hj => ?_, State.sameMemory_trans hmem honly.sameMemory⟩
  rw [hslot', hel, get_fillEls _ (by omega), State.readLoc, State.readLoc, drop_take_readMem _ _ _ (by omega), Nat.mul_add, ← Nat.mul_assoc,
    ← Nat.add_assoc]

theorem accSend_words (hx : ((s.core i.who.core).slot k).compare = Option.none) {rx : BitVec 5} (hgood : handleBad ((s.thread i.who).reg rx) = false)
    {target : BitVec 22} {ctx : BitVec 4} {epoch : BitVec 16} (hres : (s.core i.who.core).resolve (((s.thread i.who).reg rx).extractLsb' 0 8)
      (((s.thread i.who).reg rx).extractLsb' 8 8) = some (target, ctx, epoch))
    (hmine : s.mine target = true) (hpresent : s.present (idCore target) = true) :
    let x := (s.core i.who.core).slot k
    let q (n : Nat) : Contrib := x.sentTile i.who k ((s.thread i.who).reg rx) target ctx epoch n (s.nextSeq + n)
    ∃ t, exec (.accSend i acc rx) s = .next t ∧ s.accDone t i.who k ∧ ((t.core i.who.core).slot k).sending = 4 ∧ s.sameMemory t ∧
      t.contribs = s.contribs ++ [q 0, q 1, q 2, q 3] := by
  intro x q
  have hp := s.slotPassed_compared i.who.core k
  have hstate := hp.frame.1
  have hmine' : (s.slotPassed i.who.core k).mine target = true := by rw [State.mine, hstate]; exact hmine
  have hpresent' : (s.slotPassed i.who.core k).present (idCore target) = true := by rw [State.present, hstate]; exact hpresent
  have hcontribs : (s.slotPassed i.who.core k).contribs = s.contribs ∧ (s.slotPassed i.who.core k).nextSeq = s.nextSeq := by
    rw [hstate]; exact ⟨rfl, rfl⟩
  have hbody : flushSlot s i.who acc k (.send ((s.thread i.who).reg rx) target ctx epoch) true =
      .done ((s.slotPassed i.who.core k).sendTiles i.who k x ((s.thread i.who).reg rx) target ctx epoch) := by
    rw [flushSlot_passes hbusy hx, State.flushEffect]
  obtain ⟨hcores, hdies, hsent⟩ := State.sendTiles_here (s := s.slotPassed i.who.core k) (w := i.who) (k := k) (x := x)
    (h := (s.thread i.who).reg rx) (ctx := ctx) (epoch := epoch) hmine' hpresent'
  rw [hcontribs.1, hcontribs.2] at hsent
  generalize (s.slotPassed i.who.core k).sendTiles i.who k x ((s.thread i.who).reg rx) target ctx epoch = u at hbody hcores hdies hsent
  generalize s.slotPassed i.who.core k = p at hp hcores hdies
  have hcore : u.core i.who.core = (p.modSlot i.who.core k (fun y => { y with sending := 4 })).core i.who.core := by rw [State.core, hcores]; rfl
  have hthread : u.thread i.who = s.thread i.who := by
    rw [State.thread, hcore, ← State.thread, State.thread_modSlot, hp.thread]
  have hslot : ((u.core i.who.core).slot k).sending = 4 := by rw [hcore, State.slot_modSlot]
  have hother (j : Nat) (hj : j ≠ k) : (u.core i.who.core).slot j = (s.core i.who.core).slot j := by
    rw [hcore, State.slot_modSlot_other _ _ _ hj, hp.other j hj]
  have hmem : p.sameMemory u := State.sameMemory_trans (p.modSlot_sameMemory i.who.core k _) fun m => State.byteAt_congr hcores hdies m
  have honly := u.onlyThread_retired i.who 8 id
  refine ⟨u.retired i.who 8 id, ?_, State.accDone_retired (by rw [hthread]) (by rw [hthread]) hother, by rw [honly.matrix.2, hslot],
    State.sameMemory_trans hp.memory (State.sameMemory_trans hmem honly.sameMemory), ?_⟩
  · rw [exec_accSend, execAccSend]
    refine accIssue_done h hshare _ ?_ (by rw [hthread]; exact State.undisturbed_of_ready h)
    rw [← hk]
    simp only [hgood, Bool.false_eq_true, if_false, hres, hbody]
  · rw [honly.1.1]
    exact hsent

end

end Sys2Proof.Machine
end

section
/-! The acc instructions, ACC_SPLIT and the check retry as the spec states them (R107, R108, R111, R112, R146, R150 to R159). -/

namespace Sys2Proof.Machine

theorem Retry.record_noReread (r : Retry) (stat : BitVec 17) (outcome : Nat) : r.record stat outcome false =
    if stat.extractLsb' 14 2 = 2 ∨ stat.extractLsb' 14 2 = 3 then stat
    else BitVec.ofNat 17 (2 ^ 16 + outcome * 2 ^ 14 + r.thr.toNat * 2 ^ 12 + r.slot * 2 ^ 8 + b2n r.col * 2 ^ 5 + r.line.toNat) := by
  rw [Retry.record, show b2n false = 0 from rfl, Nat.zero_mul, Nat.add_zero]

/-- Settles O14: each acc instruction by what its flush does to a slot that stands compared, ACC_SPLIT by its cases, the retry by the core it fences or
clears. -/
theorem accumulators : Obligations.Accumulators := by
  refine ⟨fun s i acc rx vd row keep h => ?_, fun s v c val => ?_, fun s c r hr => ?_⟩
  · intro w c g sh k x off l el after
    refine ⟨fun hshare cm hcm => ?_, fun hshare hbusy => ⟨fun hx => ?_, fun hx => ⟨?_, ?_⟩, fun hx h64 hlim hwp hwf => ?_, fun h64 hlim hwp hpois => ?_,
      fun target ctx epoch hx hgood hres hmine hpresent => ?_⟩⟩
    · simp only [List.mem_cons, List.not_mem_nil, or_false] at hcm
      rcases hcm with rfl | rfl | rfl | rfl | rfl | rfl
      · rw [exec_accSpill, execAccSpill, accIssue_refused h hshare]
      · rw [exec_accFill, execAccFill, accIssue_refused h hshare]
      · rw [exec_accSend, execAccSend, accIssue_refused h hshare]
      · rw [exec_accChk, execAccChk, accIssue_refused h hshare]
      · rw [exec_accRow, execAccRow, accIssue_refused h hshare]
      · rw [exec_accRmax, execAccRmax, accIssue_refused h hshare]
    · obtain ⟨t, hexec, hdone, hslot, hmem⟩ := accChk_words h hshare rfl hbusy hx
      obtain ⟨hel, hlive, hunchk, hlog, _⟩ := x.passed_words
      exact ⟨t, hexec, hdone, by rw [hslot]; exact hunchk, by rw [hslot]; exact hlive, by rw [hslot]; exact hel, by rw [hslot]; exact hlog, hmem⟩
    · obtain ⟨t, hexec, hdone, hel, hunchk, hvec, hmem⟩ := accRow_words h hshare rfl hbusy hx vd row
      refine ⟨t, hexec, hdone, hel, hunchk, fun j hj => ?_, fun v hv => ?_, hmem⟩
      · rw [hvec, if_pos rfl, Slot.lane_rowVec _ _ hj]
      · rw [hvec, if_neg hv]
    · obtain ⟨t, hexec, hdone, hel, hvec, hmem⟩ := accRmax_words h hshare rfl hbusy hx vd
      exact ⟨t, hexec, hdone, hel, fun r hr => by rw [hvec, Slot.lane_rowMax _ hr], hmem⟩
    · exact accSpill_words h hshare rfl hbusy hx h64 hlim hwp hwf keep
    · exact accFill_words h hshare rfl hbusy h64 hlim hwp hpois
    · obtain ⟨t, hexec, hdone, hsend, hmem, hcontribs⟩ := accSend_words h hshare rfl hbusy hx hgood hres hmine hpresent
      refine ⟨t, hexec, hdone, hsend, hmem, _, _, _, _, hcontribs, fun p hp => ?_⟩
      simp only [List.mem_cons, List.not_mem_nil, or_false] at hp
      rcases hp with rfl | rfl | rfl | rfl <;> exact ⟨rfl, rfl, rfl, rfl, rfl, rfl, rfl, rfl, rfl⟩
  · intro x mode err idle hwf
    have hidle : idle ↔ x.slots = [] ∧ x.mq = [] := and_congr_left' ⟨Sparse.eq_nil_of_get hwf, fun hs k => by rw [Core.slot, hs]; rfl⟩
    obtain ⟨hsame, hnew, hbad⟩ := accSplitWrite_cases s v c val
    exact ⟨hsame, fun hm h3 hi => hnew hm h3 (hidle.mp hi), fun hm hb => hbad hm (hb.imp_right (not_congr hidle).mp)⟩
  · intro w x fresh kept stat fails
    have hstat (o : Nat) : r.record (s.core c).chkstat o false = if kept then (s.core c).chkstat else stat o := r.record_noReread _ o
    have hfail (u : State) (y : Slot) (o : Nat) (hf : (u.core c).fenced = false) (hu : (u.core c).retry = some r)
        (hc : (u.core c).chkstat = (s.core c).chkstat) (cm : Instr) (hcm : exec cm s = .next (u.retryFail c r y o false)) : fails cm y.el o := by
      obtain ⟨hfenced, hretry, hstate, hcause, hel, hst⟩ := State.retryFail_words hf hu y o false
      exact ⟨_, hcm, hfenced, hretry, hstate, hcause, hel, by rw [hst, hc, hstat]⟩
    refine ⟨fun flip u hf => hfail s x 3 hf hr rfl _ (checkRetry_shadow hr flip u), fun flip y fl hy => ?_⟩
    have hexec := checkRetry_replayed hr hy
    obtain ⟨hfenced, hretry, hst, hthread, hmem⟩ := s.retryNote_words c r fl y
    generalize (s.retryNote c r fl 0).countExempt c y = u at hexec hfenced hretry hst hthread hmem
    refine ⟨fun hpass hchk hhalt hstep => ?_, fun hbad hf => ?_⟩
    · obtain ⟨hret, hslot, hpc, hrec, hsame⟩ := State.retryPass_chk_words (s := u) hchk (by rw [hthread]; exact ⟨hhalt, hstep⟩) y false
      obtain ⟨hel, _, hunchk, _⟩ := y.passed_words
      rw [hpass, Option.isNone_none, if_pos rfl] at hexec
      exact ⟨_, hexec, hret, by rw [hslot, hel], by rw [hslot, hunchk], by rw [hpc, hthread]; rfl, by rw [hrec, hst, hstat],
        State.sameMemory_trans hmem hsame⟩
    · rw [if_neg (by rw [Option.isNone_iff_eq_none]; exact hbad)] at hexec
      exact hfail u y 2 (hfenced.trans hf) (hretry.trans hr) hst _ hexec

end Sys2Proof.Machine
end

section
/-! What ends with every ring at a warm reset (R450, R522): the records of its items leave the HBM and DDR of every die and the configuration of every other
ring as they are. -/

namespace Sys2Proof.Machine

/-- HBM, DDR and what enables each ring are the same. -/
structure State.Recording (s t : State) : Prop where
  hbm : ∀ d, (t.die d).hbm = (s.die d).hbm
  ddr : ∀ d, (t.die d).ddr = (s.die d).ddr
  en : ∀ r, (t.ring r).en = (s.ring r).en

namespace State.Recording

variable {s t u : State}

theorem of_tables (hd : t.dies = s.dies) (hr : t.rings = s.rings) : s.Recording t where
  hbm d := by rw [State.die, hd, State.die]
  ddr d := by rw [State.die, hd, State.die]
  en r := by rw [State.ring, hr, State.ring]

theorem refl (s : State) : s.Recording s := of_tables rfl rfl

theorem trans (h : s.Recording t) (h' : t.Recording u) : s.Recording u where
  hbm d := (h'.hbm d).trans (h.hbm d)
  ddr d := (h'.ddr d).trans (h.ddr d)
  en r := (h'.en r).trans (h.en r)

theorem ite {p : Prop} [Decidable p] (ht : s.Recording t) (hu : s.Recording u) : s.Recording (if p then t else u) := by
  split
  · exact ht
  · exact hu

theorem foldl {γ : Type} {f : State → γ → State} {l : List γ} (h : ∀ s a, State.Recording s (f s a)) : s.Recording (l.foldl f s) :=
  foldl_invariant (s.Recording ·) (refl s) (fun t a _ ht => ht.trans (h t a))

end State.Recording

open State.Recording

section
variable (s : State)

/-! ### Single updates -/

theorem State.recording_modDie (d : DieIx) {f : Die → Die} (hh : (f (s.die d)).hbm = (s.die d).hbm) (hd : (f (s.die d)).ddr = (s.die d).ddr) :
    s.Recording (s.modDie d f) := ⟨State.die_modDie_keeps Die.hbm hh, State.die_modDie_keeps Die.ddr hd, fun _ => rfl⟩

theorem State.recording_modRing (r : BitVec 6) {f : Ring → Ring} (hf : (f (s.ring r)).en = (s.ring r).en) : s.Recording (s.modRing r f) where
  hbm _ := rfl
  ddr _ := rfl
  en q := by
    by_cases hq : q = r
    · rw [hq, State.ring_modRing]; exact hf
    · rw [State.ring_modRing_other _ _ hq]

theorem State.recording_modThread (w : Who) (f : Thread → Thread) : s.Recording (s.modThread w f) := of_tables rfl rfl

theorem State.recording_countMod (e n : Nat) : s.Recording (s.countMod e n) := of_tables rfl rfl

theorem State.recording_countTeam (t : BitVec 8) (e n : Nat) : s.Recording (s.countTeam t e n) := by
  refine ite (.trans ?_ (foldl fun s c => of_tables rfl rfl)) ?_ <;> exact of_tables rfl rfl

theorem State.recording_sendReq (d : DieIx) (k : Packet) (n : Nat) (r) : s.Recording (s.sendReq d k n r) := ite (of_tables rfl rfl) (of_tables rfl rfl)

/-! ### Messages (R297) -/

theorem State.recording_notified (o : MsgFrom) (code : BitVec 3) : s.Recording (s.notified o code) := by
  unfold State.notified
  split
  · refine ite (of_tables rfl rfl) (.trans ?_ (State.recording_countTeam _ _ _ _))
    exact of_tables rfl rfl
  · exact of_tables rfl rfl
  · exact refl s

theorem State.recording_pendMsg (m : Msg) (leaves : Bool) : s.Recording (s.pendMsg m leaves) := by
  unfold State.pendMsg
  split
  · exact ite (refl s) (s.recording_modThread _ _)
  · exact refl s

theorem State.recording_dropMsg (n : Nat) : s.Recording (s.dropMsg n) := of_tables rfl rfl

theorem State.recording_leaveMsg (m : Msg) : s.Recording (s.leaveMsg m) := by
  unfold State.leaveMsg
  dsimp only
  split
  · exact (s.recording_dropMsg _).trans (State.recording_notified _ _ _)
  · refine ite (.trans ?_ (State.recording_pendMsg _ _ _)) (.trans (.trans ?_ (State.recording_pendMsg _ _ _)) (State.recording_sendReq _ _ _ _ _)) <;>
      exact of_tables rfl rfl

theorem State.recording_endMsg (m : Msg) : s.Recording (s.endMsg m) :=
  (s.recording_dropMsg _).trans (foldl fun s m => ite (refl s) (s.recording_leaveMsg m))

/-! ### The endings of items (R456, R459, R461) -/

theorem State.recording_pokeLoft (a : Word) (bs : List Byte) : s.Recording (s.pokeLoft a bs) := by
  have hclear (t : State) (p : Loc → Bool) : t.Recording (t.clearResv p) := of_tables rfl rfl
  exact ((s.recording_modDie _ rfl rfl).trans (State.recording_modDie _ _ rfl rfl)).trans ((hclear _ _).trans (State.recording_modDie _ _ rfl rfl))

theorem State.recording_putRecord (r : BitVec 6) (k : BitVec 10) (rc : Nat) : s.Recording (s.putRecord r k rc) := by
  have hring := s.recording_modRing r (f := fun x => { x with records := x.records + 1 }) rfl
  have hemit (t : State) (o : Out) : t.Recording (t.emit o) := of_tables rfl rfl
  unfold State.putRecord
  exact ite (hring.trans (State.recording_sendReq _ _ _ _ _)) (ite (hring.trans (State.recording_pokeLoft _ _ _))
    (hring.trans ((hemit _ _).trans (hemit _ _))))

theorem State.recording_modLed (r : BitVec 6) (k : BitVec 10) (f : Ledger → Ledger) : s.Recording (s.modLed r k f) := s.recording_modRing r rfl

theorem State.recording_unbind (l : Ledger) (h : BitVec 16) : s.Recording (s.unbind l h) := ite (s.recording_modThread _ _) (refl s)

theorem State.recording_forgetDelivery (r : BitVec 6) (k : BitVec 10) : s.Recording (s.forgetDelivery r k) := by
  unfold State.forgetDelivery
  exact .trans (foldl fun s m => s.recording_endMsg m) (of_tables rfl rfl)

theorem State.recording_closeItem (r : BitVec 6) (k : BitVec 10) (status cause : Nat) (loc : BitVec 32) :
    s.Recording (s.closeItem r k status cause loc) := by
  unfold State.closeItem
  refine ite (refl s) (ite (s.recording_countMod _ _)
    (.trans (.trans (.trans ?_ (State.recording_modLed _ _ _ _)) (State.recording_countMod _ _ _)) (State.recording_putRecord _ _ _ _)))
  exact (s.recording_unbind _ _).trans (State.recording_forgetDelivery _ _ _)

theorem State.recording_endItem (r : BitVec 6) (k : BitVec 10) (status cause : Nat) (loc : BitVec 32) :
    s.Recording (s.endItem r k status cause loc) := by
  unfold State.endItem
  split
  · exact ((s.recording_modLed r k _).trans (State.recording_modThread _ _ _)).trans (State.recording_countMod _ _ _)
  · exact (s.recording_closeItem r k _ _ _).trans (State.recording_countMod _ _ _)
  · exact s.recording_closeItem r k status cause loc

theorem State.recording_abortRing (r : BitVec 6) : s.Recording (s.abortRing r) :=
  foldl fun s _ => ite (s.recording_endItem r _ stAbort 4 _) (refl s)

theorem State.calm_abortRing (r : BitVec 6) : s.Calm (fun _ => False) (s.abortRing r) :=
  State.Calm.foldl fun s _ _ => .ite (s.calm_endItem r _ stAbort 4 _) (.refl s)

/-! ### Every ring (R522) -/

/-- One ring is disabled, and its items end. -/
def State.disableRing (s : State) (r : BitVec 6) : State := (s.abortRing r).modRing r (fun x => x.withCfg 0)

theorem State.abortRings_eq (s : State) : s.abortRings = s.rings.foldl (fun s e => s.disableRing (BitVec.ofNat 6 e.1)) s := rfl

theorem Ring.withCfg_en (x : Ring) (v : BitVec 256) : (x.withCfg v).en = v.getLsbD 255 := rfl

theorem State.die_modRing (r : BitVec 6) (f : Ring → Ring) (d : DieIx) : (s.modRing r f).die d = s.die d := rfl

theorem State.disableRing_en (r q : BitVec 6) : ((s.disableRing r).ring q).en = if q = r then false else (s.ring q).en := by
  rw [State.disableRing]
  split
  · next h =>
    rw [h, State.ring_modRing, Ring.withCfg_en]
    simp
  · next h => rw [State.ring_modRing_other _ _ h, (s.recording_abortRing r).en]

theorem State.disableRing_memories (r : BitVec 6) (d : DieIx) :
    ((s.disableRing r).die d).hbm = (s.die d).hbm ∧ ((s.disableRing r).die d).ddr = (s.die d).ddr := by
  rw [State.disableRing, State.die_modRing]
  exact ⟨(s.recording_abortRing r).hbm d, (s.recording_abortRing r).ddr d⟩

theorem State.calm_abortRings : s.Calm (fun _ => False) s.abortRings :=
  State.Calm.foldl fun s _ _ => (s.calm_abortRing _).trans (State.calm_modRing _ _ _)

theorem State.abortRings_memories (d : DieIx) : (s.abortRings.die d).hbm = (s.die d).hbm ∧ (s.abortRings.die d).ddr = (s.die d).ddr := by
  rw [State.abortRings_eq]
  refine foldl_invariant (fun t : State => (t.die d).hbm = (s.die d).hbm ∧ (t.die d).ddr = (s.die d).ddr) ⟨rfl, rfl⟩ fun t e _ ht => ?_
  obtain ⟨hh, hd⟩ := t.disableRing_memories (BitVec.ofNat 6 e.1) d
  exact ⟨hh.trans ht.1, hd.trans ht.2⟩

/-- A ring that a table of rings does not list is not enabled. -/
theorem Sparse.get_of_not_mem {α : Type} {d : α} {m : Sparse α} {k : Nat} (h : ∀ e ∈ m, e.1 ≠ k) : Sparse.get d m k = d := by
  induction m with
  | nil => rfl
  | cons e m ih =>
    rw [Sparse.get, if_neg (h e List.mem_cons_self)]
    exact ih fun e he => h e (List.mem_cons_of_mem _ he)

theorem State.abortRings_en (r : BitVec 6) : (s.abortRings.ring r).en = false := by
  rw [State.abortRings_eq]
  by_cases hr : ∃ e ∈ s.rings, e.1 = r.toNat
  · obtain ⟨e, he, hk⟩ := hr
    have hname : r = BitVec.ofNat 6 e.1 := by rw [hk, BitVec.ofNat_toNat, BitVec.setWidth_eq]
    rw [hname]
    exact foldl_each (I := fun _ => True) (P := fun (e : Nat × Ring) (t : State) => (t.ring (BitVec.ofNat 6 e.1)).en = false) (fun _ _ _ => trivial)
      (fun t e _ => by rw [State.disableRing_en, if_pos rfl]) (fun t e a _ ha => by rw [State.disableRing_en, ha, ite_self]) (b := s) trivial e he
  · have hdefault : (s.ring r).en = false := by
      rw [State.ring, Sparse.get_of_not_mem fun e he hk => hr ⟨e, he, hk⟩]
    exact foldl_invariant (fun t : State => (t.ring r).en = false) hdefault fun t e _ ht => by rw [State.disableRing_en, ht, ite_self]

end

end Sys2Proof.Machine
end

section
/-! Warm reset and PCIe hot reset (R107, R521 to R523). -/

namespace Sys2Proof.Machine

variable {s t u : State}

/-! ### The ports train again (R418) -/

/-- Nothing differs but the fabric, the size table's generation and the events. -/
def State.Retrained (s t : State) : Prop :=
  t = { s with fab := t.fab, outbox := t.outbox, mod := { s.mod with szGen := t.mod.szGen },
               dict := { s.dict with evtSeq := t.dict.evtSeq, evtLog := t.dict.evtLog, evtOvf := t.dict.evtOvf, emerg := t.dict.emerg } }

namespace State.Retrained

theorem refl (s : State) : s.Retrained s := rfl

theorem trans (h : s.Retrained t) (h' : t.Retrained u) : s.Retrained u := by
  unfold State.Retrained at h
  exact Eq.trans h' (by rw [h])

theorem foldl {γ : Type} {f : State → γ → State} {l : List γ} (h : ∀ s a, State.Retrained s (f s a)) : s.Retrained (l.foldl f s) :=
  foldl_invariant (s.Retrained ·) (refl s) (fun t a _ ht => ht.trans (h t a))

theorem ite {p : Prop} [Decidable p] (ht : s.Retrained t) (hu : s.Retrained u) : s.Retrained (if p then t else u) := by
  split
  · exact ht
  · exact hu

end State.Retrained

open State.Retrained

section
variable (s : State)

theorem State.retrained_modPort (p : BitVec 4) (f : Port → Port) : s.Retrained (s.modPort p f) := rfl

theorem State.retrained_pumpFor (n : Nat) (p : BitVec 4) (j : BitVec 2) : s.Retrained (State.pumpFor n s p j) := by
  have hgroup (s : State) : s.Retrained (s.sendGroup p j) := ite (refl s) rfl
  induction n generalizing s with
  | zero => exact refl s
  | succ n ih => exact ite (refl s) ((hgroup s).trans (ih _))

theorem State.retrained_route (d : DieIx) (k : Packet) : s.Retrained (s.route d k) := by
  have hsend (p : BitVec 4) (j : BitVec 2) : s.Retrained (s.sendOn d p j k) :=
    ite ((s.retrained_modPort p _).trans (State.retrained_pumpFor _ _ _ _)) (refl s)
  unfold State.route
  dsimp only
  split
  · rfl
  · exact (hsend _ _).trans rfl

theorem State.retrained_sizeChanged : s.Retrained s.sizeChanged := by
  have hevent (t : State) (code : Nat) (d : DieIx) (arg v : Nat) : t.Retrained (t.event code d arg v) := ite (refl t) rfl
  have hgen : s.Retrained { s with mod := { s.mod with szGen := s.mod.szGen + 1 } } := rfl
  exact hgen.trans (hevent _ _ _ _ _)

theorem State.retrained_peerUp (p : BitVec 4) (j : BitVec 2) (up : Bool) : s.Retrained (s.peerUp p j up) := by
  refine ite (refl s) (.trans ?_ (State.retrained_sizeChanged _))
  rfl

theorem State.retrained_portDown (p : BitVec 4) (j : BitVec 2) : s.Retrained (s.portDown p j) := by
  have hprobe (t : State) (m : BitVec 12) : t.Retrained (t.probeDue m) := rfl
  have hroutes (l : List (DieIx × Packet)) (t : State) : t.Retrained (l.foldl (fun s e => s.route e.1 e.2) t) := foldl fun s e => s.retrained_route e.1 e.2
  unfold State.portDown
  dsimp only
  split
  · exact refl s
  · refine .trans (.trans ?_ (hroutes _ _)) (State.retrained_peerUp _ _ _ _)
    exact ite ((s.retrained_modPort p _).trans (hprobe _ _)) (s.retrained_modPort p _)

theorem State.retrained_trainPorts : s.Retrained s.trainPorts := by
  have hdown (t : State) (p : BitVec 4) : t.Retrained (subPorts.foldl (fun s j => s.portDown p j) t) := foldl fun s j => s.retrained_portDown p j
  exact foldl fun s p => ite (hdown s p) ((hdown s p).trans (State.retrained_modPort _ _ _))

/-! ### What a warm reset leaves (R522) -/

/-- The main domain at a warm reset, before its ports and rows are set up again. -/
def State.warmCleared (s : State) : State :=
  { s.clearCores with
    dies := Sparse.mapVals {} (fun _ x => Die.warm x) s.dies
    dict := s.dict.warm
    mod := { s.mod with quietLast := [], selftest := 0, snapT := 0, snapReq := Option.none, dbgStatus := 0, dbgData := 0, dbgAddr := 0, dbgOp := 0 }
    boot := { s.boot with warming := true, stage := 5, modSafe := false, fail := 0, pwrIn := 0, pwrVin := 0, tempDie := [], tempHbm := [], report := [] } }

/-- The ports of a module whose overlay was DIAG are trained again. -/
def State.undiagnosed (s : State) (deep : Bool) : State :=
  if deep then { s with far := { s.far with calibrating := false } }.trainPorts else s

theorem State.warmReset_eq (s : State) : s.warmReset = (s.abortRings.warmCleared.undiagnosed (decide (s.dict.ovlActive = 3))).remapped := rfl

end

/-- Nothing differs but the cores, the fabric, the module's registers and the events. -/
def State.SetUp (s t : State) : Prop :=
  t = { s with cores := t.cores, fab := t.fab, far := t.far, outbox := t.outbox, mod := t.mod,
               dict := { s.dict with evtSeq := t.dict.evtSeq, evtLog := t.dict.evtLog, evtOvf := t.dict.evtOvf, emerg := t.dict.emerg } }

theorem State.SetUp.trans (h : s.SetUp t) (h' : t.SetUp u) : s.SetUp u := by
  unfold State.SetUp at h
  exact Eq.trans h' (by rw [h])

theorem State.Retrained.setUp (h : s.Retrained t) : s.SetUp t := Eq.trans h (by rw [h])

theorem State.Remapping.setUp (h : s.Remapping t) : s.SetUp t := Eq.trans h (by rw [h])

theorem State.setUp_undiagnosed (s : State) (deep : Bool) : s.SetUp (s.undiagnosed deep) := by
  cases deep with
  | false => rfl
  | true =>
    have hfar : s.SetUp { s with far := { s.far with calibrating := false } } := rfl
    exact hfar.trans (State.retrained_trainPorts _).setUp

/-- What a warm reset leaves of the state it finds. -/
def State.Warm (s t : State) : Prop :=
  t.boot.stage = 5 ∧ t.boot.warming = true ∧ t.boot.modSafe = false ∧ t.dict.ovlActive = 0 ∧ t.dict.ovlState = 0 ∧ t.teams = [] ∧ t.writes = [] ∧
    t.reads = [] ∧ t.msgs = [] ∧ (∀ r, (t.ring r).en = false) ∧ t.boot.booted = s.boot.booted ∧ (∀ d o, t.byteAt (.hbm d o) = s.byteAt (.hbm d o)) ∧
    (∀ d o, t.byteAt (.ddr d o) = s.byteAt (.ddr d o)) ∧ ∀ d o, t.byteAt (.loft d o) = 0

theorem State.Warm.setUp (h : s.Warm t) (h' : t.SetUp u) : s.Warm u := by
  obtain ⟨h1, h2, h3, h4, h5, h6, h7, h8, h9, hen, hbooted, hhbm, hddr, hloft⟩ := h
  have hdies : u.dies = t.dies := by rw [h']
  have hdie (d : DieIx) : u.die d = t.die d := by rw [State.die, hdies, State.die]
  refine ⟨by rw [h']; exact h1, by rw [h']; exact h2, by rw [h']; exact h3, by rw [h']; exact h4, by rw [h']; exact h5, by rw [h']; exact h6,
    by rw [h']; exact h7, by rw [h']; exact h8, by rw [h']; exact h9, fun r => by rw [h']; exact hen r, by rw [h']; exact hbooted, fun d o => ?_, fun d o => ?_,
    fun d o => ?_⟩
  · rw [← hhbm d o, State.byteAt, State.readLoc, hdie]; rfl
  · rw [← hddr d o, State.byteAt, State.readLoc, hdie]; rfl
  · rw [← hloft d o, State.byteAt, State.readLoc, hdie]; rfl

theorem State.warmCleared_die (hd : Sparse.wf {} s.dies = true) (d : DieIx) : s.warmCleared.die d = (s.die d).warm :=
  Sparse.get_mapVals (f := fun _ (x : Die) => x.warm) hd (fun _ => rfl) d.toNat

theorem State.warmCleared_warm (hd : Sparse.wf {} s.dies = true) : s.Warm s.abortRings.warmCleared := by
  have hcalm := s.calm_abortRings
  have hdie := State.warmCleared_die (hcalm.diesWf hd)
  have hen := s.abortRings_en
  have hbooted : s.abortRings.boot.booted = s.boot.booted := by rw [hcalm.boot]
  have hmem := s.abortRings_memories
  generalize s.abortRings = u at hdie hen hbooted hmem ⊢
  refine ⟨rfl, rfl, rfl, rfl, rfl, rfl, rfl, rfl, rfl, hen, hbooted, fun d o => ?_, fun d o => ?_, fun d o => ?_⟩
  · rw [State.byteAt, State.readLoc, hdie, Die.warm, (hmem d).1]; rfl
  · rw [State.byteAt, State.readLoc, hdie, Die.warm, (hmem d).2]; rfl
  · rw [State.byteAt, State.readLoc, hdie, Die.warm]; rfl

theorem State.warmReset_warm (hd : Sparse.wf {} s.dies = true) : s.Warm s.warmReset := by
  rw [State.warmReset_eq]
  exact (State.warmCleared_warm hd).setUp ((State.setUp_undiagnosed _ _).trans (State.remapping_remapped _).setUp)

theorem State.Warm.report (h : s.Warm t) (p : Path) (code : Nat) : s.Warm (t.report p code) := by
  cases p with
  | host =>
    rw [State.report]
    dsimp only
    split
    · exact h
    · exact h
  | _ => exact h

end Sys2Proof.Machine
end

section
/-! Die reset (R107, R521, R524). -/

namespace Sys2Proof.Machine

variable {s t u : State} {d : DieIx}

/-! ### The queues of a core (R292) -/

/-- Every entry up to a bound is changed once. -/
theorem Sparse.get_foldl_upd {α : Type} [DecidableEq α] {d : α} (f : α → α) (m : Sparse α) (n k : Nat) :
    Sparse.get d ((List.range n).foldl (fun m q => Sparse.upd d m q f) m) k = if k < n then f (Sparse.get d m k) else Sparse.get d m k := by
  induction n with
  | zero => rfl
  | succ n ih =>
    rw [List.range_succ, List.foldl_append, List.foldl_cons, List.foldl_nil]
    by_cases hk : k = n
    · subst hk
      rw [Sparse.get_upd_same, ih, if_neg (Nat.lt_irrefl k), if_pos (Nat.lt_succ_self k)]
    · rw [Sparse.get_upd_other _ _ _ hk, ih]
      exact if_congr (by omega) rfl rfl

/-- A core after a die reset: its threads are free, or FENCED if it is marked bad, its queues are closed under new epochs, and its local store stands. -/
theorem Core.dieReset_words (x : Core) (bad : Bool) :
    (x.dieReset bad).fenced = bad ∧ (∀ n, ((x.dieReset bad).thread n).state = if bad then .fenced else .free) ∧ (x.dieReset bad).mode = 0 ∧
      (x.dieReset bad).ls = x.ls ∧
      ∀ q : BitVec 4, Sparse.get {} (x.dieReset bad).queues q.toNat = (Sparse.get {} x.queues q.toNat).dieReset := by
  have hfenced : ∀ n : ThrIx, (Sparse.get ({} : Thread) ((List.range 4).map (fun t => (t, ({ state := .fenced } : Thread)))) n.toNat).state = .fenced := by
    intro n
    have hn : n.toNat = 0 ∨ n.toNat = 1 ∨ n.toNat = 2 ∨ n.toNat = 3 := by have := n.isLt; omega
    rcases hn with h | h | h | h <;> rw [h] <;> rfl
  have hthreads : (x.dieReset bad).threads = if bad then (List.range 4).map (fun t => (t, ({ state := .fenced } : Thread))) else [] := rfl
  refine ⟨rfl, fun n => ?_, rfl, rfl, fun q => ?_⟩
  · rw [Core.thread, hthreads]
    cases bad with
    | true => rw [if_pos rfl, if_pos rfl, hfenced]
    | false => rfl
  · have hqueues : (x.dieReset bad).queues = (List.range 16).foldl (fun m q => Sparse.upd {} m q Queue.dieReset) x.queues := by
      rw [Core.dieReset]
    rw [hqueues, Sparse.get_foldl_upd, if_pos q.isLt]

/-! ### The cores of a die -/

theorem nodup_dieCores (d : DieIx) : (dieCores d).Nodup := by
  refine List.Nodup.map_on (fun x hx y hy hxy => ?_) List.nodup_range
  have hname : ∀ k < 256, ((d ++ BitVec.ofNat 8 k : CoreIx).extractLsb' 0 8).toNat = k := fun k hk => by
    rw [BitVec.extractLsb'_append_eq_right, BitVec.toNat_ofNat, Nat.mod_eq_of_lt hk]
  rw [← hname x (List.mem_range.mp hx), ← hname y (List.mem_range.mp hy), hxy]

/-- A change of some cores, each once. -/
def State.mapListed (s : State) (p : CoreIx → Bool) (f : CoreIx → Core → Core) (cs : List CoreIx) : State :=
  cs.foldl (fun s c => if p c then s.setCore c (f c (s.core c)) else s) s

theorem State.core_mapListed (s : State) (p : CoreIx → Bool) (f : CoreIx → Core → Core) {cs : List CoreIx} (h : cs.Nodup) (c : CoreIx) :
    (s.mapListed p f cs).core c = if c ∈ cs ∧ p c = true then f c (s.core c) else s.core c := by
  induction cs generalizing s with
  | nil => simp [State.mapListed]
  | cons e cs ih =>
    obtain ⟨he, hcs⟩ := List.nodup_cons.mp h
    rw [State.mapListed, List.foldl_cons, ← State.mapListed, ih _ hcs]
    by_cases hc : c = e
    · subst hc
      rw [if_neg (fun hm => he hm.1)]
      by_cases hp : p c = true
      · rw [if_pos hp, if_pos ⟨List.mem_cons_self, hp⟩, State.core_setCore]
      · rw [if_neg hp, if_neg (fun hm => hp hm.2)]
    · have hsame : (if p e = true then s.setCore e (f e (s.core e)) else s).core c = s.core c := by
        split
        · exact State.core_setCore_other s _ hc
        · rfl
      rw [hsame]
      exact if_congr (and_congr_left' (by simp [hc])) rfl rfl

theorem State.mapListed_frame (s : State) (p : CoreIx → Bool) (f : CoreIx → Core → Core) (cs : List CoreIx) :
    s.mapListed p f cs = { s with cores := (s.mapListed p f cs).cores } :=
  foldl_invariant (fun t : State => t = { s with cores := t.cores }) rfl fun t c _ ht => by
    split
    · rw [State.setCore, ht]
    · exact ht

/-- The cores of a die that is reset. -/
def State.resetCores (s : State) (d : DieIx) : State :=
  s.mapListed s.present (fun c x => x.dieReset (s.markedBad c)) (dieCores d)

theorem State.resetCores_eq (s : State) (d : DieIx) :
    (dieCores d).foldl (fun s c => if s.present c then s.setCore c ((s.core c).dieReset (s.markedBad c)) else s) s = s.resetCores d := by
  have hmod (t : State) (c : CoreIx) (h : t.mod = s.mod) : t.present c = s.present c ∧ t.markedBad c = s.markedBad c := by
    simp only [State.present, State.markedBad, State.badCols, State.physCol, h, and_self]
  rw [State.resetCores, State.mapListed]
  refine foldl_eq_of_step (I := fun t : State => t.mod = s.mod) (fun t c ht => ?_) (fun t c ht => ?_) rfl _
  · rw [(hmod t c ht).1, (hmod t c ht).2]
  · split
    · exact ht
    · exact ht

theorem State.resetCores_core (s : State) (d : DieIx) (c : CoreIx) : (s.resetCores d).core c =
    if coreDie c = d ∧ s.present c = true then (s.core c).dieReset (s.markedBad c) else s.core c :=
  (s.core_mapListed s.present (fun c x => x.dieReset (s.markedBad c)) (nodup_dieCores d) c).trans (if_congr (and_congr_left' mem_dieCores) rfl rfl)

theorem State.resetCores_frame (s : State) (d : DieIx) : s.resetCores d = { s with cores := (s.resetCores d).cores } :=
  s.mapListed_frame s.present (fun c x => x.dieReset (s.markedBad c)) (dieCores d)

/-! ### ACC_SPLIT takes its default (R107) -/

/-- The default of ACC_SPLIT.MODE. -/
def State.splitMode (s : State) : BitVec 2 := BitVec.ofNat 2 (s.effective 0x2210 0)

theorem State.splitDefault_frame (s : State) (cs : List CoreIx) : s.splitDefault cs = { s with cores := (s.splitDefault cs).cores } := by
  unfold State.splitDefault
  dsimp only
  split
  · rfl
  · exact foldl_invariant (fun t : State => t = { s with cores := t.cores }) rfl fun t c _ ht => by rw [State.modCore, State.setCore, ht]

theorem State.splitDefault_core (s : State) (cs : List CoreIx) (c : CoreIx) :
    (s.splitDefault cs).core c = { s.core c with mode := ((s.splitDefault cs).core c).mode } := by
  unfold State.splitDefault
  dsimp only
  split
  · rfl
  · refine foldl_invariant (fun t : State => t.core c = { s.core c with mode := (t.core c).mode }) rfl fun t e _ ht => ?_
    by_cases he : c = e
    · rw [he, State.core_modCore, ← he, ht]
    · rw [State.core_modCore_other _ _ he]; exact ht

theorem State.splitDefault_other (s : State) {cs : List CoreIx} {c : CoreIx} (h : c ∉ cs) : (s.splitDefault cs).core c = s.core c := by
  unfold State.splitDefault
  dsimp only
  split
  · rfl
  · refine foldl_invariant (fun t : State => t.core c = s.core c) rfl fun t e he ht => ?_
    have hne : c ≠ e := fun hc => h (hc ▸ (List.mem_filter.mp he).1)
    rw [State.core_modCore_other _ _ hne]
    exact ht

/-- A core of the list that starts with MODE 0 has the default. -/
theorem State.splitDefault_mode (s : State) {cs : List CoreIx} {c : CoreIx} (hc : c ∈ cs) (hp : s.present c = true) (h0 : (s.core c).mode = 0) :
    ((s.splitDefault cs).core c).mode = s.splitMode := by
  unfold State.splitDefault
  dsimp only
  rw [← State.splitMode]
  split
  · next hm => rw [hm]; exact h0
  · exact foldl_each (I := fun _ => True) (P := fun (c : CoreIx) (t : State) => (t.core c).mode = s.splitMode) (fun _ _ _ => trivial)
      (fun t e _ => by rw [State.core_modCore]) (fun t e c _ hc => by
        by_cases he : c = e
        · rw [he, State.core_modCore]
        · rw [State.core_modCore_other _ _ he]; exact hc) trivial c (List.mem_filter.mpr ⟨hc, hp⟩)

/-! ### The die (R524) -/

/-- A die after its reset. -/
def Die.wiped (x : Die) : Die :=
  { x with merges := [], walkL1 := [], barriers := [], quiesce := Option.none, safehold := false, halfDuty := false, resetWait := false }

/-- A die that is reset, before ACC_SPLIT takes its default. -/
def State.dieCleared (s : State) (d : DieIx) : State :=
  { (s.disownDie d).resetCores d with
    teams := ((s.disownDie d).resetCores d).teams.filter (fun t => !(decide (t.1 / 64 = d.toNat))) }.modDie d Die.wiped

theorem State.dieReset_eq (s : State) (d : DieIx) : s.dieReset d = (s.dieCleared d).splitDefault (dieCores d) := by
  rw [State.dieReset, State.resetCores_eq]
  rfl

theorem State.dieCleared_core (s : State) (d : DieIx) (c : CoreIx) : (s.dieCleared d).core c =
    if coreDie c = d ∧ s.present c = true then (s.core c).dieReset (s.markedBad c) else s.core c := by
  have hreset := (s.disownDie d).resetCores_core d c
  have hcores : (s.disownDie d).core c = s.core c := rfl
  have hmod : (s.disownDie d).mod = s.mod := rfl
  rw [State.dieCleared]
  generalize (s.disownDie d).resetCores d = u at hreset ⊢
  rw [hcores] at hreset
  simp only [State.present, State.markedBad, State.badCols, State.physCol, hmod] at hreset ⊢
  exact hreset

theorem State.dieCleared_frame (s : State) (d : DieIx) : (s.dieCleared d).mod = s.mod ∧ (s.dieCleared d).dict = s.dict ∧
    (s.dieCleared d).die d = (s.die d).wiped ∧ ∀ e, e ≠ d → (s.dieCleared d).die e = s.die e := by
  have hframe := (s.disownDie d).resetCores_frame d
  rw [State.dieCleared]
  generalize (s.disownDie d).resetCores d = u at hframe ⊢
  have hdie (e : DieIx) : u.die e = s.die e := by rw [hframe]; rfl
  refine ⟨?_, ?_, ?_, fun e he => ?_⟩
  · rw [hframe]; rfl
  · rw [hframe]; rfl
  · rw [State.die_modDie]; exact congrArg Die.wiped (hdie d)
  · rw [State.die_modDie_other _ _ he]; exact hdie e

/-- What a die reset leaves. -/
theorem State.dieReset_words (s : State) (d : DieIx) :
    let t := s.dieReset d
    (t.die d).safehold = false ∧ (t.die d).quiesce = Option.none ∧ (t.die d).barriers = [] ∧
      (∀ c, coreDie c = d ∧ s.present c = true → (t.core c).fenced = s.markedBad c ∧
        (∀ n, (t.thread ⟨c, n⟩).state = if s.markedBad c = true then .fenced else .free) ∧ (t.core c).mode = s.splitMode ∧
        ∀ q, t.queue c q = (s.queue c q).dieReset) ∧
      (∀ c, coreDie c ≠ d → t.core c = s.core c) ∧ (∀ e, e ≠ d → t.die e = s.die e) ∧ s.sameMemory t := by
  obtain ⟨hmod, hdict, hdie, hother⟩ := s.dieCleared_frame d
  have hcleared := s.dieCleared_core d
  dsimp only
  rw [State.dieReset_eq]
  generalize s.dieCleared d = u at hmod hdict hdie hother hcleared ⊢
  have hsplit := u.splitDefault_core (dieCores d)
  have hframe := u.splitDefault_frame (dieCores d)
  have hmode : u.splitMode = s.splitMode := by rw [State.splitMode, State.effective, hdict]; rfl
  have hpresent (c : CoreIx) : u.present c = s.present c := by rw [State.present, hmod, State.present]
  have hsame (e : DieIx) : (u.splitDefault (dieCores d)).die e = u.die e := by rw [hframe]; rfl
  have hls (c : CoreIx) : (u.core c).ls = (s.core c).ls := by
    rw [hcleared]
    split
    · exact ((s.core c).dieReset_words (s.markedBad c)).2.2.2.1
    · rfl
  refine ⟨by rw [hsame, hdie]; rfl, by rw [hsame, hdie]; rfl, by rw [hsame, hdie]; rfl, fun c hc => ?_, fun c hc => ?_,
    fun e he => (hsame e).trans (hother e he), State.sameMemory_of (fun c => by rw [hsplit]; exact hls c) fun e => ?_⟩
  · obtain ⟨hfenced, hstate, hzero, _, hqueues⟩ := (s.core c).dieReset_words (s.markedBad c)
    have hcore := (hcleared c).trans (if_pos hc)
    have hnew := u.splitDefault_mode (mem_dieCores.mpr hc.1) ((hpresent c).trans hc.2) (by rw [hcore]; exact hzero)
    generalize (s.core c).dieReset (s.markedBad c) = y at hfenced hstate hqueues hcore
    refine ⟨by rw [hsplit, hcore]; exact hfenced, fun n => ?_, hnew.trans hmode, fun q => ?_⟩
    · rw [State.thread, hsplit, hcore]
      exact hstate n
    · rw [State.queue, hsplit, hcore, State.queue]
      exact hqueues q
  · rw [u.splitDefault_other (fun hm => hc (mem_dieCores.mp hm)), hcleared, if_neg (fun h => hc h.1)]
  · rw [hsame]
    by_cases he : e = d
    · rw [he, hdie]; exact ⟨rfl, rfl, rfl⟩
    · rw [hother e he]; exact ⟨rfl, rfl, rfl⟩

end Sys2Proof.Machine
end

section
/-! Reset requests: what refuses them, what they wait for, and what they leave (R521 to R524). -/

namespace Sys2Proof.Machine

variable {s t : State} {p : Path} {d : DieIx}

/-- A cold or warm reset before READY, or a die reset that waits, is a reset that runs. -/
theorem State.resetRuns_iff (s : State) : s.resetRuns = true ↔ s.boot.stage ≠ 6 ∨ ∃ d, (s.die d).resetWait = true := by
  have hall : ∀ d : DieIx, d ∈ allDies := by decide
  simp only [State.resetRuns, Bool.or_eq_true, decide_eq_true_eq, List.any_eq_true]
  exact or_congr_right ⟨fun ⟨d, _, hd⟩ => ⟨d, hd⟩, fun ⟨d, hd⟩ => ⟨d, hall d, hd⟩⟩

/-- A warm reset is refused while a monitor event stands, else while a reset runs. -/
theorem State.warmCode_monitor (h : s.monitorUp = true) : s.warmCode = 9 := if_pos h

theorem State.warmCode_runs (h : s.monitorUp = false) (hr : s.resetRuns = true) : s.warmCode = 10 := by
  rw [State.warmCode, if_neg (by rw [h]; decide), if_pos hr]

theorem State.warmCode_ne (h : s.monitorUp = true ∨ s.resetRuns = true) : s.warmCode ≠ 0 := by
  cases hm : s.monitorUp with
  | true => rw [State.warmCode_monitor hm]; decide
  | false => rw [State.warmCode_runs hm (h.resolve_left (by rw [hm]; decide))]; decide

theorem State.warmRequest_refused (h : s.warmCode ≠ 0) : s.warmRequest = (s.warmCode, s) := if_pos h

theorem State.warmRequest_granted (h : s.monitorUp = false) (hr : s.resetRuns = false) : s.warmRequest = (0, s.switchFirst.warmReset) := by
  have hcode : s.warmCode = 0 := by rw [State.warmCode, if_neg (by rw [h]; decide), if_neg (by rw [hr]; decide)]
  exact if_neg (not_not.mpr hcode)

/-- A switch of the overlay that waits in the queue completes first; without one nothing does. -/
theorem State.switchFirst_none (h : .ovlDrainEnd ∉ s.pending) : s.switchFirst = s := if_neg (fun hc => h (List.contains_iff_mem.mp hc))

theorem State.switchFirst_ended (h : .ovlDrainEnd ∈ s.pending) (ht : exec .ovlDrainEnd s = .next t) : s.switchFirst = t := by
  have hend : execOvlDrainEnd s = .next t := (exec_ovlDrainEnd s).symm.trans ht
  unfold State.switchFirst
  rw [if_pos (List.contains_iff_mem.mpr h), hend]

theorem warmReset_asks (h : s.writeCode p 0x4202 0 3 2 true = 0) : exec (.warmReset p) s = .next (s.warmRequest.2.report p s.warmRequest.1) := by
  rw [exec_warmReset, execWarmReset]
  simp only [h, ne_eq, not_true_eq_false, if_false]

theorem dieReset_asks (h : s.writeCode p 0x4202 0 3 2 true = 0) :
    exec (.dieReset p d) s = .next ((s.dieRequest d).2.report p (s.dieRequest d).1) := by
  rw [exec_dieReset, execDieReset]
  simp only [h, ne_eq, not_true_eq_false, if_false]

theorem reset_unwritten (h : s.writeCode p 0x4202 0 3 2 true ≠ 0) :
    exec (.warmReset p) s = .next (s.report p (s.writeCode p 0x4202 0 3 2 true)) ∧
      exec (.dieReset p d) s = .next (s.report p (s.writeCode p 0x4202 0 3 2 true)) := by
  rw [exec_warmReset, execWarmReset, exec_dieReset, execDieReset]
  simp only [h, ne_eq, not_false_eq_true, if_true, and_self]

theorem State.dieRequest_refused (h : s.dieCode d ≠ 0) : s.dieRequest d = (s.dieCode d, s) := if_pos h

theorem State.dieCode_allowed (h : (s.die d).safehold = true ∨ s.dict.ovlActive = 4) : s.dieCode d = if s.resetRuns then 10 else 0 :=
  if_neg fun hn => h.elim hn.1 hn.2

/-- What a report adds is in the dictionary. -/
theorem State.report_frame (s : State) (p : Path) (code : Nat) : s.report p code = { s with dict := (s.report p code).dict } := by
  cases p with
  | host =>
    rw [State.report]
    dsimp only
    split
    · rfl
    · rfl
  | _ => rfl

/-- Settles O50: each request by its code, a warm reset by the rings, dies and ports it sets up again, a die reset by the cores it clears. -/
theorem warmResets : Obligations.WarmResets := by
  intro s p d hd code waits warm answers w r allowed ours
  have hruns : s.resetRuns = true ↔ s.boot.stage ≠ 6 ∨ waits := s.resetRuns_iff
  have hquiet (h6 : s.boot.stage = 6) (hw : ¬waits) : s.resetRuns = false :=
    Bool.eq_false_iff.mpr fun h => (hruns.mp h).elim (fun h => h h6) hw
  have hrequest (hm : s.monitorUp = false) (h6 : s.boot.stage = 6) (hw : ¬waits) := State.warmRequest_granted hm (hquiet h6 hw)
  refine ⟨fun hc => reset_unwritten hc, fun hc hm => ?_, fun hc hm hr => ?_, fun u hc hm h6 hw hp hu => ?_, fun hc hm h6 hw hp => ?_, fun hno => ?_,
    fun hup hhead hm h6 hw hp => ?_, fun hc ha => ?_, fun hc ha hr => ?_, fun hc ha h6 hw hchange => ?_, fun hc ha h6 hw hchange => ?_⟩
  · have hcode := State.warmCode_monitor hm
    exact (warmReset_asks hc).trans (by rw [State.warmRequest_refused (by rw [hcode]; decide), hcode])
  · have hcode := State.warmCode_runs hm (hruns.mpr hr)
    exact (warmReset_asks hc).trans (by rw [State.warmRequest_refused (by rw [hcode]; decide), hcode])
  · exact (warmReset_asks hc).trans (by rw [hrequest hm h6 hw, State.switchFirst_ended hp hu])
  · refine ⟨_, (warmReset_asks hc).trans (by rw [hrequest hm h6 hw, State.switchFirst_none hp]), ?_⟩
    exact (State.warmReset_warm hd).report p 0
  · rw [exec_pcieHotReset, execPcieHotReset]
    split
    · next hup =>
      have hcode : s.warmCode ≠ 0 := by
        refine State.warmCode_ne ?_
        rcases hno with h | h | h | h | h
        · exact absurd hup.1 (by rw [h]; decide)
        · exact absurd h hup.2
        · exact .inl h
        · exact .inr (hruns.mpr (.inl h))
        · exact .inr (hruns.mpr (.inr h))
      rw [State.warmRequest_refused hcode]
    · rfl
  · rw [exec_pcieHotReset, execPcieHotReset, if_pos ⟨hup, by rw [hhead]; decide⟩, hrequest hm h6 hw, State.switchFirst_none hp]
    exact ⟨_, rfl, State.warmReset_warm hd⟩
  · have hcode : s.dieCode d = 9 := if_pos ⟨fun h => ha (.inl h), fun h => ha (.inr h)⟩
    exact (dieReset_asks hc).trans (by rw [State.dieRequest_refused (by rw [hcode]; decide), hcode])
  · have hcode : s.dieCode d = 10 := (State.dieCode_allowed ha).trans (if_pos (hruns.mpr hr))
    exact (dieReset_asks hc).trans (by rw [State.dieRequest_refused (by rw [hcode]; decide), hcode])
  · have hcode : s.dieCode d = 0 := (State.dieCode_allowed ha).trans (if_neg (by rw [hquiet h6 hw]; decide))
    have hwaits : s.dieRequest d = (0, s.modDie d (fun x => { x with resetWait := true })) :=
      (if_neg (not_not.mpr hcode)).trans (if_pos (Option.isSome_iff_ne_none.mpr hchange))
    exact (dieReset_asks hc).trans (by rw [hwaits])
  · have hcode : s.dieCode d = 0 := (State.dieCode_allowed ha).trans (if_neg (by rw [hquiet h6 hw]; decide))
    have hgoes : s.dieRequest d = (0, s.dieReset d) := (if_neg (not_not.mpr hcode)).trans (if_neg (by rw [hchange]; decide))
    obtain ⟨hsafe, hquiesce, hbarriers, hours, hcores, hdies, hmem⟩ := s.dieReset_words d
    refine ⟨_, (dieReset_asks hc).trans (by rw [hgoes]), ?_⟩
    rw [State.report_frame]
    refine ⟨hsafe, hquiesce, hbarriers, fun c hc hb => ?_, fun c hc hb => ?_, fun c hc => (hours c hc).2.2.1, fun c q hc => ?_, hcores, hdies,
      State.sameMemory_trans hmem fun l => State.byteAt_congr rfl rfl l⟩
    · obtain ⟨hfenced, hstate, _⟩ := hours c hc
      exact ⟨hfenced.trans hb, fun n => (hstate n).trans (if_neg (by rw [hb]; decide))⟩
    · obtain ⟨hfenced, hstate, _⟩ := hours c hc
      exact ⟨hfenced.trans hb, fun n => (hstate n).trans (if_pos hb)⟩
    · obtain ⟨_, _, _, hqueue⟩ := hours c hc
      have hq : ((s.dieReset d).queue c q) = (s.queue c q).dieReset := hqueue q
      exact ⟨congrArg Queue.opn hq, congrArg Queue.epoch hq⟩

end Sys2Proof.Machine
end

section
/-! Reduction contexts: ARM, DISARM and the message at their end (R347, R348, R361). -/

namespace Sys2Proof.Machine

variable {s t u : State} {c : CoreIx} {k : BitVec 4}

/-! ### One context of a core -/

theorem State.core_modRed (s : State) (c : CoreIx) (k : BitVec 4) (f : RedCtx → RedCtx) :
    (s.modRed c k f).core c = { s.core c with red := ((s.modRed c k f).core c).red } := by rw [State.modRed, State.core_modCore]

@[simp] theorem State.redCtx_modRed (s : State) (c : CoreIx) (k : BitVec 4) (f : RedCtx → RedCtx) : (s.modRed c k f).redCtx c k = f (s.redCtx c k) := by
  simp [State.modRed, State.redCtx]

theorem State.redCtx_modRed_other (s : State) (c : CoreIx) {k j : BitVec 4} (f : RedCtx → RedCtx) (h : j ≠ k) :
    (s.modRed c k f).redCtx c j = s.redCtx c j := by
  simp [State.modRed, State.redCtx, Sparse.get_upd_other _ _ _ (toNat_ne h)]

theorem State.modRed_sameMemory (s : State) (c : CoreIx) (k : BitVec 4) (f : RedCtx → RedCtx) : s.sameMemory (s.modRed c k f) :=
  s.modCore_sameMemory c rfl

theorem State.redCtx_of_core (h : t.core c = s.core c) (k : BitVec 4) : t.redCtx c k = s.redCtx c k := by rw [State.redCtx, h, State.redCtx]

/-! ### ARM (R348) -/

theorem State.redArmBad_iff (s : State) (c : CoreIx) (x : RedCtx) : s.redArmBad c x = true ↔ x.state = 1 ∨ (x.mean = true ∧ x.fwd = true) ∨
    (x.ntf = true ∧ (s.core c).resolve (x.notify.extractLsb' 0 8) (x.notify.extractLsb' 8 8) = Option.none) ∨
    8388608 < 1024 * x.result.toNat + 1024 + 4096 * (x.blocks.toNat + 1) ∨ 8388608 < 1024 * x.stage.toNat + 65536 := by
  have hresult : lsSize < x.result.toNat * 1024 + 1024 + 1024 * x.units ↔ 8388608 < 1024 * x.result.toNat + 1024 + 4096 * (x.blocks.toNat + 1) := by
    rw [lsSize, RedCtx.units]; omega
  have hstage : lsSize < x.stage.toNat * 1024 + 65536 ↔ 8388608 < 1024 * x.stage.toNat + 65536 := by rw [lsSize]; omega
  simp only [State.redArmBad, Bool.or_eq_true, Bool.and_eq_true, decide_eq_true_eq, Option.isNone_iff_eq_none, hresult, hstage, or_assoc]

theorem redArm_refused {v : Via} {gen : BitVec 8} (h : s.redArmBad c (s.redCtx c k) = true) :
    exec (.redArm v c k gen) s = .next (s.modRed c k (fun y => { y with err := true })) := by
  rw [exec_redArm, execRedArm, State.redArm]
  simp only [h, if_true]

theorem redArm_armed {v : Via} {gen : BitVec 8} (h : s.redArmBad c (s.redCtx c k) = false) :
    exec (.redArm v c k gen) s = .next (s.modRed c k (fun y => y.armed gen (ownThread v c))) := by
  rw [exec_redArm, execRedArm, State.redArm]
  simp only [h, Bool.false_eq_true, if_false]

theorem ownThread_of_own (c : CoreIx) (n : ThrIx) : ownThread (.thread ⟨c, n⟩) c = some n := if_pos rfl

theorem ownThread_of_other {v : Via} (h : ∀ n, v ≠ .thread ⟨c, n⟩) : ownThread v c = Option.none := by
  cases v with
  | thread w => exact if_neg fun hw => h w.thr (by rw [← hw])
  | _ => rfl

/-! ### The message of a context that has ended (R361) -/

theorem State.sendReq_frame (s : State) (d : DieIx) (p : Packet) (n : Nat) (r : Option (BitVec 6 × BitVec 10)) :
    s.sendReq d p n r = { s with fab := (s.sendReq d p n r).fab, outbox := (s.sendReq d p n r).outbox } := by
  unfold State.sendReq
  dsimp only
  split
  · rfl
  · rfl

/-- A message of a context that is not too late stands among the others, and nothing of cores and dies changes. -/
theorem State.leaveMsg_red {m : Msg} (ho : m.origin = .red c k) (hl : m.late s.now = true → m.oneShot = true) :
    let t := s.leaveMsg m
    t.cores = s.cores ∧ t.dies = s.dies ∧
      t.msgs = s.msgs.map (fun n => if n.seq = m.seq then { n with phase := if s.noCore m.target then .answer 4 else .flight, left := s.nextSeq } else n) := by
  have hlate : ¬(m.late s.now = true ∧ ¬m.oneShot = true) := fun h => h.2 (hl h.1)
  have hpend (t : State) : t.pendMsg m true = t := by rw [State.pendMsg, ho]
  unfold State.leaveMsg
  rw [if_neg hlate]
  dsimp only
  rw [hpend]
  have hsent (u : State) (b : Bool) : (if b = true then u else u.sendMsgPacket m).cores = u.cores ∧ (if b = true then u else u.sendMsgPacket m).dies = u.dies ∧
      (if b = true then u else u.sendMsgPacket m).msgs = u.msgs := by
    split
    · exact ⟨rfl, rfl, rfl⟩
    · rw [State.sendMsgPacket, State.sendReq_frame]
      exact ⟨rfl, rfl, rfl⟩
  exact hsent _ _

theorem State.sendMsg_red {kind : BitVec 2} {thr : ThrIx} {sender target : BitVec 22} {q : BitVec 4} {epoch : BitVec 16} {bs : List Byte} {one : Bool}
    {l : Nat} (hl : l ≤ s.now → one = true) :
    let t := s.sendMsg (.red c k) kind thr sender target q epoch bs one (some l)
    t.cores = s.cores ∧ t.dies = s.dies ∧ (∀ n ∈ s.msgs, n.seq ≠ s.nextSeq → n ∈ t.msgs) ∧
      ∃ m ∈ t.msgs, m.seq = s.nextSeq ∧ m.origin = .red c k ∧ m.target = target ∧ m.queue = q ∧ m.epoch = epoch ∧ m.payload = bs := by
  dsimp only
  unfold State.sendMsg
  dsimp only
  generalize hm : ({ seq := s.nextSeq, left := s.nextSeq, source := MsgFrom.source (.red c k), origin := .red c k, kind, thr, sender, target, queue := q,
                     epoch, payload := bs, oneShot := one, limit := some l, phase := .held, refusals := 0 } : Msg) = m
  have hwords : m.seq = s.nextSeq ∧ m.origin = .red c k ∧ m.target = target ∧ m.queue = q ∧ m.epoch = epoch ∧ m.payload = bs := by
    rw [← hm]; exact ⟨rfl, rfl, rfl, rfl, rfl, rfl⟩
  split
  · exact ⟨rfl, rfl, fun n hn _ => List.mem_append_left _ hn, m, List.mem_append_right _ (List.mem_singleton_self m), hwords⟩
  · have hlate : m.late ({ s with msgs := s.msgs ++ [m] }.bumpSeq).now = true → m.oneShot = true := by
      rw [← hm]; exact fun h => hl (of_decide_eq_true h)
    obtain ⟨hcores, hdies, hmsgs⟩ := State.leaveMsg_red (s := { s with msgs := s.msgs ++ [m] }.bumpSeq) hwords.2.1 hlate
    refine ⟨hcores, hdies, fun n hn hseq => ?_, ?_⟩
    · rw [hmsgs]
      exact List.mem_map.mpr ⟨n, List.mem_append_left _ hn, if_neg (by rw [hwords.1]; exact hseq)⟩
    · rw [hmsgs]
      refine ⟨_, List.mem_map.mpr ⟨m, List.mem_append_right _ (List.mem_singleton_self m), rfl⟩, ?_⟩
      rw [if_pos rfl]
      exact hwords

/-! ### DISARM (R348) -/

/-- A context with a notification station that resolves sends a message to it. -/
theorem State.redNotify_sends (hn : (s.redCtx c k).ntf = true) {target : BitVec 22} {q : BitVec 4} {epoch : BitVec 16}
    (hres : (s.core c).resolve ((s.redCtx c k).notify.extractLsb' 0 8) ((s.redCtx c k).notify.extractLsb' 8 8) = some (target, q, epoch)) :
    ∃ kind thr payload one l, s.redNotify c k = s.freeNat.2.sendMsg (.red c k) kind thr (s.coreId c) target q epoch payload one (some l) ∧
      payload.length = 16 ∧ (l ≤ s.now → one = true) := by
  generalize hx : s.redCtx c k = x at hn hres
  refine ⟨BitVec.ofNat 2 (s.freeNat.1 % 3), if s.freeNat.1 % 3 = 0 then x.owner.getD 0 else 0,
    toBytes x.stat.toNat 8 ++ toBytes (packW [((s.coreId c).toNat, 0), (k.toNat, 24), (x.gen.toNat, 32)]).toNat 8,
    decide (x.notify.extractLsb' 16 16 = 0), s.now + 1000 * (x.notify.extractLsb' 16 16).toNat, ?_, ?_, fun h => ?_⟩
  · rw [State.redNotify]
    simp only [hx, hn, not_true_eq_false, if_false, hres]
    rfl
  · rw [List.length_append, length_toBytes, length_toBytes]
  · refine decide_eq_true (BitVec.eq_of_toNat_eq ?_)
    have h0 : (x.notify.extractLsb' 16 16).toNat = 0 := by omega
    rw [h0]
    rfl

/-- What the notification of a context leaves of the context, of memory and of the messages. -/
theorem State.redNotify_words (s : State) (c : CoreIx) (k : BitVec 4) :
    let x := s.redCtx c k
    let t := s.redNotify c k
    (t.redCtx c k).state = x.state ∧ (t.redCtx c k).outcome = x.outcome ∧ (t.redCtx c k).staged = x.staged ∧ (x.ntf = false → t.msgs = s.msgs) ∧
      (∀ r, x.ntf = true → (s.core c).resolve (x.notify.extractLsb' 0 8) (x.notify.extractLsb' 8 8) = some r →
        (∀ n ∈ s.msgs, n.seq ≠ s.nextSeq → n ∈ t.msgs) ∧
          ∃ m ∈ t.msgs, m.seq = s.nextSeq ∧ m.origin = .red c k ∧ m.target = r.1 ∧ m.queue = r.2.1 ∧ m.epoch = r.2.2 ∧ m.payload.length = 16) ∧
      s.sameMemory t := by
  intro x t
  cases hn : x.ntf with
  | false =>
    have ht : t = s := if_pos (by rw [show (s.redCtx c k).ntf = x.ntf from rfl, hn]; decide)
    rw [ht]
    exact ⟨rfl, rfl, rfl, fun _ => rfl, fun _ h => absurd h (by decide), fun _ => rfl⟩
  | true =>
    have hstart : ¬¬x.ntf = true := not_not.mpr hn
    cases hres : (s.core c).resolve (x.notify.extractLsb' 0 8) (x.notify.extractLsb' 8 8) with
    | none =>
      have ht : t = s.modRed c k (fun y => { y with nstat := 7, nfail := true }) := by
        simp only [t, State.redNotify]
        rw [if_neg hstart]
        simp only [x] at hres
        simp only [hres]
      rw [ht]
      exact ⟨by rw [State.redCtx_modRed], by rw [State.redCtx_modRed], by rw [State.redCtx_modRed], fun _ => rfl, fun _ _ h => (Option.some_ne_none _ h.symm).elim, s.modRed_sameMemory c k _⟩
    | some r =>
      obtain ⟨target, q, epoch⟩ := r
      obtain ⟨kind, thr, payload, one, l, ht, hlen, hl⟩ := State.redNotify_sends hn hres
      change t = _ at ht
      obtain ⟨hcores, hdies, hold, hnew⟩ := State.sendMsg_red (s := s.freeNat.2) (c := c) (k := k) (kind := kind) (thr := thr) (sender := s.coreId c)
        (target := target) (q := q) (epoch := epoch) (bs := payload) hl
      rw [← ht] at hcores hdies hold hnew
      have hctx : t.redCtx c k = s.redCtx c k := State.redCtx_of_core (by rw [State.core, hcores]; rfl) k
      refine ⟨by rw [hctx], by rw [hctx], by rw [hctx], fun h => absurd h (by decide), fun r _ hr => ?_, fun m => State.byteAt_congr hcores hdies m⟩
      cases hr
      obtain ⟨m, hm, hseq, horigin, htarget, hqueue, hepoch, hpayload⟩ := hnew
      exact ⟨hold, m, hm, hseq, horigin, htarget, hqueue, hepoch, by rw [hpayload, hlen]⟩

end Sys2Proof.Machine
end

section
/-! Tiles of reductions: the tests of a tile, its refusal, its credit and its acceptance (R111, R113, R352, R356, R357, R400, R405). -/

namespace Sys2Proof.Machine

variable {s t u : State} {n : Contrib}

/-! ### The tests (R352, R356) -/

/-- The tests of a tile, in their order. -/
theorem State.redTest_cases (s : State) (n : Contrib) :
    let x := s.redCtx n.target n.ctx
    let behind := (x.gen - n.gen).toNat
    let t1 := n.epoch ≠ (s.queue n.target n.ctx).epoch
    let t2 := 1 ≤ behind ∧ behind ≤ 128
    let later := 128 < behind
    let t3 := x.ranks.toNat < n.rank.toNat ∨ x.blocks.toNat < n.block.toNat
    let t4 := n.thinm1 ≠ x.thinm1
    let t5 := n.rank.toNat ∈ x.excluded ∨ x.state = 2 ∨ x.state = 3
    let t6 := x.received (4 * n.block.toNat + n.q.toNat) n.rank.toNat = true
    let ok := ¬t1 ∧ ¬t2 ∧ ¬later ∧ ¬t3 ∧ ¬t4 ∧ ¬t5 ∧ ¬t6
    let window := x.state = 1 ∧ x.inWindow (4 * n.block.toNat + n.q.toNat) n.rank.toNat = true
    (t1 → s.redTest n = .refuse 1) ∧ (¬t1 → t2 → s.redTest n = .refuse 6) ∧ (¬t1 → later → s.redTest n = .held) ∧
      (¬t1 → ¬t2 → ¬later → t3 → s.redTest n = .refuse 3) ∧ (¬t1 → ¬t2 → ¬later → ¬t3 → t4 → s.redTest n = .refuse 4) ∧
      (¬t1 → ¬t2 → ¬later → ¬t3 → ¬t4 → t5 → s.redTest n = .refuse 6) ∧ (¬t1 → ¬t2 → ¬later → ¬t3 → ¬t4 → ¬t5 → t6 → s.redTest n = .refuse 5) ∧
      (ok → window → s.redTest n = .credit) ∧ (ok → ¬window → s.redTest n = .held) := by
  intro x behind t1 t2 later t3 t4 t5 t6 ok window
  have heq : s.redTest n = if t1 then .refuse 1 else if t2 then .refuse 6 else if behind ≠ 0 then .held else if t3 then .refuse 3
      else if t4 then .refuse 4 else if t5 then .refuse 6 else if t6 then .refuse 5 else if window then .credit else .held := by
    simp only [State.redTest, List.contains_iff_mem]
    rfl
  have hsame (h2 : ¬t2) (hl : ¬later) : ¬behind ≠ 0 := by
    simp only [t2, later] at h2 hl ⊢
    omega
  rw [heq]
  refine ⟨fun h1 => if_pos h1, fun h1 h2 => ?_, fun h1 hl => ?_, fun h1 h2 hl h3 => ?_, fun h1 h2 hl h3 h4 => ?_, fun h1 h2 hl h3 h4 h5 => ?_,
    fun h1 h2 hl h3 h4 h5 h6 => ?_, fun hok hw => ?_, fun hok hw => ?_⟩
  · rw [if_neg h1, if_pos h2]
  · have h2 : ¬t2 := fun h => by simp only [t2, later] at h hl; omega
    have h0 : behind ≠ 0 := by simp only [later] at hl; omega
    rw [if_neg h1, if_neg h2, if_pos h0]
  · rw [if_neg h1, if_neg h2, if_neg (hsame h2 hl), if_pos h3]
  · rw [if_neg h1, if_neg h2, if_neg (hsame h2 hl), if_neg h3, if_pos h4]
  · rw [if_neg h1, if_neg h2, if_neg (hsame h2 hl), if_neg h3, if_neg h4, if_pos h5]
  · rw [if_neg h1, if_neg h2, if_neg (hsame h2 hl), if_neg h3, if_neg h4, if_neg h5, if_pos h6]
  · obtain ⟨h1, h2, hl, h3, h4, h5, h6⟩ := hok
    rw [if_neg h1, if_neg h2, if_neg (hsame h2 hl), if_neg h3, if_neg h4, if_neg h5, if_neg h6, if_pos hw]
  · obtain ⟨h1, h2, hl, h3, h4, h5, h6⟩ := hok
    rw [if_neg h1, if_neg h2, if_neg (hsame h2 hl), if_neg h3, if_neg h4, if_neg h5, if_neg h6, if_neg hw]

/-- A tile has a credit to get only if it passes every test and lies in the window of an armed context. -/
theorem State.redTest_credit_iff (s : State) (n : Contrib) :
    let x := s.redCtx n.target n.ctx
    let behind := (x.gen - n.gen).toNat
    s.redTest n = .credit ↔ (¬n.epoch ≠ (s.queue n.target n.ctx).epoch ∧ ¬(1 ≤ behind ∧ behind ≤ 128) ∧ ¬128 < behind ∧
      ¬(x.ranks.toNat < n.rank.toNat ∨ x.blocks.toNat < n.block.toNat) ∧ ¬n.thinm1 ≠ x.thinm1 ∧
      ¬(n.rank.toNat ∈ x.excluded ∨ x.state = 2 ∨ x.state = 3) ∧ ¬x.received (4 * n.block.toNat + n.q.toNat) n.rank.toNat = true) ∧
      x.state = 1 ∧ x.inWindow (4 * n.block.toNat + n.q.toNat) n.rank.toNat = true := by
  intro x behind
  obtain ⟨h1, h2, hl, h3, h4, h5, h6, hcredit, hheld⟩ := s.redTest_cases n
  refine ⟨fun hc => ?_, fun h => hcredit h.1 h.2⟩
  have hnot {P : Prop} {v : Verdict} (hv : v ≠ .credit) (h : P → s.redTest n = v) : ¬P := fun hp => hv ((h hp).symm.trans hc)
  have n1 := hnot (by decide) h1
  have n2 := hnot (by decide) (h2 n1)
  have nl := hnot (by decide) (hl n1)
  have n3 := hnot (by decide) (h3 n1 n2 nl)
  have n4 := hnot (by decide) (h4 n1 n2 nl n3)
  have n5 := hnot (by decide) (h5 n1 n2 nl n3 n4)
  have n6 := hnot (by decide) (h6 n1 n2 nl n3 n4 n5)
  exact ⟨⟨n1, n2, nl, n3, n4, n5, n6⟩, not_not.mp (hnot (by decide) (hheld ⟨n1, n2, nl, n3, n4, n5, n6⟩))⟩

/-! ### The contribution of a command -/

theorem find?_contrib {l : List Contrib} (hn : n ∈ l) (hu : ∀ m ∈ l, m.seq = n.seq → m = n) : l.find? (fun m => m.seq = n.seq) = some n :=
  find?_unique hn (decide_eq_true rfl) fun m hm h => hu m hm (of_decide_eq_true h)

theorem State.mem_dropContrib (hu : ∀ m ∈ s.contribs, m.seq = n.seq → m = n) (m : Contrib) :
    m ∈ (s.dropContrib n.seq).contribs ↔ m ∈ s.contribs ∧ m ≠ n := by
  rw [State.dropContrib]
  simp only [List.mem_filter, decide_eq_true_eq]
  exact and_congr_right fun hm => not_congr ⟨hu m hm, fun h => by rw [h]⟩

/-! ### The sender's slot (R113) -/

/-- A slot after one of its tiles has left. -/
def Slot.tileLeft (y : Slot) : Slot := if y.sending ≤ 1 then {} else { y with sending := y.sending - 1 }

theorem State.leaveSlot_words (h : n.from_ = Option.none) :
    let t := s.leaveSlot n
    (t.core n.sender.core).slot n.slot.toNat = ((s.core n.sender.core).slot n.slot.toNat).tileLeft ∧ (∀ w, t.thread w = s.thread w) ∧
      (∀ c k, t.redCtx c k = s.redCtx c k) ∧ t.contribs = s.contribs ∧ t.fab = s.fab ∧ t.mod = s.mod ∧ t.outbox = s.outbox ∧ s.sameMemory t := by
  have heq : s.leaveSlot n = (s.modSlot n.sender.core n.slot.toNat Slot.tileLeft).movement n.sender.core := if_neg (by rw [h]; decide)
  dsimp only
  rw [heq]
  have hslot := s.slot_modSlot n.sender.core n.slot.toNat Slot.tileLeft
  have hthread := s.thread_modSlot n.sender.core n.slot.toNat Slot.tileLeft
  have hred (c : CoreIx) : ((s.modSlot n.sender.core n.slot.toNat Slot.tileLeft).core c).red = (s.core c).red := State.core_modCore_keeps Core.red rfl c
  have hmem := s.modSlot_sameMemory n.sender.core n.slot.toNat Slot.tileLeft
  refine ⟨hslot, fun w => hthread w, fun c k => ?_, rfl, rfl, rfl, rfl, State.sameMemory_trans hmem (State.movement_sameMemory _ _)⟩
  exact congrArg (Sparse.get {} · k.toNat) (hred c)

/-- A tile that is gone: it is no longer under way, and its sender's THR_REDSTAT says why (R356, R357). -/
theorem State.redGone_words (h : n.from_ = Option.none) (r : BitVec 3) :
    let t := s.redGone n r
    t.contribs = (s.dropContrib n.seq).contribs ∧ (t.thread n.sender).redRej = true ∧ (t.thread n.sender).redReason = r ∧
      (n.credit = false → (t.core n.sender.core).slot n.slot.toNat = ((s.core n.sender.core).slot n.slot.toNat).tileLeft) ∧
      (n.credit = true → (t.core n.sender.core).slot n.slot.toNat = (s.core n.sender.core).slot n.slot.toNat) ∧
      (∀ c k, t.redCtx c k = s.redCtx c k) ∧ s.sameMemory t := by
  have heq : s.redGone n r = (if n.credit then s.dropContrib n.seq else (s.dropContrib n.seq).leaveSlot n).redMark n.sender r := by
    rw [State.redGone, h]
  have hmark (u : State) : let t := u.redMark n.sender r
      t.contribs = u.contribs ∧ (t.thread n.sender).redRej = true ∧ (t.thread n.sender).redReason = r ∧
      (∀ c j, (t.core c).slot j = (u.core c).slot j) ∧ (∀ c k, t.redCtx c k = u.redCtx c k) ∧ u.sameMemory t := by
    dsimp only
    rw [State.redMark]
    have hcore (c : CoreIx) : ((u.modThread n.sender (fun h => { h with redRej := true, redReason := r })).core c) =
        { u.core c with threads := ((u.modThread n.sender (fun h => { h with redRej := true, redReason := r })).core c).threads } := by
      by_cases hc : c = n.sender.core
      · rw [hc, State.core_modThread]; rfl
      · rw [State.core_modThread_other _ _ _ hc]
    refine ⟨rfl, by rw [State.thread_modThread], by rw [State.thread_modThread], fun c j => by rw [hcore]; rfl, fun c k => ?_, State.modThread_sameMemory _ _ _⟩
    rw [State.redCtx, hcore, State.redCtx]
  obtain ⟨hslot, _, hred, hcontribs, _, _, _, hmem⟩ := State.leaveSlot_words (s := s.dropContrib n.seq) h
  have hdrop : s.sameMemory (s.dropContrib n.seq) := fun m => State.byteAt_congr rfl rfl m
  dsimp only
  rw [heq]
  cases hc : n.credit with
  | true =>
    obtain ⟨hcs, hrej, hreason, hslots, hreds, hsame⟩ := hmark (s.dropContrib n.seq)
    exact ⟨hcs, hrej, hreason, fun hf => absurd hf (by decide), fun _ => hslots _ _, hreds, State.sameMemory_trans hdrop hsame⟩
  | false =>
    obtain ⟨hcs, hrej, hreason, hslots, hreds, hsame⟩ := hmark ((s.dropContrib n.seq).leaveSlot n)
    exact ⟨hcs.trans hcontribs, hrej, hreason, fun _ => (hslots _ _).trans hslot, fun ht => absurd ht (by decide),
      fun c k => (hreds c k).trans (hred c k), State.sameMemory_trans hdrop (State.sameMemory_trans hmem hsame)⟩

/-! ### Refusal (R356) -/

/-- A context that has counted a refused tile; each count stays at its highest value (R356). -/
def RedCtx.refused (x : RedCtx) (r : BitVec 3) : RedCtx :=
  if r = 6 then { x with late := if x.late = 0xFFFF then x.late else x.late + 1 } else { x with rej := if x.rej = 0xFF then x.rej else x.rej + 1 }

/-- A collector that has counted the tile it refuses. -/
def State.refusalCounted (s : State) (n : Contrib) (r : BitVec 3) : State :=
  (s.modRed n.target n.ctx (fun y => y.refused r)).countCore n.target (if r = 6 then 0x152 else 0x153) 1

theorem State.redRefuse_eq (s : State) (n : Contrib) (r : BitVec 3) : s.redRefuse n r = (s.refusalCounted n r).redGone n r := rfl

theorem State.refusalCounted_words (s : State) (n : Contrib) (r : BitVec 3) :
    let t := s.refusalCounted n r
    t.contribs = s.contribs ∧ t.outbox = s.outbox ∧ t.mod.id = s.mod.id ∧ t.redCtx n.target n.ctx = (s.redCtx n.target n.ctx).refused r ∧
      (∀ c j, (t.core c).slot j = (s.core c).slot j) ∧ (∀ w, t.thread w = s.thread w) ∧ s.sameMemory t := by
  have hred := s.redCtx_modRed n.target n.ctx (fun y => y.refused r)
  have hcore := s.core_modRed n.target n.ctx (fun y => y.refused r)
  have hother (e : CoreIx) (he : e ≠ n.target) := s.core_modCore_other (fun k => { k with red := Sparse.upd {} k.red n.ctx.toNat (fun y => y.refused r) }) he
  have hmem := s.modRed_sameMemory n.target n.ctx (fun y => y.refused r)
  have hframe : (s.modRed n.target n.ctx (fun y => y.refused r)).contribs = s.contribs ∧
      (s.modRed n.target n.ctx (fun y => y.refused r)).outbox = s.outbox ∧ (s.modRed n.target n.ctx (fun y => y.refused r)).mod = s.mod := ⟨rfl, rfl, rfl⟩
  have hthread (w : Who) : (s.modRed n.target n.ctx (fun y => y.refused r)).thread w = s.thread w := State.thread_modCore rfl w
  dsimp only
  rw [State.refusalCounted]
  rw [← State.modRed] at hother
  generalize s.modRed n.target n.ctx (fun y => y.refused r) = u at hred hcore hother hmem hframe hthread ⊢
  have hcount := u.countsOnly_countCore n.target (if r = 6 then 0x152 else 0x153) 1
  generalize u.countCore n.target (if r = 6 then 0x152 else 0x153) 1 = v at hcount ⊢
  have hstate := hcount.1.1
  refine ⟨by rw [hstate]; exact hframe.1, by rw [hstate]; exact hframe.2.1, by rw [hstate, ← hframe.2.2], ?_, fun c j => ?_, fun w => ?_,
    State.sameMemory_trans hmem hcount.sameMemory⟩
  · rw [State.redCtx, hcount.2]; exact hred
  · by_cases hc : c = n.target
    · rw [hc, hcount.2, hcore]; rfl
    · rw [hcount.1.2 c hc, hother c hc]
  · rw [hcount.thread, hthread]

end Sys2Proof.Machine
end

section
/-! Tiles of reductions: the answer to another module, and the acceptance at the head of the window or in the staging area (R352, R356, R405). -/

namespace Sys2Proof.Machine

variable {s t u : State} {n : Contrib}

/-! ### The answer to another module (R400, R405) -/

theorem State.redAnswer_none (h : n.from_ = Option.none) (g : Bool) (r : BitVec 3) : s.redAnswer n g r = s := by rw [State.redAnswer, h]

theorem State.redAnswer_some {i : BitVec 22} {q : BitVec 24} (h : n.from_ = some (i, q)) (g : Bool) (r : BitVec 3) :
    s.redAnswer n g r = s.emit (.packet (coreDie (idCore i)) (Packet.seal { Packet.base 11 2 (idModule i) s.mod.id (coreDie (idCore i)) with
      seq := q, aux := BitVec.ofNat 32 (8 * b2n g + r.toNat) })) := by
  rw [State.redAnswer, h]
  rfl

theorem State.redAnswer_words (s : State) (n : Contrib) (g : Bool) (r : BitVec 3) :
    (s.redAnswer n g r).contribs = s.contribs ∧ (s.redAnswer n g r).cores = s.cores ∧ s.sameMemory (s.redAnswer n g r) := by
  cases h : n.from_ with
  | none =>
    rw [State.redAnswer_none h]
    exact ⟨rfl, rfl, fun _ => rfl⟩
  | some p =>
    rw [State.redAnswer_some h]
    exact ⟨rfl, rfl, fun m => State.byteAt_congr rfl rfl m⟩

/-! ### Acceptance (R352) -/

/-- The collector has taken a tile: its contribution is gone and its sender has an answer. -/
def State.tileTaken (s : State) (n : Contrib) : State := ((s.dropContrib n.seq).redAnswer n false 0).movement n.target

theorem State.tileTaken_words (s : State) (n : Contrib) :
    (s.tileTaken n).cores = s.cores ∧ (s.tileTaken n).contribs = (s.dropContrib n.seq).contribs ∧
      (s.tileTaken n).outbox = ((s.dropContrib n.seq).redAnswer n false 0).outbox ∧ s.sameMemory (s.tileTaken n) := by
  obtain ⟨hcontribs, hcores, hmem⟩ := (s.dropContrib n.seq).redAnswer_words n false 0
  rw [State.tileTaken]
  generalize (s.dropContrib n.seq).redAnswer n false 0 = u at hcontribs hcores hmem ⊢
  have hdrop : s.sameMemory (s.dropContrib n.seq) := fun m => State.byteAt_congr rfl rfl m
  exact ⟨hcores, hcontribs, rfl, State.sameMemory_trans hdrop (State.sameMemory_trans hmem (u.movement_sameMemory _))⟩

/-- A context that has taken a tile, kept at the head or at a place of the staging area. -/
def RedCtx.take (y : RedCtx) (n : Contrib) (place : Option Nat) : RedCtx :=
  { y with arrived := if y.arrived.contains n.rank.toNat then y.arrived else y.arrived ++ [n.rank.toNat], staged := y.staged ++ [(n, place)] }

theorem RedCtx.mem_arrived_take (y : RedCtx) (n : Contrib) (place : Option Nat) : n.rank.toNat ∈ (y.take n place).arrived := by
  simp only [RedCtx.take]
  split
  · next h => exact List.contains_iff_mem.mp h
  · exact List.mem_append_right _ (List.mem_singleton_self _)

theorem RedCtx.mem_freePlaces (x : RedCtx) (k : Nat) : k ∈ x.freePlaces ↔ k < 64 ∧ ∀ e ∈ x.staged, e.2 ≠ some k := by
  simp [RedCtx.freePlaces]

theorem RedCtx.hasRoom_iff (x : RedCtx) (n : Contrib) :
    x.hasRoom n = true ↔ (n.unit = x.unit ∧ n.rank.toNat = x.rank) ∨ ∃ k, k < 64 ∧ ∀ e ∈ x.staged, e.2 ≠ some k := by
  rw [RedCtx.hasRoom, Bool.or_eq_true, decide_eq_true_eq, Bool.not_eq_true', List.isEmpty_eq_false_iff_exists_mem]
  simp only [RedCtx.mem_freePlaces]

theorem State.redAccept_head (h : n.unit = (s.redCtx n.target n.ctx).unit ∧ n.rank.toNat = (s.redCtx n.target n.ctx).rank) :
    s.redAccept n = (s.tileTaken n).modRed n.target n.ctx (fun y => y.take n Option.none) := by
  rw [State.redAccept]
  simp only [if_pos h]
  rfl

/-- A tile that is not the head's, at a place of the staging area. -/
def State.tileStaged (s : State) (n : Contrib) (k : Nat) : State :=
  (((s.tileTaken n).freeNat.2.modRed n.target n.ctx (fun y => y.take n (some k))).perform
    (.ls n.target ((s.redCtx n.target n.ctx).stage.toNat * 1024 + 1024 * k)) ((f32Bytes n.data).map some)).countCore n.target 0x151 1

theorem State.redAccept_staged (h : ¬(n.unit = (s.redCtx n.target n.ctx).unit ∧ n.rank.toNat = (s.redCtx n.target n.ctx).rank))
    (hfree : ∃ k, k < 64 ∧ ∀ e ∈ (s.redCtx n.target n.ctx).staged, e.2 ≠ some k) :
    ∃ k, k < 64 ∧ (∀ e ∈ (s.redCtx n.target n.ctx).staged, e.2 ≠ some k) ∧ s.redAccept n = s.tileStaged n k := by
  generalize hp : (s.redCtx n.target n.ctx).freePlaces = places
  have hpos : 0 < places.length := by
    obtain ⟨k, hk⟩ := hfree
    exact List.length_pos_of_mem (hp ▸ (RedCtx.mem_freePlaces _ k).mpr hk)
  have hin : (s.tileTaken n).freeNat.1 % places.length < places.length := Nat.mod_lt _ hpos
  have hk : places.getD ((s.tileTaken n).freeNat.1 % places.length) 0 ∈ places := by
    rw [List.getD_eq_getElem _ _ hin]
    exact List.getElem_mem hin
  obtain ⟨hlt, hnot⟩ := (RedCtx.mem_freePlaces _ _).mp (hp.symm ▸ hk)
  refine ⟨_, hlt, hnot, ?_⟩
  rw [State.redAccept]
  simp only [if_neg h, hp]
  rfl

theorem State.redCtx_of_red {c : CoreIx} (h : (t.core c).red = (s.core c).red) (k : BitVec 4) : t.redCtx c k = s.redCtx c k := by
  rw [State.redCtx, h, State.redCtx]

/-- A write after changes that keep every byte, and before such changes, is a write from the first state to the last. -/
theorem State.wrote_of_sameMemory {v : State} {l : Loc} {bs : List (Option Byte)} (h : s.sameMemory t) (hw : t.wrote u l bs) (h' : u.sameMemory v) :
    s.wrote v l bs := fun m => by rw [h' m, hw m, h m]

/-- Staging a tile touches neither the contributions under way nor what leaves the module. -/
theorem State.tileStaged_kept (s : State) (n : Contrib) (k : Nat) :
    (s.tileStaged n k).contribs = (s.tileTaken n).contribs ∧ (s.tileStaged n k).outbox = (s.tileTaken n).outbox := by
  rw [State.tileStaged, State.countCore_eq]
  exact ⟨rfl, rfl⟩

theorem State.tileStaged_words (hwf : Sparse.wf {} s.cores = true) (n : Contrib) (k : Nat) :
    let x := s.redCtx n.target n.ctx
    let t := s.tileStaged n k
    t.redCtx n.target n.ctx = x.take n (some k) ∧ s.wrote t (.ls n.target (1024 * x.stage.toNat + 1024 * k)) ((f32Bytes n.data).map some) := by
  intro x t
  obtain ⟨hcores, -, -, hmem⟩ := s.tileTaken_words n
  have hctx : (s.tileTaken n).freeNat.2.redCtx n.target n.ctx = x := State.redCtx_of_core (by rw [State.core, State.core, ← hcores]; rfl) _
  have hctx' := (s.tileTaken n).freeNat.2.redCtx_modRed n.target n.ctx (fun y => y.take n (some k))
  rw [hctx] at hctx'
  have hdraw : (s.tileTaken n).sameMemory (s.tileTaken n).freeNat.2 := fun m => State.byteAt_congr rfl rfl m
  have hmem' := State.sameMemory_trans hmem (State.sameMemory_trans hdraw ((s.tileTaken n).freeNat.2.modRed_sameMemory n.target n.ctx (fun y => y.take n (some k))))
  have hwf' : Sparse.wf {} ((s.tileTaken n).freeNat.2.modRed n.target n.ctx (fun y => y.take n (some k))).cores = true :=
    Sparse.wf_put _ _ (show Sparse.wf {} (s.tileTaken n).cores = true from hcores ▸ hwf)
  have ht : t = s.tileStaged n k := rfl
  rw [State.tileStaged, Nat.mul_comm x.stage.toNat] at ht
  generalize (s.tileTaken n).freeNat.2.modRed n.target n.ctx (fun y => y.take n (some k)) = u at hctx' hmem' hwf' ht
  have hred : (u.perform (.ls n.target (1024 * x.stage.toNat + 1024 * k)) ((f32Bytes n.data).map some)).redCtx n.target n.ctx = u.redCtx n.target n.ctx :=
    State.redCtx_of_red (State.core_perform_keeps Core.red (fun _ _ _ _ => rfl) hwf' _ _ _) _
  have hwrote : u.wrote (u.perform (.ls n.target (1024 * x.stage.toNat + 1024 * k)) ((f32Bytes n.data).map some)) _ _ :=
    State.wrote_of_memOf (State.memOf_perform hwf' rfl _)
  generalize u.perform (.ls n.target (1024 * x.stage.toNat + 1024 * k)) ((f32Bytes n.data).map some) = v at hred hwrote ht
  have hcount := v.countsOnly_countCore n.target 0x151 1
  rw [← ht] at hcount
  refine ⟨?_, State.wrote_of_sameMemory hmem' hwrote hcount.sameMemory⟩
  rw [State.redCtx, hcount.2]
  exact hred.trans hctx'

end Sys2Proof.Machine
end

section
/-! Tiles of reductions: the arrival, the grant of credit and the time-out of one contribution (R111, R352, R356, R357, R400). -/

namespace Sys2Proof.Machine

variable {s t u : State} {n : Contrib}

/-- Whether a lower tile of the same acc.send still waits for its credit (R111). -/
theorem State.tileBefore_iff (h : n.from_ = Option.none) : s.tileBefore n = true ↔
    ∃ m ∈ s.contribs, m.from_ = Option.none ∧ m.credit = false ∧ m.sender = n.sender ∧ m.slot = n.slot ∧ m.q < n.q := by
  simp [State.tileBefore, h, and_assoc]

theorem State.tileBefore_of_remote {p : BitVec 22 × BitVec 24} (h : n.from_ = some p) : s.tileBefore n = false := by
  simp [State.tileBefore, h]

/-- The tile leaves its sender with its credit (R352). -/
def State.creditGiven (s : State) (seq : Nat) : State :=
  { s with contribs := s.contribs.map (fun m => if m.seq = seq then { m with credit := true } else m) }

theorem State.creditGiven_sameMemory (s : State) (seq : Nat) : s.sameMemory (s.creditGiven seq) := fun m => State.byteAt_congr rfl rfl m

/-! ### The commands at a contribution -/

section
variable (hn : n ∈ s.contribs) (hu : ∀ m ∈ s.contribs, m.seq = n.seq → m = n)
include hn hu

theorem redTileArrival_away (h : n.away ≠ Option.none) : exec (.redTileArrival n.seq) s = .next s := by
  rw [exec_redTileArrival, execRedTileArrival, State.redArrive, find?_contrib hn hu]
  exact congrArg _ (if_pos (.inl (Option.isSome_iff_ne_none.mpr h)))

/-- A tile that is here, or whose request is, meets the tests of its collector. -/
theorem redTileArrival_tests (haway : n.away = Option.none) (hdata : n.credit = false ∨ n.data ≠ []) :
    exec (.redTileArrival n.seq) s = .next (match s.redTest n with
      | .refuse r => s.redRefuse n r
      | .held => s
      | .credit => if n.credit && (s.redCtx n.target n.ctx).hasRoom n then s.redAccept n else s) := by
  have hgo : ¬(n.away.isSome = true ∨ (n.credit = true ∧ n.data.isEmpty = true)) := by
    rw [haway, List.isEmpty_iff]
    rintro (h | ⟨hc, hd⟩)
    · exact absurd h (by decide)
    · exact hdata.elim (fun h => by rw [h] at hc; exact absurd hc (by decide)) (fun h => h hd)
  rw [exec_redTileArrival, execRedTileArrival, State.redArrive, find?_contrib hn hu]
  exact congrArg _ (if_neg hgo)

theorem redTileArrival_refuses (haway : n.away = Option.none) (hdata : n.credit = false ∨ n.data ≠ []) {r : BitVec 3} (h : s.redTest n = .refuse r) :
    exec (.redTileArrival n.seq) s = .next (s.redRefuse n r) := by
  rw [redTileArrival_tests hn hu haway hdata, h]

theorem redTileArrival_held (haway : n.away = Option.none) (hdata : n.credit = false ∨ n.data ≠ []) (h : s.redTest n = .held) :
    exec (.redTileArrival n.seq) s = .next s := by
  rw [redTileArrival_tests hn hu haway hdata, h]

theorem redTileArrival_accepts (haway : n.away = Option.none) (hdata : n.data ≠ []) (hcredit : n.credit = true) (h : s.redTest n = .credit)
    (hroom : (s.redCtx n.target n.ctx).hasRoom n = true) : exec (.redTileArrival n.seq) s = .next (s.redAccept n) := by
  rw [redTileArrival_tests hn hu haway (.inr hdata), h]
  simp only [hcredit, hroom, Bool.and_self, if_true]

theorem redTileArrival_waits (haway : n.away = Option.none) (hdata : n.data ≠ []) (h : s.redTest n = .credit)
    (hroom : n.credit = false ∨ (s.redCtx n.target n.ctx).hasRoom n = false) : exec (.redTileArrival n.seq) s = .next s := by
  rw [redTileArrival_tests hn hu haway (.inr hdata), h]
  rcases hroom with hr | hr <;> simp only [hr, Bool.false_and, Bool.and_false, Bool.false_eq_true, if_false]

theorem redCreditGrant_waits (h : n.credit = true ∨ s.tileBefore n = true) : exec (.redCreditGrant n.seq) s = .next s := by
  rw [exec_redCreditGrant, execRedCreditGrant, find?_contrib hn hu]
  exact if_pos (Bool.or_eq_true _ _ ▸ h)

/-- A contribution that has no credit yet, with no lower tile before it. -/
theorem redCreditGrant_of_free (hcredit : n.credit = false) (hlower : s.tileBefore n = false) :
    exec (.redCreditGrant n.seq) s = match n.away with
      | some target => .next (((s.creditGiven n.seq).leaveSlot n).sendTilePacket n target)
      | Option.none => if s.redTest n = .credit then .next (((s.creditGiven n.seq).leaveSlot n).redAnswer n true 0) else .next s := by
  rw [exec_redCreditGrant, execRedCreditGrant, find?_contrib hn hu]
  refine (if_neg ?_).trans rfl
  rw [hcredit, hlower]
  decide

theorem redCreditGrant_gives (haway : n.away = Option.none) (hcredit : n.credit = false) (hlower : s.tileBefore n = false) (h : s.redTest n = .credit) :
    exec (.redCreditGrant n.seq) s = .next (((s.creditGiven n.seq).leaveSlot n).redAnswer n true 0) := by
  rw [redCreditGrant_of_free hn hu hcredit hlower, haway]
  exact if_pos h

/-- The collector gives no credit to a tile that is not due. -/
theorem redCreditGrant_notDue (haway : n.away = Option.none) (h : s.redTest n ≠ .credit) : exec (.redCreditGrant n.seq) s = .next s := by
  cases hcredit : n.credit with
  | true => exact redCreditGrant_waits hn hu (.inl hcredit)
  | false =>
    cases hlower : s.tileBefore n with
    | true => exact redCreditGrant_waits hn hu (.inr hlower)
    | false =>
      rw [redCreditGrant_of_free hn hu hcredit hlower, haway]
      exact if_neg h

theorem redCreditGrant_leaves {target : BitVec 22} (haway : n.away = some target) (hcredit : n.credit = false) (hlower : s.tileBefore n = false) :
    exec (.redCreditGrant n.seq) s = .next (((s.creditGiven n.seq).leaveSlot n).sendTilePacket n target) := by
  rw [redCreditGrant_of_free hn hu hcredit hlower, haway]

theorem redCreditTimeout_kept (h : n.credit = true ∨ n.from_ ≠ Option.none) : exec (.redCreditTimeout n.seq) s = .next s := by
  rw [exec_redCreditTimeout, execRedCreditTimeout, find?_contrib hn hu]
  exact congrArg _ (if_pos (h.imp_right Option.isSome_iff_ne_none.mpr))

theorem redCreditTimeout_drops (hcredit : n.credit = false) (hfrom : n.from_ = Option.none) :
    exec (.redCreditTimeout n.seq) s = .next (s.redGone n 2) := by
  rw [exec_redCreditTimeout, execRedCreditTimeout, find?_contrib hn hu]
  refine congrArg _ (if_neg ?_)
  rw [hcredit, hfrom]
  decide

end

/-! ### What becomes of a tile of this module -/

/-- What a slot is once a tile is gone that may have left it. -/
def State.SlotGone (s t : State) (n : Contrib) : Prop :=
  (n.credit = false → (t.core n.sender.core).slot n.slot.toNat = ((s.core n.sender.core).slot n.slot.toNat).tileLeft) ∧
    (n.credit = true → (t.core n.sender.core).slot n.slot.toNat = (s.core n.sender.core).slot n.slot.toNat)

theorem State.redGone_here (hu : ∀ m ∈ s.contribs, m.seq = n.seq → m = n) (hfrom : n.from_ = Option.none) (r : BitVec 3) :
    let t := s.redGone n r
    (∀ m, m ∈ t.contribs ↔ m ∈ s.contribs ∧ m ≠ n) ∧ (t.thread n.sender).redRej = true ∧ (t.thread n.sender).redReason = r ∧ s.SlotGone t n ∧
      (∀ c k, t.redCtx c k = s.redCtx c k) ∧ s.sameMemory t := by
  obtain ⟨hcontribs, hrej, hreason, hleft, hkept, hred, hmem⟩ := State.redGone_words (s := s) hfrom r
  exact ⟨fun m => by rw [hcontribs]; exact State.mem_dropContrib hu m, hrej, hreason, ⟨hleft, hkept⟩, hred, hmem⟩

/-- A tile of this module that its collector refuses. -/
theorem State.redRefuse_here (hu : ∀ m ∈ s.contribs, m.seq = n.seq → m = n) (hfrom : n.from_ = Option.none) (r : BitVec 3) :
    let x := s.redCtx n.target n.ctx
    let t := s.redRefuse n r
    (∀ m, m ∈ t.contribs ↔ m ∈ s.contribs ∧ m ≠ n) ∧ (t.thread n.sender).redRej = true ∧ (t.thread n.sender).redReason = r ∧ s.SlotGone t n ∧
      (r = 6 → (t.redCtx n.target n.ctx).late = if x.late = 0xFFFF then 0xFFFF else x.late + 1) ∧
      (r ≠ 6 → (t.redCtx n.target n.ctx).rej = if x.rej = 0xFF then 0xFF else x.rej + 1) ∧ s.sameMemory t := by
  intro x t
  obtain ⟨hcontribs, -, -, hctx, hslot, -, hmem⟩ := s.refusalCounted_words n r
  obtain ⟨hgone, hrej, hreason, ⟨hleft, hkept⟩, hred, hmem'⟩ := State.redGone_here (s := s.refusalCounted n r) (hcontribs ▸ hu) hfrom r
  have ht : t = (s.refusalCounted n r).redGone n r := s.redRefuse_eq n r
  rw [← ht] at hgone hrej hreason hleft hkept hred hmem'
  rw [hslot] at hleft hkept
  refine ⟨fun m => by rw [hgone m, hcontribs], hrej, hreason, ⟨hleft, hkept⟩, fun h6 => ?_, fun h6 => ?_, State.sameMemory_trans hmem hmem'⟩
  · rw [hred, hctx, RedCtx.refused, if_pos h6]
    exact ite_congr rfl id fun _ => rfl
  · rw [hred, hctx, RedCtx.refused, if_neg h6]
    exact ite_congr rfl id fun _ => rfl

/-- The credit of a tile of this module. -/
theorem State.credit_here (hfrom : n.from_ = Option.none) :
    let t := ((s.creditGiven n.seq).leaveSlot n).redAnswer n true 0
    t.contribs = s.contribs.map (fun m => if m.seq = n.seq then { m with credit := true } else m) ∧
      (t.core n.sender.core).slot n.slot.toNat = ((s.core n.sender.core).slot n.slot.toNat).tileLeft ∧ (∀ w, t.thread w = s.thread w) ∧ s.sameMemory t := by
  obtain ⟨hslot, hthread, -, hcontribs, -, -, -, hmem⟩ := State.leaveSlot_words (s := s.creditGiven n.seq) hfrom
  rw [State.redAnswer_none hfrom]
  exact ⟨hcontribs, hslot, hthread, State.sameMemory_trans (s.creditGiven_sameMemory n.seq) hmem⟩

end Sys2Proof.Machine
end

section
/-! Tiles of reductions between modules: the packet that leaves, and the answers to one that came (R352, R400, R405). -/

namespace Sys2Proof.Machine

variable {s t u : State} {n : Contrib}

theorem length_f32Bytes (xs : List F32) : (f32Bytes xs).length = 4 * xs.length := by
  induction xs with
  | nil => rfl
  | cons x xs ih =>
    rw [f32Bytes, List.flatMap_cons, List.length_append, length_toBytes, ← f32Bytes, ih, List.length_cons]
    omega

/-- A request stands in the replay store, with the words it was given. -/
theorem State.sendReq_store (s : State) (d : DieIx) (p : Packet) (f : Nat) (r : Option (BitVec 6 × BitVec 10)) :
    ∃ o, (s.sendReq d p f r).fab.store = s.fab.store ++ [o] ∧ o.flight = f ∧ o.pkt.kind = p.kind ∧ o.pkt.dmod = p.dmod ∧ o.pkt.payload = p.payload := by
  unfold State.sendReq
  dsimp only
  split
  · exact ⟨_, rfl, rfl, rfl, rfl, rfl⟩
  · exact ⟨_, rfl, rfl, rfl, rfl, rfl⟩

theorem State.sendTilePacket_words (s : State) (n : Contrib) (target : BitVec 22) :
    let t := s.sendTilePacket n target
    t.contribs = s.contribs ∧ s.sameMemory t ∧ ∃ o, t.fab.store = s.fab.store ++ [o] ∧ o.flight = n.seq ∧ o.pkt.kind = 5 ∧
      o.pkt.dmod = idModule target ∧ o.pkt.payload.take (4 * n.data.length) = f32Bytes n.data := by
  have hsend (d : DieIx) (p : Packet) (f : Nat) (r : Option (BitVec 6 × BitVec 10)) :
      (s.sendReq d p f r).contribs = s.contribs ∧ s.sameMemory (s.sendReq d p f r) := by
    rw [State.sendReq_frame]
    exact ⟨rfl, fun m => State.byteAt_congr rfl rfl m⟩
  dsimp only
  rw [State.sendTilePacket]
  generalize hp : ({ Packet.base 5 1 (idModule target) s.mod.id (coreDie n.sender.core) with
    sid := s.coreId n.sender.core, thr := n.sender.thr, oparg := _, addr := _, aux := _, payload := _ } : Packet) = p
  obtain ⟨o, hstore, hflight, hkind, hdmod, hpayload⟩ := s.sendReq_store (coreDie n.sender.core) p n.seq Option.none
  refine ⟨(hsend _ _ _ _).1, (hsend _ _ _ _).2, o, hstore, hflight, hkind.trans (by rw [← hp]; rfl), hdmod.trans (by rw [← hp]; rfl), ?_⟩
  rw [hpayload, ← hp, ← length_f32Bytes]
  exact List.take_left

/-- The credit of a tile for another module: it leaves its sender as a packet. -/
theorem State.credit_away (hfrom : n.from_ = Option.none) (target : BitVec 22) :
    let t := ((s.creditGiven n.seq).leaveSlot n).sendTilePacket n target
    ∃ o, t.contribs = s.contribs.map (fun m => if m.seq = n.seq then { m with credit := true } else m) ∧
      t.fab.store = s.fab.store ++ [o] ∧ o.flight = n.seq ∧ o.pkt.kind = 5 ∧ o.pkt.dmod = idModule target ∧
      o.pkt.payload.take (4 * n.data.length) = f32Bytes n.data ∧ s.sameMemory t := by
  obtain ⟨-, -, -, hcontribs, hfab, -, -, hmem⟩ := State.leaveSlot_words (s := s.creditGiven n.seq) hfrom
  obtain ⟨hkept, hmem', o, hstore, hflight, hkind, hdmod, hpayload⟩ := ((s.creditGiven n.seq).leaveSlot n).sendTilePacket_words n target
  exact ⟨o, hkept.trans hcontribs, by rw [hstore, hfab]; rfl, hflight, hkind, hdmod, hpayload,
    State.sameMemory_trans (s.creditGiven_sameMemory n.seq) (State.sameMemory_trans hmem hmem')⟩

/-! ### Tiles that came from another module -/

/-- The answer to the sender's module from module `here`, with its status. -/
def Contrib.answer (here : BitVec 12) (i : BitVec 22) (q : BitVec 24) (st : Nat) : Out :=
  .packet (coreDie (idCore i)) (Packet.seal { Packet.base 11 2 (idModule i) here (coreDie (idCore i)) with seq := q, aux := BitVec.ofNat 32 st })

section
variable {i : BitVec 22} {q : BitVec 24} (hfrom : n.from_ = some (i, q))
include hfrom

theorem State.redAnswer_outbox (s : State) (g : Bool) (r : BitVec 3) :
    (s.redAnswer n g r).outbox = s.outbox ++ [Contrib.answer s.mod.id i q (8 * b2n g + r.toNat)] := by
  rw [State.redAnswer_some hfrom]
  rfl

/-- A tile from another module that the collector refuses. -/
theorem State.redRefuse_remote (hu : ∀ m ∈ s.contribs, m.seq = n.seq → m = n) (r : BitVec 3) :
    let t := s.redRefuse n r
    (∀ m, m ∈ t.contribs ↔ m ∈ s.contribs ∧ m ≠ n) ∧ t.outbox = s.outbox ++ [Contrib.answer s.mod.id i q r.toNat] ∧
      ∀ w, (t.thread w).redRej = (s.thread w).redRej := by
  intro t
  obtain ⟨hcontribs, houtbox, hid, -, -, hthread, -⟩ := s.refusalCounted_words n r
  have ht : t = ((s.refusalCounted n r).dropContrib n.seq).redAnswer n false r := by
    change s.redRefuse n r = _
    rw [State.redRefuse_eq, State.redGone, hfrom]
  obtain ⟨hkept, hcores, -⟩ := ((s.refusalCounted n r).dropContrib n.seq).redAnswer_words n false r
  have hout := State.redAnswer_outbox hfrom ((s.refusalCounted n r).dropContrib n.seq) false r
  rw [← ht] at hkept hcores hout
  refine ⟨fun m => by rw [hkept, State.mem_dropContrib (hcontribs ▸ hu), hcontribs], ?_, fun w => ?_⟩
  · rw [hout]
    refine congrArg₂ (· ++ [·]) houtbox ?_
    rw [← hid, show 8 * b2n false + r.toNat = r.toNat from Nat.zero_add _]
    rfl
  · rw [← hthread w, State.thread, State.core, hcores]
    rfl

/-- A tile from another module that the collector accepts. -/
theorem State.redAccept_remote (hu : ∀ m ∈ s.contribs, m.seq = n.seq → m = n) (hroom : (s.redCtx n.target n.ctx).hasRoom n = true) :
    let t := s.redAccept n
    (∀ m, m ∈ t.contribs ↔ m ∈ s.contribs ∧ m ≠ n) ∧ t.outbox = s.outbox ++ [Contrib.answer s.mod.id i q 0] := by
  intro t
  have hwords : t.contribs = (s.dropContrib n.seq).contribs ∧ t.outbox = ((s.dropContrib n.seq).redAnswer n false 0).outbox := by
    obtain ⟨-, hcontribs, houtbox, -⟩ := s.tileTaken_words n
    by_cases hhead : n.unit = (s.redCtx n.target n.ctx).unit ∧ n.rank.toNat = (s.redCtx n.target n.ctx).rank
    · have ht : t = _ := State.redAccept_head hhead
      rw [ht]
      exact ⟨hcontribs, houtbox⟩
    · obtain ⟨k, -, -, ht⟩ := State.redAccept_staged hhead (((RedCtx.hasRoom_iff _ n).mp hroom).resolve_left hhead)
      change t = _ at ht
      rw [ht]
      exact ⟨(s.tileStaged_kept n k).1.trans hcontribs, (s.tileStaged_kept n k).2.trans houtbox⟩
  exact ⟨fun m => by rw [hwords.1]; exact State.mem_dropContrib hu m, by rw [hwords.2, State.redAnswer_outbox hfrom]; rfl⟩

/-- The credit of a tile from another module. -/
theorem State.credit_remote :
    let t := ((s.creditGiven n.seq).leaveSlot n).redAnswer n true 0
    t.contribs = s.contribs.map (fun m => if m.seq = n.seq then { m with credit := true } else m) ∧
      t.outbox = s.outbox ++ [Contrib.answer s.mod.id i q 8] := by
  have hstay : (s.creditGiven n.seq).leaveSlot n = s.creditGiven n.seq := if_pos (by rw [hfrom]; rfl)
  rw [hstay]
  exact ⟨((s.creditGiven n.seq).redAnswer_words n true 0).1, State.redAnswer_outbox hfrom _ true 0⟩

end

end Sys2Proof.Machine
end

section
/-! Reduction contexts: the statement on arming, disarming and the arrival of tiles (R111, R113, R347, R348, R352, R356, R357, R400, R405). -/

namespace Sys2Proof.Machine

variable {s t u : State} {n : Contrib}

/-! ### ARM and DISARM -/

theorem redArm_arms (v : Via) (c : CoreIx) (k : BitVec 4) (gen : BitVec 8) (h : s.redArmBad c (s.redCtx c k) = false) :
    let x := s.redCtx c k
    ∃ t, exec (.redArm v c k gen) s = .next t ∧ t.redCtx c k = x.armed gen (ownThread v c) ∧ t = { s with cores := t.cores } ∧
      (∀ e, e ≠ c → t.core e = s.core e) ∧ t.core c = { s.core c with red := (t.core c).red } ∧ ∀ j, j ≠ k → t.redCtx c j = s.redCtx c j :=
  ⟨_, redArm_armed h, s.redCtx_modRed c k _, rfl, fun _ he => State.core_modCore_other _ _ he, s.core_modRed c k _,
    fun _ hj => s.redCtx_modRed_other c _ hj⟩

theorem redDisarm_kept (v : Via) (c : CoreIx) (k : BitVec 4) (h : (s.redCtx c k).state ≠ 1) : exec (.redDisarm v c k) s = .next s := by
  rw [exec_redDisarm, execRedDisarm, State.redDisarm, if_neg h]

/-- A context as DISARM ends it (R348). -/
def RedCtx.disarmed (x : RedCtx) : RedCtx := { x with state := 3, outcome := 4, staged := [], partial_ := [] }

theorem redDisarm_fails (v : Via) (c : CoreIx) (k : BitVec 4) (h : (s.redCtx c k).state = 1) :
    let x := s.redCtx c k
    ∃ t, exec (.redDisarm v c k) s = .next t ∧ (t.redCtx c k).state = 3 ∧ (t.redCtx c k).outcome = 4 ∧ (t.redCtx c k).staged = [] ∧
      (x.ntf = false → t.msgs = s.msgs) ∧
      (∀ r, x.ntf = true → (s.core c).resolve (x.notify.extractLsb' 0 8) (x.notify.extractLsb' 8 8) = some r →
        (∀ n ∈ s.msgs, n.seq ≠ s.nextSeq → n ∈ t.msgs) ∧ ∃ m ∈ t.msgs, m.seq = s.nextSeq ∧ m.origin = .red c k ∧ m.target = r.1 ∧ m.queue = r.2.1 ∧
          m.epoch = r.2.2 ∧ m.payload.length = 16) ∧ s.sameMemory t := by
  intro x
  have hexec : exec (.redDisarm v c k) s = .next ((s.modRed c k RedCtx.disarmed).redNotify c k) := by
    rw [exec_redDisarm, execRedDisarm, State.redDisarm, if_pos h]
    rfl
  have hctx : (s.modRed c k RedCtx.disarmed).redCtx c k = x.disarmed := s.redCtx_modRed c k RedCtx.disarmed
  have hcore := s.core_modRed c k RedCtx.disarmed
  have hmem := s.modRed_sameMemory c k RedCtx.disarmed
  have hkept : (s.modRed c k RedCtx.disarmed).msgs = s.msgs ∧ (s.modRed c k RedCtx.disarmed).nextSeq = s.nextSeq := ⟨rfl, rfl⟩
  generalize s.modRed c k RedCtx.disarmed = u at hexec hctx hcore hmem hkept
  have hres (st l : BitVec 8) : (u.core c).resolve st l = (s.core c).resolve st l := by rw [hcore]; rfl
  obtain ⟨hstate, houtcome, hstaged, hquiet, hsent, hmem'⟩ := u.redNotify_words c k
  rw [hctx] at hstate houtcome hstaged hquiet hsent
  rw [hkept.1] at hquiet hsent
  rw [hkept.2] at hsent
  exact ⟨_, hexec, hstate, houtcome, hstaged, hquiet, fun r hn hr => hsent r hn ((hres _ _).trans hr), State.sameMemory_trans hmem hmem'⟩

/-! ### The tiles of this module -/

section
variable (hn : n ∈ s.contribs) (hu : ∀ m ∈ s.contribs, m.seq = n.seq → m = n)
include hn hu

theorem redTileArrival_refused (haway : n.away = Option.none) (hfrom : n.from_ = Option.none) (hdata : n.data ≠ []) {r : BitVec 3} (h : s.redTest n = .refuse r) :
    let x := s.redCtx n.target n.ctx
    ∃ t, exec (.redTileArrival n.seq) s = .next t ∧ (∀ m, m ∈ t.contribs ↔ m ∈ s.contribs ∧ m ≠ n) ∧
      (t.thread n.sender).redRej = true ∧ (t.thread n.sender).redReason = r ∧ s.SlotGone t n ∧
      (r = 6 → (t.redCtx n.target n.ctx).late = if x.late = 0xFFFF then 0xFFFF else x.late + 1) ∧
      (r ≠ 6 → (t.redCtx n.target n.ctx).rej = if x.rej = 0xFF then 0xFF else x.rej + 1) ∧ s.sameMemory t :=
  ⟨_, redTileArrival_refuses hn hu haway (.inr hdata) h, State.redRefuse_here hu hfrom r⟩

theorem redTileArrival_head (haway : n.away = Option.none) (hdata : n.data ≠ []) (hcredit : n.credit = true) (h : s.redTest n = .credit)
    (hhead : n.unit = (s.redCtx n.target n.ctx).unit ∧ n.rank.toNat = (s.redCtx n.target n.ctx).rank) :
    ∃ t, exec (.redTileArrival n.seq) s = .next t ∧ (t.redCtx n.target n.ctx).staged = (s.redCtx n.target n.ctx).staged ++ [(n, Option.none)] ∧
      n.rank.toNat ∈ (t.redCtx n.target n.ctx).arrived ∧ (∀ m, m ∈ t.contribs ↔ m ∈ s.contribs ∧ m ≠ n) ∧ s.sameMemory t := by
  obtain ⟨hcores, hcontribs, -, hmem⟩ := s.tileTaken_words n
  have hctx : (s.tileTaken n).redCtx n.target n.ctx = s.redCtx n.target n.ctx := State.redCtx_of_core (by rw [State.core, State.core, hcores]) _
  refine ⟨_, redTileArrival_accepts hn hu haway hdata hcredit h ((RedCtx.hasRoom_iff _ _).mpr (.inl hhead)), ?_⟩
  rw [State.redAccept_head hhead, State.redCtx_modRed, hctx]
  exact ⟨rfl, RedCtx.mem_arrived_take _ _ _, fun m => (Iff.of_eq (congrArg (m ∈ ·) hcontribs)).trans (State.mem_dropContrib hu m),
    State.sameMemory_trans hmem (State.modRed_sameMemory _ _ _ _)⟩

theorem redTileArrival_staged (haway : n.away = Option.none) (hdata : n.data ≠ []) (hcredit : n.credit = true) (h : s.redTest n = .credit)
    (hhead : ¬(n.unit = (s.redCtx n.target n.ctx).unit ∧ n.rank.toNat = (s.redCtx n.target n.ctx).rank)) (hwf : Sparse.wf {} s.cores = true)
    (hfree : ∃ k, k < 64 ∧ ∀ e ∈ (s.redCtx n.target n.ctx).staged, e.2 ≠ some k) :
    let x := s.redCtx n.target n.ctx
    ∃ t k, exec (.redTileArrival n.seq) s = .next t ∧ k < 64 ∧ (∀ e ∈ x.staged, e.2 ≠ some k) ∧
      (t.redCtx n.target n.ctx).staged = x.staged ++ [(n, some k)] ∧
      s.wrote t (.ls n.target (1024 * x.stage.toNat + 1024 * k)) ((f32Bytes n.data).map some) := by
  obtain ⟨k, hk, hnot, ht⟩ := State.redAccept_staged hhead hfree
  obtain ⟨hctx, hwrote⟩ := State.tileStaged_words hwf n k
  rw [← ht] at hctx hwrote
  exact ⟨_, k, redTileArrival_accepts hn hu haway hdata hcredit h ((RedCtx.hasRoom_iff _ _).mpr (.inr hfree)), hk, hnot, by rw [hctx]; rfl, hwrote⟩

theorem redCreditTimeout_gone (hfrom : n.from_ = Option.none) (hcredit : n.credit = false) :
    ∃ t, exec (.redCreditTimeout n.seq) s = .next t ∧ (∀ m, m ∈ t.contribs ↔ m ∈ s.contribs ∧ m ≠ n) ∧
      (t.thread n.sender).redRej = true ∧ (t.thread n.sender).redReason = 2 ∧
      (t.core n.sender.core).slot n.slot.toNat = ((s.core n.sender.core).slot n.slot.toNat).tileLeft ∧ s.sameMemory t := by
  obtain ⟨hgone, hrej, hreason, ⟨hleft, -⟩, -, hmem⟩ := State.redGone_here hu hfrom 2
  exact ⟨_, redCreditTimeout_drops hn hu hcredit hfrom, hgone, hrej, hreason, hleft hcredit, hmem⟩

end

/-- Settles O35: the nine verdicts on a tile, with what each leaves of the contribution, of its sender and of its collector. -/
theorem reductionContexts : Obligations.ReductionContexts := by
  unfold Obligations.ReductionContexts
  refine ⟨fun s v c k gen => ⟨fun hbad => ?_, fun hok => ?_, redDisarm_kept v c k, redDisarm_fails v c k⟩, fun s n hn hu haway hfrom hdata => ?_,
    fun s n hn hu => ⟨fun target haway hfrom => ?_, fun i q hfrom haway => ?_⟩⟩
  · exact redArm_refused ((s.redArmBad_iff c _).mpr hbad)
  · obtain ⟨t, ht, hctx, hframe, hother, hcore, hctxs⟩ := redArm_arms v c k gen (Bool.eq_false_iff.mpr fun h => hok ((s.redArmBad_iff c _).mp h))
    refine ⟨t, ht, ?_, hframe, hother, hcore, hctxs⟩
    rw [hctx]
    exact ⟨rfl, fun n hv => by subst hv; exact ownThread_of_own c n, ownThread_of_other⟩
  · intro x behind t1 t2 later t3 t4 t5 t6 ok due slotLeft slotGone lower arrive refused head
    obtain ⟨h1, h2, hl, h3, h4, h5, h6, hcredit, hheld⟩ := s.redTest_cases n
    have hrefused {r : BitVec 3} (h : s.redTest n = .refuse r) : refused r := redTileArrival_refused hn hu haway hfrom hdata h
    have hwaits (h : s.redTest n = .held) : exec arrive s = .next s := redTileArrival_held hn hu haway (.inr hdata) h
    have hdue : due ↔ s.redTest n = .credit := (s.redTest_credit_iff n).symm
    have hlower : s.tileBefore n = true ↔ lower := State.tileBefore_iff hfrom
    refine ⟨fun a => hrefused (h1 a), fun a b => hrefused (h2 a b), fun a b => hwaits (hl a b), fun a b d e => hrefused (h3 a b d e),
      fun a b d e f => hrefused (h4 a b d e f), fun a b d e f g => hrefused (h5 a b d e f g), fun a b d e f g i => hrefused (h6 a b d e f g i),
      fun hok hnot => ?_, fun hd hc hh => ?_, fun hd hc hh hwf hfree => ?_, fun hd hc hh hfull => ?_, fun hnot => ?_, fun hd hc hlow => ?_,
      fun hc => redCreditTimeout_kept hn hu (.inl hc), fun hc => redCreditTimeout_gone hn hu hfrom hc⟩
    · by_cases hd : due
      · exact redTileArrival_waits hn hu haway hdata (hdue.mp hd) (.inl (hnot.resolve_left (not_not.mpr hd)))
      · exact hwaits (hheld hok fun hw => hd ⟨hok, hw⟩)
    · exact redTileArrival_head hn hu haway hdata hc (hdue.mp hd) hh
    · exact redTileArrival_staged hn hu haway hdata hc (hdue.mp hd) hh hwf hfree
    · have hroom : x.hasRoom n = false := Bool.eq_false_iff.mpr fun h => by
        obtain ⟨k, hk, hnone⟩ := ((RedCtx.hasRoom_iff x n).mp h).resolve_left hh
        obtain ⟨e, he, hplace⟩ := hfull k hk
        exact hnone e he hplace
      exact redTileArrival_waits hn hu haway hdata (hdue.mp hd) (.inr hroom)
    · rcases hnot with hc | hlow | hd
      · exact redCreditGrant_waits hn hu (.inl hc)
      · exact redCreditGrant_waits hn hu (.inr (hlower.mpr hlow))
      · exact redCreditGrant_notDue hn hu haway fun h => hd (hdue.mpr h)
    · exact ⟨_, redCreditGrant_gives hn hu haway hc (Bool.eq_false_iff.mpr (mt hlower.mp hlow)) (hdue.mp hd), State.credit_here hfrom⟩
  · have haway' : n.away ≠ Option.none := by rw [haway]; exact Option.some_ne_none _
    have hlower := State.tileBefore_iff (s := s) hfrom
    refine ⟨redTileArrival_away hn hu haway', fun h => redCreditGrant_waits hn hu (h.imp_right hlower.mpr), fun hc hlow => ?_⟩
    obtain ⟨o, hwords⟩ := State.credit_away (s := s) hfrom target
    exact ⟨_, o, redCreditGrant_leaves hn hu haway hc (Bool.eq_false_iff.mpr (mt hlower.mp hlow)), hwords⟩
  · refine ⟨redCreditTimeout_kept hn hu (.inr ?_), fun r hdata h => ⟨_, redTileArrival_refuses hn hu haway hdata h, State.redRefuse_remote hfrom hu r⟩,
      fun hc hdata h hroom => ⟨_, redTileArrival_accepts hn hu haway hdata hc h hroom, State.redAccept_remote hfrom hu hroom⟩,
      fun hc h => ⟨_, redCreditGrant_gives hn hu haway hc (State.tileBefore_of_remote hfrom) h, State.credit_remote hfrom⟩⟩
    rw [hfrom]
    exact Option.some_ne_none _

end Sys2Proof.Machine
end

section
/-! Tile loads: the rows of a tile, and what its row bytes are worth (R82, R86, R87). -/

namespace Sys2Proof.Machine

/-! ### The bytes of a row -/

theorem toBytes_leNat (l : List Byte) : toBytes (leNat l) l.length = l := by
  induction l with
  | nil => rfl
  | cons b l ih =>
    have hb := b.isLt
    rw [List.length_cons, leNat, toBytes, show (b.toNat + 256 * leNat l) / 256 = leNat l by omega, ih]
    exact congrArg (· :: l) (BitVec.eq_of_toNat_eq (by rw [BitVec.toNat_ofNat]; omega))

/-- A word made of bytes is cut into them again. -/
theorem toBytes_ofNat_leNat {l : List Byte} {w n : Nat} (hl : l.length = n) (hw : w = 8 * n) : toBytes (BitVec.ofNat w (leNat l)).toNat n = l := by
  subst hl hw
  rw [BitVec.toNat_ofNat, Nat.mod_eq_of_lt ((leNat_lt l).trans_eq (pow_mul 2 8 _).symm), toBytes_leNat]

/-- Bytes of a row of the tile file, and of a row's scales. -/
def lineWidth (sc : Bool) : Nat := if sc then 4 else 64

/-- The bytes of a row, or of its scales. -/
def Tile.line (x : Tile) (sc : Bool) (r : Nat) : List Byte :=
  if sc then toBytes (Sparse.get (0 : BitVec 32) x.side r).toNat 4 else toBytes (Sparse.get (0 : BitVec 512) x.rows r).toNat 64

theorem Tile.length_line (x : Tile) (sc : Bool) (r : Nat) : (x.line sc r).length = lineWidth sc := by
  cases sc <;> exact length_toBytes _ _

/-- A tile with the first bytes of one row written. -/
def Tile.putLine (x : Tile) (sc : Bool) (rb row : Nat) (bs : List Byte) : Tile :=
  if sc then { x with side := Sparse.put 0 x.side row (BitVec.ofNat 32 (leNat (bs.take rb ++ (x.line true row).drop rb))) }
  else { x with rows := Sparse.put 0 x.rows row (BitVec.ofNat 512 (leNat (bs.take rb ++ (x.line false row).drop rb))) }

theorem tilePutRows_succ (x : Tile) (sc : Bool) (rb n row : Nat) (bs : List Byte) :
    tilePutRows x sc rb (n + 1) row bs = tilePutRows (x.putLine sc rb row bs) sc rb n (row + 1) (bs.drop rb) := rfl

theorem Tile.line_putLine (x : Tile) {sc : Bool} {rb : Nat} (row : Nat) {bs : List Byte} (hw : rb ≤ lineWidth sc) (hb : rb ≤ bs.length) :
    (x.putLine sc rb row bs).line sc row = bs.take rb ++ (x.line sc row).drop rb := by
  have hlen : (bs.take rb ++ (x.line sc row).drop rb).length = lineWidth sc := by
    rw [List.length_append, List.length_take, List.length_drop, Tile.length_line]
    omega
  cases sc with
  | true =>
    change toBytes (Sparse.get 0 (Sparse.put 0 x.side row _) row).toNat 4 = _
    rw [Sparse.get_put_same]
    exact toBytes_ofNat_leNat hlen rfl
  | false =>
    change toBytes (Sparse.get 0 (Sparse.put 0 x.rows row _) row).toNat 64 = _
    rw [Sparse.get_put_same]
    exact toBytes_ofNat_leNat hlen rfl

theorem Tile.line_putLine_other (x : Tile) (sc : Bool) (rb : Nat) {row r : Nat} (bs : List Byte) (hr : r ≠ row) :
    (x.putLine sc rb row bs).line sc r = x.line sc r := by
  cases sc with
  | true => simp only [Tile.line, Tile.putLine, if_true, Sparse.get_put_other _ _ _ hr]
  | false => simp only [Tile.line, Tile.putLine, Bool.false_eq_true, if_false, Sparse.get_put_other _ _ _ hr]

/-- The rows that a tile load writes, and the rows that it does not (R87). -/
theorem line_tilePutRows {sc : Bool} {rb : Nat} (hw : rb ≤ lineWidth sc) (n row : Nat) (x : Tile) (bs : List Byte) (hb : n * rb ≤ bs.length) :
    (∀ j, j < n → (tilePutRows x sc rb n row bs).line sc (row + j) = (bs.drop (j * rb)).take rb ++ (x.line sc (row + j)).drop rb) ∧
      ∀ r, r < row ∨ row + n ≤ r → (tilePutRows x sc rb n row bs).line sc r = x.line sc r := by
  induction n generalizing row x bs with
  | zero => exact ⟨fun _ h => absurd h (Nat.not_lt_zero _), fun _ _ => rfl⟩
  | succ n ih =>
    rw [Nat.succ_mul] at hb
    obtain ⟨hin, hout⟩ := ih (row + 1) (x.putLine sc rb row bs) (bs.drop rb) (by rw [List.length_drop]; omega)
    rw [tilePutRows_succ]
    refine ⟨fun j hj => ?_, fun r hr => ?_⟩
    · cases j with
      | zero =>
        rw [show row + 0 = row from rfl, hout row (.inl (Nat.lt_succ_self row)), Tile.line_putLine x row hw (by omega), Nat.zero_mul, List.drop_zero]
      | succ j =>
        have hrow : row + (j + 1) = row + 1 + j := by omega
        rw [hrow, hin j (by omega), List.drop_drop, Tile.line_putLine_other x sc rb bs (by omega), Nat.succ_mul, Nat.add_comm rb]
    · rw [hout r (by omega), Tile.line_putLine_other x sc rb bs (by omega)]

/-! ### The length of a row (R82, R99) -/

theorem fmtInfo_words : ∀ f : BitVec 4, ∀ i ∈ fmtInfo f, 0 < i.unit ∧ 4 ≤ i.width ∧ (i.scaled = false → 8 ≤ i.width) := by decide

/-- A row of a tile without a shape fault holds at least one byte, and no more than the tile file has. -/
theorem tileRowBytes_bounds {f : TileF} {sc pend : Bool} (h : tileShape f sc pend = Option.none) :
    pend = false ∧ 0 < tileRowBytes f sc ∧ tileRowBytes f sc ≤ lineWidth sc := by
  cases hf : fmtInfo f.fmt with
  | none => simp only [tileShape, hf] at h; cases h
  | some i =>
    obtain ⟨hunit, hwidth, hplain⟩ := fmtInfo_words f.fmt i hf
    have hk : 0 < (f.kf.toNat + 1) * i.unit := Nat.mul_pos (Nat.succ_pos _) hunit
    simp only [tileShape, hf] at h
    simp only [tileRowBytes, hf]
    generalize (f.kf.toNat + 1) * i.unit = k at hk h
    split at h
    · cases h
    split at h
    · cases h
    split at h
    · cases h
    split at h
    · cases h
    next hsc hlong hthirty hpend =>
      refine ⟨Bool.eq_false_iff.mpr hpend, ?_⟩
      have hmin : 4 * k ≤ k * i.width := by rw [Nat.mul_comm 4]; exact Nat.mul_le_mul_left k hwidth
      cases sc with
      | true =>
        have hscaled : i.scaled = true := by simpa using hsc
        have hmod : k % 32 = 0 := by simpa [hscaled] using hthirty
        simp only [if_true, lineWidth]
        omega
      | false =>
        simp only [Bool.false_eq_true, if_false, lineWidth]
        cases hi : i.scaled with
        | true =>
          have hmod : k % 32 = 0 := by simpa [hi] using hthirty
          omega
        | false =>
          have hmin' : k * 8 ≤ k * i.width := Nat.mul_le_mul_left k (hplain hi)
          omega

end Sys2Proof.Machine
end

section
/-! Tile loads: what the retirement of a load does to its thread (R52, R79, R81, R91 to R93, R208). -/

namespace Sys2Proof.Machine

variable {s t u : State} {w : Who} {f : TileF} {sc : Bool}

/-! ### The version and the source of a tile (R81, R153) -/

/-- A tile with a new version and source. -/
def Tile.tagged (x : Tile) (sc : Bool) (v : Nat) (src : TileSource) : Tile :=
  if sc then { x with version := v, sideSource := src } else { x with version := v, source := src }

theorem Tile.line_tagged (x : Tile) (sc : Bool) (v : Nat) (src : TileSource) (r : Nat) : (x.tagged sc v src).line sc r = x.line sc r := by
  cases sc <;> rfl

theorem Tile.state_tagged (x : Tile) (sc : Bool) (v : Nat) (src : TileSource) : (x.tagged sc v src).state = x.state := by
  cases sc <;> rfl

/-- A thread whose tile has a new version and source, which its load has given it. -/
def Thread.tagged (h : Thread) (op : LoadOp) (f : TileF) (sc : Bool) (v : Nat) (src : TileSource) : Thread :=
  { h.setTile f.td ((h.tile f.td).tagged sc v src) with
    loads := replaceFirst (fun q => decide (q = op)) (fun q => { q with tag := Option.none }) h.loads }

theorem State.tileTag_some {op : LoadOp} {v : Nat} {src : TileSource} (h : op.tag = some (v, src)) (s : State) (w : Who) (f : TileF) (sc : Bool) :
    s.tileTag w op f sc = (s.opcDrop w f.td).modThread w (fun h => h.tagged op f sc v src) := by
  rw [State.tileTag, h]
  rfl

/-- A load gives its tile its version and its source, and nothing that a row or the tile's state says. -/
theorem State.tileTag_words (s : State) (w : Who) (op : LoadOp) (f : TileF) (sc : Bool) :
    let t := s.tileTag w op f sc
    t = { s with cores := t.cores } ∧ (∀ e, e ≠ w.core → t.core e = s.core e) ∧ s.sameMemory t ∧ (t.core w.core).mq = (s.core w.core).mq ∧
      t.thread w = { s.thread w with tiles := (t.thread w).tiles, loads := (t.thread w).loads } ∧
      (∀ r, ((t.thread w).tile f.td).line sc r = ((s.thread w).tile f.td).line sc r) ∧
      ((t.thread w).tile f.td).state = ((s.thread w).tile f.td).state ∧
      ((s.thread w).loads = [op] → (t.thread w).loads = [{ op with tag := Option.none }]) := by
  cases htag : op.tag with
  | none =>
    have heq : s.tileTag w op f sc = s := by rw [State.tileTag, htag]
    dsimp only
    rw [heq]
    exact ⟨rfl, fun _ _ => rfl, fun _ => rfl, rfl, rfl, fun _ => rfl, rfl, fun h => by rw [h, ← htag]⟩
  | some p =>
    obtain ⟨v, src⟩ := p
    have hthread : (s.tileTag w op f sc).thread w = (s.thread w).tagged op f sc v src := by
      rw [State.tileTag_some htag, State.thread_modThread, State.thread_opcDrop]
    have htile : ((s.tileTag w op f sc).thread w).tile f.td = ((s.thread w).tile f.td).tagged sc v src := by
      rw [hthread]
      exact Thread.tile_setTile _ _ _
    refine ⟨?_, fun e he => ?_, ?_, ?_, by rw [hthread]; rfl, fun r => by rw [htile, Tile.line_tagged], by rw [htile, Tile.state_tagged], fun h => ?_⟩
    · rw [State.tileTag_some htag]
      rfl
    · rw [State.tileTag_some htag, State.core_modThread_other _ _ _ he]
      exact State.core_modCore_other _ _ he
    · rw [State.tileTag_some htag]
      exact State.sameMemory_trans (s.opcDrop_sameMemory w f.td) (State.modThread_sameMemory _ _ _)
    · rw [State.tileTag_some htag, State.core_modThread]
      exact State.core_modCore_keeps Core.mq rfl w.core
    · rw [hthread, Thread.tagged]
      simp only [h, replaceFirst, decide_true, if_true]

/-! ### The rows that have come, and the end of a load (R79, R91, R92, R208) -/

/-- A thread with the complete rows of a load in its tile. -/
def Thread.putRows (h : Thread) (f : TileF) (sc : Bool) (next : Nat) (bs : List Byte) (st : TileState) : Thread :=
  h.setTile f.td { tilePutRows (h.tile f.td) sc (tileRowBytes f sc) (rowsDone bs (tileRowBytes f sc)) next bs with state := st }

theorem State.tilePut_eq (s : State) (w : Who) (f : TileF) (sc : Bool) (next : Nat) (bs : List Byte) (st : TileState) :
    s.tilePut w f sc next bs st = s.modThread w (fun h => h.putRows f sc next bs st) := rfl

/-- The rows of a load that stand in its tile: those it wrote, and the rest as they were (R87). -/
theorem Thread.line_putRows (h : Thread) {f : TileF} {sc : Bool} (hpos : 0 < tileRowBytes f sc) (hw : tileRowBytes f sc ≤ lineWidth sc) {n : Nat}
    {bs : List Byte} (hb : bs.length = n * tileRowBytes f sc) (st : TileState) :
    ((h.putRows f sc 0 bs st).tile f.td).state = st ∧
      (∀ r, r < n → ((h.putRows f sc 0 bs st).tile f.td).line sc r =
        (bs.drop (r * tileRowBytes f sc)).take (tileRowBytes f sc) ++ ((h.tile f.td).line sc r).drop (tileRowBytes f sc)) ∧
      ∀ r, n ≤ r → ((h.putRows f sc 0 bs st).tile f.td).line sc r = (h.tile f.td).line sc r := by
  have hdone : rowsDone bs (tileRowBytes f sc) = n := by
    rw [rowsDone, if_neg hpos.ne', hb, Nat.mul_div_cancel _ hpos]
  have htile : (h.putRows f sc 0 bs st).tile f.td = { tilePutRows (h.tile f.td) sc (tileRowBytes f sc) n 0 bs with state := st } := by
    rw [Thread.putRows, Thread.tile_setTile, hdone]
  obtain ⟨hin, hout⟩ := line_tilePutRows hw n 0 (h.tile f.td) bs hb.ge
  rw [htile]
  refine ⟨rfl, fun r hr => ?_, fun r hr => ?_⟩
  · have hline := hin r hr
    rw [Nat.zero_add] at hline
    exact hline
  · exact hout r (.inr (by omega))

/-- A thread whose oldest load has ended with its tile's image recorded. -/
def Thread.loadEnded (h : Thread) (td : BitVec 3) : Thread :=
  { (h.setTile td { h.tile td with image := { rows := (h.tile td).rows, side := (h.tile td).side } }) with
    tldPend := false, cursor := {}, loads := h.loads.drop 1, pc := if h.tldPend then h.epc + 8 else h.pc }

theorem Thread.line_loadEnded (h : Thread) (td : BitVec 3) (sc : Bool) (r : Nat) :
    ((h.loadEnded td).tile td).line sc r = (h.tile td).line sc r ∧ ((h.loadEnded td).tile td).state = (h.tile td).state := by
  have htile : (h.loadEnded td).tile td = { h.tile td with image := { rows := (h.tile td).rows, side := (h.tile td).side } } :=
    Thread.tile_setTile _ _ _
  rw [htile]
  exact ⟨rfl, rfl⟩

/-- A thread with all rows of a load in its tile, which has ended. -/
def Thread.rowsEnded (h : Thread) (f : TileF) (sc : Bool) (prior : BitVec 2) (bs : List Byte) : Thread :=
  (h.putRows f sc 0 bs (if sc then tileStateOf prior else .full)).loadEnded f.td

/-- An ended load leaves the thread where it is, unless it was resumed, and asks nothing of it (R93). -/
theorem Thread.rowsEnded_words (h : Thread) (f : TileF) (sc : Bool) (prior : BitVec 2) (bs : List Byte) :
    (h.rowsEnded f sc prior bs).loads = h.loads.drop 1 ∧ (h.rowsEnded f sc prior bs).pc = (if h.tldPend then h.epc + 8 else h.pc) ∧
      (h.rowsEnded f sc prior bs).haltReq = h.haltReq ∧ (h.rowsEnded f sc prior bs).stepping = h.stepping ∧
      (h.rowsEnded f sc prior bs).streams = h.streams := by
  have hput : h.putRows f sc 0 bs (if sc then tileStateOf prior else .full) =
      { h with tiles := (h.putRows f sc 0 bs (if sc then tileStateOf prior else .full)).tiles } := by rw [Thread.putRows, Thread.setTile]
  rw [Thread.rowsEnded, hput, Thread.loadEnded, Thread.setTile]
  exact ⟨rfl, rfl, rfl, rfl, rfl⟩

/-- The tile of a load that has ended (R79, R87). -/
theorem Thread.line_rowsEnded (h : Thread) {f : TileF} {sc : Bool} (prior : BitVec 2) (hpos : 0 < tileRowBytes f sc)
    (hw : tileRowBytes f sc ≤ lineWidth sc) {n : Nat} {bs : List Byte} (hb : bs.length = n * tileRowBytes f sc) :
    ((h.rowsEnded f sc prior bs).tile f.td).state = (if sc then tileStateOf prior else .full) ∧
      (∀ r, r < n → ((h.rowsEnded f sc prior bs).tile f.td).line sc r =
        (bs.drop (r * tileRowBytes f sc)).take (tileRowBytes f sc) ++ ((h.tile f.td).line sc r).drop (tileRowBytes f sc)) ∧
      ∀ r, n ≤ r → ((h.rowsEnded f sc prior bs).tile f.td).line sc r = (h.tile f.td).line sc r := by
  obtain ⟨hstate, hin, hout⟩ := h.line_putRows hpos hw hb (if sc then tileStateOf prior else .full)
  have hended (r : Nat) := (h.putRows f sc 0 bs (if sc then tileStateOf prior else .full)).line_loadEnded f.td sc r
  exact ⟨(hended 0).2.trans hstate, fun r hr => (hended r).1.trans (hin r hr), fun r hr => (hended r).1.trans (hout r hr)⟩

theorem State.tileEnd_none (s : State) (w : Who) (f : TileF) (sc : Bool) (prior : BitVec 2) (bs : List Byte) :
    s.tileEnd w f sc 0 prior Option.none bs = s.modThread w (fun h => h.rowsEnded f sc prior bs) := by
  rw [State.tileEnd, State.tilePut_eq, State.modThread_modThread]
  rfl

theorem State.tileEnd_some (s : State) (w : Who) (f : TileF) (sc : Bool) (prior : BitVec 2) (d : Bool) (bs : List Byte) :
    ∃ rows, s.tileEnd w f sc 0 prior (some d) bs =
      (s.modThread w (fun h => h.rowsEnded f sc prior bs)).modStream w f.strm (fun x => x.consumed d rows s.time) := by
  refine ⟨(((s.modThread w (fun h => h.rowsEnded f sc prior bs)).thread w).tile f.td).rowBytes sc (tileRowBytes f sc) (f.rows.toNat + 1), ?_⟩
  rw [State.tileEnd, State.tilePut_eq, State.modThread_modThread]
  rfl

/-! ### Retirement -/

/-- A load with all its rows, the only one outstanding, ends. -/
theorem State.retire_rows {op : LoadOp} {prior : BitVec 2} {stream : Option Bool} {bs : List Byte} (hl : (s.thread w).loads = [op])
    (hk : op.kind = .tile f sc 0 prior stream) (hs : scanParts op.parts [] = .all bs) :
    State.retire 1 s w = (((s.tileTag w op f sc).tileEnd w f sc 0 prior stream bs).countRetired w).stepEnd w := by
  rw [State.retire, hl]
  simp only [hk, State.tileProgress, hs, if_true]
  rfl

/-- A load that has ended leaves what its thread reads of its tile (R79, R87). -/
theorem State.tileEnd_words (s : State) (w : Who) {f : TileF} {sc : Bool} (prior : BitVec 2) (stream : Option Bool) (bs : List Byte) :
    let h := (s.thread w).rowsEnded f sc prior bs
    let t := s.tileEnd w f sc 0 prior stream bs
    t = { s with cores := t.cores } ∧ (∀ e, e ≠ w.core → t.core e = s.core e) ∧ s.sameMemory t ∧ t.thread w = { h with streams := (t.thread w).streams } ∧
      ∀ d, stream = some d → ∃ rows, t.stream w f.strm = (s.stream w f.strm).consumed d rows s.time := by
  intro h t
  have hthread : (s.modThread w (fun g => g.rowsEnded f sc prior bs)).thread w = h := State.thread_modThread _ _ _
  have hmem := s.modThread_sameMemory w (fun g => g.rowsEnded f sc prior bs)
  have hother (e : CoreIx) (he : e ≠ w.core) := s.core_modThread_other w (fun g => g.rowsEnded f sc prior bs) he
  cases stream with
  | none =>
    have ht : t = _ := s.tileEnd_none w f sc prior bs
    rw [ht]
    exact ⟨rfl, hother, hmem, by rw [hthread], fun _ hd => (Option.some_ne_none _ hd.symm).elim⟩
  | some d =>
    obtain ⟨rows, ht⟩ := s.tileEnd_some w f sc prior d bs
    change t = _ at ht
    have hframe : s.modThread w (fun g => g.rowsEnded f sc prior bs) =
      { s with cores := (s.modThread w (fun g => g.rowsEnded f sc prior bs)).cores } := rfl
    have hstreams : h.streams = (s.thread w).streams := (Thread.rowsEnded_words _ _ _ _ _).2.2.2.2
    rw [ht]
    generalize s.modThread w (fun g => g.rowsEnded f sc prior bs) = u at hthread hmem hother hframe
    refine ⟨?_, fun e he => (u.core_modThread_other w _ he).trans (hother e he), State.sameMemory_trans hmem (u.modThread_sameMemory w _), ?_,
      fun d' hd => ⟨rows, ?_⟩⟩
    · rw [hframe]; rfl
    · rw [State.modStream, State.thread_modThread, hthread]
    · cases hd
      rw [State.stream, State.modStream, State.thread_modThread, hthread]
      simp only [Sparse.upd, Sparse.get_put_same, hstreams]
      rfl

/-- What a thread is once its only load, of a tile, has ended. -/
structure State.RowsLoaded (s t : State) (w : Who) (f : TileF) (sc : Bool) (prior : BitVec 2) (bs : List Byte) : Prop where
  frame : s.onlyCore t w.core
  mem : s.sameMemory t
  loads : (t.thread w).loads = []
  pc : (t.thread w).pc = if (s.thread w).tldPend then (s.thread w).epc + 8 else (s.thread w).pc
  tile : ((t.thread w).tile f.td).state = if sc then tileStateOf prior else .full
  rows : ∀ r, r ≤ f.rows.toNat → ((t.thread w).tile f.td).line sc r =
    (bs.drop (r * tileRowBytes f sc)).take (tileRowBytes f sc) ++ (((s.thread w).tile f.td).line sc r).drop (tileRowBytes f sc)
  rest : ∀ r, f.rows.toNat < r → ((t.thread w).tile f.td).line sc r = ((s.thread w).tile f.td).line sc r

/-- A tile load with all its rows, the only one outstanding, ends. -/
theorem State.retire_rowsLoaded {op : LoadOp} {prior : BitVec 2} {stream : Option Bool} {bs : List Byte} (hl : (s.thread w).loads = [op])
    (hk : op.kind = .tile f sc 0 prior stream) (hs : scanParts op.parts [] = .all bs) (hq : (s.thread w).undisturbed)
    (hpos : 0 < tileRowBytes f sc) (hw : tileRowBytes f sc ≤ lineWidth sc) (hb : bs.length = (f.rows.toNat + 1) * tileRowBytes f sc) :
    s.RowsLoaded (State.retire 1 s w) w f sc prior bs ∧
      ∀ d, stream = some d → ∃ rows, (State.retire 1 s w).stream w f.strm = (s.stream w f.strm).consumed d rows s.time := by
  obtain ⟨hframe, hother, hmem, -, hthread, hline, -, hloads⟩ := s.tileTag_words w op f sc
  rw [State.retire_rows hl hk hs]
  have hloads := hloads hl
  generalize s.tileTag w op f sc = u at hframe hother hmem hthread hline hloads ⊢
  obtain ⟨hframe', hother', hmem', hthread', hstream⟩ := u.tileEnd_words w (f := f) (sc := sc) prior stream bs
  generalize u.tileEnd w f sc 0 prior stream bs = v at hframe' hother' hmem' hthread' hstream ⊢
  obtain ⟨hended, hpc, hhalt, hstep, -⟩ := (u.thread w).rowsEnded_words f sc prior bs
  obtain ⟨hstate, hin, hout⟩ := (u.thread w).line_rowsEnded prior hpos hw hb
  generalize (u.thread w).rowsEnded f sc prior bs = g at hthread' hended hpc hhalt hstep hstate hin hout
  rw [hloads] at hended
  rw [hthread] at hpc hhalt hstep
  have hcalm : (v.thread w).undisturbed := by
    rw [hthread']
    exact ⟨hhalt.trans hq.1, hstep.trans hq.2⟩
  have hcount := v.onlyThread_countRetired w
  have hfinal := v.thread_countRetired w
  rw [hthread'] at hfinal
  rw [State.stepEnd_countRetired hcalm]
  have htile : ((v.countRetired w).thread w).tile f.td = g.tile f.td := by rw [hfinal]; rfl
  refine ⟨⟨⟨?_, fun e he => ?_⟩, State.sameMemory_trans (State.sameMemory_trans hmem hmem') hcount.sameMemory, ?_, ?_, ?_, fun r hr => ?_, fun r hr => ?_⟩,
    fun d hd => ?_⟩
  · rw [hcount.1.1, hframe', hframe]
  · rw [hcount.1.2 e he, hother' e he, hother e he]
  · rw [hfinal]; exact hended
  · rw [hfinal]; exact hpc
  · rw [htile, hstate]
  · rw [htile, hin r (Nat.lt_succ_of_le hr), hline]
  · rw [htile, hout r hr, hline]
  · obtain ⟨rows, hrows⟩ := hstream d hd
    have hafter : (v.countRetired w).stream w f.strm = v.stream w f.strm := by rw [State.stream, hfinal, State.stream]
    have hbefore : u.stream w f.strm = s.stream w f.strm := by rw [State.stream, hthread, State.stream]
    exact ⟨rows, by rw [hafter, hrows, hbefore, hframe]⟩

/-- A load that has ended has changed nothing that is not of its core. -/
theorem State.RowsLoaded.reads {prior : BitVec 2} {bs : List Byte} (h : s.RowsLoaded t w f sc prior bs) : t.reads = s.reads := by rw [h.frame.1]

end Sys2Proof.Machine
end

section
/-! Tile loads: the return of the last row, and a row that ECC cannot correct (R79, R87, R91, R92, R186). -/

namespace Sys2Proof.Machine

variable {s t u : State} {w : Who} {f : TileF} {sc : Bool} {g : RFlight} {op : LoadOp} {ps : List LoadPart} {p : LoadPart}

/-! ### The parts of a load -/

theorem scanParts_append {acc bs : List Byte} (qs : List LoadPart) (h : scanParts ps acc = .all bs) : scanParts (ps ++ qs) acc = scanParts qs bs := by
  induction ps generalizing acc with
  | nil =>
    cases h
    rfl
  | cons q ps ih =>
    cases q with
    | data d => exact ih h
    | wait n => cases h
    | fault t m => cases h
    | halted => cases h
    | more => cases h

/-- The last part of a load, which alone waits for a read, receives its answer. -/
theorem answerPart_last (hp : op.parts = ps ++ [.wait g.seq]) (hps : ∀ q ∈ ps, q ≠ .wait g.seq) :
    answerPart g.seq p op = { op with parts := ps ++ [p] } := by
  have hmap : ps.map (fun q => if q = .wait g.seq then p else q) = ps :=
    (List.map_congr_left fun q hq => if_neg (hps q hq)).trans (List.map_id ps)
  rw [answerPart, hp, List.map_append, hmap, List.map_cons, List.map_nil, if_pos rfl]

/-- A state in which a read has been answered. -/
def State.partGiven (s : State) (g : RFlight) (p : LoadPart) : State :=
  ({ s with reads := s.reads.filter (fun k => k.seq ≠ g.seq) } : State).modThread g.who (fun h => { h with loads := h.loads.map (answerPart g.seq p) })

/-- The answer to a read of the only outstanding load, which may retire with it. -/
theorem State.deliver_only (hu : ∀ k ∈ s.reads, k.seq = g.seq → k = g) (ha : g.atom = Option.none) (hl : (s.thread g.who).loads = [op]) :
    s.deliver g.who g.seq p = State.retire 1 (s.partGiven g p) g.who := by
  have hatom : s.reads.any (fun k => decide (k.seq = g.seq) && k.atom.isSome) = false := by
    rw [List.any_eq_false]
    intro k hk
    by_cases hs : k.seq = g.seq
    · rw [hu k hk hs, ha]; simp
    · simp [hs]
  have hloads : ((s.partGiven g p).thread g.who).loads.length = 1 := by
    rw [State.partGiven, State.thread_modThread, List.length_map]
    exact congrArg List.length hl
  have hgiven : ({ s with reads := s.reads.filter (fun k => k.seq ≠ g.seq) } : State).modThread g.who (fun h =>
      { h with loads := h.loads.map (answerPart g.seq p), pend := if false = true then h.pend - 1 else h.pend }) = s.partGiven g p :=
    State.modThread_congr rfl
  rw [State.deliver, hatom]
  rw [hgiven, hloads]

theorem State.partGiven_words (hl : (s.thread g.who).loads = [op]) (hp : op.parts = ps ++ [.wait g.seq]) (hps : ∀ q ∈ ps, q ≠ .wait g.seq) :
    let t := s.partGiven g p
    t.reads = s.reads.filter (fun k => k.seq ≠ g.seq) ∧ s.sameMemory t ∧ t.thread g.who = { s.thread g.who with loads := [{ op with parts := ps ++ [p] }] } ∧
      (t.core g.who.core).mq = (s.core g.who.core).mq := by
  have hthread : (s.partGiven g p).thread g.who = { s.thread g.who with loads := (s.thread g.who).loads.map (answerPart g.seq p) } :=
    State.thread_modThread _ _ _
  rw [hl, List.map_cons, List.map_nil, answerPart_last hp hps] at hthread
  have hreads : s.sameMemory { s with reads := s.reads.filter (fun k => k.seq ≠ g.seq) } := fun m => State.byteAt_congr rfl rfl m
  refine ⟨rfl, State.sameMemory_trans hreads (State.modThread_sameMemory _ _ _), hthread, ?_⟩
  rw [State.partGiven, State.core_modThread]
  rfl

/-! ### The return of the last row -/

/-- A tile load of which only the last row is still to come, read from memory of this module that is no Loft. -/
structure State.LastRow (s : State) (g : RFlight) (op : LoadOp) (f : TileF) (sc : Bool) (prior : BitVec 2) (bs : List Byte) (ps : List LoadPart) : Prop where
  sent : g ∈ s.reads
  only : ∀ k ∈ s.reads, k.seq = g.seq → k = g
  place : g.loc.direct
  atom : g.atom = Option.none
  ready : s.readReady g = true
  loads : (s.thread g.who).loads = [op]
  kind : op.kind = .tile f sc 0 prior Option.none
  parts : op.parts = ps ++ [.wait g.seq]
  scan : scanParts ps [] = .all bs
  once : ∀ q ∈ ps, q ≠ .wait g.seq
  length : bs.length = f.rows.toNat * tileRowBytes f sc
  row : g.len = tileRowBytes f sc
  pos : 0 < tileRowBytes f sc
  width : tileRowBytes f sc ≤ lineWidth sc
  quiet : (s.thread g.who).undisturbed
  fresh : (s.thread g.who).tldPend = false

variable {prior : BitVec 2} {bs : List Byte}

/-- The command brings the row, or what ECC found in it, to the load. -/
theorem State.LastRow.returns (h : s.LastRow g op f sc prior bs ps) (u : Upset) : exec (.tldRowReturn g.seq u) s = .next (s.rowReturn g u) := by
  have hfind := find?_seq h.sent h.only
  have htile : s.tileReadSeq g = true := by
    simp [State.tileReadSeq, h.loads, h.kind, h.parts]
  have hreturn : s.returnRow g u = s.rowReturn g u := by
    obtain ⟨hhere, hloft⟩ := h.place
    unfold State.returnRow
    split
    next hl => rw [hl] at hhere; cases hhere
    next hl _ => exact absurd hl (hloft _ _)
    next hl _ => exact absurd hl (hloft _ _)
    · rw [if_pos h.ready]
  rw [exec_tldRowReturn, execTldRowReturn, hfind]
  exact congrArg Host.Outcome.next ((if_pos htile).trans hreturn)

/-- The last row has come: every row stands in the tile (R79, R87). -/
theorem State.LastRow.loaded (h : s.LastRow g op f sc prior bs ps) (hp : s.poisoned g.loc g.len = false) :
    let all := bs ++ s.readLoc g.loc g.len
    ∃ u, exec (.tldRowReturn g.seq .none) s = .next u ∧ (u.thread g.who).loads = [] ∧ (u.thread g.who).pc = (s.thread g.who).pc ∧
      ((u.thread g.who).tile f.td).state = (if sc then tileStateOf prior else .full) ∧
      (∀ r, r ≤ f.rows.toNat → ((u.thread g.who).tile f.td).line sc r =
        (all.drop (r * tileRowBytes f sc)).take (tileRowBytes f sc) ++ (((s.thread g.who).tile f.td).line sc r).drop (tileRowBytes f sc)) ∧
      (∀ r, f.rows.toNat < r → ((u.thread g.who).tile f.td).line sc r = ((s.thread g.who).tile f.td).line sc r) ∧
      u.reads = s.reads.filter (fun k => k.seq ≠ g.seq) ∧ s.sameMemory u := by
  intro all
  have hreturn : s.rowReturn g .none = State.retire 1 (s.partGiven g (.data (s.readLoc g.loc g.len))) g.who := by
    rw [← State.deliver_only h.only h.atom h.loads, State.rowReturn, State.sense, hp]
    rfl
  obtain ⟨hreads, hmem, hthread, -⟩ := State.partGiven_words (p := .data (s.readLoc g.loc g.len)) h.loads h.parts h.once
  generalize s.partGiven g (.data (s.readLoc g.loc g.len)) = v at hreturn hreads hmem hthread
  have hscan : scanParts (ps ++ [.data (s.readLoc g.loc g.len)]) [] = .all all := scanParts_append _ h.scan
  have hlen : all.length = (f.rows.toNat + 1) * tileRowBytes f sc := by
    rw [List.length_append, h.length, length_readLoc, h.row, Nat.succ_mul]
  obtain ⟨hloaded, -⟩ := State.retire_rowsLoaded (s := v) (w := g.who) (op := { op with parts := ps ++ [.data (s.readLoc g.loc g.len)] }) (by rw [hthread])
    h.kind hscan (by rw [hthread]; exact h.quiet) h.pos h.width hlen
  have hpc := hloaded.pc
  have hrows := hloaded.rows
  have hrest := hloaded.rest
  rw [hthread] at hpc hrows hrest
  refine ⟨_, (h.returns .none).trans (congrArg _ hreturn), hloaded.loads, hpc.trans (if_neg (by rw [h.fresh]; decide)), hloaded.tile, hrows, hrest,
    hloaded.reads.trans hreads, State.sameMemory_trans hmem hloaded.mem⟩

end Sys2Proof.Machine
end

section
/-! Tile loads: a last row that ECC cannot correct (R91, R92, R186). -/

namespace Sys2Proof.Machine

variable {s t u : State} {w : Who} {f : TileF} {sc : Bool} {g : RFlight} {op : LoadOp} {ps : List LoadPart} {prior : BitVec 2} {bs : List Byte}

/-! ### An uncorrectable error in HBM or DDR (R249) -/

theorem State.reads_countDie (s : State) (d : DieIx) (e n : Nat) : (s.countDie d e n).reads = s.reads := by
  unfold State.countDie
  dsimp only
  split
  · exact foldl_invariant (fun u : State => u.reads = s.reads) rfl fun _ _ _ h => h
  · rfl

/-- An error found in HBM or DDR reaches no core, and no read under way. -/
theorem State.uncorrectable_kept {l : Loc} (hd : l.direct) (hls : ∀ c o, l ≠ .ls c o) (s : State) (n kind : Nat) (b : Bool) :
    let t := s.uncorrectable l n kind b
    t.reads = s.reads ∧ (∀ c, (t.core c).mq = (s.core c).mq) ∧ ∀ v, t.thread v = s.thread v := by
  have hcount (u : State) (d : DieIx) (e : Nat) (hr : u.reads = s.reads) (hc : u.cores = s.cores) :
      (u.countDie d e 1).reads = s.reads ∧ (∀ c, ((u.countDie d e 1).core c).mq = (s.core c).mq) ∧ ∀ v, (u.countDie d e 1).thread v = s.thread v := by
    refine ⟨(u.reads_countDie d e 1).trans hr, fun c => ?_, fun v => ?_⟩
    · rw [(u.aside_countDie d e 1).core c, State.core, hc, ← State.core]
    · rw [State.thread_countDie, State.thread, State.core, hc, ← State.core, ← State.thread]
  obtain ⟨hhere, hloft⟩ := hd
  cases l with
  | ls c o => exact absurd rfl (hls c o)
  | loft d o => exact absurd rfl (hloft d o)
  | ctl c o => cases hhere
  | remote m a => cases hhere
  | hbm d o => exact hcount _ _ _ rfl rfl
  | ddr d o => exact hcount _ _ _ rfl rfl

/-! ### A trap that its thread's handler takes (R53, R54) -/

theorem State.thread_leftWait (s : State) (w v : Who) : (s.leftWait w).thread v = s.thread v := by
  unfold State.leftWait
  split
  · exact State.thread_movement _ _ _
  · rfl

theorem State.thread_takeTrap (s : State) (w : Who) (pc : Word) (long : Bool) {t : Trap} (hf : t.fences = false) (hi : (s.thread w).inTrap = false)
    (hv : (s.thread w).tvec ≠ 0) : (s.takeTrap w pc long t).thread w = (s.thread w).trapped pc long t := by
  have hthread := s.thread_countWasted w.core 1 w
  unfold State.takeTrap
  dsimp only
  rw [hthread, hf, hi, if_neg Bool.false_ne_true, if_neg Bool.false_ne_true, if_neg hv, State.thread_modThread, State.thread_leftWait, hthread]
  rfl

theorem State.thread_dropPassed (s : State) (w v : Who) : (s.dropPassed w).thread v = s.thread v := by
  rw [State.dropPassed]
  exact (State.thread_modCore rfl v).trans (State.thread_countWasted _ _ _ _)

/-- A load whose trap its thread's handler takes. -/
theorem State.thread_loadTrap (s : State) (w : Who) (op : LoadOp) {t : Trap} (hf : t.fences = false) (hi : (s.thread w).inTrap = false)
    (hv : (s.thread w).tvec ≠ 0) (hq : (s.thread w).undisturbed) :
    (s.loadTrap w op t Option.none).thread w = (s.thread w).trapped op.pc op.long t := by
  have hdropped : ((s.dropReads w).dropPassed w).thread w = s.thread w := State.thread_dropPassed _ _ _
  have hthread := ((s.dropReads w).dropPassed w).thread_takeTrap w op.pc op.long hf (by rw [hdropped]; exact hi) (by rw [hdropped]; exact hv)
  rw [hdropped] at hthread
  rw [State.loadTrap, State.stepEnd_of_none (by rw [hthread]; exact hq.1) (by rw [hthread]; exact hq.2), hthread]

/-! ### The interrupted load (R91, R92) -/

/-- A thread whose tile load stands at a row. -/
def Thread.interrupted (h : Thread) (f : TileF) (sc : Bool) (prior : BitVec 2) (bs : List Byte) : Thread :=
  { h.putRows f sc 0 bs .partial_ with
    tldPend := true,
    cursor := { sc := sc, tile := f.td, src := f.src, strm := f.strm, prior := if sc then prior else 0,
                row := BitVec.ofNat 5 (0 + rowsDone bs (tileRowBytes f sc)) } }

theorem State.tileStop_eq (s : State) (w : Who) (f : TileF) (sc : Bool) (prior : BitVec 2) (bs : List Byte) :
    s.tileStop w f sc 0 prior bs = s.modThread w (fun h => h.interrupted f sc prior bs) := by
  rw [State.tileStop, State.tilePut_eq, State.modThread_modThread]
  rfl

theorem State.mmOlder_of_none (h : s.mmQueued w = false) : s.mmOlder w = false := by
  rw [State.mmQueued, List.any_eq_false] at h
  rw [State.mmOlder, List.any_eq_false]
  intro m hm
  simp [h m hm]

/-- A tile load, the only one outstanding, whose next row is a fault stops there (R92). -/
theorem State.retire_fault {trap : Trap} (hl : (s.thread w).loads = [op]) (hk : op.kind = .tile f sc 0 prior Option.none)
    (hs : scanParts op.parts [] = .faults bs trap Option.none) (hm : s.mmQueued w = false) :
    State.retire 1 s w = ((s.tileTag w op f sc).tileStop w f sc 0 prior bs).loadTrap w op trap Option.none := by
  have hmq : (s.tileTag w op f sc).mmOlder w = false := by
    refine State.mmOlder_of_none ?_
    obtain ⟨-, -, -, hmq, -⟩ := s.tileTag_words w op f sc
    rw [State.mmQueued, hmq]
    exact hm
  rw [State.retire, hl]
  simp only [hk, State.tileProgress, hs, hmq, Bool.false_eq_true, if_false]

/-- The low bits of a cause say the code of the trap and that its instruction is 64 bits long (R54). -/
theorem causeWord_low (t : Trap) : (causeWord t true).extractLsb' 0 9 = BitVec.ofNat 9 (256 + t.code.toNat) := by
  have hcode := t.code.isLt
  refine BitVec.eq_of_toNat_eq ?_
  rw [BitVec.extractLsb'_toNat, causeWord, BitVec.toNat_ofNat, BitVec.toNat_ofNat, Nat.shiftRight_zero, show b2n true = 1 from rfl]
  omega

/-- What an interrupted load leaves of its thread besides the tile: TLD_PEND and the cursor at the row it lacks. -/
theorem Thread.interrupted_words (h : Thread) {f : TileF} {sc : Bool} (prior : BitVec 2) (hpos : 0 < tileRowBytes f sc)
    (hw : tileRowBytes f sc ≤ lineWidth sc) {bs : List Byte} (hb : bs.length = f.rows.toNat * tileRowBytes f sc) :
    let k := h.interrupted f sc prior bs
    (k.tile f.td).state = .partial_ ∧ k.tldPend = true ∧ k.cursor.row = f.rows ∧ k.cursor.tile = f.td ∧ k.cursor.sc = sc ∧ k.tvec = h.tvec ∧
      k.inTrap = h.inTrap ∧ k.haltReq = h.haltReq ∧ k.stepping = h.stepping := by
  have hstate := (h.line_putRows hpos hw hb .partial_).1
  have hput : h.putRows f sc 0 bs .partial_ = { h with tiles := (h.putRows f sc 0 bs .partial_).tiles } := by rw [Thread.putRows, Thread.setTile]
  have hrow : BitVec.ofNat 5 (0 + rowsDone bs (tileRowBytes f sc)) = f.rows := by
    rw [rowsDone, if_neg hpos.ne', hb, Nat.mul_div_cancel _ hpos, Nat.zero_add, BitVec.ofNat_toNat, BitVec.setWidth_eq]
  dsimp only
  rw [Thread.interrupted, hrow]
  generalize h.putRows f sc 0 bs .partial_ = k at hstate hput
  rw [hput]
  rw [hput] at hstate
  exact ⟨hstate, rfl, rfl, rfl, rfl, rfl, rfl, rfl, rfl⟩

/-- A thread whose only load, of a tile, has stopped at its last row and has trapped (R54, R91, R92). -/
theorem State.thread_retire_fault {trap : Trap} (hl : (s.thread w).loads = [op]) (hk : op.kind = .tile f sc 0 prior Option.none)
    (hs : scanParts op.parts [] = .faults bs trap Option.none) (hm : s.mmQueued w = false) (hpos : 0 < tileRowBytes f sc)
    (hw : tileRowBytes f sc ≤ lineWidth sc) (hb : bs.length = f.rows.toNat * tileRowBytes f sc) (hf : trap.fences = false)
    (hv : (s.thread w).tvec ≠ 0) (hi : (s.thread w).inTrap = false) (hq : (s.thread w).undisturbed) :
    let h := (State.retire 1 s w).thread w
    h.loads = [] ∧ (h.tile f.td).state = .partial_ ∧ h.tldPend = true ∧ h.cursor.row = f.rows ∧ h.cursor.tile = f.td ∧ h.cursor.sc = sc ∧
      h.epc = op.pc ∧ h.cause = causeWord trap op.long ∧ h.tval = trap.tval ∧ h.pc = (s.thread w).tvec ∧ h.inTrap = true := by
  rw [State.retire_fault hl hk hs hm, State.tileStop_eq]
  obtain ⟨-, -, -, -, htagged, -⟩ := s.tileTag_words w op f sc
  generalize s.tileTag w op f sc = y at htagged
  obtain ⟨hstate, hpend, hrow, htile, hsc, htvec, htrapped, hhalt, hstep⟩ := (y.thread w).interrupted_words prior hpos hw hb
  have hstopped : (y.modThread w (fun k => k.interrupted f sc prior bs)).thread w = (y.thread w).interrupted f sc prior bs := State.thread_modThread _ _ _
  generalize (y.thread w).interrupted f sc prior bs = k at hstate hpend hrow htile hsc htvec htrapped hhalt hstep hstopped
  rw [htagged] at htvec htrapped hhalt hstep
  have hfinal := (y.modThread w (fun k => k.interrupted f sc prior bs)).thread_loadTrap w op hf (by rw [hstopped, htrapped]; exact hi)
    (by rw [hstopped, htvec]; exact hv) (by rw [hstopped]; exact ⟨hhalt.trans hq.1, hstep.trans hq.2⟩)
  rw [hstopped] at hfinal
  dsimp only
  rw [hfinal]
  exact ⟨rfl, hstate, hpend, hrow, htile, hsc, rfl, rfl, rfl, htvec, rfl⟩

/-- The trap of a word of HBM or DDR that ECC cannot correct goes to its thread and fences no core (R58, R186). -/
theorem eccTrap_keeps {c : CoreIx} {l : Loc} (hd : l.direct) (hls : ∀ c o, l ≠ .ls c o) (a : Word) :
    ({ code := 0x0A, detail := BitVec.ofNat 16 (eccDetail c l), tval := a } : Trap).fences = false := by
  obtain ⟨hhere, hloft⟩ := hd
  cases l with
  | ls c o => exact absurd rfl (hls c o)
  | loft d o => exact absurd rfl (hloft d o)
  | ctl c o => cases hhere
  | remote m a => cases hhere
  | hbm d o => rfl
  | ddr d o => rfl

/-- A last row that ECC cannot correct: the load stops at it and traps (R91, R92, R186). -/
theorem State.LastRow.faulted (h : s.LastRow g op f sc prior bs ps) (hlong : op.long = true) (hm : s.mmQueued g.who = false)
    (hls : ∀ c o, g.loc ≠ .ls c o) (hv : (s.thread g.who).tvec ≠ 0) (hi : (s.thread g.who).inTrap = false) :
    ∃ t, exec (.tldRowReturn g.seq .uncorrectable) s = .next t ∧ (t.thread g.who).loads = [] ∧ ((t.thread g.who).tile f.td).state = .partial_ ∧
      (t.thread g.who).tldPend = true ∧ (t.thread g.who).cursor.row = f.rows ∧ (t.thread g.who).cursor.tile = f.td ∧ (t.thread g.who).cursor.sc = sc ∧
      (t.thread g.who).epc = op.pc ∧ (t.thread g.who).cause.extractLsb' 0 9 = 0x10A ∧ (t.thread g.who).tval = g.addr ∧
      (t.thread g.who).pc = (s.thread g.who).tvec ∧ (t.thread g.who).inTrap = true := by
  have hfences := eccTrap_keeps (c := g.who.core) h.place hls g.addr
  generalize htrap : ({ code := 0x0A, detail := BitVec.ofNat 16 (eccDetail g.who.core g.loc), tval := g.addr } : Trap) = trap at hfences
  have hreturn : s.rowReturn g .uncorrectable =
      (s.uncorrectable g.loc g.len 1 (decide (eccDetail g.who.core g.loc = 1))).deliver g.who g.seq (.fault trap Option.none) := by
    rw [← htrap]
    rfl
  obtain ⟨hreads, hmq, hthread⟩ := State.uncorrectable_kept h.place hls s g.len 1 (decide (eccDetail g.who.core g.loc = 1))
  generalize s.uncorrectable g.loc g.len 1 (decide (eccDetail g.who.core g.loc = 1)) = v at hreturn hreads hmq hthread
  have hloads : (v.thread g.who).loads = [op] := by rw [hthread]; exact h.loads
  rw [State.deliver_only (hreads ▸ h.only) h.atom hloads] at hreturn
  obtain ⟨-, -, hgiven, hmq'⟩ := State.partGiven_words (p := .fault trap Option.none) hloads h.parts h.once
  rw [hthread] at hgiven
  generalize v.partGiven g (.fault trap Option.none) = z at hreturn hgiven hmq'
  have hqueue : z.mmQueued g.who = false := by
    rw [State.mmQueued, hmq', hmq]
    exact hm
  obtain ⟨hended, hstate, hpend, hrow, htile, hsc, hepc, hcause, htval, hpc, hin⟩ := State.thread_retire_fault
    (op := { op with parts := ps ++ [.fault trap Option.none] }) (by rw [hgiven]) h.kind (scanParts_append _ h.scan) hqueue h.pos h.width h.length hfences
    (by rw [hgiven]; exact hv) (by rw [hgiven]; exact hi) (by rw [hgiven]; exact h.quiet)
  rw [hgiven] at hpc
  rw [← hreturn] at hended hstate hpend hrow htile hsc hepc hcause htval hpc hin
  refine ⟨_, h.returns .uncorrectable, hended, hstate, hpend, hrow, htile, hsc, hepc, ?_, ?_, hpc, hin⟩
  · rw [hcause, hlong, causeWord_low, ← htrap]
    rfl
  · rw [htval, ← htrap]

end Sys2Proof.Machine
end

section
/-! Tile loads from memory: the reads they send, row by row (R86, R87, R92). -/

namespace Sys2Proof.Machine

variable {s t u : State} {w : Who} {f : TileF} {sc : Bool} {n : Nat} {at_ : Word × Word × Nat → Loc × Option Nat}

/-! ### Reads that leave one after another -/

/-- The read of a piece, given as the address of its row, its own address and its length, under a number. -/
def pieceRead (w : Who) (at_ : Word × Word × Nat → Loc × Option Nat) (p : Word × Word × Nat) (k : Nat) : RFlight :=
  ⟨k, w, (at_ p).1, p.2.2, p.1, (at_ p).2, Option.none, 0, p.2.2, Option.none, .no, Option.none⟩

/-- A state after reads of these pieces have left, in their order. -/
def State.piecesSent (s : State) (w : Who) (at_ : Word × Word × Nat → Loc × Option Nat) (ps : List (Word × Word × Nat)) : State :=
  { s with reads := s.reads ++ (ps.zipIdx s.nextSeq).map (fun x => pieceRead w at_ x.1 x.2), nextSeq := s.nextSeq + ps.length }

theorem State.piecesSent_append (s : State) (ps qs : List (Word × Word × Nat)) :
    (s.piecesSent w at_ ps).piecesSent w at_ qs = s.piecesSent w at_ (ps ++ qs) := by
  simp only [State.piecesSent, List.zipIdx_append, List.map_append, List.length_append, List.append_assoc, Nat.add_assoc]

/-- The parts of a load that wait for `k` reads from number `n` on. -/
def waitParts (n k : Nat) : List LoadPart := (List.range' n k).map .wait

theorem waitParts_append (n j k : Nat) : waitParts n j ++ waitParts (n + j) k = waitParts n (j + k) := by
  rw [waitParts, waitParts, waitParts, ← List.map_append, List.range'_append_1]

/-! ### One row -/

/-- Where a piece of a tile load lies is where `at_` says. -/
def State.lies (s : State) (w : Who) (g : Bool) (at_ : Word × Word × Nat → Loc × Option Nat) (p : Word × Word × Nat) : Prop :=
  s.watchpoint w g p.2.1 p.2.2 true false = Option.none ∧ (at_ p).1.here = true ∧ s.place w g .read false p.2.1 p.2.2 = .at_ (at_ p).1 (at_ p).2

theorem State.askPieces_lies {g : Bool} {row : Word} {ps : List (Word × Nat)} (h : ∀ p ∈ ps, s.lies w g at_ (row, p.1, p.2))
    (acc : List (Word × Nat × Loc × Option Nat)) :
    s.askPieces w g row ps acc = .go (acc ++ ps.map (fun p => (p.1, p.2, (at_ (row, p.1, p.2)).1, (at_ (row, p.1, p.2)).2))) := by
  induction ps generalizing acc with
  | nil => simp [State.askPieces]
  | cons p ps ih =>
    obtain ⟨-, -, hplace⟩ := h p List.mem_cons_self
    rw [State.askPieces, hplace]
    simp only [ih (fun q hq => h q (List.mem_cons_of_mem p hq)), List.append_assoc, List.map_cons, List.singleton_append]

/-- The pieces of a row of a tile load from memory. -/
def tileCut (h : Thread) (f : TileF) (n r : Nat) : List (Word × Nat) := if f.g then linePieces 3 (tileRowAddr h f r) n else [(tileRowAddr h f r, n)]

/-- The pieces of the rows of a tile load from memory, each with the address of its row. -/
def tilePieces (h : Thread) (f : TileF) (n : Nat) (rows : List Nat) : List (Word × Word × Nat) :=
  rows.flatMap (fun r => (tileCut h f n r).map (fun p => (tileRowAddr h f r, p.1, p.2)))

theorem State.rowPieces_memory (hsrc : f.src = false) (s : State) (w : Who) (n r : Nat) :
    s.rowPieces w f n r = (tileRowAddr (s.thread w) f r, f.g, tileCut (s.thread w) f n r) := by
  simp only [State.rowPieces, hsrc, Bool.false_eq_true, if_false]
  rfl

theorem State.askRow_lies (hsrc : f.src = false) {r : Nat} (h : ∀ p ∈ tilePieces (s.thread w) f n [r], s.lies w f.g at_ p) :
    s.askRow w f n r = .go ((tileCut (s.thread w) f n r).map (fun p =>
      (p.1, p.2, (at_ (tileRowAddr (s.thread w) f r, p.1, p.2)).1, (at_ (tileRowAddr (s.thread w) f r, p.1, p.2)).2))) := by
  have hcut : ∀ p ∈ tileCut (s.thread w) f n r, s.lies w f.g at_ (tileRowAddr (s.thread w) f r, p.1, p.2) := fun p hp =>
    h _ (List.mem_flatMap.mpr ⟨r, List.mem_singleton_self r, List.mem_map.mpr ⟨p, hp, rfl⟩⟩)
  have hwatch : (tileCut (s.thread w) f n r).findSome? (fun p => s.watchpoint w f.g p.1 p.2 true false) = Option.none :=
    List.findSome?_eq_none_iff.mpr fun p hp => (hcut p hp).1
  rw [State.askRow, State.rowPieces_memory hsrc]
  simp only [hwatch]
  exact State.askPieces_lies hcut []

/-- The reads of a row leave in order. -/
theorem State.sendRow_here (s : State) (w : Who) (row : Word) (ps : List (Word × Nat)) (h : ∀ p ∈ ps, (at_ (row, p.1, p.2)).1.here = true) :
    s.sendRow w row (ps.map (fun p => (p.1, p.2, (at_ (row, p.1, p.2)).1, (at_ (row, p.1, p.2)).2))) =
      (s.piecesSent w at_ (ps.map (fun p => (row, p.1, p.2))), waitParts s.nextSeq ps.length) := by
  have hfold (acc : List LoadPart) : (ps.map (fun p => (p.1, p.2, (at_ (row, p.1, p.2)).1, (at_ (row, p.1, p.2)).2))).foldl
      (fun (a : State × List LoadPart) p => ((a.1.startRead w p.2.2.1 p.2.1 row p.2.2.2 Option.none 0 p.2.1 Option.none).2,
        a.2 ++ [(a.1.startRead w p.2.2.1 p.2.1 row p.2.2.2 Option.none 0 p.2.1 Option.none).1])) (s, acc) =
      (s.piecesSent w at_ (ps.map (fun p => (row, p.1, p.2))), acc ++ waitParts s.nextSeq ps.length) := by
    induction ps generalizing s acc with
    | nil => simp [State.piecesSent, waitParts]
    | cons p ps ih =>
      have hsent := State.startRead_here (s := s) (w := w) (h p List.mem_cons_self) p.2 row (at_ (row, p.1, p.2)).2 Option.none 0 p.2
      have hone : s.sentRead (threadRead s w (at_ (row, p.1, p.2)).1 p.2 row (at_ (row, p.1, p.2)).2 Option.none 0 p.2) =
        s.piecesSent w at_ [(row, p.1, p.2)] := rfl
      rw [List.map_cons, List.foldl_cons, hsent, hone, ih _ (fun q hq => h q (List.mem_cons_of_mem p hq)), State.piecesSent_append, List.append_assoc]
      have hwait : [LoadPart.wait s.nextSeq] ++ waitParts (s.piecesSent w at_ [(row, p.1, p.2)]).nextSeq ps.length = waitParts s.nextSeq (p :: ps).length := by
        rw [List.length_cons, Nat.add_comm, ← waitParts_append]
        rfl
      rw [hwait]
      rfl
  exact (hfold []).trans rfl

/-! ### All rows -/

theorem State.askRows_here (hsrc : f.src = false) (k : Nat) {r : Nat} (parts : List LoadPart)
    (h : ∀ p ∈ tilePieces (s.thread w) f n (List.range' r k), s.lies w f.g at_ p) :
    State.askRows k s w f n r parts = (s.piecesSent w at_ (tilePieces (s.thread w) f n (List.range' r k)),
      parts ++ waitParts s.nextSeq (tilePieces (s.thread w) f n (List.range' r k)).length, Option.none) := by
  induction k generalizing s r parts with
  | zero => simp [State.askRows, tilePieces, State.piecesSent, waitParts]
  | succ k ih =>
    have hsplit : tilePieces (s.thread w) f n (List.range' r (k + 1)) =
        tilePieces (s.thread w) f n [r] ++ tilePieces (s.thread w) f n (List.range' (r + 1) k) := by
      rw [List.range'_succ, tilePieces, tilePieces, tilePieces, ← List.flatMap_append]
      rfl
    rw [hsplit] at h ⊢
    have hrow : tilePieces (s.thread w) f n [r] = (tileCut (s.thread w) f n r).map (fun p => (tileRowAddr (s.thread w) f r, p.1, p.2)) :=
      List.flatMap_singleton _ _
    have hfirst : ∀ p ∈ tilePieces (s.thread w) f n [r], s.lies w f.g at_ p := fun p hp => h p (List.mem_append_left _ hp)
    have hsend := s.sendRow_here w (at_ := at_) (tileRowAddr (s.thread w) f r) (tileCut (s.thread w) f n r)
      fun p hp => (hfirst _ (hrow ▸ List.mem_map.mpr ⟨p, hp, rfl⟩)).2.1
    have hnext := ih (s := s.piecesSent w at_ (tilePieces (s.thread w) f n [r])) (r := r + 1) (parts ++ waitParts s.nextSeq (tileCut (s.thread w) f n r).length)
      fun p hp => h p (List.mem_append_right _ hp)
    rw [State.askRows, State.askRow_lies hsrc hfirst, State.rowPieces_memory hsrc]
    dsimp only
    rw [hsend, ← hrow]
    dsimp only
    rw [hnext]
    have hthread : (s.piecesSent w at_ (tilePieces (s.thread w) f n [r])).thread w = s.thread w := rfl
    have hlen : (tileCut (s.thread w) f n r).length = (tilePieces (s.thread w) f n [r]).length := by rw [hrow, List.length_map]
    rw [hthread, State.piecesSent_append, List.append_assoc, hlen, List.length_append, ← waitParts_append]
    rfl

end Sys2Proof.Machine
end

section
/-! Tile loads: what a load takes from memory or from its stream as it is issued (R86 to R88, R208, R210). -/

namespace Sys2Proof.Machine

variable {s t u : State} {w : Who} {i : Iss} {f : TileF} {sc : Bool} {at_ : Word × Word × Nat → Loc × Option Nat}

/-! ### A load from memory (R86, R87) -/

/-- The load that a tile load from memory leaves outstanding. -/
def tileWaiting (pc : Word) (f : TileF) (sc : Bool) (prior : BitVec 2) (n k : Nat) : LoadOp :=
  { pc := pc, long := true, kind := .tile f sc 0 prior Option.none, parts := waitParts n k }

theorem State.tileStart_memory (hsrc : f.src = false) (pc : Word) (prior : BitVec 2)
    (h : ∀ p ∈ tilePieces (s.thread w) f (tileRowBytes f sc) (List.range (f.rows.toNat + 1)), s.lies w f.g at_ p) :
    let ps := tilePieces (s.thread w) f (tileRowBytes f sc) (List.range (f.rows.toNat + 1))
    s.tileStart w pc f sc 0 prior [] Option.none = (s.bumpSeq.piecesSent w at_ ps).pushLoad w
      { tileWaiting pc f sc prior (s.nextSeq + 1) ps.length with tag := some (s.nextSeq, s.loadSource w f sc) } := by
  rw [List.range_eq_range'] at h ⊢
  have hasked := State.askRows_here (s := s.bumpSeq) (w := w) (n := tileRowBytes f sc) (at_ := at_) hsrc (f.rows.toNat + 1) (r := 0) [] h
  intro ps
  rw [State.tileStart]
  simp only [List.map_nil, List.length_nil, Nat.add_zero, Nat.sub_zero, hasked]
  rfl

theorem scanParts_waitParts {n k : Nat} (hk : 0 < k) : scanParts (waitParts n k) [] = .waits [] := by
  cases k with
  | zero => exact absurd hk (Nat.lt_irrefl 0)
  | succ k => rfl

theorem linePieces_ne_nil (fuel : Nat) (a : Word) {n : Nat} (hn : 0 < n) : linePieces (fuel + 1) a n ≠ [] := by
  rw [linePieces, if_neg hn.ne']
  exact List.cons_ne_nil _ _

theorem tilePieces_pos (h : Thread) (f : TileF) {n : Nat} (hn : 0 < n) (k : Nat) : 0 < (tilePieces h f n (List.range (k + 1))).length := by
  refine List.length_pos_of_ne_nil fun hnil => ?_
  have hcut : tileCut h f n 0 ≠ [] := by
    unfold tileCut
    split
    · exact linePieces_ne_nil 2 _ hn
    · exact List.cons_ne_nil _ _
  have hrow := List.flatMap_eq_nil_iff.mp hnil 0 (List.mem_range.mpr (Nat.succ_pos k))
  exact hcut (List.map_eq_nil_iff.mp hrow)

/-- A tile load, the only one outstanding, of which no row has come. -/
theorem State.retire_waiting {op : LoadOp} {prior : BitVec 2} (hl : (s.thread w).loads = [op]) (hk : op.kind = .tile f sc 0 prior Option.none)
    (hs : scanParts op.parts [] = .waits []) : State.retire 1 s w = (s.tileTag w op f sc).tileGoing w f sc 0 [] := by
  rw [State.retire, hl]
  simp only [hk, State.tileProgress, hs, Bool.false_eq_true, if_false]

/-- No row has come: the tile is as it was. -/
theorem State.tileGoing_words (s : State) (w : Who) (f : TileF) (sc : Bool) (hp : (s.thread w).tldPend = false) :
    let t := s.tileGoing w f sc 0 []
    (∃ F, t = s.modThread w F) ∧ t.thread w = { s.thread w with tiles := (t.thread w).tiles } := by
  have ht : s.tileGoing w f sc 0 [] = s.tilePut w f sc 0 [] (if sc ∨ (s.thread w).tldPend ∨ rowsDone [] (tileRowBytes f sc) = 0
      then ((s.thread w).tile f.td).state else .loading) := by
    simp only [State.tileGoing, hp, Bool.false_eq_true, if_false]
  dsimp only
  rw [ht, State.tilePut_eq]
  refine ⟨⟨_, rfl⟩, ?_⟩
  rw [State.thread_modThread, Thread.putRows, Thread.setTile]

/-- A tile load from memory, issued: its reads have left, and the thread goes on behind it (R87). -/
theorem State.settle_tileStart_memory {s0 : State} {prior : BitVec 2} (hsrc : f.src = false) (hl : (s.thread w).loads = [])
    (hp : (s.thread w).tldPend = false) (hpos : 0 < tileRowBytes f sc)
    (h : ∀ p ∈ tilePieces (s.thread w) f (tileRowBytes f sc) (List.range (f.rows.toNat + 1)), s.lies w f.g at_ p) :
    let ps := tilePieces (s.thread w) f (tileRowBytes f sc) (List.range (f.rows.toNat + 1))
    let pc := (s.thread w).pc
    let t := s0.settle w true (.sent (s.tileStart w pc f sc 0 prior [] Option.none))
    t.reads = s.reads ++ (ps.zipIdx (s.nextSeq + 1)).map (fun x => pieceRead w at_ x.1 x.2) ∧ (t.thread w).pc = pc + 8 ∧
      (t.thread w).loads = [tileWaiting pc f sc prior (s.nextSeq + 1) ps.length] ∧ (∀ r, (t.thread w).reg r = (s.thread w).reg r) ∧ s.sameMemory t := by
  intro ps pc t
  have hmany : 0 < ps.length := tilePieces_pos _ _ hpos _
  have hstart := State.tileStart_memory (sc := sc) hsrc pc prior h
  have hmem : s.sameMemory (s.bumpSeq.piecesSent w at_ ps) := fun m => State.byteAt_congr rfl rfl m
  have hreads : (s.bumpSeq.piecesSent w at_ ps).reads = s.reads ++ (ps.zipIdx (s.nextSeq + 1)).map (fun x => pieceRead w at_ x.1 x.2) := rfl
  have hthread : (s.bumpSeq.piecesSent w at_ ps).thread w = s.thread w := rfl
  have hop : (⟨pc, true, .tile f sc 0 prior Option.none, waitParts (s.nextSeq + 1) ps.length, Option.none, Option.none⟩ : LoadOp) =
    tileWaiting pc f sc prior (s.nextSeq + 1) ps.length := rfl
  obtain ⟨op, hkind, hparts, huntag, hstart⟩ : ∃ op : LoadOp, op.kind = .tile f sc 0 prior Option.none ∧ op.parts = waitParts (s.nextSeq + 1) ps.length ∧
      { op with tag := Option.none } = tileWaiting pc f sc prior (s.nextSeq + 1) ps.length ∧
      s.tileStart w pc f sc 0 prior [] Option.none = (s.bumpSeq.piecesSent w at_ ps).pushLoad w op := ⟨_, rfl, rfl, rfl, hstart⟩
  generalize s.bumpSeq.piecesSent w at_ ps = u at hstart hmem hreads hthread
  have ht : t = State.retire 1 (u.modThread w (fun h => h.behindLoad 8 op)) w := by
    change s0.settle w true (.sent (s.tileStart w pc f sc 0 prior [] Option.none)) = _
    rw [hstart]
    exact settle_sent_first (hthread ▸ hl) true op
  have hbehind : (u.modThread w (fun h => h.behindLoad 8 op)).thread w = (s.thread w).behindLoad 8 op := by rw [State.thread_modThread, hthread]
  have hmem' := State.sameMemory_trans hmem (u.modThread_sameMemory w (fun h => h.behindLoad 8 op))
  have hreads' : (u.modThread w (fun h => h.behindLoad 8 op)).reads = u.reads := rfl
  generalize u.modThread w (fun h => h.behindLoad 8 op) = v at ht hbehind hmem' hreads'
  have hone : (v.thread w).loads = [op] := by rw [hbehind]; rfl
  rw [State.retire_waiting hone hkind (by rw [hparts]; exact scanParts_waitParts hmany)] at ht
  obtain ⟨hframe, -, hmemTag, -, htag, -, -, huntagged⟩ := v.tileTag_words w op f sc
  have huntagged := huntagged hone
  generalize v.tileTag w op f sc = y at ht hframe hmemTag htag huntagged
  have hpend : (y.thread w).tldPend = false := by rw [htag, hbehind]; exact hp
  obtain ⟨⟨F, hF⟩, hgoing⟩ := y.tileGoing_words w f sc hpend
  rw [← ht] at hF hgoing
  refine ⟨?_, ?_, ?_, fun r => ?_, ?_⟩
  · rw [hF, ← hreads, ← hreads']
    change y.reads = v.reads
    rw [hframe]
  · rw [hgoing, htag, hbehind]
    rfl
  · rw [hgoing, ← huntag]
    exact huntagged
  · rw [hgoing, htag, hbehind]
    rfl
  · rw [hF]
    exact State.sameMemory_trans hmem' (State.sameMemory_trans hmemTag (y.modThread_sameMemory w F))

/-! ### A load from a filled tile of a stream (R208) -/

theorem scanParts_data (rows : List (List Byte)) (acc : List Byte) : scanParts (rows.map .data) acc = .all (acc ++ rows.flatten) := by
  induction rows generalizing acc with
  | nil => simp [scanParts]
  | cons b rows ih => rw [List.map_cons, scanParts, ih, List.flatten_cons, List.append_assoc]

theorem length_flatten_rows {rows : List (List Byte)} {n : Nat} (h : ∀ b ∈ rows, b.length = n) : rows.flatten.length = rows.length * n := by
  rw [List.length_flatten, List.map_congr_left h, List.map_const', List.sum_replicate, smul_eq_mul]

/-- A row among rows of one length. -/
theorem take_drop_flatten {rows : List (List Byte)} {n : Nat} (h : ∀ b ∈ rows, b.length = n) {r : Nat} (hr : r < rows.length) :
    (rows.flatten.drop (r * n)).take n = rows.getD r [] := by
  induction rows generalizing r with
  | nil => cases hr
  | cons b rows ih =>
    have hb := h b List.mem_cons_self
    cases r with
    | zero => rw [Nat.zero_mul, List.drop_zero, List.flatten_cons, List.take_left' hb, List.getD_cons_zero]
    | succ r =>
      rw [List.flatten_cons, Nat.succ_mul, Nat.add_comm, ← List.drop_drop, List.drop_left' hb, List.getD_cons_succ]
      exact ih (fun c hc => h c (List.mem_cons_of_mem b hc)) (Nat.lt_of_succ_lt_succ hr)

theorem State.tileStart_held {rows : List (List Byte)} (hlen : rows.length = f.rows.toNat + 1) (s : State) (w : Who) (pc : Word) (sc : Bool)
    (prior : BitVec 2) (stream : Option Bool) : s.tileStart w pc f sc 0 prior rows stream = s.bumpSeq.pushLoad w
      { pc := pc, long := true, kind := .tile f sc 0 prior stream, parts := rows.map .data, tag := some (s.nextSeq, s.loadSource w f sc) } := by
  have hnone : f.rows.toNat + 1 - (0 + rows.length) = 0 := by omega
  rw [State.tileStart]
  simp only [hnone, State.askRows]
  rfl

/-- A tile load whose rows a filled tile holds is complete at once (R208). -/
theorem State.settle_tileStart_held {s0 : State} {prior : BitVec 2} {rows : List (List Byte)} {d : Bool} (hl : (s.thread w).loads = [])
    (hq : (s.thread w).undisturbed) (hp : (s.thread w).tldPend = false) (hpos : 0 < tileRowBytes f sc) (hw : tileRowBytes f sc ≤ lineWidth sc)
    (hlen : rows.length = f.rows.toNat + 1) (hrows : ∀ b ∈ rows, b.length = tileRowBytes f sc) :
    let pc := (s.thread w).pc
    let t := s0.settle w true (.sent (s.tileStart w pc f sc 0 prior rows (some d)))
    (t.thread w).loads = [] ∧ (t.thread w).pc = pc + 8 ∧ ((t.thread w).tile f.td).state = (if sc then tileStateOf prior else .full) ∧
      (∀ r, r ≤ f.rows.toNat → (((t.thread w).tile f.td).line sc r).take (tileRowBytes f sc) = rows.getD r []) ∧
      (∃ kept, t.stream w f.strm = (s.stream w f.strm).consumed d kept s.time) ∧ s.sameMemory t := by
  intro pc t
  obtain ⟨op, hkind, hparts, hstart⟩ : ∃ op : LoadOp, op.kind = .tile f sc 0 prior (some d) ∧ op.parts = rows.map .data ∧
      s.tileStart w pc f sc 0 prior rows (some d) = s.bumpSeq.pushLoad w op := ⟨_, rfl, rfl, State.tileStart_held hlen s w pc sc prior (some d)⟩
  have ht : t = State.retire 1 (s.bumpSeq.modThread w (fun h => h.behindLoad 8 op)) w := by
    change s0.settle w true (.sent (s.tileStart w pc f sc 0 prior rows (some d))) = _
    rw [hstart]
    exact settle_sent_first (s := s.bumpSeq) hl true op
  have hbehind : (s.bumpSeq.modThread w (fun h => h.behindLoad 8 op)).thread w = (s.thread w).behindLoad 8 op := State.thread_modThread _ _ _
  have hmem : s.sameMemory (s.bumpSeq.modThread w (fun h => h.behindLoad 8 op)) :=
    State.sameMemory_trans (fun m => State.byteAt_congr rfl rfl m) (State.modThread_sameMemory _ _ _)
  have hstream : (s.bumpSeq.modThread w (fun h => h.behindLoad 8 op)).stream w f.strm = s.stream w f.strm := by
    rw [State.stream, hbehind, State.stream]
    rfl
  have htime : (s.bumpSeq.modThread w (fun h => h.behindLoad 8 op)).time = s.time := rfl
  generalize s.bumpSeq.modThread w (fun h => h.behindLoad 8 op) = v at ht hbehind hmem hstream htime
  have hflat : rows.flatten.length = (f.rows.toNat + 1) * tileRowBytes f sc := by rw [length_flatten_rows hrows, hlen]
  obtain ⟨hloaded, hconsumed⟩ := State.retire_rowsLoaded (s := v) (w := w) (op := op) (by rw [hbehind]; rfl) hkind
    (by rw [hparts]; exact scanParts_data rows []) (by rw [hbehind]; exact hq) hpos hw hflat
  obtain ⟨kept, hkept⟩ := hconsumed d rfl
  rw [← ht] at hloaded hkept
  have hpc := hloaded.pc
  rw [hbehind] at hpc
  refine ⟨hloaded.loads, hpc.trans (if_neg ?_), hloaded.tile, fun r hr => ?_, ⟨kept, by rw [hkept, hstream, htime]⟩, State.sameMemory_trans hmem hloaded.mem⟩
  · rw [show ((s.thread w).behindLoad 8 op).tldPend = (s.thread w).tldPend from rfl, hp]
    decide
  · have hr' : r < rows.length := by omega
    have hrow : (rows.getD r []).length = tileRowBytes f sc := by
      rw [List.getD_eq_getElem _ _ hr']
      exact hrows _ (List.getElem_mem hr')
    rw [hloaded.rows r hr, take_drop_flatten hrows hr', List.take_left' hrow]

theorem tileStateOf_code (x : TileState) : tileStateOf x.code = x := by cases x <;> rfl

end Sys2Proof.Machine
end

section
/-! Tile loads: what refuses or holds a load, tld.drop, and the statement on tile loads (R85 to R88, R91, R92, R96, R99, R210). -/

namespace Sys2Proof.Machine

variable {s : State} {i : Iss} {f : TileF} {sc : Bool}

/-! ### What a load takes from its stream (R210, R378) -/

/-- The next tile of a load's stream, for it. -/
def State.tileTake (s : State) (w : Who) (f : TileF) (sc : Bool) : Take := (s.stream w f.strm).take f sc (s.relayComing w f.strm)

theorem Stream.take_refuse {x : Stream} {coming : Bool} (h : x.en = false ∨ x.count = 0 ∨ x.sc ≠ sc) : x.take f sc coming = .refuse := by
  have hcond : ¬x.en = true ∨ x.count = 0 ∨ x.sc ≠ sc := h.imp_left fun he => by rw [he]; decide
  exact if_pos hcond

/-- A MODE 0 stream that a load may read from either holds its next tile or makes the load wait. -/
theorem Stream.take_local {x : Stream} (hen : x.en = true) (hcount : x.count ≠ 0) (hsc : x.sc = sc) (hmode : x.mode = 0) (coming : Bool) :
    (x.tiles.find? (fun t => !t.consumed) = Option.none → x.take f sc coming = .wait) ∧
      ∀ t, x.tiles.find? (fun t => !t.consumed) = some t →
        x.take f sc coming = if t.ready then .tile t (!decide (f.rows = x.rowsf ∧ f.fmt = x.fmt ∧ f.kf = x.kf)) else .wait := by
  have hopen : ¬(¬x.en = true ∨ x.count = 0 ∨ x.sc ≠ sc) := fun h => h.elim (fun he => he hen) (fun h => h.elim hcount fun hs => hs hsc)
  have hreceives : x.receives = false := by rw [Stream.receives, hmode]; rfl
  have hrelay : ¬((x.mode = 1 ∨ x.mode = 3) ∧ ¬x.cons = true) := fun h => by
    rw [hmode] at h
    exact absurd h.1 (by decide)
  rw [Stream.take]
  simp only [if_neg hopen, hreceives, if_neg hrelay, Bool.false_eq_true, false_and, if_false]
  exact ⟨fun h => by rw [h], fun t h => by rw [h]⟩

theorem Stream.take_ne_refuse {x : Stream} (hen : x.en = true) (hcount : x.count ≠ 0) (hsc : x.sc = sc) (hmode : x.mode = 0) (coming : Bool) :
    x.take f sc coming ≠ .refuse := by
  obtain ⟨hnone, hsome⟩ := Stream.take_local (f := f) hen hcount hsc hmode coming
  cases hfind : x.tiles.find? (fun t => !t.consumed) with
  | none =>
    rw [hnone hfind]
    exact Take.noConfusion
  | some t =>
    rw [hsome t hfind]
    split <;> exact Take.noConfusion

/-! ### The load as it is issued -/

theorem exec_tileLoad (i : Iss) (f : TileF) (sc : Bool) (s : State) : exec (if sc then .tldSc i f else .tld i f) s = tileLoad i f sc s := by
  cases sc <;> rfl

/-- A tile load that its encoding or its stream refuses (R85, R210). -/
theorem tileLoad_refused (h : s.ready i true = true) (hbad : tileIllegal f = true ∨ (f.src = true ∧ s.tileTake i.who f sc = .refuse)) :
    tileLoad i f sc s = .next (s.settle i.who true (.trap s (illegal 0x3B))) := by
  rw [tileLoad, issue_of_ready h]
  refine congrArg Host.Outcome.next (congrArg (s.settle i.who true) (if_pos ?_))
  rcases hbad with hillegal | ⟨hsrc, htake⟩
  · rw [hillegal]
    rfl
  · rw [State.tileTake] at htake
    rw [hsrc, htake]
    simp

section
variable (h : s.ready i true = true) (hlegal : tileIllegal f = false) (hopen : f.src = true → s.tileTake i.who f sc ≠ .refuse)
include h hlegal hopen

/-- What decides of a tile load that neither its encoding nor its stream refuses (R57, R99, R103, R210). -/
theorem tileLoad_open :
    (∀ t, tileFaultFirst (s.thread i.who) f sc (s.thread i.who).tldPend = some t → s.watchRows i.who f sc true false = Option.none →
      tileLoad i f sc s = .next (s.settle i.who true (.trap s t))) ∧
    (tileFaultFirst (s.thread i.who) f sc (s.thread i.who).tldPend = Option.none →
      (s.tileRead i.who f.td = true →
        tileLoad i f sc s = .next (if f.src then s.modStream i.who f.strm (fun x => { x with claim := true }) else s)) ∧
      (s.tileRead i.who f.td = false →
        (f.src = false → tileLoad i f sc s = .next (s.settle i.who true (.sent (s.tileStart i.who (s.thread i.who).pc f sc 0
          ((s.thread i.who).tile f.td).state.code [] Option.none)))) ∧
        (∀ t d, f.src = true → s.tileTake i.who f sc = .tile t d → tileLoad i f sc s = .next (s.settle i.who true (.sent
          (((s.modStream i.who f.strm (fun x => { x with claim := false })).takeRows i.who (s.stream i.who f.strm) f sc t d .none).2.tileStart i.who
            (s.thread i.who).pc f sc 0 ((s.thread i.who).tile f.td).state.code
            ((s.modStream i.who f.strm (fun x => { x with claim := false })).takeRows i.who (s.stream i.who f.strm) f sc t d .none).1 (some d))))))) := by
  obtain ⟨-, -, -, -, -, -, -, -, hfound, -⟩ := State.ready_cases h
  rw [tileLoad, issue_of_ready h]
  dsimp only
  rw [if_neg]
  · refine ⟨fun t ht hw => ?_, fun hnone => ⟨fun hr => ?_, fun hr => ⟨fun hsrc => ?_, fun t d hsrc htake => ?_⟩⟩⟩
    · simp only [ht, hw]
    · simp only [hnone, hr, if_true]
      rfl
    · simp only [hnone, hr, hsrc, Bool.false_eq_true, if_false]
    · rw [State.tileTake] at htake
      simp only [hnone, hr, hsrc, htake, hfound, Bool.false_eq_true, if_false, if_true]
      rfl
  · rw [hlegal, Bool.false_or, Bool.and_eq_true]
    rintro ⟨hsrc, hmatch⟩
    split at hmatch
    · next hrefuse => exact hopen hsrc hrefuse
    · cases hmatch

/-- A tile load with a fault of its own (R86, R99). -/
theorem tileLoad_faults (hw : s.watchRows i.who f sc true false = Option.none) :
    (∀ d, tileShape f sc (s.thread i.who).tldPend = some d → tileLoad i f sc s = .next (s.settle i.who true (.trap s (shapeFault d)))) ∧
      (tileShape f sc (s.thread i.who).tldPend = Option.none → tileSkew (s.thread i.who) f sc = true →
        tileLoad i f sc s = .next (s.settle i.who true (.trap s (misaligned 8 ((s.thread i.who).reg f.rb))))) := by
  refine ⟨fun d hd => (tileLoad_open h hlegal hopen).1 _ ?_ hw, fun hshape hskew => (tileLoad_open h hlegal hopen).1 _ ?_ hw⟩
  · rw [tileFaultFirst, hd]
  · rw [tileFaultFirst, hshape]
    exact if_pos hskew

end

theorem tileFaultFirst_none {h : Thread} {pend : Bool} (hshape : tileShape f sc pend = Option.none) (hskew : tileSkew h f sc = false) :
    tileFaultFirst h f sc pend = Option.none := by
  rw [tileFaultFirst, hshape]
  exact if_neg (by rw [hskew]; decide)

/-- A load from a stream has no base register to be misaligned. -/
theorem tileSkew_stream {h : Thread} (hsrc : f.src = true) : tileSkew h f sc = false := by rw [tileSkew, hsrc]; rfl

/-! ### The whole of a load -/

/-- A tile load from memory that nothing holds sends the reads of its rows (R86, R87). -/
theorem tileLoad_memory {at_ : Word × Word × Nat → Loc × Option Nat} (h : s.ready i true = true) (hsrc : f.src = false) (hlegal : tileIllegal f = false)
    (hshape : tileShape f sc (s.thread i.who).tldPend = Option.none) (hskew : tileSkew (s.thread i.who) f sc = false) (hr : s.tileRead i.who f.td = false)
    (hps : ∀ p ∈ tilePieces (s.thread i.who) f (tileRowBytes f sc) (List.range (f.rows.toNat + 1)), s.lies i.who f.g at_ p) :
    let ps := tilePieces (s.thread i.who) f (tileRowBytes f sc) (List.range (f.rows.toNat + 1))
    let pc := (s.thread i.who).pc
    ∃ t, tileLoad i f sc s = .next t ∧ t.reads = s.reads ++ (ps.zipIdx (s.nextSeq + 1)).map (fun x => pieceRead i.who at_ x.1 x.2) ∧
      (t.thread i.who).pc = pc + 8 ∧
      (t.thread i.who).loads = [tileWaiting pc f sc ((s.thread i.who).tile f.td).state.code (s.nextSeq + 1) ps.length] ∧
      (∀ r, (t.thread i.who).reg r = (s.thread i.who).reg r) ∧ s.sameMemory t := by
  obtain ⟨-, -, -, hl, -⟩ := State.ready_cases h
  obtain ⟨hp, hpos, -⟩ := tileRowBytes_bounds hshape
  have hopen : f.src = true → s.tileTake i.who f sc ≠ .refuse := fun hs => absurd (hsrc.symm.trans hs) (by decide)
  exact ⟨_, ((tileLoad_open h hlegal hopen).2 (tileFaultFirst_none hshape hskew)).2 hr |>.1 hsrc, State.settle_tileStart_memory hsrc hl hp hpos hps⟩

/-- A tile of a stream that is no receiver, not deferred and without an error, gives all its rows (R208). -/
theorem State.takeRows_held {x : Stream} (hlocal : x.receives = false) {t : FillTile} (hdefer : t.defer = Option.none) (s : State) (w : Who) (f : TileF)
    (sc : Bool) : s.takeRows w x f sc t false .none = (t.rows, s.countThread w 0x001 1) := by
  have hheld : s.heldRows x f sc t = (t.rows, s) := if_neg (by rw [hlocal]; decide)
  rw [State.takeRows, if_neg Bool.false_ne_true, hheld]
  simp only [hdefer]
  rfl

/-- A thread whose stream no load claims, and whose counters have counted a tile. -/
theorem State.thread_unclaimed (s : State) (w : Who) (k : BitVec 3) :
    let v := (s.modStream w k (fun x => { x with claim := false })).countThread w 0x001 1
    v.thread w = { s.thread w with streams := (v.thread w).streams, pmc := (v.thread w).pmc } ∧ v.stream w k = { s.stream w k with claim := false } ∧
      s.sameMemory v := by
  have hthread := (s.modStream w k (fun x => { x with claim := false })).thread_countThread w 0x001 1
  have hmod : (s.modStream w k (fun x => { x with claim := false })).thread w =
      { s.thread w with streams := Sparse.upd {} (s.thread w).streams k.toNat (fun x => { x with claim := false }) } := State.thread_modThread _ _ _
  rw [hmod] at hthread
  refine ⟨by rw [hthread], ?_, State.sameMemory_trans (State.modThread_sameMemory _ _ _) (State.onlyThread_countThread _ _ _ _).sameMemory⟩
  rw [State.stream, hthread]
  simp only [Sparse.upd, Sparse.get_put_same]
  rfl

/-- A tile load whose stream holds the tile it takes is complete at once (R208, R210). -/
theorem tileLoad_stream (h : s.ready i true = true) (hsrc : f.src = true) (hlegal : tileIllegal f = false)
    (hshape : tileShape f sc (s.thread i.who).tldPend = Option.none) (hr : s.tileRead i.who f.td = false) {t0 : FillTile}
    (htake : s.tileTake i.who f sc = .tile t0 false) (hlocal : (s.stream i.who f.strm).receives = false) (hdefer : t0.defer = Option.none)
    (hlen : t0.rows.length = f.rows.toNat + 1) (hrows : ∀ b ∈ t0.rows, b.length = tileRowBytes f sc) :
    ∃ t, tileLoad i f sc s = .next t ∧ (t.thread i.who).loads = [] ∧ (t.thread i.who).pc = (s.thread i.who).pc + 8 ∧
      ((t.thread i.who).tile f.td).state = (if sc then ((s.thread i.who).tile f.td).state else .full) ∧
      (∀ r, r ≤ f.rows.toNat → (((t.thread i.who).tile f.td).line sc r).take (tileRowBytes f sc) = t0.rows.getD r []) ∧
      (t.stream i.who f.strm).count =
        (if (s.stream i.who f.strm).count = 0xFFFFFFFF then (s.stream i.who f.strm).count else (s.stream i.who f.strm).count - 1) ∧
      s.sameMemory t := by
  obtain ⟨-, -, -, hl, -⟩ := State.ready_cases h
  obtain ⟨hp, hpos, hw⟩ := tileRowBytes_bounds hshape
  have hopen : f.src = true → s.tileTake i.who f sc ≠ .refuse := fun _ => by rw [htake]; exact Take.noConfusion
  have hexec := (((tileLoad_open h hlegal hopen).2 (tileFaultFirst_none hshape (tileSkew_stream hsrc))).2 hr).2 t0 false hsrc htake
  rw [State.takeRows_held hlocal hdefer] at hexec
  obtain ⟨hthread, hstream, hmem⟩ := s.thread_unclaimed i.who f.strm
  dsimp only at hexec hthread hstream hmem
  generalize (s.modStream i.who f.strm (fun x => { x with claim := false })).countThread i.who 0x001 1 = v at hexec hthread hstream hmem
  have hpc : (v.thread i.who).pc = (s.thread i.who).pc := by rw [hthread]
  have hq := State.undisturbed_of_ready h
  obtain ⟨hloads, hpc', hstate, hlines, ⟨kept, hkept⟩, hmem'⟩ := State.settle_tileStart_held (s := v) (w := i.who) (s0 := s)
    (prior := ((s.thread i.who).tile f.td).state.code) (d := false) (by rw [hthread]; exact hl) (by rw [hthread]; exact hq) (by rw [hthread]; exact hp)
    hpos hw hlen hrows
  rw [hpc] at hloads hpc' hstate hlines hkept hmem'
  rw [tileStateOf_code] at hstate
  refine ⟨_, hexec, hloads, hpc', hstate, hlines, ?_, State.sameMemory_trans hmem hmem'⟩
  rw [hkept, hstream]
  rfl

end Sys2Proof.Machine
end

section
/-! Tile loads: the statement (R79, R85 to R88, R91, R92, R96, R99, R210). -/

namespace Sys2Proof.Machine

variable {s : State} {i : Iss} {f : TileF} {sc : Bool}

theorem map_zipIdx_from {α β : Type} (l : List α) (n : Nat) (F : α → Nat → β) :
    (l.zipIdx n).map (fun x => F x.1 x.2) = l.zipIdx.map (fun x => F x.1 (n + x.2)) := by
  rw [List.zipIdx_eq_map_add, List.map_map]
  rfl

theorem waitParts_zipIdx {α : Type} (l : List α) (n : Nat) : l.zipIdx.map (fun x => LoadPart.wait (n + x.2)) = waitParts n l.length := by
  rw [← map_zipIdx_from l n (fun _ k => LoadPart.wait k), waitParts, ← List.zipIdx_map_snd, List.map_map]
  rfl

/-- tld.drop forgets the pending load (R96). -/
theorem tldDrop_done (h : s.ready i true = true) :
    exec (.tldDrop i) s = .next (s.retired i.who 8 (fun h => { h with tldPend := false, cursor := {} })) := by
  rw [exec_tldDrop, execTldDrop, issue_of_ready h]
  exact congrArg Host.Outcome.next (settle_done_modThread (f := Thread.dropTld) (State.undisturbed_of_ready h) true)

theorem thread_tldDrop {t : State} (h : s.ready i true = true) (ht : exec (.tldDrop i) s = .next t) :
    t.thread i.who = { s.thread i.who with tldPend := false, cursor := {}, pc := (s.thread i.who).pc + 8, given := Option.none,
                                           pmc := (t.thread i.who).pmc } := by
  rw [tldDrop_done h] at ht
  obtain rfl := Host.Outcome.next.inj ht
  exact State.thread_retired s i.who 8 (fun h => { h with tldPend := false, cursor := {} })

/-- Every row of a load whose last row has come has its full length. -/
theorem length_row {l : Loc} {g n len r : Nat} {bs : List Byte} (hb : bs.length = g * n) (hl : len = n) (hr : r ≤ g) :
    (((bs ++ s.readLoc l len).drop (r * n)).take n).length = n := by
  have hroom : r * n ≤ g * n := Nat.mul_le_mul_right n hr
  rw [List.length_take, List.length_drop, List.length_append, length_readLoc, hb, hl]
  omega

/-- Settles O11: the reads that a load sends, the tile that a stream gives it, what holds or refuses it, and the return of its last row. -/
theorem tileLoads : Obligations.TileLoads := by
  unfold Obligations.TileLoads
  refine ⟨fun s i f sc h => ?_, fun s g op f sc prior bs ps hsent honly hhere hloft hatom hready hloads hkind hlong hparts hscan honce hlen hrow hpos hw
    hhalt hstep hfresh => ?_⟩
  · intro w h' load n row pieces at_ read traps
    have hexec : exec load s = tileLoad i f sc s := exec_tileLoad i f sc s
    refine ⟨fun hillegal => hexec.trans (tileLoad_refused h (.inl hillegal)), ?_, ?_, ?_, tldDrop_done h, fun t ht => thread_tldDrop h ht⟩
    · intro x refused open_
      have hopen (ho : open_) (hs : f.src = true) : s.tileTake w f sc ≠ .refuse := by
        obtain ⟨hen, hcount, hsc, hmode⟩ := ho hs
        exact Stream.take_ne_refuse hen hcount hsc hmode _
      refine ⟨fun hlegal hrefused => hexec.trans (tileLoad_refused h (.inr ⟨hrefused.1, Stream.take_refuse hrefused.2⟩)),
        fun hlegal ho hwatch => ⟨fun d hd => ?_, fun hshape hsrc hsc hskew => ?_⟩, fun hlegal ho hshape hskew hr => ?_⟩
      · exact hexec.trans ((tileLoad_faults h hlegal (hopen ho) hwatch).1 d hd)
      · exact hexec.trans ((tileLoad_faults h hlegal (hopen ho) hwatch).2 hshape ((tileSkew_iff hsrc).mpr ⟨hsc, hskew⟩))
      · have hplain : tileSkew h' f sc = false := by
          cases hsrc : f.src with
          | true => exact tileSkew_stream hsrc
          | false => exact (tileSkew_false_iff hsrc).mpr (hskew hsrc)
        exact hexec.trans (((tileLoad_open h hlegal (hopen ho)).2 (tileFaultFirst_none hshape hplain)).1 hr)
    · intro hsrc hlegal hshape hr hskew hps
      obtain ⟨t, ht, hreads, hpc, hloads, hregs, hmem⟩ := tileLoad_memory (at_ := at_) h hsrc hlegal hshape ((tileSkew_false_iff hsrc).mpr hskew) hr hps
      refine ⟨t, hexec.trans ht, ?_, hpc, ?_, hregs, hmem⟩
      · rw [hreads, map_zipIdx_from]
        rfl
      · rw [hloads, tileWaiting, waitParts_zipIdx]
        rfl
    · intro x hsrc hlegal hshape hr hen hcount hsc hmode hrows hfmt hkf t0 hfind hfilled hdefer hlen hwidth
      have htake : s.tileTake w f sc = .tile t0 false := by
        rw [State.tileTake, (Stream.take_local hen hcount hsc hmode _).2 t0 hfind, if_pos hfilled, decide_eq_true ⟨hrows, hfmt, hkf⟩]
        rfl
      have hlocal : x.receives = false := by rw [Stream.receives, hmode]; rfl
      obtain ⟨t, ht, hloads, hpc, hstate, hlines, hfell, hmem⟩ := tileLoad_stream h hsrc hlegal hshape hr htake hlocal hdefer hlen hwidth
      refine ⟨t, hexec.trans ht, hloads, hpc, hstate, fun r hr' => ?_, hfell, hmem⟩
      rw [← hlines r hr', Tile.line]
      cases sc <;> rfl
  · intro w n all bytes
    have hlast : s.LastRow g op f sc prior bs ps :=
      ⟨hsent, honly, ⟨hhere, hloft⟩, hatom, hready, hloads, hkind, hparts, hscan, honce, hlen, hrow, hpos, hw, ⟨hhalt, hstep⟩, hfresh⟩
    refine ⟨fun hsound => ?_, fun hqueue hls hv hi => hlast.faulted hlong hqueue hls hv hi⟩
    obtain ⟨t, ht, hended, hpc, hstate, hlines, hrest, hreads, hmem⟩ := hlast.loaded hsound
    refine ⟨t, ht, hended, hpc, hstate, fun r hr => ⟨?_, ?_⟩, hrest, hreads, hmem⟩
    · change (((t.thread w).tile f.td).line sc r).take n = _
      rw [hlines r hr]
      exact List.take_left' (length_row hlen hrow hr)
    · change (((t.thread w).tile f.td).line sc r).drop n = (((s.thread w).tile f.td).line sc r).drop n
      rw [hlines r hr]
      exact List.drop_left' (length_row hlen hrow hr)

end Sys2Proof.Machine
end
